-- ==== Sys2Proof/Word.lean ====
section
/-!
DEFINITION. Word.lean: the word types of the GZ16K (spec/00 R1, R3; spec/09 R345).
-/
namespace Sys2Proof

/-- A byte of pond memory or of a stream. -/
abbrev Byte := BitVec 8

/-- A 32-bit register of control space or of a core (R3, R345). -/
abbrev Word := BitVec 32

end Sys2Proof
end

