-- ==== Sys2Proof/Syntax.lean ====
section
/-!
DEFINITION. Syntax.lean: the commands of the GZ16K, one constructor per row of the opcode table. The operands
are what the row's command carries: the master and the value of a register access, the port and the bits of a
received frame, the reading of a sensor. A count that an operand reports may be left out where it has a default, which
no meaning rests on. Log entry 5 says how the operands were chosen.
-/
namespace Sys2Proof

/-- Who issues an access to control space (R5, R448, R624, R630, R637). -/
inductive Master where
  /-- core `n`; core 16 is the eft -/
  | core (n : Fin 17)
  /-- a packet of host link `k` under tenant `t` -/
  | link (k : Fin 4) (t : Fin 16)
  /-- the JTAG control-space access -/
  | jtag
  /-- the I²C maintenance target -/
  | i2c
  deriving DecidableEq, Repr

/-- The width of a register access (R4, R5). -/
inductive AccessSize where
  | byte | half | word | dword
  deriving DecidableEq, Repr

/-- The header of a received host link packet (spec/16). -/
structure PktHdr where
  tenant : Fin 16
  rspq : Bool
  nak : Bool
  seq : BitVec 12
  ack : BitVec 12
  deriving DecidableEq, Repr

/-- What marks the phase of a REFIN or PPS_IN candidate (R98). -/
inductive RefMark where
  /-- so many rising edges of a REFIN in CLOCK mode since the command before; the last of them is the one compared -/
  | edges (k : Nat)
  /-- the start of a G.704 frame received on a REFIN in DATA mode -/
  | frame
  /-- an edge of PPS_IN -/
  | pps (rising : Bool)
  deriving DecidableEq, Repr

/-- What the bits of a REFIN in DATA mode have shown of its LOS (R101). -/
inductive RefinBits where
  | nothing
  /-- so many consecutive 0s -/
  | zeros (k : Nat)
  /-- a window of 32 bits, the first received at the left -/
  | window (w : BitVec 32)
  deriving DecidableEq, Repr

/-- What its FAS words have shown of its alignment (R101). -/
inductive RefinFas where
  | nothing
  /-- bits 2 to 8 of timeslot 0 of three successive FAS frames -/
  | fas3 (w0 w1 w2 : BitVec 7)
  /-- of a frame bits 2 to 8 of timeslot 0, of the next bit 2, and of the one after it bits 2 to 8 -/
  | search (w0 : BitVec 7) (bit2 : Bool) (w1 : BitVec 7)
  deriving DecidableEq, Repr

/-- A performance counter: counter `k` of core `n`, or fabric counter `k` (spec/15). -/
inductive PerfCtr where
  | core (n : Fin 17) (k : Fin 4)
  | fab (k : Fin 8)
  deriving DecidableEq, Repr

/-- The commands, in the order of the opcode table. -/
inductive Instr where
  | registerWrite (m : Master) (size : AccessSize) (addr v : Word)
  | rcFieldRead (m : Master) (addr : Word)
  | frameBoundary (din : List (List Bool))
  | secondBoundary
  | commitApply
  | fabCommitFrameWrite (m : Master) (v : Word)
  | fabConnWrite (m : Master) (slot : BitVec 14) (v : Word)
  | fabSelWrite (m : Master) (k : BitVec 10) (v : Word)
  | fabDiscard (m : Master) (v : Word)
  | rowPowerDown (slot : BitVec 14)
  | fabParInject (m : Master) (v : Word)
  | captureArm (m : Master) (v : Word)
  | fabCaptureDone
  | dpllLoopWrite (m : Master) (v : Word)
  | pllEnSet (m : Master) (v : Word)
  | oscSettleEnd (cycles : Nat := 8000)
  | pllLockRise
  | pllEnClear (m : Master) (v : Word)
  | clkEftSrcWrite (m : Master) (v : Word)
  | clkOscFail (quiet : Nat := 16) (edges : Nat := 0)
  | lockLost
  | frcMeasure (hz : BitVec 25)
  | sysTimeLoRead (m : Master)
  | rtcLoRead (m : Master)
  | rtcLoWrite (m : Master) (v : Word)
  | rtcHiWrite (m : Master) (v : Word)
  | dpllUpdate
  | dpllLockDeclare
  | dpllLockLoss
  | markerTimeout (n : Fin 8)
  | freqWindowEnd (n : Fin 8) (offset : BitVec 16)
  | wtrExpire (n : Fin 8)
  | wtrClear (m : Master) (n : Fin 8) (v : Word)
  | refCandCfgWrite (m : Master) (n : Fin 8) (v : Word)
  | histClr (m : Master) (v : Word)
  | losDeclare (p : Fin 128) (zeros : Nat) (noClock : Bool)
  | losClear (p : Fin 128) (clock : Bool) (window : BitVec 32)
  | aisPeriodEnd (p : Fin 128) (zeros : BitVec 10)
  | lineFrameReceived (p : Fin 128) (pos neg : BitVec 256) (phase : BitVec 17)
  | multiframeSearchTimeout (p : Fin 128)
  | nocrc4 (p : Fin 128)
  | lineCntSecRead (m : Master) (p : Fin 128)
  | trunkFrameReceived (t : Fin 4) (bits : BitVec 16384) (phase : BitVec 17)
  | trunkLosDeclare (t : Fin 4) (quiet : Nat) (ppm : BitVec 16)
  | trkCntSecRead (m : Master) (t : Fin 4)
  | audFrameWrite (m : Master) (p : Fin 8) (v : Word)
  | audioUnderrun (p : Fin 8)
  | audioOverrun (p : Fin 8)
  | audioRxBlock (p : Fin 8)
  | audioTxBlockStart (p : Fin 8)
  | hdlcFrameReceived (c : BitVec 8)
  | hdlcFrameTransmit (c : BitVec 8)
  | hdlcEnable (m : Master) (c : BitVec 8) (v : Word)
  | hdlcDisable (m : Master) (c : BitVec 8) (v : Word)
  | pair (n : Fin 17) (w : BitVec 31)
  | gaw (n : Fin 17) (sm : BitVec 4) (operand : BitVec 21)
  | gab (n : Fin 17) (sm : BitVec 4) (operand : BitVec 21)
  | gah (n : Fin 17) (sm : BitVec 4) (operand : BitVec 21)
  | gxw (n : Fin 17) (sm : BitVec 4) (operand : BitVec 21)
  | gyw (n : Fin 17) (sm : BitVec 4) (operand : BitVec 21)
  | paw (n : Fin 17) (sm : BitVec 4) (operand : BitVec 21)
  | pab (n : Fin 17) (sm : BitVec 4) (operand : BitVec 21)
  | pah (n : Fin 17) (sm : BitVec 4) (operand : BitVec 21)
  | pxw (n : Fin 17) (sm : BitVec 4) (operand : BitVec 21)
  | pyw (n : Fin 17) (sm : BitVec 4) (operand : BitVec 21)
  | add (n : Fin 17) (sm : BitVec 4) (operand : BitVec 21)
  | adc (n : Fin 17) (sm : BitVec 4) (operand : BitVec 21)
  | sub (n : Fin 17) (sm : BitVec 4) (operand : BitVec 21)
  | sbc (n : Fin 17) (sm : BitVec 4) (operand : BitVec 21)
  | and (n : Fin 17) (sm : BitVec 4) (operand : BitVec 21)
  | or (n : Fin 17) (sm : BitVec 4) (operand : BitVec 21)
  | xor (n : Fin 17) (sm : BitVec 4) (operand : BitVec 21)
  | cmp (n : Fin 17) (sm : BitVec 4) (operand : BitVec 21)
  | seta (n : Fin 17) (sm : BitVec 4) (operand : BitVec 21)
  | setah (n : Fin 17) (sm : BitVec 4) (operand : BitVec 21)
  | setx (n : Fin 17) (sm : BitVec 4) (operand : BitVec 21)
  | sety (n : Fin 17) (sm : BitVec 4) (operand : BitVec 21)
  | addi (n : Fin 17) (sm : BitVec 4) (operand : BitVec 21)
  | andi (n : Fin 17) (sm : BitVec 4) (operand : BitVec 21)
  | ori (n : Fin 17) (sm : BitVec 4) (operand : BitVec 21)
  | xori (n : Fin 17) (sm : BitVec 4) (operand : BitVec 21)
  | cmpi (n : Fin 17) (sm : BitVec 4) (operand : BitVec 21)
  | shl (n : Fin 17) (sm : BitVec 4) (operand : BitVec 21)
  | shr (n : Fin 17) (sm : BitVec 4) (operand : BitVec 21)
  | sar (n : Fin 17) (sm : BitVec 4) (operand : BitVec 21)
  | rol (n : Fin 17) (sm : BitVec 4) (operand : BitVec 21)
  | jmp (n : Fin 17) (sm : BitVec 4) (operand : BitVec 21)
  | call (n : Fin 17) (sm : BitVec 4) (operand : BitVec 21)
  | bCc (n : Fin 17) (cc : BitVec 4) (operand : BitVec 21)
  | ret (n : Fin 17) (sm : BitVec 4) (operand : BitVec 21)
  | push (n : Fin 17) (sm : BitVec 4) (operand : BitVec 21)
  | pop (n : Fin 17) (sm : BitVec 4) (operand : BitVec 21)
  | nop (n : Fin 17) (sm : BitVec 4) (hi : BitVec 15)
  | mvxa (n : Fin 17) (sm : BitVec 4) (hi : BitVec 15)
  | mvya (n : Fin 17) (sm : BitVec 4) (hi : BitVec 15)
  | mvax (n : Fin 17) (sm : BitVec 4) (hi : BitVec 15)
  | mvay (n : Fin 17) (sm : BitVec 4) (hi : BitVec 15)
  | mvyx (n : Fin 17) (sm : BitVec 4) (hi : BitVec 15)
  | mvxy (n : Fin 17) (sm : BitVec 4) (hi : BitVec 15)
  | mvas (n : Fin 17) (sm : BitVec 4) (hi : BitVec 15)
  | mvsa (n : Fin 17) (sm : BitVec 4) (hi : BitVec 15)
  | mvaf (n : Fin 17) (sm : BitVec 4) (hi : BitVec 15)
  | mvfa (n : Fin 17) (sm : BitVec 4) (hi : BitVec 15)
  | neg (n : Fin 17) (sm : BitVec 4) (hi : BitVec 15)
  | not (n : Fin 17) (sm : BitVec 4) (hi : BitVec 15)
  | clrc (n : Fin 17) (sm : BitVec 4) (hi : BitVec 15)
  | setc (n : Fin 17) (sm : BitVec 4) (hi : BitVec 15)
  | ei (n : Fin 17) (sm : BitVec 4) (hi : BitVec 15)
  | di (n : Fin 17) (sm : BitVec 4) (hi : BitVec 15)
  | mulu (n : Fin 17) (sm : BitVec 4) (hi : BitVec 15)
  | muls (n : Fin 17) (sm : BitVec 4) (hi : BitVec 15)
  | divu (n : Fin 17) (sm : BitVec 4) (hi : BitVec 15)
  | divs (n : Fin 17) (sm : BitVec 4) (hi : BitVec 15)
  | jmpa (n : Fin 17) (sm : BitVec 4) (hi : BitVec 15)
  | calla (n : Fin 17) (sm : BitVec 4) (hi : BitVec 15)
  | reti (n : Fin 17) (sm : BitVec 4) (hi : BitVec 15)
  | wce (n : Fin 17) (sm : BitVec 4) (operand : BitVec 21)
  | wsel (n : Fin 17) (sm : BitVec 4) (operand : BitVec 21)
  | qget (n : Fin 17) (sm : BitVec 4) (operand : BitVec 21)
  | qput (n : Fin 17) (sm : BitVec 4) (operand : BitVec 21)
  | sld (n : Fin 17) (sm : BitVec 4) (operand : BitVec 21)
  | cmt (n : Fin 17) (sm : BitVec 4) (operand : BitVec 21)
  | wev (n : Fin 17) (sm : BitVec 4) (operand : BitVec 21)
  | mrd (n : Fin 17) (sm : BitVec 4) (operand : BitVec 21)
  | mwr (n : Fin 17) (sm : BitVec 4) (operand : BitVec 21)
  | interruptAccept (n : Fin 17)
  | prefetchComplete (n : Fin 17)
  | icacheLoad (m : Master) (n : Fin 17) (v : Word)
  | icacheLoadDone (n : Fin 17)
  | icacheInv (m : Master) (n : Fin 17) (v : Word)
  | coreRestart (m : Master) (n : Fin 17) (v : Word)
  | debugHalt (n : Fin 17)
  | debugStep (n : Fin 17) (w : Word)
  | debugResume (n : Fin 17)
  | eventDelivery
  | aonEventRelease
  | scrubLine
  | bankReady (b : BitVec 4)
  | pondEccInject (m : Master) (v : Word)
  | eccInjectFlip
  | tenantStart (m : Master) (t : Fin 16) (v : Word)
  | tailShedRequest (m : Master) (t : Fin 16) (v : Word)
  | tailShed
  | tenantReturn (m : Master) (t : Fin 16) (v : Word)
  | tenantStop (m : Master) (t : Fin 16) (v : Word)
  | qEnable (m : Master) (q : BitVec 14) (v : Word)
  | qDisable (m : Master) (q : BitVec 14) (v : Word)
  | qsumClear (m : Master) (g : BitVec 6) (w : BitVec 3) (v : Word)
  | tenMbxDoor (m : Master) (t : Fin 16) (v : Word)
  | counterOverflow (c : PerfCtr)
  | overflowHoldEnd (c : PerfCtr)
  | perfCntLoRead (m : Master) (c : PerfCtr)
  | perfCntLoWrite (m : Master) (c : PerfCtr) (v : Word)
  | perfCntHiWrite (m : Master) (c : PerfCtr) (v : Word)
  | perfCtlWrite (m : Master) (c : PerfCtr) (v : Word)
  | pcSampleCapture (n : Fin 17) (k : Fin 4)
  | sampleWrite
  | sbufEnable (m : Master) (n : Fin 17) (v : Word)
  | null (k : Fin 4) (h : PktHdr)
  | qputPacket (k : Fin 4) (h : PktHdr) (payload : List Byte)
  | qread (k : Fin 4) (h : PktHdr) (payload : List Byte)
  | ctlRd (k : Fin 4) (h : PktHdr) (payload : List Byte)
  | ctlWr (k : Fin 4) (h : PktHdr) (payload : List Byte)
  | mbx (k : Fin 4) (h : PktHdr) (payload : List Byte)
  | linkReset (k : Fin 4) (h : PktHdr)
  | hdrErr (k : Fin 4) (bytes : List Byte)
  | crcErr (k : Fin 4) (bytes : List Byte) (frameLen : Nat)
  | badtype (k : Fin 4) (h : PktHdr) (typ : BitVec 4)
  | ackTimeout (k : Fin 4) (quiet : Nat := 10000)
  | replayTimeout (k : Fin 4)
  | pagePartial (k : Fin 4)
  | heldEntryPut (k : Fin 4)
  | csNRise (k : Fin 4) (received : List Byte) (sent : Nat)
  | hlCtlReset (m : Master) (k : Fin 4) (v : Word)
  | i2cWrite (bytes : List Byte)
  | i2cRead (addr : Word)
  | csaAddr (dr : BitVec 33)
  | csaData (v : Word)
  | dbgData (n : Fin 17) (reg : BitVec 5) (write : Option Word)
  | domainPowerUp (m : Master) (v : Word)
  | domainPowerGood (d : Fin 18)
  | padRelease (m : Master) (v : Word)
  | pwrBudgetWrite (m : Master) (t : Fin 16) (v : Word)
  | torporEntry
  | torporWake
  | torporCoreStart
  | brumationEntry
  | brumationWake (src : Fin 10)
  | pwrCmp (k : Fin 4) (mv : Nat) (cycles : Nat)
  | pwrRtcAlarm
  | pwrRtcAlarmLoWrite (m : Master) (v : Word)
  | pwrRtcAlarmHiWrite (m : Master) (v : Word)
  | linkActivity (k : Fin 4)
  | i2cAddressMatch (addr : BitVec 7)
  | por
  | pinReset (cycles : Nat)
  | softReset (m : Master) (v : Word)
  | thermalReset (waited : Nat := 0)
  | resetRelease (i2cA : BitVec 3) (bootHold testMode : Bool) (cycles : Nat := 16000)
  | wdtKick (m : Master) (v : Word)
  | wdtWarn (units : Nat := 4000)
  | wdt (units : Nat := 8000)
  | nvRead (m : Master)
  | nvBlock (m : Master)
  | nvPage (m : Master)
  | nvErase (m : Master)
  | nvMargin (m : Master)
  | xfRead (m : Master)
  | xfBlock (m : Master)
  | xfPage (m : Master)
  | xfErase (m : Master)
  | nvmDone (fault : Option (BitVec 4))
  | xfDiscovery (sfdp : List Byte)
  | imageCheck (m : Master) (v : Word)
  | updDone
  | updKeyprog (m : Master) (v : Word)
  | updRevoke (m : Master) (v : Word)
  | keyDone
  | panelEnable (m : Master) (v : Word)
  | panelDisable (m : Master) (v : Word)
  | panelScanStart
  | panelRowPeriod (cycles : Nat := 0)
  | pnlDescSubmit (m : Master) (k : Fin 4) (v : Word)
  | pnlDescStart (k : Fin 4)
  | panelEngineAccess
  | controlTick
  | thConversion (n : Fin 8) (raw : BitVec 12)
  | dieConversion (code : BitVec 12)
  | thermalRelease
  | fanModeWrite (m : Master) (k : Fin 4) (v : Word)
  | alignEnd (k : Fin 4)
  | rampTimeout (k : Fin 4)
  | rampPauseEnd (k : Fin 4)
  | bemfZeroCrossing (k : Fin 4) (interval : Nat) (at_ : Nat)
  | commutationTimeout (k : Fin 4) (quiet : Nat := 0)
  | stallRetry (k : Fin 4)
  | kickEnd (k : Fin 4)
  | tachEdge (k : Fin 4) (period : Nat)
  | tachTimeout (k : Fin 4)
  | ageStart (m : Master) (k : Fin 4) (v : Word)
  | ageDone (k : Fin 4)
  | ageTimeout (k : Fin 4)
  | trunkLosClear (t : Fin 4) (ppm : BitVec 16) (quiet : Nat)
  | phaseMarker (n : Fin 8) (mark : RefMark) (err : BitVec 17 := 0)
  | refinDefect (n : Fin 8) (bits : RefinBits) (fas : RefinFas)
  | domainPowerDown (m : Master) (v : Word)
  | illegalOp (n : Fin 17) (w : Word)
  deriving DecidableEq, Repr

end Sys2Proof
end

