-- ==== Sys2Proof/Config.lean ====
section
/-!
DEFINITION. Config.lean: what an implementation fixes and the manual leaves open: the free values. Each is an
uninterpreted constant, applied to the counter `State.freeCtr` or, for what a port transmits, to a number made of the
port and the frame (log entry 3); nothing proves a value of one.
-/
namespace Sys2Proof

/-- A free number: a value that the manual bounds but does not give, or leaves arbitrary. -/
opaque Config.freeNat : Nat → Nat

/-- A free number that shapes an output. It is applied to the place and the frame that need it, and to nothing that
the timing of hosts moves (R54). -/
opaque Config.outNat : Nat → Nat

/-- A free byte of an output, applied likewise. -/
opaque Config.outByte : Nat → Byte

/-- A free register value. -/
opaque Config.freeWord : Nat → Word

/-- A free byte. -/
opaque Config.freeByte : Nat → Byte

end Sys2Proof
end

