-- ==== Sys2Proof/Machine/Tab.lean ====
section
/-!
DEFINITION. Machine/Tab.lean: sparse tables in one canonical form. A table lists (key, value) pairs with
strictly rising keys, and lists no value equal to what an unlisted key reads as, so equal tables are
equal data.
-/
namespace Sys2Proof.Machine

/-- A sparse table over natural-number keys. -/
abbrev Tab (α : Type) := List (Nat × α)

/-- The value at a key; `d` gives what an unlisted key reads as. -/
def tabGet {α : Type} (d : Nat → α) : Tab α → Nat → α
  | [], k => d k
  | (k', v) :: t, k => if k = k' then v else tabGet d t k

/-- Drop a key. -/
def tabDel {α : Type} (t : Tab α) (k : Nat) : Tab α :=
  t.filter fun p => decide (p.1 ≠ k)

/-- Insert a pair in key order, replacing an older value of the key. -/
def tabIns {α : Type} (k : Nat) (v : α) : Tab α → Tab α
  | [] => [(k, v)]
  | (k', v') :: t =>
    if k < k' then (k, v) :: (k', v') :: t
    else if k = k' then (k, v) :: t
    else (k', v') :: tabIns k v t

/-- Write a key; a value equal to the unlisted reading is not listed. -/
def tabPut {α : Type} [DecidableEq α] (d : Nat → α) (t : Tab α) (k : Nat) (v : α) : Tab α :=
  if v = d k then tabDel t k else tabIns k v t

/-- The keys rise strictly and every key is above `lo`. -/
def tabRising {α : Type} (lo : Nat) : Tab α → Bool
  | [] => true
  | (k, _) :: t => decide (lo ≤ k) && tabRising (k + 1) t

/-- The canonical form. -/
def tabWf {α : Type} [DecidableEq α] (d : Nat → α) (t : Tab α) : Bool :=
  tabRising 0 t && t.all fun p => decide (p.2 ≠ d p.1)

end Sys2Proof.Machine
end

