-- ==== Sys2Proof/Machine/RegMap.lean ====
section
/-!
DEFINITION. Machine/RegMap.lean: the registers of control space, as the register maps and the field tables of
spec/02 to spec/21 and spec/23 give them: where each register stands (R837), which domain keeps it, who may
write it, which commit scope shadows it, and its fields with their access codes (R8) and reset values (R14).
-/
namespace Sys2Proof.Machine

/-- The access codes of R8. -/
inductive Acc where
  | ro | rw | w1c | wo | rc
  deriving DecidableEq, Repr

/-- The commit scopes of R29, in the order of their bits. -/
inductive Scope where
  | conn | sel | line | trunk | start | pwr
  deriving DecidableEq, Repr

/-- The power domain that keeps a register (R647, R837). `core`: the newt cluster, or the eft domain for the
eft's registers; `seg`: a segment table, in the AON domain for T0 and in the fabric domain otherwise (R505);
`apf`: the audio, panel and fans domain. -/
inductive Dom where
  | aon | fab | core | seg | apf
  deriving DecidableEq, Repr

/-- Who may write a register. `t0`: only T0. `any`: any tenant, checked by the register itself. `active`: nobody
(R848). The others: T0 and the owner of the slot, selector, line port, trunk, audio port, HDLC channel, core or
queue; `tenctl`: T0, and the tenant itself for SHED (R503); `budget`: R661. -/
inductive Writer where
  | t0 | any | active | slot | sel | line | trk | aud | hdlc | core | queue | tenctl | budget
  deriving DecidableEq, Repr

/-- One field of a register table. -/
structure Fld where
  lo : Nat
  w : Nat
  acc : Acc
  reset : Nat
  deriving DecidableEq, Repr

/-- Every register of control space, under the manual's name without its index letters. -/
inductive RegKind where
  | CLK_ROOT_CTL | CLK_ROOT_STATUS | CLK_EFT_SRC | CLK_STEER | CLK_FRC_MEAS | SYS_TIME_LO | SYS_TIME_HI
  | FRAME_COUNT | RTC_LO | RTC_HI | TIME_RESUME_FRAME | TIME_RESUME_RTC_LO | TIME_RESUME_RTC_HI | REF_SEL_CTL
  | REF_SEL_STATUS | REF_INPUT_CTL | DPLL_LOOP | DPLL_STATUS | DPLL_PHASE | DPLL_LOCK_CTL | DPLL_HOLD_CTL
  | DPLL_HOLD_VALUE | DPLL_FREERUN_CAL | DPLL_HIST_HEAD | REF_TABLE_PRIO | REF_TABLE_CTL | REF_CAND_CFG
  | REF_CAND_WTR | REF_CAND_STATUS | REF_CAND_FREQ | DPLL_HIST | FAB_CONN | FAB_CONN_ACT | FAB_SEL
  | FAB_SEL_ACT | FAB_COMMIT_SCOPE | FAB_COMMIT_FRAME | FAB_DISCARD | FAB_GATE_CTL | FAB_GATE_STATUS
  | FAB_PAR_STATUS | FAB_PAR_COUNT | FAB_PAR_INJECT | FAB_CAPTURE_CTL | FAB_CAPTURE_DATA | FAB_TONE_CTL
  | FAB_PAT_CTL | FAB_PAT_ERR | FAB_CMT_APPLIED_FRAME | FAB_CMT_APPLIED_INFO | FAB_CMT_REJ_FRAME
  | FAB_CMT_REJ_INFO | FAB_TONE_RAM | LINE_CTL | LINE_RX_CFG | LINE_TX_SA | LINE_TX_E | LINE_STATUS
  | LINE_RX_SA | LINE_RX_PHASE | LINE_E_DEBIT | LINE_CNT_SEC | LINE_CNT_FAS_CRC | LINE_CNT_EBIT_CV
  | LINE_CNT_SLIP_RAI | LINE_CNT_LOS_LOF | LINE_CNT_AIS_SAT | TRK_CTL | TRK_RX_CFG | TRK_TX_OH | TRK_TX_REI
  | TRK_STATUS | TRK_RX_OH | TRK_RX_PHASE | TRK_PAIR_STATUS | TRK_REI_DEBIT | TRK_OWNER | TRK_CNT_SEC
  | TRK_CNT_BIP | TRK_CNT_REI | TRK_CNT_FAW_SD | TRK_CNT_LOS_LOF | TRK_CNT_LOMF_SLIP | TRK_CNT_SAT
  | TRK_TX_TRACE | TRK_EXP_TRACE | TRK_RX_TRACE | AUD_CTL | AUD_CFG | AUD_FRAME | AUD_QUEUE | AUD_MARK
  | AUD_STATUS | AUD_UNDER_CNT | AUD_OVER_CNT | AUD_TX_LAST_TAG | AUD_TX_LAST_TIME_LO | AUD_TX_LAST_TIME_HI
  | AUD_OWNER | AUD_CHMAP | HDLC_CH_CFG | HDLC_CH_LIMITS | HDLC_CH_QUEUE | HDLC_CH_STATUS
  | HDLC_CNT_RX_FRAMES | HDLC_CNT_TX_FRAMES | HDLC_CNT_FCS_ABORT | HDLC_CNT_SHORT_LONG | HDLC_CNT_ALIGN_NOBUF
  | HDLC_CNT_TXERR | HDLC_CH_OWNER | Q_BASE | Q_CFG | Q_WM | Q_HEAD | Q_TAIL | Q_FILL | Q_DROP | Q_STAT
  | TEN_EVT_MASK | CORE_EVT_EN | CORE_EVT_PEND | EVR_MERGED | QSUM | TEN_CTL | TEN_STATUS | TEN_CORES
  | TEN_QRANGE | TEN_LINKS | TEN_MBX | TEN_MBX_INFO | TEN_MBX_DOOR | TEN_MBX_ALLOW | TEN_SHED_FRAME
  | TEN_SHED_CAUSE | TEN_SEG_W0 | TEN_SEG_W1 | TEN_SEL_OWN | TEN_SLOT_OWN | CORE_CTL | CORE_STATUS
  | CORE_START | CORE_FAULT_INFO | CORE_FAULT_PC | CORE_FAULT_ADDR | CORE_FAULT_FRAME | CORE_ICACHE_CTL
  | CORE_ICACHE_LOAD_BASE | CORE_ICACHE_LOAD | PERF_GLOBAL | PERF_STATUS | PERF_SBUF_BASE | PERF_SBUF_CFG
  | PERF_SBUF_WR | PERF_SBUF_RD | PERF_SBUF_LOST | CORE_IRQ_SRC | CORE_MBX_RX | CORE_MBX_TX | CORE_MBX_FRAME
  | PERF_CTL | PERF_CNT_LO | PERF_CNT_HI | FPERF_CTL | FPERF_CNT_LO | FPERF_CNT_HI | FPERF_GLOBAL
  | FPERF_STATUS | PWR_CTL | PWR_STATUS | PWR_DOM_CTL | PWR_DOM_STATUS | PWR_PAD_HOLD | PWR_PAD_REL
  | PWR_WAKE_EN | PWR_WAKE_CAUSE | PWR_WAKE_RTC_LO | PWR_WAKE_RTC_HI | PWR_CMP_STATUS | PWR_RTC_ALARM_LO
  | PWR_RTC_ALARM_HI | PWR_RUN | PWR_CMP | PWR_BUDGET | POND_BANK_RUN | POND_BANK_TORPOR | POND_BANK_BRUM
  | POND_BANK_STATUS | POND_SCRUB_CTL | POND_SCRUB_STATUS | POND_ECC_CE_COUNT | POND_ECC_UE_COUNT
  | POND_ECC_UE_ADDR | POND_ECC_UE_INFO | POND_ECC_INJECT | POND_SCHED | PNL_CTL | PNL_GEOM | PNL_TIMING
  | PNL_DRIVE | PNL_STATUS | PNL_SCAN_COUNT | PNL_DESC_SRC | PNL_DESC_RECT | PNL_DESC_CTL | PNL_DESC_STATUS
  | PNL_OD | PNL_RAM | TH_STATUS | TH_DIE | TH_CFG | TH_LIMITS | TH_TEMP | TH_LIN | TH_LIN8 | FAN_MODE | FAN_CTL
  | FAN_DRIVE | FAN_BLDC | FAN_BLDC_RAMP | FAN_TACH | FAN_STATUS | FAN_SPEED | FAN_AGE_CTL | FAN_AGE
  | FAN_AGE_REF | FAN_AGE_LIM | FAN_STALLS | FAN_TAB | HL_CFG | HL_CTL | HL_SEQ | HL_STATUS | HL_CNT_HDR_CRC
  | HL_CNT_FRM_GAP | HL_CNT_DUP_BOUND | HL_CNT_PARTIAL | I2C_CFG | I2C_STATUS | NVM_CTL | NVM_CMD | NVM_ADDR
  | NVM_POND | NVM_LEN | NVM_CRC_IN | NVM_CRC_OUT | NVM_STATUS | NVM_JNEXT | NVM_JSEQ | XF_CTL | XF_STATUS
  | UPD_CMD | UPD_MAN | UPD_PAY | UPD_STATUS | UPD_REPORT | UPD_KEY_STATE | UPD_KEYPROG | UPD_REVOKE
  | UPD_KEY_DATA | UPD_TKEY | ID_VENDOR | ID_PART | ID_REV | ID_JTAG | ID_FUSE | ID_UNIQUE | RST_CAUSE
  | RST_CTL | WDT_CTL | WDT_KICK | BOOT_STATUS | STRAP_STATUS
  deriving DecidableEq, Repr

/-- Where a register stands and what holds for it: `base + i * s1 + j * s2` for `i < n1`, `j < n2`; the active
view of a shadowed register lies `act` above its shadow view. -/
structure RegInfo where
  base : Nat
  s1 : Nat
  n1 : Nat
  s2 : Nat
  n2 : Nat
  act : Option Nat
  scope : Option Scope
  dom : Dom
  wr : Writer
  flds : List Fld
  deriving DecidableEq, Repr

/-- The register maps, row by row. -/
def RegKind.info : RegKind → RegInfo
  -- spec/02_clocks_and_time.md
  | .CLK_ROOT_CTL => ⟨0x011F0000, 0x4, 1, 0x4, 1, none, none, .aon, .t0,
      [⟨0, 1, .rw, 0⟩, ⟨1, 1, .rw, 0⟩, ⟨16, 16, .rw, 0x1f40⟩]⟩
  | .CLK_ROOT_STATUS => ⟨0x011F0004, 0x4, 1, 0x4, 1, none, none, .aon, .t0,
      [⟨0, 1, .ro, 0⟩, ⟨1, 1, .ro, 0⟩, ⟨2, 1, .ro, 0⟩, ⟨3, 1, .w1c, 0⟩, ⟨4, 1, .w1c, 0⟩]⟩
  | .CLK_EFT_SRC => ⟨0x011F0008, 0x4, 1, 0x4, 1, none, none, .aon, .t0,
      [⟨0, 1, .rw, 0⟩, ⟨1, 1, .ro, 0⟩, ⟨2, 1, .w1c, 0⟩]⟩
  | .CLK_STEER => ⟨0x011F000C, 0x4, 1, 0x4, 1, none, none, .aon, .any,
      [⟨0, 24, .ro, 0⟩]⟩
  | .CLK_FRC_MEAS => ⟨0x011F0010, 0x4, 1, 0x4, 1, none, none, .aon, .any,
      [⟨0, 25, .ro, 0⟩]⟩
  | .SYS_TIME_LO => ⟨0x011F0020, 0x4, 1, 0x4, 1, none, none, .aon, .any,
      [⟨0, 32, .ro, 0⟩]⟩
  | .SYS_TIME_HI => ⟨0x011F0024, 0x4, 1, 0x4, 1, none, none, .aon, .any,
      [⟨0, 32, .ro, 0⟩]⟩
  | .FRAME_COUNT => ⟨0x011F0028, 0x4, 1, 0x4, 1, none, none, .aon, .any,
      [⟨0, 32, .ro, 0⟩]⟩
  | .RTC_LO => ⟨0x011F0030, 0x4, 1, 0x4, 1, none, none, .aon, .t0,
      [⟨0, 32, .rw, 0⟩]⟩
  | .RTC_HI => ⟨0x011F0034, 0x4, 1, 0x4, 1, none, none, .aon, .t0,
      [⟨0, 16, .rw, 0⟩]⟩
  | .TIME_RESUME_FRAME => ⟨0x011F0038, 0x4, 1, 0x4, 1, none, none, .aon, .any,
      [⟨0, 32, .ro, 0⟩]⟩
  | .TIME_RESUME_RTC_LO => ⟨0x011F003C, 0x4, 1, 0x4, 1, none, none, .aon, .any,
      [⟨0, 32, .ro, 0⟩]⟩
  | .TIME_RESUME_RTC_HI => ⟨0x011F0040, 0x4, 1, 0x4, 1, none, none, .aon, .any,
      [⟨0, 16, .ro, 0⟩]⟩
  -- spec/03_reference_selection.md
  | .REF_SEL_CTL => ⟨0x011F0100, 0x4, 1, 0x4, 1, none, none, .aon, .t0,
      [⟨0, 2, .rw, 0⟩, ⟨4, 3, .rw, 0⟩, ⟨8, 1, .rw, 0⟩]⟩
  | .REF_SEL_STATUS => ⟨0x011F0104, 0x4, 1, 0x4, 1, none, none, .aon, .t0,
      [⟨0, 3, .ro, 0⟩, ⟨3, 1, .ro, 0⟩, ⟨4, 4, .ro, 0⟩, ⟨8, 9, .ro, 0⟩]⟩
  | .REF_INPUT_CTL => ⟨0x011F0108, 0x4, 1, 0x4, 1, none, none, .aon, .t0,
      [⟨0, 1, .rw, 0⟩, ⟨1, 1, .rw, 0⟩, ⟨2, 1, .rw, 0⟩]⟩
  | .DPLL_LOOP => ⟨0x011F01C0, 0x4, 1, 0x4, 1, none, none, .aon, .t0,
      [⟨0, 2, .rw, 1⟩, ⟨4, 5, .rw, 16⟩, ⟨12, 6, .rw, 24⟩]⟩
  | .DPLL_STATUS => ⟨0x011F01C4, 0x4, 1, 0x4, 1, none, none, .aon, .t0,
      [⟨0, 2, .ro, 0⟩, ⟨2, 1, .ro, 0⟩, ⟨3, 1, .ro, 0⟩, ⟨4, 2, .ro, 1⟩]⟩
  | .DPLL_PHASE => ⟨0x011F01C8, 0x4, 1, 0x4, 1, none, none, .aon, .t0,
      [⟨0, 17, .ro, 0⟩]⟩
  | .DPLL_LOCK_CTL => ⟨0x011F01CC, 0x4, 1, 0x4, 1, none, none, .aon, .t0,
      [⟨0, 10, .rw, 100⟩]⟩
  | .DPLL_HOLD_CTL => ⟨0x011F01D0, 0x4, 1, 0x4, 1, none, none, .aon, .t0,
      [⟨0, 7, .rw, 64⟩, ⟨8, 6, .rw, 8⟩, ⟨31, 1, .wo, 0⟩]⟩
  | .DPLL_HOLD_VALUE => ⟨0x011F01D4, 0x4, 1, 0x4, 1, none, none, .aon, .t0,
      [⟨0, 24, .ro, 0⟩, ⟨24, 2, .ro, 0⟩]⟩
  | .DPLL_FREERUN_CAL => ⟨0x011F01D8, 0x4, 1, 0x4, 1, none, none, .aon, .t0,
      [⟨0, 24, .rw, 0⟩]⟩
  | .DPLL_HIST_HEAD => ⟨0x011F01DC, 0x4, 1, 0x4, 1, none, none, .aon, .t0,
      [⟨0, 7, .ro, 0⟩, ⟨8, 8, .ro, 0⟩, ⟨16, 8, .ro, 0⟩]⟩
  | .REF_TABLE_PRIO => ⟨0x011F0110, 0x8, 2, 0x4, 1, none, none, .aon, .t0,
      [⟨0, 4, .rw, 0⟩, ⟨4, 4, .rw, 0⟩, ⟨8, 4, .rw, 0⟩, ⟨12, 4, .rw, 0⟩, ⟨16, 4, .rw, 0⟩, ⟨20, 4, .rw, 0⟩, ⟨24, 4, .rw, 0⟩, ⟨28, 4, .rw, 0⟩]⟩
  | .REF_TABLE_CTL => ⟨0x011F0114, 0x8, 2, 0x4, 1, none, none, .aon, .t0,
      [⟨0, 1, .rw, 0⟩, ⟨1, 1, .rw, 0⟩, ⟨4, 4, .rw, 11⟩]⟩
  | .REF_CAND_CFG => ⟨0x011F0140, 0x10, 8, 0x4, 1, none, none, .aon, .t0,
      [⟨0, 1, .rw, 0⟩, ⟨1, 3, .rw, 0⟩, ⟨4, 7, .rw, 0⟩, ⟨11, 3, .rw, 0⟩, ⟨14, 1, .rw, 0⟩, ⟨16, 4, .rw, 15⟩, ⟨24, 8, .rw, 100⟩]⟩
  | .REF_CAND_WTR => ⟨0x011F0144, 0x10, 8, 0x4, 1, none, none, .aon, .t0,
      [⟨0, 12, .rw, 0x12c⟩, ⟨31, 1, .wo, 0⟩]⟩
  | .REF_CAND_STATUS => ⟨0x011F0148, 0x10, 8, 0x4, 1, none, none, .aon, .t0,
      [⟨0, 1, .ro, 0⟩, ⟨1, 1, .ro, 0⟩, ⟨2, 1, .ro, 0⟩, ⟨3, 1, .ro, 0⟩, ⟨4, 1, .ro, 0⟩, ⟨5, 1, .ro, 1⟩, ⟨6, 1, .ro, 0⟩, ⟨7, 1, .ro, 1⟩, ⟨8, 4, .ro, 0⟩, ⟨16, 12, .ro, 0⟩]⟩
  | .REF_CAND_FREQ => ⟨0x011F014C, 0x10, 8, 0x4, 1, none, none, .aon, .t0,
      [⟨0, 16, .ro, 0⟩, ⟨16, 1, .ro, 0⟩]⟩
  | .DPLL_HIST => ⟨0x011F0200, 0x4, 128, 0x4, 1, none, none, .aon, .t0,
      [⟨0, 24, .ro, 0⟩, ⟨31, 1, .ro, 0⟩]⟩
  -- spec/04_cross_connect_fabric.md
  | .FAB_CONN => ⟨0x01000000, 0x4, 16384, 0x4, 1, none, none, .fab, .slot,
      [⟨0, 14, .rw, 0⟩, ⟨14, 2, .rw, 0⟩, ⟨16, 10, .rw, 255⟩, ⟨31, 1, .ro, 0⟩]⟩
  | .FAB_CONN_ACT => ⟨0x01010000, 0x4, 16384, 0x4, 1, none, none, .fab, .active,
      [⟨0, 32, .ro, 0xff0000⟩]⟩
  | .FAB_SEL => ⟨0x01020000, 0x4, 1024, 0x4, 1, none, none, .fab, .sel,
      [⟨0, 14, .rw, 0⟩, ⟨14, 14, .rw, 0⟩, ⟨28, 1, .rw, 0⟩, ⟨31, 1, .ro, 0⟩]⟩
  | .FAB_SEL_ACT => ⟨0x01021000, 0x4, 1024, 0x4, 1, none, none, .fab, .active,
      [⟨0, 32, .ro, 0⟩]⟩
  | .FAB_COMMIT_SCOPE => ⟨0x01030000, 0x4, 1, 0x4, 1, none, none, .fab, .any,
      [⟨0, 6, .rw, 0⟩]⟩
  | .FAB_COMMIT_FRAME => ⟨0x01030004, 0x4, 1, 0x4, 1, none, none, .fab, .any,
      [⟨0, 32, .wo, 0⟩]⟩
  | .FAB_DISCARD => ⟨0x01030008, 0x4, 1, 0x4, 1, none, none, .fab, .any,
      [⟨0, 1, .wo, 0⟩, ⟨1, 1, .wo, 0⟩]⟩
  | .FAB_GATE_CTL => ⟨0x01030010, 0x4, 1, 0x4, 1, none, some .pwr, .fab, .t0,
      [⟨0, 1, .rw, 0⟩]⟩
  | .FAB_GATE_STATUS => ⟨0x01030014, 0x4, 1, 0x4, 1, none, none, .fab, .any,
      [⟨0, 15, .ro, 0⟩]⟩
  | .FAB_PAR_STATUS => ⟨0x01030020, 0x4, 1, 0x4, 1, none, none, .fab, .t0,
      [⟨0, 14, .ro, 0⟩, ⟨16, 1, .w1c, 0⟩, ⟨17, 1, .w1c, 0⟩, ⟨18, 1, .w1c, 0⟩]⟩
  | .FAB_PAR_COUNT => ⟨0x01030024, 0x4, 1, 0x4, 1, none, none, .fab, .any,
      [⟨0, 16, .rc, 0⟩]⟩
  | .FAB_PAR_INJECT => ⟨0x01030028, 0x4, 1, 0x4, 1, none, none, .fab, .t0,
      [⟨0, 14, .wo, 0⟩, ⟨30, 1, .wo, 0⟩, ⟨31, 1, .wo, 0⟩]⟩
  | .FAB_CAPTURE_CTL => ⟨0x01030030, 0x4, 1, 0x4, 1, none, none, .fab, .t0,
      [⟨0, 14, .rw, 0⟩, ⟨31, 1, .rw, 0⟩]⟩
  | .FAB_CAPTURE_DATA => ⟨0x01030034, 0x4, 2, 0x4, 1, none, none, .fab, .any,
      [⟨0, 32, .ro, 0⟩]⟩
  | .FAB_TONE_CTL => ⟨0x01030100, 0x4, 16, 0x4, 1, none, none, .fab, .t0,
      [⟨0, 8, .rw, 0⟩, ⟨31, 1, .rw, 0⟩]⟩
  | .FAB_PAT_CTL => ⟨0x01030200, 0x8, 16, 0x4, 1, none, none, .fab, .t0,
      [⟨0, 2, .rw, 0⟩, ⟨8, 1, .ro, 0⟩, ⟨9, 1, .w1c, 0⟩]⟩
  | .FAB_PAT_ERR => ⟨0x01030204, 0x8, 16, 0x4, 1, none, none, .fab, .t0,
      [⟨0, 32, .rc, 0⟩]⟩
  | .FAB_CMT_APPLIED_FRAME => ⟨0x01030400, 0x10, 16, 0x4, 1, none, none, .fab, .any,
      [⟨0, 32, .ro, 0⟩]⟩
  | .FAB_CMT_APPLIED_INFO => ⟨0x01030404, 0x10, 16, 0x4, 1, none, none, .fab, .any,
      [⟨0, 6, .ro, 0⟩, ⟨16, 7, .ro, 0⟩]⟩
  | .FAB_CMT_REJ_FRAME => ⟨0x01030408, 0x10, 16, 0x4, 1, none, none, .fab, .any,
      [⟨0, 32, .ro, 0⟩]⟩
  | .FAB_CMT_REJ_INFO => ⟨0x0103040C, 0x10, 16, 0x4, 1, none, none, .fab, .any,
      [⟨0, 6, .ro, 0⟩, ⟨8, 3, .ro, 0⟩]⟩
  | .FAB_TONE_RAM => ⟨0x01031000, 0x4, 1024, 0x4, 1, none, none, .fab, .t0,
      [⟨0, 32, .rw, 0xffffffff⟩]⟩
  -- spec/05_e1_line_ports.md
  | .LINE_CTL => ⟨0x01100000, 0x400, 128, 0x4, 1, some 0x100, some .line, .fab, .line,
      [⟨0, 1, .rw, 0⟩, ⟨1, 1, .rw, 0⟩, ⟨2, 1, .rw, 0⟩, ⟨3, 2, .rw, 0⟩, ⟨5, 1, .rw, 0⟩, ⟨6, 1, .rw, 0⟩, ⟨7, 2, .rw, 0⟩, ⟨9, 1, .rw, 0⟩, ⟨10, 1, .rw, 0⟩]⟩
  | .LINE_RX_CFG => ⟨0x01100004, 0x400, 128, 0x4, 1, none, none, .fab, .line,
      [⟨0, 8, .rw, 32⟩, ⟨8, 8, .rw, 0⟩, ⟨16, 5, .rw, 0⟩]⟩
  | .LINE_TX_SA => ⟨0x01100008, 0x400, 128, 0x4, 1, some 0x100, some .line, .fab, .line,
      [⟨0, 1, .rw, 0⟩, ⟨1, 5, .rw, 31⟩, ⟨6, 3, .rw, 7⟩, ⟨9, 4, .rw, 15⟩, ⟨13, 1, .rw, 1⟩, ⟨14, 1, .rw, 1⟩]⟩
  | .LINE_TX_E => ⟨0x0110000C, 0x400, 128, 0x4, 1, some 0x100, some .line, .fab, .line,
      [⟨0, 10, .rw, 0⟩]⟩
  | .LINE_STATUS => ⟨0x01100010, 0x400, 128, 0x4, 1, none, none, .fab, .line,
      [⟨0, 1, .ro, 0⟩, ⟨1, 1, .ro, 0⟩, ⟨2, 1, .ro, 0⟩, ⟨3, 1, .ro, 0⟩, ⟨4, 1, .ro, 0⟩, ⟨5, 1, .ro, 0⟩, ⟨8, 6, .w1c, 0⟩]⟩
  | .LINE_RX_SA => ⟨0x01100014, 0x400, 128, 0x4, 1, none, none, .fab, .line,
      [⟨0, 20, .ro, 0⟩, ⟨20, 5, .ro, 0⟩, ⟨25, 1, .ro, 0⟩]⟩
  | .LINE_RX_PHASE => ⟨0x01100018, 0x400, 128, 0x4, 1, none, none, .fab, .line,
      [⟨0, 4, .ro, 0⟩, ⟨8, 10, .ro, 0⟩]⟩
  | .LINE_E_DEBIT => ⟨0x0110001C, 0x400, 128, 0x4, 1, none, none, .fab, .line,
      [⟨0, 10, .ro, 0⟩]⟩
  | .LINE_CNT_SEC => ⟨0x01100040, 0x400, 128, 0x4, 1, none, none, .fab, .line,
      [⟨0, 32, .ro, 0⟩]⟩
  | .LINE_CNT_FAS_CRC => ⟨0x01100044, 0x400, 128, 0x4, 1, none, none, .fab, .line,
      [⟨0, 16, .ro, 0⟩, ⟨16, 16, .ro, 0⟩]⟩
  | .LINE_CNT_EBIT_CV => ⟨0x01100048, 0x400, 128, 0x4, 1, none, none, .fab, .line,
      [⟨0, 16, .ro, 0⟩, ⟨16, 16, .ro, 0⟩]⟩
  | .LINE_CNT_SLIP_RAI => ⟨0x0110004C, 0x400, 128, 0x4, 1, none, none, .fab, .line,
      [⟨0, 8, .ro, 0⟩, ⟨8, 8, .ro, 0⟩, ⟨16, 16, .ro, 0⟩]⟩
  | .LINE_CNT_LOS_LOF => ⟨0x01100050, 0x400, 128, 0x4, 1, none, none, .fab, .line,
      [⟨0, 16, .ro, 0⟩, ⟨16, 16, .ro, 0⟩]⟩
  | .LINE_CNT_AIS_SAT => ⟨0x01100054, 0x400, 128, 0x4, 1, none, none, .fab, .line,
      [⟨0, 16, .ro, 0⟩, ⟨16, 10, .ro, 0⟩]⟩
  -- spec/06_trunk_links.md
  | .TRK_CTL => ⟨0x01120000, 0x1000, 4, 0x4, 1, some 0x100, some .trunk, .fab, .trk,
      [⟨0, 1, .rw, 0⟩, ⟨1, 1, .rw, 0⟩, ⟨2, 2, .rw, 0⟩]⟩
  | .TRK_RX_CFG => ⟨0x01120004, 0x1000, 4, 0x4, 1, none, none, .fab, .trk,
      [⟨0, 16, .rw, 0⟩, ⟨16, 1, .rw, 0⟩]⟩
  | .TRK_TX_OH => ⟨0x01120008, 0x1000, 4, 0x4, 1, some 0x100, some .trunk, .fab, .trk,
      [⟨0, 4, .rw, 15⟩, ⟨8, 8, .rw, 0⟩, ⟨16, 8, .rw, 0⟩]⟩
  | .TRK_TX_REI => ⟨0x0112000C, 0x1000, 4, 0x4, 1, some 0x100, some .trunk, .fab, .trk,
      [⟨0, 16, .rw, 0⟩]⟩
  | .TRK_STATUS => ⟨0x01120030, 0x1000, 4, 0x4, 1, none, none, .fab, .trk,
      [⟨0, 6, .ro, 0⟩, ⟨8, 6, .w1c, 0⟩]⟩
  | .TRK_RX_OH => ⟨0x01120034, 0x1000, 4, 0x4, 1, none, none, .fab, .trk,
      [⟨0, 4, .ro, 0⟩, ⟨8, 8, .ro, 0⟩, ⟨16, 8, .ro, 0⟩, ⟨24, 8, .ro, 0⟩]⟩
  | .TRK_RX_PHASE => ⟨0x01120038, 0x1000, 4, 0x4, 1, none, none, .fab, .trk,
      [⟨0, 4, .ro, 0⟩, ⟨8, 5, .ro, 0⟩]⟩
  | .TRK_PAIR_STATUS => ⟨0x0112003C, 0x1000, 4, 0x4, 1, none, none, .fab, .trk,
      [⟨0, 1, .ro, 0⟩, ⟨1, 1, .ro, 0⟩, ⟨8, 5, .ro, 0⟩, ⟨16, 3, .ro, 0⟩]⟩
  | .TRK_REI_DEBIT => ⟨0x01120050, 0x1000, 4, 0x4, 1, none, none, .fab, .trk,
      [⟨0, 16, .ro, 0⟩]⟩
  | .TRK_OWNER => ⟨0x01120060, 0x1000, 4, 0x4, 1, none, none, .fab, .t0,
      [⟨0, 4, .rw, 0⟩]⟩
  | .TRK_CNT_SEC => ⟨0x01120080, 0x1000, 4, 0x4, 1, none, none, .fab, .trk,
      [⟨0, 32, .ro, 0⟩]⟩
  | .TRK_CNT_BIP => ⟨0x01120084, 0x1000, 4, 0x4, 1, none, none, .fab, .trk,
      [⟨0, 32, .ro, 0⟩]⟩
  | .TRK_CNT_REI => ⟨0x01120088, 0x1000, 4, 0x4, 1, none, none, .fab, .trk,
      [⟨0, 32, .ro, 0⟩]⟩
  | .TRK_CNT_FAW_SD => ⟨0x0112008C, 0x1000, 4, 0x4, 1, none, none, .fab, .trk,
      [⟨0, 16, .ro, 0⟩, ⟨16, 16, .ro, 0⟩]⟩
  | .TRK_CNT_LOS_LOF => ⟨0x01120090, 0x1000, 4, 0x4, 1, none, none, .fab, .trk,
      [⟨0, 16, .ro, 0⟩, ⟨16, 16, .ro, 0⟩]⟩
  | .TRK_CNT_LOMF_SLIP => ⟨0x01120094, 0x1000, 4, 0x4, 1, none, none, .fab, .trk,
      [⟨0, 16, .ro, 0⟩, ⟨16, 8, .ro, 0⟩, ⟨24, 8, .ro, 0⟩]⟩
  | .TRK_CNT_SAT => ⟨0x01120098, 0x1000, 4, 0x4, 1, none, none, .fab, .trk,
      [⟨0, 9, .ro, 0⟩]⟩
  | .TRK_TX_TRACE => ⟨0x01120010, 0x1000, 4, 0x4, 4, some 0x100, some .trunk, .fab, .trk,
      [⟨0, 32, .rw, 0⟩]⟩
  | .TRK_EXP_TRACE => ⟨0x01120020, 0x1000, 4, 0x4, 4, none, none, .fab, .trk,
      [⟨0, 32, .rw, 0⟩]⟩
  | .TRK_RX_TRACE => ⟨0x01120040, 0x1000, 4, 0x4, 4, none, none, .fab, .trk,
      [⟨0, 32, .ro, 0⟩]⟩
  -- spec/07_audio_ports.md
  | .AUD_CTL => ⟨0x01130000, 0x400, 8, 0x4, 1, some 0x100, some .start, .fab, .aud,
      [⟨0, 1, .rw, 0⟩, ⟨1, 1, .wo, 0⟩]⟩
  | .AUD_CFG => ⟨0x01130004, 0x400, 8, 0x4, 1, some 0x100, some .start, .fab, .aud,
      [⟨0, 2, .rw, 0⟩, ⟨2, 2, .rw, 0⟩, ⟨4, 1, .rw, 1⟩, ⟨5, 2, .rw, 0⟩, ⟨7, 1, .rw, 0⟩, ⟨8, 6, .rw, 15⟩, ⟨14, 1, .rw, 0⟩]⟩
  | .AUD_FRAME => ⟨0x01130008, 0x400, 8, 0x4, 1, none, none, .fab, .aud,
      [⟨0, 2, .rw, 0⟩, ⟨8, 5, .rw, 1⟩]⟩
  | .AUD_QUEUE => ⟨0x0113000C, 0x400, 8, 0x4, 1, some 0x100, some .start, .fab, .aud,
      [⟨0, 14, .rw, 0⟩, ⟨16, 14, .rw, 0⟩]⟩
  | .AUD_MARK => ⟨0x01130010, 0x400, 8, 0x4, 1, some 0x100, some .start, .fab, .aud,
      [⟨0, 32, .rw, 0x7e5aa5e7⟩]⟩
  | .AUD_STATUS => ⟨0x01130020, 0x400, 8, 0x4, 1, none, none, .fab, .aud,
      [⟨0, 1, .ro, 0⟩, ⟨1, 3, .ro, 0⟩, ⟨4, 1, .ro, 0⟩, ⟨5, 1, .w1c, 0⟩, ⟨6, 1, .w1c, 0⟩, ⟨7, 1, .w1c, 0⟩, ⟨8, 1, .w1c, 0⟩, ⟨9, 1, .w1c, 0⟩]⟩
  | .AUD_UNDER_CNT => ⟨0x01130024, 0x400, 8, 0x4, 1, none, none, .fab, .aud,
      [⟨0, 16, .rc, 0⟩]⟩
  | .AUD_OVER_CNT => ⟨0x01130028, 0x400, 8, 0x4, 1, none, none, .fab, .aud,
      [⟨0, 16, .rc, 0⟩]⟩
  | .AUD_TX_LAST_TAG => ⟨0x0113002C, 0x400, 8, 0x4, 1, none, none, .fab, .aud,
      [⟨0, 16, .ro, 0⟩]⟩
  | .AUD_TX_LAST_TIME_LO => ⟨0x01130030, 0x400, 8, 0x4, 1, none, none, .fab, .aud,
      [⟨0, 32, .ro, 0⟩]⟩
  | .AUD_TX_LAST_TIME_HI => ⟨0x01130034, 0x400, 8, 0x4, 1, none, none, .fab, .aud,
      [⟨0, 32, .ro, 0⟩]⟩
  | .AUD_OWNER => ⟨0x01130038, 0x400, 8, 0x4, 1, none, none, .fab, .t0,
      [⟨0, 4, .rw, 0⟩]⟩
  | .AUD_CHMAP => ⟨0x01130080, 0x400, 8, 0x4, 32, some 0x100, some .start, .fab, .aud,
      [⟨0, 2, .rw, 0⟩, ⟨2, 2, .rw, 0⟩, ⟨8, 8, .rw, 0⟩]⟩
  -- spec/08_management_channels.md
  | .HDLC_CH_CFG => ⟨0x01140000, 0x40, 256, 0x4, 1, none, none, .fab, .hdlc,
      [⟨0, 1, .rw, 0⟩, ⟨1, 1, .rw, 0⟩, ⟨2, 2, .rw, 0⟩, ⟨4, 1, .rw, 0⟩, ⟨5, 1, .rw, 0⟩, ⟨6, 4, .rw, 0⟩, ⟨10, 1, .rw, 0⟩, ⟨14, 10, .rw, 0⟩, ⟨24, 5, .rw, 0⟩]⟩
  | .HDLC_CH_LIMITS => ⟨0x01140004, 0x40, 256, 0x4, 1, none, none, .fab, .hdlc,
      [⟨0, 12, .rw, 0x800⟩, ⟨16, 8, .rw, 0⟩, ⟨24, 1, .rw, 0⟩]⟩
  | .HDLC_CH_QUEUE => ⟨0x01140008, 0x40, 256, 0x4, 1, none, none, .fab, .hdlc,
      [⟨0, 14, .rw, 0⟩, ⟨16, 14, .rw, 0⟩]⟩
  | .HDLC_CH_STATUS => ⟨0x0114000C, 0x40, 256, 0x4, 1, none, none, .fab, .hdlc,
      [⟨0, 1, .ro, 0⟩, ⟨1, 3, .ro, 0⟩, ⟨8, 1, .w1c, 0⟩, ⟨9, 1, .w1c, 0⟩, ⟨10, 1, .w1c, 0⟩, ⟨11, 1, .w1c, 0⟩, ⟨12, 1, .w1c, 0⟩, ⟨13, 1, .w1c, 0⟩, ⟨14, 1, .w1c, 0⟩, ⟨15, 1, .w1c, 0⟩]⟩
  | .HDLC_CNT_RX_FRAMES => ⟨0x01140010, 0x40, 256, 0x4, 1, none, none, .fab, .hdlc,
      [⟨0, 32, .rc, 0⟩]⟩
  | .HDLC_CNT_TX_FRAMES => ⟨0x01140014, 0x40, 256, 0x4, 1, none, none, .fab, .hdlc,
      [⟨0, 32, .rc, 0⟩]⟩
  | .HDLC_CNT_FCS_ABORT => ⟨0x01140018, 0x40, 256, 0x4, 1, none, none, .fab, .hdlc,
      [⟨0, 16, .rc, 0⟩, ⟨16, 16, .rc, 0⟩]⟩
  | .HDLC_CNT_SHORT_LONG => ⟨0x0114001C, 0x40, 256, 0x4, 1, none, none, .fab, .hdlc,
      [⟨0, 16, .rc, 0⟩, ⟨16, 16, .rc, 0⟩]⟩
  | .HDLC_CNT_ALIGN_NOBUF => ⟨0x01140020, 0x40, 256, 0x4, 1, none, none, .fab, .hdlc,
      [⟨0, 16, .rc, 0⟩, ⟨16, 16, .rc, 0⟩]⟩
  | .HDLC_CNT_TXERR => ⟨0x01140024, 0x40, 256, 0x4, 1, none, none, .fab, .hdlc,
      [⟨0, 16, .rc, 0⟩]⟩
  | .HDLC_CH_OWNER => ⟨0x01140028, 0x40, 256, 0x4, 1, none, none, .fab, .t0,
      [⟨0, 4, .rw, 0⟩]⟩
  -- spec/13_tenants_queues_events.md
  | .Q_BASE => ⟨0x01180000, 0x20, 16384, 0x4, 1, none, none, .fab, .queue,
      [⟨3, 21, .rw, 0⟩]⟩
  | .Q_CFG => ⟨0x01180004, 0x20, 16384, 0x4, 1, none, none, .fab, .queue,
      [⟨0, 1, .rw, 0⟩, ⟨1, 1, .rw, 0⟩, ⟨2, 1, .rw, 0⟩, ⟨4, 3, .rw, 0⟩, ⟨8, 5, .rw, 0⟩]⟩
  | .Q_WM => ⟨0x01180008, 0x20, 16384, 0x4, 1, none, none, .fab, .queue,
      [⟨0, 17, .rw, 1⟩]⟩
  | .Q_HEAD => ⟨0x0118000C, 0x20, 16384, 0x4, 1, none, none, .fab, .queue,
      [⟨0, 17, .ro, 0⟩]⟩
  | .Q_TAIL => ⟨0x01180010, 0x20, 16384, 0x4, 1, none, none, .fab, .queue,
      [⟨0, 17, .ro, 0⟩]⟩
  | .Q_FILL => ⟨0x01180014, 0x20, 16384, 0x4, 1, none, none, .fab, .queue,
      [⟨0, 17, .ro, 0⟩]⟩
  | .Q_DROP => ⟨0x01180018, 0x20, 16384, 0x4, 1, none, none, .fab, .queue,
      [⟨0, 16, .rc, 0⟩, ⟨16, 1, .w1c, 0⟩]⟩
  | .Q_STAT => ⟨0x0118001C, 0x20, 16384, 0x4, 1, none, none, .fab, .queue,
      [⟨0, 17, .ro, 0⟩, ⟨17, 3, .ro, 0⟩, ⟨20, 1, .ro, 0⟩, ⟨21, 1, .ro, 0⟩, ⟨24, 4, .ro, 0⟩]⟩
  | .TEN_EVT_MASK => ⟨0x011C0000, 0x80, 16, 0x4, 32, none, none, .fab, .t0,
      [⟨0, 32, .rw, 0⟩]⟩
  | .CORE_EVT_EN => ⟨0x011C1000, 0x80, 17, 0x4, 32, none, none, .fab, .core,
      [⟨0, 32, .rw, 0⟩]⟩
  | .CORE_EVT_PEND => ⟨0x011C2000, 0x80, 17, 0x4, 32, none, none, .fab, .t0,
      [⟨0, 32, .ro, 0⟩]⟩
  | .EVR_MERGED => ⟨0x011C3000, 0x4, 17, 0x4, 1, none, none, .fab, .t0,
      [⟨0, 16, .rc, 0⟩]⟩
  | .QSUM => ⟨0x011C4000, 0x20, 64, 0x4, 8, none, none, .fab, .any,
      [⟨0, 32, .w1c, 0⟩]⟩
  | .TEN_CTL => ⟨0x011D0000, 0x1000, 16, 0x4, 1, none, none, .fab, .tenctl,
      [⟨0, 1, .wo, 0⟩, ⟨1, 1, .wo, 0⟩, ⟨2, 1, .wo, 0⟩, ⟨3, 1, .wo, 0⟩, ⟨8, 1, .rw, 1⟩, ⟨9, 1, .rw, 0⟩]⟩
  | .TEN_STATUS => ⟨0x011D0004, 0x1000, 16, 0x4, 1, none, none, .fab, .t0,
      [⟨0, 2, .ro, 0⟩, ⟨16, 16, .rc, 0⟩]⟩
  | .TEN_CORES => ⟨0x011D0008, 0x1000, 16, 0x4, 1, none, none, .fab, .t0,
      [⟨0, 16, .rw, 0⟩]⟩
  | .TEN_QRANGE => ⟨0x011D000C, 0x1000, 16, 0x4, 1, none, none, .fab, .t0,
      [⟨0, 14, .rw, 0⟩, ⟨16, 15, .rw, 0⟩]⟩
  | .TEN_LINKS => ⟨0x011D0010, 0x1000, 16, 0x4, 1, none, none, .fab, .t0,
      [⟨0, 4, .rw, 0⟩]⟩
  | .TEN_MBX => ⟨0x011D0014, 0x1000, 16, 0x4, 1, none, none, .fab, .t0,
      [⟨0, 32, .rc, 0⟩]⟩
  | .TEN_MBX_INFO => ⟨0x011D0018, 0x1000, 16, 0x4, 1, none, none, .fab, .t0,
      [⟨0, 4, .ro, 0⟩, ⟨4, 1, .ro, 0⟩, ⟨5, 2, .ro, 0⟩, ⟨8, 1, .w1c, 0⟩]⟩
  | .TEN_MBX_DOOR => ⟨0x011D001C, 0x1000, 16, 0x4, 1, none, none, .fab, .any,
      [⟨0, 32, .wo, 0⟩]⟩
  | .TEN_MBX_ALLOW => ⟨0x011D0020, 0x1000, 16, 0x4, 1, none, none, .fab, .t0,
      [⟨0, 16, .rw, 0⟩]⟩
  | .TEN_SHED_FRAME => ⟨0x011D0040, 0x1000, 16, 0x4, 1, none, none, .fab, .t0,
      [⟨0, 32, .ro, 0⟩]⟩
  | .TEN_SHED_CAUSE => ⟨0x011D0044, 0x1000, 16, 0x4, 1, none, none, .fab, .t0,
      [⟨0, 2, .ro, 0⟩]⟩
  | .TEN_SEG_W0 => ⟨0x011D0200, 0x1000, 16, 0x8, 64, none, none, .seg, .t0,
      [⟨0, 32, .rw, 0⟩]⟩
  | .TEN_SEG_W1 => ⟨0x011D0204, 0x1000, 16, 0x8, 64, none, none, .seg, .t0,
      [⟨0, 25, .rw, 0⟩, ⟨31, 1, .rw, 0⟩]⟩
  | .TEN_SEL_OWN => ⟨0x011D0400, 0x1000, 16, 0x4, 32, none, none, .fab, .t0,
      [⟨0, 32, .rw, 0⟩]⟩
  | .TEN_SLOT_OWN => ⟨0x011D0800, 0x1000, 16, 0x4, 512, none, none, .fab, .t0,
      [⟨0, 32, .rw, 0⟩]⟩
  -- spec/11_newt_and_eft_cores.md
  | .CORE_CTL => ⟨0x011E0000, 0x400, 17, 0x4, 1, none, none, .aon, .core,
      [⟨0, 1, .wo, 0⟩]⟩
  | .CORE_STATUS => ⟨0x011E0004, 0x400, 17, 0x4, 1, none, none, .core, .core,
      [⟨0, 3, .ro, 0⟩, ⟨3, 1, .ro, 0⟩, ⟨8, 4, .ro, 0⟩]⟩
  | .CORE_START => ⟨0x011E0008, 0x400, 17, 0x4, 1, none, none, .aon, .t0,
      [⟨2, 22, .rw, 0⟩]⟩
  | .CORE_FAULT_INFO => ⟨0x011E0040, 0x400, 17, 0x4, 1, none, none, .core, .core,
      [⟨0, 4, .ro, 0⟩, ⟨4, 1, .ro, 0⟩, ⟨5, 1, .ro, 0⟩, ⟨6, 1, .ro, 0⟩, ⟨7, 1, .w1c, 0⟩, ⟨16, 16, .rc, 0⟩]⟩
  | .CORE_FAULT_PC => ⟨0x011E0044, 0x400, 17, 0x4, 1, none, none, .core, .core,
      [⟨0, 24, .ro, 0⟩]⟩
  | .CORE_FAULT_ADDR => ⟨0x011E0048, 0x400, 17, 0x4, 1, none, none, .core, .core,
      [⟨0, 32, .ro, 0⟩]⟩
  | .CORE_FAULT_FRAME => ⟨0x011E004C, 0x400, 17, 0x4, 1, none, none, .core, .core,
      [⟨0, 32, .ro, 0⟩]⟩
  | .CORE_ICACHE_CTL => ⟨0x011E0060, 0x400, 17, 0x4, 1, none, none, .core, .core,
      [⟨0, 1, .rw, 0⟩, ⟨1, 1, .wo, 0⟩, ⟨2, 1, .wo, 0⟩]⟩
  | .CORE_ICACHE_LOAD_BASE => ⟨0x011E0064, 0x400, 17, 0x4, 1, none, none, .core, .core,
      [⟨5, 19, .rw, 0⟩]⟩
  | .CORE_ICACHE_LOAD => ⟨0x011E0068, 0x400, 17, 0x4, 1, none, none, .core, .core,
      [⟨0, 9, .rw, 0⟩, ⟨29, 1, .w1c, 0⟩, ⟨30, 1, .ro, 0⟩, ⟨31, 1, .wo, 0⟩]⟩
  | .CORE_IRQ_SRC => ⟨0x011E0020, 0x400, 17, 0x4, 8, none, none, .core, .core,
      [⟨0, 10, .rw, 0⟩, ⟨31, 1, .rw, 0⟩]⟩
  | .CORE_MBX_RX => ⟨0x011E0100, 0x400, 16, 0x4, 16, none, none, .fab, .core,
      [⟨0, 32, .ro, 0xffffffff⟩]⟩
  | .CORE_MBX_TX => ⟨0x011E0140, 0x400, 16, 0x4, 16, none, none, .fab, .core,
      [⟨0, 32, .rw, 0xffffffff⟩]⟩
  | .CORE_MBX_FRAME => ⟨0x011E0180, 0x400, 16, 0x4, 1, none, none, .fab, .core,
      [⟨0, 32, .ro, 0⟩]⟩
  -- spec/15_performance_counters.md
  | .PERF_GLOBAL => ⟨0x011E0240, 0x400, 17, 0x4, 1, none, none, .core, .core,
      [⟨0, 4, .rw, 0⟩]⟩
  | .PERF_STATUS => ⟨0x011E0244, 0x400, 17, 0x4, 1, none, none, .core, .core,
      [⟨0, 4, .w1c, 0⟩]⟩
  | .PERF_SBUF_BASE => ⟨0x011E0250, 0x400, 17, 0x4, 1, none, none, .core, .core,
      [⟨4, 20, .rw, 0⟩]⟩
  | .PERF_SBUF_CFG => ⟨0x011E0254, 0x400, 17, 0x4, 1, none, none, .core, .core,
      [⟨0, 1, .rw, 0⟩, ⟨4, 5, .rw, 4⟩, ⟨12, 3, .ro, 0⟩, ⟨16, 1, .w1c, 0⟩]⟩
  | .PERF_SBUF_WR => ⟨0x011E0258, 0x400, 17, 0x4, 1, none, none, .core, .core,
      [⟨0, 17, .ro, 0⟩]⟩
  | .PERF_SBUF_RD => ⟨0x011E025C, 0x400, 17, 0x4, 1, none, none, .core, .core,
      [⟨0, 17, .rw, 0⟩]⟩
  | .PERF_SBUF_LOST => ⟨0x011E0260, 0x400, 17, 0x4, 1, none, none, .core, .core,
      [⟨0, 16, .rc, 0⟩, ⟨16, 1, .w1c, 0⟩]⟩
  | .PERF_CTL => ⟨0x011E0200, 0x400, 17, 0x10, 4, none, none, .core, .core,
      [⟨0, 6, .rw, 0⟩, ⟨8, 1, .rw, 0⟩, ⟨9, 1, .rw, 0⟩]⟩
  | .PERF_CNT_LO => ⟨0x011E0204, 0x400, 17, 0x10, 4, none, none, .core, .core,
      [⟨0, 32, .rw, 0⟩]⟩
  | .PERF_CNT_HI => ⟨0x011E0208, 0x400, 17, 0x10, 4, none, none, .core, .core,
      [⟨0, 16, .rw, 0⟩]⟩
  | .FPERF_CTL => ⟨0x011E4400, 0x10, 8, 0x4, 1, none, none, .fab, .t0,
      [⟨0, 5, .rw, 0⟩, ⟨8, 1, .rw, 0⟩, ⟨16, 4, .rw, 0⟩, ⟨20, 1, .rw, 1⟩]⟩
  | .FPERF_CNT_LO => ⟨0x011E4404, 0x10, 8, 0x4, 1, none, none, .fab, .t0,
      [⟨0, 32, .rw, 0⟩]⟩
  | .FPERF_CNT_HI => ⟨0x011E4408, 0x10, 8, 0x4, 1, none, none, .fab, .t0,
      [⟨0, 16, .rw, 0⟩]⟩
  | .FPERF_GLOBAL => ⟨0x011E4480, 0x4, 1, 0x4, 1, none, none, .fab, .t0,
      [⟨0, 8, .rw, 0⟩]⟩
  | .FPERF_STATUS => ⟨0x011E4484, 0x4, 1, 0x4, 1, none, none, .fab, .t0,
      [⟨0, 8, .w1c, 0⟩]⟩
  -- spec/17_power_states_and_wake.md
  | .PWR_CTL => ⟨0x01200000, 0x4, 1, 0x4, 1, none, none, .aon, .t0,
      [⟨0, 2, .rw, 1⟩]⟩
  | .PWR_STATUS => ⟨0x01200004, 0x4, 1, 0x4, 1, none, none, .aon, .t0,
      [⟨0, 2, .ro, 0⟩, ⟨2, 2, .ro, 1⟩, ⟨4, 2, .ro, 1⟩, ⟨8, 1, .w1c, 0⟩, ⟨9, 1, .w1c, 0⟩]⟩
  | .PWR_DOM_CTL => ⟨0x01200008, 0x4, 1, 0x4, 1, none, none, .aon, .t0,
      [⟨0, 16, .rw, 0⟩, ⟨16, 1, .rw, 0⟩, ⟨17, 1, .rw, 0⟩]⟩
  | .PWR_DOM_STATUS => ⟨0x0120000C, 0x4, 1, 0x4, 1, none, none, .aon, .t0,
      [⟨0, 16, .ro, 0⟩, ⟨16, 1, .ro, 0⟩, ⟨17, 1, .ro, 0⟩, ⟨18, 1, .ro, 0⟩, ⟨19, 1, .ro, 0⟩, ⟨20, 1, .ro, 0⟩]⟩
  | .PWR_PAD_HOLD => ⟨0x01200020, 0x4, 1, 0x4, 1, none, none, .aon, .t0,
      [⟨0, 24, .ro, 0xffffff⟩]⟩
  | .PWR_PAD_REL => ⟨0x01200024, 0x4, 1, 0x4, 1, none, none, .aon, .t0,
      [⟨0, 24, .wo, 0⟩]⟩
  | .PWR_WAKE_EN => ⟨0x01200030, 0x4, 1, 0x4, 1, none, none, .aon, .t0,
      [⟨0, 4, .rw, 0⟩, ⟨4, 1, .rw, 0⟩, ⟨5, 4, .rw, 0⟩, ⟨9, 1, .rw, 0⟩]⟩
  | .PWR_WAKE_CAUSE => ⟨0x01200034, 0x4, 1, 0x4, 1, none, none, .aon, .t0,
      [⟨0, 10, .w1c, 0⟩, ⟨10, 1, .w1c, 0⟩, ⟨11, 1, .w1c, 0⟩, ⟨12, 1, .w1c, 0⟩, ⟨13, 1, .w1c, 0⟩]⟩
  | .PWR_WAKE_RTC_LO => ⟨0x01200038, 0x4, 1, 0x4, 1, none, none, .aon, .t0,
      [⟨0, 32, .ro, 0⟩]⟩
  | .PWR_WAKE_RTC_HI => ⟨0x0120003C, 0x4, 1, 0x4, 1, none, none, .aon, .t0,
      [⟨0, 16, .ro, 0⟩]⟩
  | .PWR_CMP_STATUS => ⟨0x01200050, 0x4, 1, 0x4, 1, none, none, .aon, .t0,
      [⟨0, 4, .ro, 0⟩]⟩
  | .PWR_RTC_ALARM_LO => ⟨0x01200058, 0x4, 1, 0x4, 1, none, none, .aon, .t0,
      [⟨0, 32, .rw, 0⟩]⟩
  | .PWR_RTC_ALARM_HI => ⟨0x0120005C, 0x4, 1, 0x4, 1, none, none, .aon, .t0,
      [⟨0, 16, .rw, 0⟩, ⟨31, 1, .rw, 0⟩]⟩
  | .PWR_RUN => ⟨0x01200010, 0x4, 1, 0x4, 1, some 0x100, some .pwr, .aon, .t0,
      [⟨0, 16, .rw, 0⟩, ⟨16, 1, .rw, 0⟩, ⟨17, 1, .rw, 0⟩]⟩
  | .PWR_CMP => ⟨0x01200040, 0x4, 4, 0x4, 1, none, none, .aon, .t0,
      [⟨0, 8, .rw, 0⟩, ⟨8, 3, .rw, 0⟩, ⟨12, 1, .rw, 0⟩, ⟨15, 1, .rw, 0⟩, ⟨16, 8, .rw, 0⟩]⟩
  | .PWR_BUDGET => ⟨0x01200080, 0x4, 16, 0x4, 1, none, none, .aon, .budget,
      [⟨0, 4, .rw, 1⟩, ⟨4, 4, .rw, 1⟩, ⟨8, 4, .rw, 1⟩, ⟨12, 4, .rw, 1⟩, ⟨16, 1, .rw, 0⟩]⟩
  -- spec/12_pond_memory.md
  | .POND_BANK_RUN => ⟨0x01200800, 0x4, 1, 0x4, 1, some 0x100, some .pwr, .aon, .t0,
      [⟨0, 2, .rw, 2⟩, ⟨2, 2, .rw, 2⟩, ⟨4, 2, .rw, 2⟩, ⟨6, 2, .rw, 2⟩, ⟨8, 2, .rw, 2⟩, ⟨10, 2, .rw, 2⟩, ⟨12, 2, .rw, 2⟩, ⟨14, 2, .rw, 2⟩, ⟨16, 2, .rw, 2⟩, ⟨18, 2, .rw, 2⟩, ⟨20, 2, .rw, 2⟩, ⟨22, 2, .rw, 2⟩, ⟨24, 2, .rw, 2⟩, ⟨26, 2, .rw, 2⟩, ⟨28, 2, .rw, 2⟩, ⟨30, 2, .rw, 2⟩]⟩
  | .POND_BANK_TORPOR => ⟨0x01200804, 0x4, 1, 0x4, 1, none, none, .aon, .t0,
      [⟨0, 2, .rw, 1⟩, ⟨2, 2, .rw, 1⟩, ⟨4, 2, .rw, 1⟩, ⟨6, 2, .rw, 1⟩, ⟨8, 2, .rw, 1⟩, ⟨10, 2, .rw, 1⟩, ⟨12, 2, .rw, 1⟩, ⟨14, 2, .rw, 1⟩, ⟨16, 2, .rw, 1⟩, ⟨18, 2, .rw, 1⟩, ⟨20, 2, .rw, 1⟩, ⟨22, 2, .rw, 1⟩, ⟨24, 2, .rw, 1⟩, ⟨26, 2, .rw, 1⟩, ⟨28, 2, .rw, 1⟩, ⟨30, 2, .rw, 1⟩]⟩
  | .POND_BANK_BRUM => ⟨0x01200808, 0x4, 1, 0x4, 1, none, none, .aon, .t0,
      [⟨0, 2, .rw, 0⟩, ⟨2, 2, .rw, 0⟩, ⟨4, 2, .rw, 0⟩, ⟨6, 2, .rw, 0⟩, ⟨8, 2, .rw, 0⟩, ⟨10, 2, .rw, 0⟩, ⟨12, 2, .rw, 0⟩, ⟨14, 2, .rw, 0⟩, ⟨16, 2, .rw, 0⟩, ⟨18, 2, .rw, 0⟩, ⟨20, 2, .rw, 0⟩, ⟨22, 2, .rw, 0⟩, ⟨24, 2, .rw, 0⟩, ⟨26, 2, .rw, 0⟩, ⟨28, 2, .rw, 0⟩, ⟨30, 2, .rw, 0⟩]⟩
  | .POND_BANK_STATUS => ⟨0x0120080C, 0x4, 1, 0x4, 1, none, none, .aon, .t0,
      [⟨0, 2, .ro, 3⟩, ⟨2, 2, .ro, 3⟩, ⟨4, 2, .ro, 3⟩, ⟨6, 2, .ro, 3⟩, ⟨8, 2, .ro, 3⟩, ⟨10, 2, .ro, 3⟩, ⟨12, 2, .ro, 3⟩, ⟨14, 2, .ro, 3⟩, ⟨16, 2, .ro, 3⟩, ⟨18, 2, .ro, 3⟩, ⟨20, 2, .ro, 3⟩, ⟨22, 2, .ro, 3⟩, ⟨24, 2, .ro, 3⟩, ⟨26, 2, .ro, 3⟩, ⟨28, 2, .ro, 3⟩, ⟨30, 2, .ro, 3⟩]⟩
  | .POND_SCRUB_CTL => ⟨0x01200810, 0x4, 1, 0x4, 1, none, none, .aon, .t0,
      [⟨0, 1, .rw, 1⟩, ⟨4, 4, .rw, 10⟩]⟩
  | .POND_SCRUB_STATUS => ⟨0x01200814, 0x4, 1, 0x4, 1, none, none, .aon, .t0,
      [⟨0, 19, .ro, 0⟩, ⟨20, 12, .ro, 0⟩]⟩
  | .POND_ECC_CE_COUNT => ⟨0x01200820, 0x4, 1, 0x4, 1, none, none, .aon, .t0,
      [⟨0, 16, .rc, 0⟩]⟩
  | .POND_ECC_UE_COUNT => ⟨0x01200824, 0x4, 1, 0x4, 1, none, none, .aon, .t0,
      [⟨0, 16, .rc, 0⟩]⟩
  | .POND_ECC_UE_ADDR => ⟨0x01200828, 0x4, 1, 0x4, 1, none, none, .aon, .t0,
      [⟨3, 21, .ro, 0⟩]⟩
  | .POND_ECC_UE_INFO => ⟨0x0120082C, 0x4, 1, 0x4, 1, none, none, .aon, .t0,
      [⟨0, 8, .ro, 0⟩, ⟨8, 2, .ro, 0⟩, ⟨16, 1, .w1c, 0⟩, ⟨17, 1, .w1c, 0⟩, ⟨18, 1, .w1c, 0⟩]⟩
  | .POND_ECC_INJECT => ⟨0x01200830, 0x4, 1, 0x4, 1, none, none, .aon, .t0,
      [⟨3, 21, .wo, 0⟩, ⟨28, 2, .wo, 0⟩, ⟨31, 1, .wo, 0⟩]⟩
  | .POND_SCHED => ⟨0x01200C00, 0x4, 256, 0x4, 1, none, none, .aon, .t0,
      [⟨0, 8, .ro, 0⟩, ⟨8, 8, .ro, 0⟩, ⟨16, 8, .ro, 0⟩]⟩
  -- spec/20_panel_driver.md
  | .PNL_CTL => ⟨0x01210000, 0x4, 1, 0x4, 1, none, none, .fab, .t0,
      [⟨0, 1, .rw, 0⟩, ⟨1, 1, .rw, 0⟩, ⟨8, 8, .rw, 10⟩]⟩
  | .PNL_GEOM => ⟨0x01210004, 0x4, 1, 0x4, 1, none, none, .fab, .t0,
      [⟨0, 8, .rw, 255⟩, ⟨8, 6, .rw, 63⟩, ⟨16, 4, .rw, 2⟩]⟩
  | .PNL_TIMING => ⟨0x01210008, 0x4, 1, 0x4, 1, none, none, .fab, .t0,
      [⟨0, 8, .rw, 11⟩, ⟨8, 8, .rw, 8⟩, ⟨16, 8, .rw, 16⟩, ⟨24, 8, .rw, 8⟩]⟩
  | .PNL_DRIVE => ⟨0x0121000C, 0x4, 1, 0x4, 1, none, none, .fab, .t0,
      [⟨0, 8, .rw, 0⟩]⟩
  | .PNL_STATUS => ⟨0x01210010, 0x4, 1, 0x4, 1, none, none, .fab, .t0,
      [⟨0, 2, .ro, 0⟩, ⟨8, 6, .ro, 0⟩, ⟨14, 1, .ro, 0⟩, ⟨16, 1, .w1c, 0⟩]⟩
  | .PNL_SCAN_COUNT => ⟨0x01210014, 0x4, 1, 0x4, 1, none, none, .fab, .t0,
      [⟨0, 32, .ro, 0⟩]⟩
  | .PNL_DESC_SRC => ⟨0x01210040, 0x10, 4, 0x4, 1, none, none, .fab, .t0,
      [⟨0, 24, .rw, 0⟩]⟩
  | .PNL_DESC_RECT => ⟨0x01210044, 0x10, 4, 0x4, 1, none, none, .fab, .t0,
      [⟨0, 7, .rw, 0⟩, ⟨8, 6, .rw, 0⟩, ⟨16, 7, .rw, 0⟩, ⟨24, 6, .rw, 0⟩]⟩
  | .PNL_DESC_CTL => ⟨0x01210048, 0x10, 4, 0x4, 1, none, none, .fab, .t0,
      [⟨0, 12, .rw, 0⟩, ⟨16, 1, .rw, 0⟩, ⟨31, 1, .wo, 0⟩]⟩
  | .PNL_DESC_STATUS => ⟨0x0121004C, 0x10, 4, 0x4, 1, none, none, .fab, .t0,
      [⟨0, 2, .ro, 0⟩, ⟨4, 3, .ro, 0⟩, ⟨8, 8, .ro, 0⟩]⟩
  | .PNL_OD => ⟨0x01210100, 0x4, 64, 0x4, 1, none, none, .fab, .t0,
      [⟨0, 32, .rw, 0⟩]⟩
  | .PNL_RAM => ⟨0x01212000, 0x4, 2048, 0x4, 1, none, none, .apf, .t0,
      [⟨0, 32, .rw, 0⟩]⟩
  -- spec/21_thermal_and_fans.md
  | .TH_STATUS => ⟨0x01220000, 0x4, 1, 0x4, 1, none, none, .fab, .t0,
      [⟨0, 1, .ro, 0⟩, ⟨8, 8, .ro, 0⟩]⟩
  | .TH_DIE => ⟨0x01220004, 0x4, 1, 0x4, 1, none, none, .fab, .t0,
      [⟨0, 12, .ro, 0⟩]⟩
  | .TH_CFG => ⟨0x01220008, 0x4, 1, 0x4, 1, some 0x800, some .pwr, .fab, .t0,
      [⟨0, 8, .rw, 0⟩]⟩
  | .TH_LIMITS => ⟨0x0122000C, 0x4, 1, 0x4, 1, some 0x800, some .pwr, .fab, .t0,
      [⟨0, 12, .rw, 16⟩, ⟨16, 12, .rw, 0xfef⟩]⟩
  | .TH_TEMP => ⟨0x01220010, 0x4, 8, 0x4, 1, none, none, .fab, .t0,
      [⟨0, 12, .ro, 0xfff⟩, ⟨16, 12, .ro, 0⟩, ⟨31, 1, .ro, 0⟩]⟩
  | .TH_LIN => ⟨0x01220040, 0x40, 8, 0x4, 8, some 0x800, some .pwr, .fab, .t0,
      [⟨0, 12, .rw, 0xfff⟩, ⟨16, 12, .rw, 0xfff⟩]⟩
  | .TH_LIN8 => ⟨0x01220060, 0x40, 8, 0x4, 1, some 0x800, some .pwr, .fab, .t0,
      [⟨0, 12, .rw, 0xfff⟩]⟩
  | .FAN_MODE => ⟨0x01220400, 0x80, 4, 0x4, 1, none, none, .fab, .t0,
      [⟨0, 2, .rw, 0⟩, ⟨4, 2, .rw, 0⟩]⟩
  | .FAN_CTL => ⟨0x01220404, 0x80, 4, 0x4, 1, some 0x800, some .pwr, .fab, .t0,
      [⟨0, 1, .rw, 0⟩, ⟨1, 1, .rw, 0⟩, ⟨3, 1, .rw, 1⟩, ⟨8, 8, .rw, 0⟩, ⟨16, 9, .rw, 0⟩]⟩
  | .FAN_DRIVE => ⟨0x01220408, 0x80, 4, 0x4, 1, some 0x800, some .pwr, .fab, .t0,
      [⟨0, 2, .rw, 3⟩, ⟨8, 8, .rw, 0⟩, ⟨16, 12, .rw, 32⟩]⟩
  | .FAN_BLDC => ⟨0x0122040C, 0x80, 4, 0x4, 1, some 0x800, some .pwr, .fab, .t0,
      [⟨0, 4, .rw, 1⟩, ⟨8, 8, .rw, 64⟩, ⟨16, 8, .rw, 100⟩, ⟨24, 8, .rw, 125⟩]⟩
  | .FAN_BLDC_RAMP => ⟨0x01220410, 0x80, 4, 0x4, 1, some 0x800, some .pwr, .fab, .t0,
      [⟨0, 16, .rw, 0x4e20⟩, ⟨16, 16, .rw, 0x7d0⟩]⟩
  | .FAN_TACH => ⟨0x01220414, 0x80, 4, 0x4, 1, some 0x800, some .pwr, .fab, .t0,
      [⟨0, 2, .rw, 1⟩, ⟨8, 8, .rw, 50⟩, ⟨16, 8, .rw, 200⟩]⟩
  | .FAN_STATUS => ⟨0x01220440, 0x80, 4, 0x4, 1, none, none, .fab, .t0,
      [⟨0, 3, .ro, 0⟩, ⟨8, 8, .ro, 0⟩, ⟨16, 1, .ro, 0⟩]⟩
  | .FAN_SPEED => ⟨0x01220444, 0x80, 4, 0x4, 1, none, none, .fab, .t0,
      [⟨0, 16, .ro, 0⟩, ⟨16, 12, .ro, 0⟩]⟩
  | .FAN_AGE_CTL => ⟨0x01220448, 0x80, 4, 0x4, 1, none, none, .fab, .t0,
      [⟨0, 16, .rw, 0⟩, ⟨31, 1, .wo, 0⟩]⟩
  | .FAN_AGE => ⟨0x0122044C, 0x80, 4, 0x4, 1, none, none, .fab, .t0,
      [⟨0, 16, .ro, 0⟩, ⟨16, 3, .ro, 0⟩, ⟨19, 1, .ro, 0⟩]⟩
  | .FAN_AGE_REF => ⟨0x01220450, 0x80, 4, 0x4, 1, none, none, .fab, .t0,
      [⟨0, 16, .rw, 0⟩]⟩
  | .FAN_AGE_LIM => ⟨0x01220454, 0x80, 4, 0x4, 1, none, none, .fab, .t0,
      [⟨0, 16, .rw, 0xffff⟩, ⟨16, 16, .ro, 0⟩]⟩
  | .FAN_STALLS => ⟨0x01220458, 0x80, 4, 0x4, 1, none, none, .fab, .t0,
      [⟨0, 16, .rc, 0⟩]⟩
  | .FAN_TAB => ⟨0x01220420, 0x80, 4, 0x4, 8, some 0x800, some .pwr, .fab, .t0,
      [⟨0, 12, .rw, 0⟩, ⟨16, 8, .rw, 255⟩]⟩
  -- spec/16_host_links.md
  | .HL_CFG => ⟨0x01230000, 0x100, 4, 0x4, 1, none, none, .fab, .t0,
      [⟨0, 1, .rw, 1⟩, ⟨1, 2, .rw, 0⟩, ⟨4, 2, .rw, 0⟩, ⟨6, 1, .rw, 1⟩, ⟨7, 1, .rw, 1⟩, ⟨8, 8, .rw, 80⟩, ⟨16, 8, .rw, 8⟩]⟩
  | .HL_CTL => ⟨0x01230004, 0x100, 4, 0x4, 1, none, none, .fab, .t0,
      [⟨0, 1, .wo, 0⟩]⟩
  | .HL_SEQ => ⟨0x01230008, 0x100, 4, 0x4, 1, none, none, .fab, .t0,
      [⟨0, 12, .ro, 0⟩, ⟨16, 12, .ro, 0⟩]⟩
  | .HL_STATUS => ⟨0x0123000C, 0x100, 4, 0x4, 1, none, none, .fab, .t0,
      [⟨0, 7, .ro, 0⟩, ⟨8, 3, .ro, 0⟩, ⟨16, 1, .w1c, 0⟩]⟩
  | .HL_CNT_HDR_CRC => ⟨0x01230010, 0x100, 4, 0x4, 1, none, none, .fab, .t0,
      [⟨0, 16, .rc, 0⟩, ⟨16, 16, .rc, 0⟩]⟩
  | .HL_CNT_FRM_GAP => ⟨0x01230014, 0x100, 4, 0x4, 1, none, none, .fab, .t0,
      [⟨0, 16, .rc, 0⟩, ⟨16, 16, .rc, 0⟩]⟩
  | .HL_CNT_DUP_BOUND => ⟨0x01230018, 0x100, 4, 0x4, 1, none, none, .fab, .t0,
      [⟨0, 16, .rc, 0⟩, ⟨16, 16, .rc, 0⟩]⟩
  | .HL_CNT_PARTIAL => ⟨0x0123001C, 0x100, 4, 0x4, 1, none, none, .fab, .t0,
      [⟨0, 16, .rc, 0⟩, ⟨16, 16, .rc, 0⟩]⟩
  | .I2C_CFG => ⟨0x01230400, 0x4, 1, 0x4, 1, none, none, .aon, .t0,
      [⟨0, 1, .rw, 1⟩, ⟨8, 7, .ro, 0⟩]⟩
  | .I2C_STATUS => ⟨0x01230404, 0x4, 1, 0x4, 1, none, none, .aon, .t0,
      [⟨0, 16, .rc, 0⟩, ⟨16, 16, .rc, 0⟩]⟩
  -- spec/19_firmware_and_settings_update.md
  | .NVM_CTL => ⟨0x01240000, 0x4, 1, 0x4, 1, none, none, .aon, .t0,
      [⟨0, 1, .rw, 0⟩, ⟨1, 1, .rw, 0⟩, ⟨2, 1, .rw, 0⟩]⟩
  | .NVM_CMD => ⟨0x01240004, 0x4, 1, 0x4, 1, none, none, .aon, .t0,
      [⟨0, 4, .rw, 0⟩, ⟨31, 1, .wo, 0⟩]⟩
  | .NVM_ADDR => ⟨0x01240008, 0x4, 1, 0x4, 1, none, none, .aon, .t0,
      [⟨0, 32, .rw, 0⟩]⟩
  | .NVM_POND => ⟨0x0124000C, 0x4, 1, 0x4, 1, none, none, .aon, .t0,
      [⟨0, 24, .rw, 0⟩]⟩
  | .NVM_LEN => ⟨0x01240010, 0x4, 1, 0x4, 1, none, none, .aon, .t0,
      [⟨0, 21, .rw, 0⟩]⟩
  | .NVM_CRC_IN => ⟨0x01240014, 0x4, 1, 0x4, 1, none, none, .aon, .t0,
      [⟨0, 32, .rw, 0⟩]⟩
  | .NVM_CRC_OUT => ⟨0x01240018, 0x4, 1, 0x4, 1, none, none, .aon, .t0,
      [⟨0, 32, .ro, 0⟩]⟩
  | .NVM_STATUS => ⟨0x0124001C, 0x4, 1, 0x4, 1, none, none, .aon, .t0,
      [⟨0, 1, .ro, 0⟩, ⟨8, 4, .ro, 0⟩]⟩
  | .NVM_JNEXT => ⟨0x01240020, 0x4, 1, 0x4, 1, none, none, .aon, .t0,
      [⟨5, 12, .rw, 0⟩]⟩
  | .NVM_JSEQ => ⟨0x01240024, 0x4, 1, 0x4, 1, none, none, .aon, .t0,
      [⟨0, 32, .rw, 0⟩]⟩
  | .XF_CTL => ⟨0x01240030, 0x4, 1, 0x4, 1, none, none, .aon, .t0,
      [⟨0, 1, .rw, 0⟩, ⟨4, 2, .rw, 2⟩]⟩
  | .XF_STATUS => ⟨0x01240034, 0x4, 1, 0x4, 1, none, none, .aon, .t0,
      [⟨0, 1, .ro, 0⟩, ⟨1, 1, .ro, 0⟩, ⟨2, 1, .ro, 0⟩, ⟨8, 4, .ro, 0⟩]⟩
  | .UPD_CMD => ⟨0x01240040, 0x4, 1, 0x4, 1, none, none, .aon, .t0,
      [⟨0, 1, .rw, 0⟩, ⟨31, 1, .wo, 0⟩]⟩
  | .UPD_MAN => ⟨0x01240044, 0x4, 1, 0x4, 1, none, none, .aon, .t0,
      [⟨0, 24, .rw, 0⟩]⟩
  | .UPD_PAY => ⟨0x01240048, 0x4, 1, 0x4, 1, none, none, .aon, .t0,
      [⟨0, 24, .rw, 0⟩]⟩
  | .UPD_STATUS => ⟨0x0124004C, 0x4, 1, 0x4, 1, none, none, .aon, .t0,
      [⟨0, 1, .ro, 0⟩, ⟨1, 3, .ro, 0⟩, ⟨4, 2, .ro, 0⟩, ⟨8, 1, .w1c, 0⟩]⟩
  | .UPD_REPORT => ⟨0x01240050, 0x4, 1, 0x4, 1, none, none, .aon, .t0,
      [⟨0, 32, .rw, 0⟩]⟩
  | .UPD_KEY_STATE => ⟨0x01240060, 0x4, 1, 0x4, 1, none, none, .aon, .t0,
      [⟨0, 8, .ro, 0⟩]⟩
  | .UPD_KEYPROG => ⟨0x01240064, 0x4, 1, 0x4, 1, none, none, .aon, .t0,
      [⟨0, 2, .wo, 0⟩, ⟨31, 1, .wo, 0⟩]⟩
  | .UPD_REVOKE => ⟨0x01240068, 0x4, 1, 0x4, 1, none, none, .aon, .t0,
      [⟨0, 2, .wo, 0⟩, ⟨8, 16, .wo, 0⟩, ⟨31, 1, .wo, 0⟩]⟩
  | .UPD_KEY_DATA => ⟨0x01240080, 0x4, 8, 0x4, 1, none, none, .aon, .t0,
      [⟨0, 32, .rw, 0⟩]⟩
  | .UPD_TKEY => ⟨0x01240220, 0x20, 15, 0x4, 8, none, none, .aon, .t0,
      [⟨0, 32, .rw, 0⟩]⟩
  -- spec/23_address_map_and_event_index.md
  | .ID_VENDOR => ⟨0x01250000, 0x4, 1, 0x4, 1, none, none, .aon, .any,
      [⟨0, 32, .ro, 0x494c5354⟩]⟩
  | .ID_PART => ⟨0x01250004, 0x4, 1, 0x4, 1, none, none, .aon, .any,
      [⟨0, 16, .ro, 0x16c0⟩]⟩
  | .ID_REV => ⟨0x01250008, 0x4, 1, 0x4, 1, none, none, .aon, .any,
      [⟨4, 4, .ro, 0⟩, ⟨0, 4, .ro, 0⟩]⟩
  | .ID_JTAG => ⟨0x0125000C, 0x4, 1, 0x4, 1, none, none, .aon, .any,
      [⟨0, 32, .ro, 0x16c058b⟩]⟩
  | .ID_FUSE => ⟨0x01250010, 0x4, 1, 0x4, 1, none, none, .aon, .any,
      [⟨0, 16, .ro, 0⟩, ⟨16, 1, .ro, 0⟩]⟩
  | .ID_UNIQUE => ⟨0x01250020, 0x4, 4, 0x4, 1, none, none, .aon, .any,
      [⟨0, 32, .ro, 0⟩]⟩
  -- spec/18_start_up.md
  | .RST_CAUSE => ⟨0x01250100, 0x4, 1, 0x4, 1, none, none, .aon, .t0,
      [⟨0, 1, .w1c, 1⟩, ⟨1, 1, .w1c, 0⟩, ⟨2, 1, .w1c, 0⟩, ⟨3, 1, .w1c, 0⟩, ⟨4, 1, .w1c, 0⟩]⟩
  | .RST_CTL => ⟨0x01250104, 0x4, 1, 0x4, 1, none, none, .aon, .t0,
      [⟨0, 1, .wo, 0⟩, ⟨16, 16, .wo, 0⟩]⟩
  | .WDT_CTL => ⟨0x01250108, 0x4, 1, 0x4, 1, none, none, .aon, .t0,
      [⟨0, 1, .rw, 1⟩, ⟨16, 16, .rw, 0x1f40⟩]⟩
  | .WDT_KICK => ⟨0x0125010C, 0x4, 1, 0x4, 1, none, none, .aon, .t0,
      [⟨0, 32, .wo, 0⟩]⟩
  | .BOOT_STATUS => ⟨0x01250110, 0x4, 1, 0x4, 1, none, none, .aon, .t0,
      [⟨0, 1, .ro, 0⟩, ⟨1, 1, .ro, 0⟩, ⟨2, 1, .ro, 0⟩, ⟨3, 1, .ro, 0⟩, ⟨4, 3, .ro, 0⟩, ⟨8, 3, .ro, 0⟩]⟩
  | .STRAP_STATUS => ⟨0x01250114, 0x4, 1, 0x4, 1, none, none, .aon, .t0,
      [⟨0, 3, .ro, 0⟩, ⟨3, 1, .ro, 0⟩, ⟨4, 1, .ro, 0⟩]⟩

/-- The registers whose window holds an address, by 64 KB block (R837). -/
def regsOfBlock (b : Nat) : List RegKind :=
  match b with
  | 0x100 => [.FAB_CONN]
  | 0x101 => [.FAB_CONN_ACT]
  | 0x102 => [.FAB_SEL, .FAB_SEL_ACT]
  | 0x103 => [.FAB_COMMIT_SCOPE, .FAB_COMMIT_FRAME, .FAB_DISCARD, .FAB_GATE_CTL, .FAB_GATE_STATUS,
      .FAB_PAR_STATUS, .FAB_PAR_COUNT, .FAB_PAR_INJECT, .FAB_CAPTURE_CTL, .FAB_CAPTURE_DATA,
      .FAB_TONE_CTL, .FAB_PAT_CTL, .FAB_PAT_ERR, .FAB_CMT_APPLIED_FRAME, .FAB_CMT_APPLIED_INFO,
      .FAB_CMT_REJ_FRAME, .FAB_CMT_REJ_INFO, .FAB_TONE_RAM]
  | 0x110 => [.LINE_CTL, .LINE_RX_CFG, .LINE_TX_SA, .LINE_TX_E, .LINE_STATUS, .LINE_RX_SA, .LINE_RX_PHASE,
      .LINE_E_DEBIT, .LINE_CNT_SEC, .LINE_CNT_FAS_CRC, .LINE_CNT_EBIT_CV, .LINE_CNT_SLIP_RAI,
      .LINE_CNT_LOS_LOF, .LINE_CNT_AIS_SAT]
  | 0x111 => [.LINE_CTL, .LINE_RX_CFG, .LINE_TX_SA, .LINE_TX_E, .LINE_STATUS, .LINE_RX_SA, .LINE_RX_PHASE,
      .LINE_E_DEBIT, .LINE_CNT_SEC, .LINE_CNT_FAS_CRC, .LINE_CNT_EBIT_CV, .LINE_CNT_SLIP_RAI,
      .LINE_CNT_LOS_LOF, .LINE_CNT_AIS_SAT]
  | 0x112 => [.TRK_CTL, .TRK_RX_CFG, .TRK_TX_OH, .TRK_TX_REI, .TRK_STATUS, .TRK_RX_OH, .TRK_RX_PHASE,
      .TRK_PAIR_STATUS, .TRK_REI_DEBIT, .TRK_OWNER, .TRK_CNT_SEC, .TRK_CNT_BIP, .TRK_CNT_REI,
      .TRK_CNT_FAW_SD, .TRK_CNT_LOS_LOF, .TRK_CNT_LOMF_SLIP, .TRK_CNT_SAT, .TRK_TX_TRACE, .TRK_EXP_TRACE,
      .TRK_RX_TRACE]
  | 0x113 => [.AUD_CTL, .AUD_CFG, .AUD_FRAME, .AUD_QUEUE, .AUD_MARK, .AUD_STATUS, .AUD_UNDER_CNT, .AUD_OVER_CNT,
      .AUD_TX_LAST_TAG, .AUD_TX_LAST_TIME_LO, .AUD_TX_LAST_TIME_HI, .AUD_OWNER, .AUD_CHMAP]
  | 0x114 => [.HDLC_CH_CFG, .HDLC_CH_LIMITS, .HDLC_CH_QUEUE, .HDLC_CH_STATUS, .HDLC_CNT_RX_FRAMES,
      .HDLC_CNT_TX_FRAMES, .HDLC_CNT_FCS_ABORT, .HDLC_CNT_SHORT_LONG, .HDLC_CNT_ALIGN_NOBUF,
      .HDLC_CNT_TXERR, .HDLC_CH_OWNER]
  | 0x11C => [.TEN_EVT_MASK, .CORE_EVT_EN, .CORE_EVT_PEND, .EVR_MERGED, .QSUM]
  | 0x11D => [.TEN_CTL, .TEN_STATUS, .TEN_CORES, .TEN_QRANGE, .TEN_LINKS, .TEN_MBX, .TEN_MBX_INFO, .TEN_MBX_DOOR,
      .TEN_MBX_ALLOW, .TEN_SHED_FRAME, .TEN_SHED_CAUSE, .TEN_SEG_W0, .TEN_SEG_W1, .TEN_SEL_OWN,
      .TEN_SLOT_OWN]
  | 0x11E => [.CORE_CTL, .CORE_STATUS, .CORE_START, .CORE_FAULT_INFO, .CORE_FAULT_PC, .CORE_FAULT_ADDR,
      .CORE_FAULT_FRAME, .CORE_ICACHE_CTL, .CORE_ICACHE_LOAD_BASE, .CORE_ICACHE_LOAD, .PERF_GLOBAL,
      .PERF_STATUS, .PERF_SBUF_BASE, .PERF_SBUF_CFG, .PERF_SBUF_WR, .PERF_SBUF_RD, .PERF_SBUF_LOST,
      .CORE_IRQ_SRC, .CORE_MBX_RX, .CORE_MBX_TX, .CORE_MBX_FRAME, .PERF_CTL, .PERF_CNT_LO, .PERF_CNT_HI,
      .FPERF_CTL, .FPERF_CNT_LO, .FPERF_CNT_HI, .FPERF_GLOBAL, .FPERF_STATUS]
  | 0x11F => [.CLK_ROOT_CTL, .CLK_ROOT_STATUS, .CLK_EFT_SRC, .CLK_STEER, .CLK_FRC_MEAS, .SYS_TIME_LO,
      .SYS_TIME_HI, .FRAME_COUNT, .RTC_LO, .RTC_HI, .TIME_RESUME_FRAME, .TIME_RESUME_RTC_LO,
      .TIME_RESUME_RTC_HI, .REF_SEL_CTL, .REF_SEL_STATUS, .REF_INPUT_CTL, .DPLL_LOOP, .DPLL_STATUS,
      .DPLL_PHASE, .DPLL_LOCK_CTL, .DPLL_HOLD_CTL, .DPLL_HOLD_VALUE, .DPLL_FREERUN_CAL, .DPLL_HIST_HEAD,
      .REF_TABLE_PRIO, .REF_TABLE_CTL, .REF_CAND_CFG, .REF_CAND_WTR, .REF_CAND_STATUS, .REF_CAND_FREQ,
      .DPLL_HIST]
  | 0x120 => [.PWR_CTL, .PWR_STATUS, .PWR_DOM_CTL, .PWR_DOM_STATUS, .PWR_PAD_HOLD, .PWR_PAD_REL, .PWR_WAKE_EN,
      .PWR_WAKE_CAUSE, .PWR_WAKE_RTC_LO, .PWR_WAKE_RTC_HI, .PWR_CMP_STATUS, .PWR_RTC_ALARM_LO,
      .PWR_RTC_ALARM_HI, .PWR_RUN, .PWR_CMP, .PWR_BUDGET, .POND_BANK_RUN, .POND_BANK_TORPOR,
      .POND_BANK_BRUM, .POND_BANK_STATUS, .POND_SCRUB_CTL, .POND_SCRUB_STATUS, .POND_ECC_CE_COUNT,
      .POND_ECC_UE_COUNT, .POND_ECC_UE_ADDR, .POND_ECC_UE_INFO, .POND_ECC_INJECT, .POND_SCHED]
  | 0x121 => [.PNL_CTL, .PNL_GEOM, .PNL_TIMING, .PNL_DRIVE, .PNL_STATUS, .PNL_SCAN_COUNT, .PNL_DESC_SRC,
      .PNL_DESC_RECT, .PNL_DESC_CTL, .PNL_DESC_STATUS, .PNL_OD, .PNL_RAM]
  | 0x122 => [.TH_STATUS, .TH_DIE, .TH_CFG, .TH_LIMITS, .TH_TEMP, .TH_LIN, .TH_LIN8, .FAN_MODE, .FAN_CTL, .FAN_DRIVE,
      .FAN_BLDC, .FAN_BLDC_RAMP, .FAN_TACH, .FAN_STATUS, .FAN_SPEED, .FAN_AGE_CTL, .FAN_AGE, .FAN_AGE_REF,
      .FAN_AGE_LIM, .FAN_STALLS, .FAN_TAB]
  | 0x123 => [.HL_CFG, .HL_CTL, .HL_SEQ, .HL_STATUS, .HL_CNT_HDR_CRC, .HL_CNT_FRM_GAP, .HL_CNT_DUP_BOUND,
      .HL_CNT_PARTIAL, .I2C_CFG, .I2C_STATUS]
  | 0x124 => [.NVM_CTL, .NVM_CMD, .NVM_ADDR, .NVM_POND, .NVM_LEN, .NVM_CRC_IN, .NVM_CRC_OUT, .NVM_STATUS,
      .NVM_JNEXT, .NVM_JSEQ, .XF_CTL, .XF_STATUS, .UPD_CMD, .UPD_MAN, .UPD_PAY, .UPD_STATUS, .UPD_REPORT,
      .UPD_KEY_STATE, .UPD_KEYPROG, .UPD_REVOKE, .UPD_KEY_DATA, .UPD_TKEY]
  | 0x125 => [.ID_VENDOR, .ID_PART, .ID_REV, .ID_JTAG, .ID_FUSE, .ID_UNIQUE, .RST_CAUSE, .RST_CTL, .WDT_CTL,
      .WDT_KICK, .BOOT_STATUS, .STRAP_STATUS]
  | 0x108 => [.Q_BASE, .Q_CFG, .Q_WM, .Q_HEAD, .Q_TAIL, .Q_FILL, .Q_DROP, .Q_STAT]
  | 0x109 => [.Q_BASE, .Q_CFG, .Q_WM, .Q_HEAD, .Q_TAIL, .Q_FILL, .Q_DROP, .Q_STAT]
  | 0x10A => [.Q_BASE, .Q_CFG, .Q_WM, .Q_HEAD, .Q_TAIL, .Q_FILL, .Q_DROP, .Q_STAT]
  | 0x10B => [.Q_BASE, .Q_CFG, .Q_WM, .Q_HEAD, .Q_TAIL, .Q_FILL, .Q_DROP, .Q_STAT]
  | 0x118 => [.Q_BASE, .Q_CFG, .Q_WM, .Q_HEAD, .Q_TAIL, .Q_FILL, .Q_DROP, .Q_STAT]
  | 0x119 => [.Q_BASE, .Q_CFG, .Q_WM, .Q_HEAD, .Q_TAIL, .Q_FILL, .Q_DROP, .Q_STAT]
  | 0x11A => [.Q_BASE, .Q_CFG, .Q_WM, .Q_HEAD, .Q_TAIL, .Q_FILL, .Q_DROP, .Q_STAT]
  | 0x11B => [.Q_BASE, .Q_CFG, .Q_WM, .Q_HEAD, .Q_TAIL, .Q_FILL, .Q_DROP, .Q_STAT]
  | _ => []

/-- One register of one instance, or its active view. -/
structure RegRef where
  k : RegKind
  i : Nat
  j : Nat
  act : Bool
  deriving DecidableEq, Repr

/-- The queue descriptors stand in two windows (R506): the offset of an address from descriptor 0. -/
def queueOffset (a : Nat) : Option Nat :=
  if 0x01180000 ≤ a ∧ a < 0x011C0000 then some (a - 0x01180000)
  else if 0x01080000 ≤ a ∧ a < 0x010C0000 then some (a - 0x01080000 + 0x40000)
  else none

/-- Instance numbers of an offset from a register's base. -/
def RegInfo.indexOf (r : RegInfo) (off : Nat) : Option (Nat × Nat) :=
  let i := off / r.s1
  let m := off % r.s1
  if i < r.n1 ∧ m % r.s2 = 0 ∧ m / r.s2 < r.n2 then some (i, m / r.s2) else none

/-- Does this register, or its active view, stand at the address? -/
def RegKind.at? (k : RegKind) (a : Nat) : Option RegRef :=
  let r := k.info
  match if r.base ≤ a then r.indexOf (a - r.base) else none with
  | some (i, j) => some ⟨k, i, j, false⟩
  | none =>
    match r.act with
    | none => none
    | some d =>
      match if r.base + d ≤ a then r.indexOf (a - (r.base + d)) else none with
      | some (i, j) => some ⟨k, i, j, true⟩
      | none => none

/-- The register assigned to an address, if any (R6, R837). -/
def regAt (a : Nat) : Option RegRef :=
  match queueOffset a with
  | some off =>
    (regsOfBlock 0x118).findSome? fun k => k.at? (0x01180000 + off)
  | none => (regsOfBlock (a / 0x10000)).findSome? fun k => k.at? a

/-- The address of a register (of the shadow view, for a shadowed one). Queue descriptors from 8,192 on stand in
the upper window (R506). -/
def RegKind.addr (k : RegKind) (i j : Nat) : Nat :=
  match k with
  | .Q_BASE | .Q_CFG | .Q_WM | .Q_HEAD | .Q_TAIL | .Q_FILL | .Q_DROP | .Q_STAT =>
    if i < 8192 then k.info.base + i * 32 else k.info.base - 0x100000 + (i - 8192) * 32
  | _ => k.info.base + i * k.info.s1 + j * k.info.s2

/-- Where a register's active copy is kept: at its active view; above control space where the register map gives
the active copy no address (FAB_GATE_CTL); for a register that is not shadowed, at its own address. -/
def RegKind.actAddr (k : RegKind) (i j : Nat) : Nat :=
  match k.info.act, k.info.scope with
  | some d, _ => k.addr i j + d
  | none, some _ => k.addr i j + 0x100000000
  | none, none => k.addr i j

/-- A field of a register, named. -/
structure FieldRef where
  k : RegKind
  lo : Nat
  w : Nat
  deriving DecidableEq, Repr

namespace F

abbrev CLK_ROOT_CTL_PLL_EN : FieldRef := ⟨.CLK_ROOT_CTL, 0, 1⟩
abbrev CLK_ROOT_CTL_OSC_SETTLE : FieldRef := ⟨.CLK_ROOT_CTL, 16, 16⟩
abbrev CLK_ROOT_CTL_OSC_KEEP : FieldRef := ⟨.CLK_ROOT_CTL, 1, 1⟩
abbrev CLK_ROOT_STATUS_OSC_OK : FieldRef := ⟨.CLK_ROOT_STATUS, 0, 1⟩
abbrev CLK_ROOT_STATUS_PLL_LOCK : FieldRef := ⟨.CLK_ROOT_STATUS, 1, 1⟩
abbrev CLK_ROOT_STATUS_DIV_RUN : FieldRef := ⟨.CLK_ROOT_STATUS, 2, 1⟩
abbrev CLK_ROOT_STATUS_OSC_FAIL : FieldRef := ⟨.CLK_ROOT_STATUS, 3, 1⟩
abbrev CLK_ROOT_STATUS_LOCK_LOST : FieldRef := ⟨.CLK_ROOT_STATUS, 4, 1⟩
abbrev CLK_EFT_SRC_SRC : FieldRef := ⟨.CLK_EFT_SRC, 0, 1⟩
abbrev CLK_EFT_SRC_CUR : FieldRef := ⟨.CLK_EFT_SRC, 1, 1⟩
abbrev CLK_EFT_SRC_SW_ERR : FieldRef := ⟨.CLK_EFT_SRC, 2, 1⟩
abbrev CLK_STEER_STEER : FieldRef := ⟨.CLK_STEER, 0, 24⟩
abbrev CLK_FRC_MEAS_FRC_HZ : FieldRef := ⟨.CLK_FRC_MEAS, 0, 25⟩
abbrev REF_SEL_CTL_MODE : FieldRef := ⟨.REF_SEL_CTL, 0, 2⟩
abbrev REF_SEL_CTL_FORCE_CAND : FieldRef := ⟨.REF_SEL_CTL, 4, 3⟩
abbrev REF_SEL_CTL_TABLE : FieldRef := ⟨.REF_SEL_CTL, 8, 1⟩
abbrev REF_SEL_STATUS_SEL_CAND : FieldRef := ⟨.REF_SEL_STATUS, 0, 3⟩
abbrev REF_SEL_STATUS_SEL_VALID : FieldRef := ⟨.REF_SEL_STATUS, 3, 1⟩
abbrev REF_SEL_STATUS_SEL_QL : FieldRef := ⟨.REF_SEL_STATUS, 4, 4⟩
abbrev REF_SEL_STATUS_LAST_PAUSE : FieldRef := ⟨.REF_SEL_STATUS, 8, 9⟩
abbrev REF_INPUT_CTL_REFIN0_MODE : FieldRef := ⟨.REF_INPUT_CTL, 0, 1⟩
abbrev REF_INPUT_CTL_REFIN1_MODE : FieldRef := ⟨.REF_INPUT_CTL, 1, 1⟩
abbrev REF_INPUT_CTL_PPS_EDGE : FieldRef := ⟨.REF_INPUT_CTL, 2, 1⟩
abbrev DPLL_STATUS_STATE : FieldRef := ⟨.DPLL_STATUS, 0, 2⟩
abbrev DPLL_STATUS_MISMATCH : FieldRef := ⟨.DPLL_STATUS, 2, 1⟩
abbrev DPLL_STATUS_P_HELD : FieldRef := ⟨.DPLL_STATUS, 3, 1⟩
abbrev DPLL_STATUS_BW_USED : FieldRef := ⟨.DPLL_STATUS, 4, 2⟩
abbrev DPLL_PHASE_ERR : FieldRef := ⟨.DPLL_PHASE, 0, 17⟩
abbrev DPLL_LOCK_CTL_LOCK_NS : FieldRef := ⟨.DPLL_LOCK_CTL, 0, 10⟩
abbrev DPLL_HOLD_CTL_WINDOW : FieldRef := ⟨.DPLL_HOLD_CTL, 0, 7⟩
abbrev DPLL_HOLD_CTL_GUARD : FieldRef := ⟨.DPLL_HOLD_CTL, 8, 6⟩
abbrev DPLL_HOLD_VALUE_VALUE : FieldRef := ⟨.DPLL_HOLD_VALUE, 0, 24⟩
abbrev DPLL_HOLD_VALUE_SRC : FieldRef := ⟨.DPLL_HOLD_VALUE, 24, 2⟩
abbrev DPLL_FREERUN_CAL_CAL : FieldRef := ⟨.DPLL_FREERUN_CAL, 0, 24⟩
abbrev DPLL_HIST_HEAD_HEAD : FieldRef := ⟨.DPLL_HIST_HEAD, 0, 7⟩
abbrev DPLL_HIST_HEAD_COUNT : FieldRef := ⟨.DPLL_HIST_HEAD, 8, 8⟩
abbrev DPLL_HIST_HEAD_USED : FieldRef := ⟨.DPLL_HIST_HEAD, 16, 8⟩
abbrev REF_TABLE_CTL_REVERT : FieldRef := ⟨.REF_TABLE_CTL, 0, 1⟩
abbrev REF_TABLE_CTL_QL_EN : FieldRef := ⟨.REF_TABLE_CTL, 1, 1⟩
abbrev REF_TABLE_CTL_QL_MIN : FieldRef := ⟨.REF_TABLE_CTL, 4, 4⟩
abbrev REF_CAND_CFG_EN : FieldRef := ⟨.REF_CAND_CFG, 0, 1⟩
abbrev REF_CAND_CFG_TYPE : FieldRef := ⟨.REF_CAND_CFG, 1, 3⟩
abbrev REF_CAND_CFG_INDEX : FieldRef := ⟨.REF_CAND_CFG, 4, 7⟩
abbrev REF_CAND_CFG_SA_SEL : FieldRef := ⟨.REF_CAND_CFG, 11, 3⟩
abbrev REF_CAND_CFG_QL_SRC : FieldRef := ⟨.REF_CAND_CFG, 14, 1⟩
abbrev REF_CAND_CFG_QL_ASSIGN : FieldRef := ⟨.REF_CAND_CFG, 16, 4⟩
abbrev REF_CAND_CFG_FREQ_LIM : FieldRef := ⟨.REF_CAND_CFG, 24, 8⟩
abbrev REF_CAND_WTR_WTR_S : FieldRef := ⟨.REF_CAND_WTR, 0, 12⟩
abbrev REF_CAND_STATUS_QUAL : FieldRef := ⟨.REF_CAND_STATUS, 0, 1⟩
abbrev REF_CAND_STATUS_SELECTABLE : FieldRef := ⟨.REF_CAND_STATUS, 1, 1⟩
abbrev REF_CAND_STATUS_FAIL_ACT : FieldRef := ⟨.REF_CAND_STATUS, 2, 1⟩
abbrev REF_CAND_STATUS_FAIL_DEF : FieldRef := ⟨.REF_CAND_STATUS, 3, 1⟩
abbrev REF_CAND_STATUS_FAIL_FREQ : FieldRef := ⟨.REF_CAND_STATUS, 4, 1⟩
abbrev REF_CAND_STATUS_FAIL_CFG : FieldRef := ⟨.REF_CAND_STATUS, 5, 1⟩
abbrev REF_CAND_STATUS_WTR_RUN : FieldRef := ⟨.REF_CAND_STATUS, 6, 1⟩
abbrev REF_CAND_STATUS_QL_FAILED : FieldRef := ⟨.REF_CAND_STATUS, 7, 1⟩
abbrev REF_CAND_STATUS_QL : FieldRef := ⟨.REF_CAND_STATUS, 8, 4⟩
abbrev REF_CAND_STATUS_WTR_LEFT : FieldRef := ⟨.REF_CAND_STATUS, 16, 12⟩
abbrev REF_CAND_FREQ_OFFSET : FieldRef := ⟨.REF_CAND_FREQ, 0, 16⟩
abbrev REF_CAND_FREQ_VALID : FieldRef := ⟨.REF_CAND_FREQ, 16, 1⟩
abbrev DPLL_HIST_AVG : FieldRef := ⟨.DPLL_HIST, 0, 24⟩
abbrev DPLL_HIST_VALID : FieldRef := ⟨.DPLL_HIST, 31, 1⟩
abbrev FAB_GATE_CTL_AUTO : FieldRef := ⟨.FAB_GATE_CTL, 0, 1⟩
abbrev FAB_PAR_STATUS_LAST_SLOT : FieldRef := ⟨.FAB_PAR_STATUS, 0, 14⟩
abbrev FAB_PAR_STATUS_CONN_ERR : FieldRef := ⟨.FAB_PAR_STATUS, 16, 1⟩
abbrev FAB_PAR_STATUS_SEL_ERR : FieldRef := ⟨.FAB_PAR_STATUS, 17, 1⟩
abbrev FAB_PAR_STATUS_PAR_SAT : FieldRef := ⟨.FAB_PAR_STATUS, 18, 1⟩
abbrev FAB_PAR_COUNT_COUNT : FieldRef := ⟨.FAB_PAR_COUNT, 0, 16⟩
abbrev FAB_CAPTURE_CTL_SLOT : FieldRef := ⟨.FAB_CAPTURE_CTL, 0, 14⟩
abbrev FAB_CAPTURE_CTL_ARM : FieldRef := ⟨.FAB_CAPTURE_CTL, 31, 1⟩
abbrev FAB_TONE_CTL_TONE_LEN : FieldRef := ⟨.FAB_TONE_CTL, 0, 8⟩
abbrev FAB_TONE_CTL_EN : FieldRef := ⟨.FAB_TONE_CTL, 31, 1⟩
abbrev FAB_PAT_CTL_PAT_MODE : FieldRef := ⟨.FAB_PAT_CTL, 0, 2⟩
abbrev FAB_PAT_CTL_SYNC : FieldRef := ⟨.FAB_PAT_CTL, 8, 1⟩
abbrev FAB_PAT_CTL_PAT_SAT : FieldRef := ⟨.FAB_PAT_CTL, 9, 1⟩
abbrev FAB_PAT_ERR_PAT_ERR : FieldRef := ⟨.FAB_PAT_ERR, 0, 32⟩
abbrev LINE_CTL_EN : FieldRef := ⟨.LINE_CTL, 0, 1⟩
abbrev LINE_CTL_IF_MODE : FieldRef := ⟨.LINE_CTL, 1, 1⟩
abbrev LINE_CTL_CODE : FieldRef := ⟨.LINE_CTL, 2, 1⟩
abbrev LINE_CTL_CRC4 : FieldRef := ⟨.LINE_CTL, 3, 2⟩
abbrev LINE_CTL_RX_FRAMING : FieldRef := ⟨.LINE_CTL, 5, 1⟩
abbrev LINE_CTL_TX_FRAMING : FieldRef := ⟨.LINE_CTL, 6, 1⟩
abbrev LINE_CTL_LOOP : FieldRef := ⟨.LINE_CTL, 7, 2⟩
abbrev LINE_CTL_NFAS_LOSS : FieldRef := ⟨.LINE_CTL, 9, 1⟩
abbrev LINE_CTL_CRC_LOSS_EN : FieldRef := ⟨.LINE_CTL, 10, 1⟩
abbrev LINE_TX_SA_TX_A : FieldRef := ⟨.LINE_TX_SA, 0, 1⟩
abbrev LINE_TX_SA_SA_STATIC : FieldRef := ⟨.LINE_TX_SA, 1, 5⟩
abbrev LINE_TX_SA_SSM_SEL : FieldRef := ⟨.LINE_TX_SA, 6, 3⟩
abbrev LINE_TX_SA_SSM_TX : FieldRef := ⟨.LINE_TX_SA, 9, 4⟩
abbrev LINE_TX_SA_SI_FAS : FieldRef := ⟨.LINE_TX_SA, 13, 1⟩
abbrev LINE_TX_SA_SI_NFAS : FieldRef := ⟨.LINE_TX_SA, 14, 1⟩
abbrev LINE_TX_E_E_DEBT : FieldRef := ⟨.LINE_TX_E, 0, 10⟩
abbrev LINE_STATUS_LOS : FieldRef := ⟨.LINE_STATUS, 0, 1⟩
abbrev LINE_STATUS_AIS : FieldRef := ⟨.LINE_STATUS, 1, 1⟩
abbrev LINE_STATUS_LOF : FieldRef := ⟨.LINE_STATUS, 2, 1⟩
abbrev LINE_RX_SA_NIBBLES : FieldRef := ⟨.LINE_RX_SA, 0, 20⟩
abbrev LINE_RX_SA_SA_LAST : FieldRef := ⟨.LINE_RX_SA, 20, 5⟩
abbrev LINE_RX_SA_A_LAST : FieldRef := ⟨.LINE_RX_SA, 25, 1⟩
abbrev LINE_RX_PHASE_MF_OFFSET : FieldRef := ⟨.LINE_RX_PHASE, 0, 4⟩
abbrev LINE_RX_PHASE_FILL : FieldRef := ⟨.LINE_RX_PHASE, 8, 10⟩
abbrev LINE_E_DEBIT_DEBIT : FieldRef := ⟨.LINE_E_DEBIT, 0, 10⟩
abbrev TRK_CTL_EN : FieldRef := ⟨.TRK_CTL, 0, 1⟩
abbrev TRK_CTL_PAIR : FieldRef := ⟨.TRK_CTL, 1, 1⟩
abbrev TRK_CTL_LOOP : FieldRef := ⟨.TRK_CTL, 2, 2⟩
abbrev TRK_TX_OH_QL : FieldRef := ⟨.TRK_TX_OH, 0, 4⟩
abbrev TRK_TX_OH_PC1 : FieldRef := ⟨.TRK_TX_OH, 8, 8⟩
abbrev TRK_TX_OH_PC2 : FieldRef := ⟨.TRK_TX_OH, 16, 8⟩
abbrev TRK_TX_REI_REI_DEBT : FieldRef := ⟨.TRK_TX_REI, 0, 16⟩
abbrev TRK_RX_OH_QL : FieldRef := ⟨.TRK_RX_OH, 0, 4⟩
abbrev TRK_RX_OH_PC1 : FieldRef := ⟨.TRK_RX_OH, 8, 8⟩
abbrev TRK_RX_OH_PC2 : FieldRef := ⟨.TRK_RX_OH, 16, 8⟩
abbrev TRK_RX_OH_REI_LAST : FieldRef := ⟨.TRK_RX_OH, 24, 8⟩
abbrev TRK_RX_PHASE_MF_OFFSET : FieldRef := ⟨.TRK_RX_PHASE, 0, 4⟩
abbrev TRK_RX_PHASE_DELAY : FieldRef := ⟨.TRK_RX_PHASE, 8, 5⟩
abbrev TRK_PAIR_STATUS_ALIGN_EVEN : FieldRef := ⟨.TRK_PAIR_STATUS, 0, 1⟩
abbrev TRK_PAIR_STATUS_ALIGN_ODD : FieldRef := ⟨.TRK_PAIR_STATUS, 1, 1⟩
abbrev TRK_PAIR_STATUS_DELTA : FieldRef := ⟨.TRK_PAIR_STATUS, 8, 5⟩
abbrev TRK_PAIR_STATUS_D : FieldRef := ⟨.TRK_PAIR_STATUS, 16, 3⟩
abbrev TRK_REI_DEBIT_DEBIT : FieldRef := ⟨.TRK_REI_DEBIT, 0, 16⟩
abbrev TRK_OWNER_TENANT : FieldRef := ⟨.TRK_OWNER, 0, 4⟩
abbrev AUD_CTL_EN : FieldRef := ⟨.AUD_CTL, 0, 1⟩
abbrev AUD_CTL_RESTART : FieldRef := ⟨.AUD_CTL, 1, 1⟩
abbrev AUD_CFG_FORMAT : FieldRef := ⟨.AUD_CFG, 0, 2⟩
abbrev AUD_CFG_RATE : FieldRef := ⟨.AUD_CFG, 2, 2⟩
abbrev AUD_CFG_FS_DELAY : FieldRef := ⟨.AUD_CFG, 4, 1⟩
abbrev AUD_CFG_MCLK_DIV : FieldRef := ⟨.AUD_CFG, 5, 2⟩
abbrev AUD_CFG_Q_FMT : FieldRef := ⟨.AUD_CFG, 7, 1⟩
abbrev AUD_CFG_BLOCK_FRAMES : FieldRef := ⟨.AUD_CFG, 8, 6⟩
abbrev AUD_CFG_MARK_EN : FieldRef := ⟨.AUD_CFG, 14, 1⟩
abbrev AUD_QUEUE_RXQ : FieldRef := ⟨.AUD_QUEUE, 0, 14⟩
abbrev AUD_QUEUE_TXQ : FieldRef := ⟨.AUD_QUEUE, 16, 14⟩
abbrev AUD_STATUS_RUN : FieldRef := ⟨.AUD_STATUS, 0, 1⟩
abbrev AUD_STATUS_ERR : FieldRef := ⟨.AUD_STATUS, 1, 3⟩
abbrev AUD_STATUS_MISMATCH : FieldRef := ⟨.AUD_STATUS, 4, 1⟩
abbrev AUD_STATUS_UNDER : FieldRef := ⟨.AUD_STATUS, 5, 1⟩
abbrev AUD_STATUS_OVER : FieldRef := ⟨.AUD_STATUS, 6, 1⟩
abbrev AUD_STATUS_ROT : FieldRef := ⟨.AUD_STATUS, 7, 1⟩
abbrev AUD_STATUS_UNDER_SAT : FieldRef := ⟨.AUD_STATUS, 8, 1⟩
abbrev AUD_STATUS_OVER_SAT : FieldRef := ⟨.AUD_STATUS, 9, 1⟩
abbrev AUD_UNDER_CNT_COUNT : FieldRef := ⟨.AUD_UNDER_CNT, 0, 16⟩
abbrev AUD_OVER_CNT_COUNT : FieldRef := ⟨.AUD_OVER_CNT, 0, 16⟩
abbrev AUD_TX_LAST_TAG_TAG : FieldRef := ⟨.AUD_TX_LAST_TAG, 0, 16⟩
abbrev AUD_OWNER_TENANT : FieldRef := ⟨.AUD_OWNER, 0, 4⟩
abbrev AUD_CHMAP_DEST : FieldRef := ⟨.AUD_CHMAP, 0, 2⟩
abbrev AUD_CHMAP_CODING : FieldRef := ⟨.AUD_CHMAP, 2, 2⟩
abbrev AUD_CHMAP_SLOT_BASE : FieldRef := ⟨.AUD_CHMAP, 8, 8⟩
abbrev HDLC_CH_CFG_EN : FieldRef := ⟨.HDLC_CH_CFG, 0, 1⟩
abbrev HDLC_CH_STATUS_RUN : FieldRef := ⟨.HDLC_CH_STATUS, 0, 1⟩
abbrev HDLC_CH_STATUS_CFG_ERR : FieldRef := ⟨.HDLC_CH_STATUS, 1, 3⟩
abbrev HDLC_CH_STATUS_SAT : FieldRef := ⟨.HDLC_CH_STATUS, 15, 1⟩
abbrev HDLC_CNT_RX_FRAMES_RX : FieldRef := ⟨.HDLC_CNT_RX_FRAMES, 0, 32⟩
abbrev HDLC_CNT_TX_FRAMES_TX : FieldRef := ⟨.HDLC_CNT_TX_FRAMES, 0, 32⟩
abbrev HDLC_CNT_FCS_ABORT_FCS_ERR : FieldRef := ⟨.HDLC_CNT_FCS_ABORT, 0, 16⟩
abbrev HDLC_CNT_FCS_ABORT_ABORT : FieldRef := ⟨.HDLC_CNT_FCS_ABORT, 16, 16⟩
abbrev HDLC_CNT_SHORT_LONG_SHORT : FieldRef := ⟨.HDLC_CNT_SHORT_LONG, 0, 16⟩
abbrev HDLC_CNT_SHORT_LONG_LONG : FieldRef := ⟨.HDLC_CNT_SHORT_LONG, 16, 16⟩
abbrev HDLC_CNT_ALIGN_NOBUF_ALIGN : FieldRef := ⟨.HDLC_CNT_ALIGN_NOBUF, 0, 16⟩
abbrev HDLC_CNT_ALIGN_NOBUF_NOBUF : FieldRef := ⟨.HDLC_CNT_ALIGN_NOBUF, 16, 16⟩
abbrev HDLC_CNT_TXERR_TXERR : FieldRef := ⟨.HDLC_CNT_TXERR, 0, 16⟩
abbrev HDLC_CH_OWNER_TENANT : FieldRef := ⟨.HDLC_CH_OWNER, 0, 4⟩
abbrev EVR_MERGED_COUNT : FieldRef := ⟨.EVR_MERGED, 0, 16⟩
abbrev TEN_CTL_AUTO_RETURN : FieldRef := ⟨.TEN_CTL, 8, 1⟩
abbrev TEN_CTL_SHED_ON_DOUBLE : FieldRef := ⟨.TEN_CTL, 9, 1⟩
abbrev TEN_STATUS_SHEDS : FieldRef := ⟨.TEN_STATUS, 16, 16⟩
abbrev TEN_QRANGE_FIRST : FieldRef := ⟨.TEN_QRANGE, 0, 14⟩
abbrev TEN_QRANGE_COUNT : FieldRef := ⟨.TEN_QRANGE, 16, 15⟩
abbrev TEN_MBX_INFO_SENDER : FieldRef := ⟨.TEN_MBX_INFO, 0, 4⟩
abbrev TEN_MBX_INFO_VIA_LINK : FieldRef := ⟨.TEN_MBX_INFO, 4, 1⟩
abbrev TEN_MBX_INFO_LINK : FieldRef := ⟨.TEN_MBX_INFO, 5, 2⟩
abbrev TEN_MBX_INFO_OVER : FieldRef := ⟨.TEN_MBX_INFO, 8, 1⟩
abbrev TEN_SHED_CAUSE_CAUSE : FieldRef := ⟨.TEN_SHED_CAUSE, 0, 2⟩
abbrev CORE_START_MAIN_PC : FieldRef := ⟨.CORE_START, 2, 22⟩
abbrev CORE_FAULT_INFO_CODE : FieldRef := ⟨.CORE_FAULT_INFO, 0, 4⟩
abbrev CORE_FAULT_INFO_CTX : FieldRef := ⟨.CORE_FAULT_INFO, 4, 1⟩
abbrev CORE_FAULT_INFO_HALF : FieldRef := ⟨.CORE_FAULT_INFO, 5, 1⟩
abbrev CORE_FAULT_INFO_PAIR : FieldRef := ⟨.CORE_FAULT_INFO, 6, 1⟩
abbrev CORE_FAULT_INFO_DOUBLE : FieldRef := ⟨.CORE_FAULT_INFO, 7, 1⟩
abbrev CORE_FAULT_INFO_COUNT : FieldRef := ⟨.CORE_FAULT_INFO, 16, 16⟩
abbrev CORE_ICACHE_CTL_PIN : FieldRef := ⟨.CORE_ICACHE_CTL, 0, 1⟩
abbrev CORE_ICACHE_LOAD_BASE_BASE : FieldRef := ⟨.CORE_ICACHE_LOAD_BASE, 5, 19⟩
abbrev CORE_ICACHE_LOAD_COUNT : FieldRef := ⟨.CORE_ICACHE_LOAD, 0, 9⟩
abbrev CORE_ICACHE_LOAD_LOAD_ERR : FieldRef := ⟨.CORE_ICACHE_LOAD, 29, 1⟩
abbrev CORE_ICACHE_LOAD_BUSY : FieldRef := ⟨.CORE_ICACHE_LOAD, 30, 1⟩
abbrev PERF_SBUF_BASE_BASE : FieldRef := ⟨.PERF_SBUF_BASE, 4, 20⟩
abbrev PERF_SBUF_CFG_EN : FieldRef := ⟨.PERF_SBUF_CFG, 0, 1⟩
abbrev PERF_SBUF_CFG_SIZE_LOG2 : FieldRef := ⟨.PERF_SBUF_CFG, 4, 5⟩
abbrev PERF_SBUF_CFG_CFG_ERR : FieldRef := ⟨.PERF_SBUF_CFG, 12, 3⟩
abbrev PERF_SBUF_CFG_BANK_ERR : FieldRef := ⟨.PERF_SBUF_CFG, 16, 1⟩
abbrev PERF_SBUF_WR_WR : FieldRef := ⟨.PERF_SBUF_WR, 0, 17⟩
abbrev PERF_SBUF_RD_RD : FieldRef := ⟨.PERF_SBUF_RD, 0, 17⟩
abbrev PERF_SBUF_LOST_LOST : FieldRef := ⟨.PERF_SBUF_LOST, 0, 16⟩
abbrev PERF_SBUF_LOST_LOST_SAT : FieldRef := ⟨.PERF_SBUF_LOST, 16, 1⟩
abbrev PERF_CTL_SEL : FieldRef := ⟨.PERF_CTL, 0, 6⟩
abbrev PERF_CTL_SAMPLE : FieldRef := ⟨.PERF_CTL, 9, 1⟩
abbrev PWR_CTL_TARGET : FieldRef := ⟨.PWR_CTL, 0, 2⟩
abbrev PWR_STATUS_STATE : FieldRef := ⟨.PWR_STATUS, 0, 2⟩
abbrev PWR_STATUS_ALLOWED : FieldRef := ⟨.PWR_STATUS, 2, 2⟩
abbrev PWR_STATUS_GOAL : FieldRef := ⟨.PWR_STATUS, 4, 2⟩
abbrev PWR_STATUS_LATE_RUN : FieldRef := ⟨.PWR_STATUS, 8, 1⟩
abbrev PWR_STATUS_BRUM_CAPPED : FieldRef := ⟨.PWR_STATUS, 9, 1⟩
abbrev PWR_DOM_STATUS_FAB_PG : FieldRef := ⟨.PWR_DOM_STATUS, 18, 1⟩
abbrev PWR_DOM_STATUS_NEWT_PG : FieldRef := ⟨.PWR_DOM_STATUS, 19, 1⟩
abbrev PWR_DOM_STATUS_EFT_PG : FieldRef := ⟨.PWR_DOM_STATUS, 20, 1⟩
abbrev PWR_RTC_ALARM_HI_ALARM_HI : FieldRef := ⟨.PWR_RTC_ALARM_HI, 0, 16⟩
abbrev PWR_RTC_ALARM_HI_EN : FieldRef := ⟨.PWR_RTC_ALARM_HI, 31, 1⟩
abbrev PWR_CMP_THRESH : FieldRef := ⟨.PWR_CMP, 0, 8⟩
abbrev PWR_CMP_HYST : FieldRef := ⟨.PWR_CMP, 8, 3⟩
abbrev PWR_CMP_DIR : FieldRef := ⟨.PWR_CMP, 12, 1⟩
abbrev PWR_CMP_EN : FieldRef := ⟨.PWR_CMP, 15, 1⟩
abbrev PWR_CMP_FILTER : FieldRef := ⟨.PWR_CMP, 16, 8⟩
abbrev POND_SCRUB_CTL_EN : FieldRef := ⟨.POND_SCRUB_CTL, 0, 1⟩
abbrev POND_SCRUB_CTL_DIV : FieldRef := ⟨.POND_SCRUB_CTL, 4, 4⟩
abbrev POND_SCRUB_STATUS_LINE : FieldRef := ⟨.POND_SCRUB_STATUS, 0, 19⟩
abbrev POND_SCRUB_STATUS_PASSES : FieldRef := ⟨.POND_SCRUB_STATUS, 20, 12⟩
abbrev POND_ECC_CE_COUNT_COUNT : FieldRef := ⟨.POND_ECC_CE_COUNT, 0, 16⟩
abbrev POND_ECC_UE_COUNT_COUNT : FieldRef := ⟨.POND_ECC_UE_COUNT, 0, 16⟩
abbrev POND_ECC_UE_INFO_MASTER : FieldRef := ⟨.POND_ECC_UE_INFO, 0, 8⟩
abbrev POND_ECC_UE_INFO_PORT : FieldRef := ⟨.POND_ECC_UE_INFO, 8, 2⟩
abbrev POND_ECC_UE_INFO_CE_SAT : FieldRef := ⟨.POND_ECC_UE_INFO, 16, 1⟩
abbrev POND_ECC_UE_INFO_UE_SAT : FieldRef := ⟨.POND_ECC_UE_INFO, 17, 1⟩
abbrev POND_ECC_UE_INFO_UE_ANY : FieldRef := ⟨.POND_ECC_UE_INFO, 18, 1⟩
abbrev PNL_CTL_ROW_POL : FieldRef := ⟨.PNL_CTL, 1, 1⟩
abbrev PNL_CTL_VEN_DELAY : FieldRef := ⟨.PNL_CTL, 8, 8⟩
abbrev PNL_GEOM_COLS : FieldRef := ⟨.PNL_GEOM, 0, 8⟩
abbrev PNL_GEOM_ROWS : FieldRef := ⟨.PNL_GEOM, 8, 6⟩
abbrev PNL_GEOM_VBLANK : FieldRef := ⟨.PNL_GEOM, 16, 4⟩
abbrev PNL_TIMING_PDIV : FieldRef := ⟨.PNL_TIMING, 0, 8⟩
abbrev PNL_TIMING_PRE : FieldRef := ⟨.PNL_TIMING, 8, 8⟩
abbrev PNL_TIMING_DIS : FieldRef := ⟨.PNL_TIMING, 24, 8⟩
abbrev PNL_TIMING_GS : FieldRef := ⟨.PNL_TIMING, 16, 8⟩
abbrev PNL_DRIVE_ISEG : FieldRef := ⟨.PNL_DRIVE, 0, 8⟩
abbrev PNL_STATUS_STATE : FieldRef := ⟨.PNL_STATUS, 0, 2⟩
abbrev PNL_STATUS_ROW : FieldRef := ⟨.PNL_STATUS, 8, 6⟩
abbrev PNL_STATUS_BLANK : FieldRef := ⟨.PNL_STATUS, 14, 1⟩
abbrev PNL_STATUS_LATE : FieldRef := ⟨.PNL_STATUS, 16, 1⟩
abbrev PNL_SCAN_COUNT_SCANS : FieldRef := ⟨.PNL_SCAN_COUNT, 0, 32⟩
abbrev PNL_DESC_SRC_SRC : FieldRef := ⟨.PNL_DESC_SRC, 0, 24⟩
abbrev PNL_DESC_RECT_X2 : FieldRef := ⟨.PNL_DESC_RECT, 0, 7⟩
abbrev PNL_DESC_RECT_Y : FieldRef := ⟨.PNL_DESC_RECT, 8, 6⟩
abbrev PNL_DESC_RECT_W2 : FieldRef := ⟨.PNL_DESC_RECT, 16, 7⟩
abbrev PNL_DESC_RECT_H1 : FieldRef := ⟨.PNL_DESC_RECT, 24, 6⟩
abbrev PNL_DESC_STATUS_STATE : FieldRef := ⟨.PNL_DESC_STATUS, 0, 2⟩
abbrev PNL_DESC_STATUS_ERR : FieldRef := ⟨.PNL_DESC_STATUS, 4, 3⟩
abbrev PNL_DESC_STATUS_SEQ : FieldRef := ⟨.PNL_DESC_STATUS, 8, 8⟩
abbrev TH_STATUS_WARN : FieldRef := ⟨.TH_STATUS, 0, 1⟩
abbrev TH_STATUS_FAULT : FieldRef := ⟨.TH_STATUS, 8, 8⟩
abbrev TH_DIE_CODE : FieldRef := ⟨.TH_DIE, 0, 12⟩
abbrev TH_CFG_EN : FieldRef := ⟨.TH_CFG, 0, 8⟩
abbrev TH_LIMITS_SHORT_LIM : FieldRef := ⟨.TH_LIMITS, 0, 12⟩
abbrev TH_LIMITS_OPEN_LIM : FieldRef := ⟨.TH_LIMITS, 16, 12⟩
abbrev TH_TEMP_TEMP : FieldRef := ⟨.TH_TEMP, 0, 12⟩
abbrev TH_TEMP_RAW : FieldRef := ⟨.TH_TEMP, 16, 12⟩
abbrev TH_TEMP_FAULT : FieldRef := ⟨.TH_TEMP, 31, 1⟩
abbrev TH_LIN_L2w : FieldRef := ⟨.TH_LIN, 0, 12⟩
abbrev TH_LIN_L2w_1 : FieldRef := ⟨.TH_LIN, 16, 12⟩
abbrev TH_LIN8_L16 : FieldRef := ⟨.TH_LIN8, 0, 12⟩
abbrev FAN_CTL_RUN : FieldRef := ⟨.FAN_CTL, 0, 1⟩
abbrev FAN_CTL_SRC : FieldRef := ⟨.FAN_CTL, 1, 1⟩
abbrev FAN_CTL_WARN_FULL : FieldRef := ⟨.FAN_CTL, 3, 1⟩
abbrev FAN_CTL_FIXED_DUTY : FieldRef := ⟨.FAN_CTL, 8, 8⟩
abbrev FAN_CTL_SENS : FieldRef := ⟨.FAN_CTL, 16, 9⟩
abbrev FAN_DRIVE_PWM_DIV : FieldRef := ⟨.FAN_DRIVE, 0, 2⟩
abbrev FAN_DRIVE_MIN_DUTY : FieldRef := ⟨.FAN_DRIVE, 8, 8⟩
abbrev FAN_DRIVE_HYST : FieldRef := ⟨.FAN_DRIVE, 16, 12⟩
abbrev FAN_BLDC_POLE_PAIRS : FieldRef := ⟨.FAN_BLDC, 0, 4⟩
abbrev FAN_BLDC_START_DUTY : FieldRef := ⟨.FAN_BLDC, 8, 8⟩
abbrev FAN_BLDC_ALIGN_MS : FieldRef := ⟨.FAN_BLDC, 16, 8⟩
abbrev FAN_BLDC_RAMP_MS : FieldRef := ⟨.FAN_BLDC, 24, 8⟩
abbrev FAN_BLDC_RAMP_RAMP_START : FieldRef := ⟨.FAN_BLDC_RAMP, 0, 16⟩
abbrev FAN_BLDC_RAMP_RAMP_END : FieldRef := ⟨.FAN_BLDC_RAMP, 16, 16⟩
abbrev FAN_TACH_PPR : FieldRef := ⟨.FAN_TACH, 0, 2⟩
abbrev FAN_TACH_KICK_MS : FieldRef := ⟨.FAN_TACH, 8, 8⟩
abbrev FAN_TACH_SPINUP : FieldRef := ⟨.FAN_TACH, 16, 8⟩
abbrev FAN_STATUS_STATE : FieldRef := ⟨.FAN_STATUS, 0, 3⟩
abbrev FAN_STATUS_DUTY : FieldRef := ⟨.FAN_STATUS, 8, 8⟩
abbrev FAN_STATUS_MISMATCH : FieldRef := ⟨.FAN_STATUS, 16, 1⟩
abbrev FAN_SPEED_SPEED : FieldRef := ⟨.FAN_SPEED, 0, 16⟩
abbrev FAN_SPEED_TH : FieldRef := ⟨.FAN_SPEED, 16, 12⟩
abbrev FAN_AGE_CTL_RPM : FieldRef := ⟨.FAN_AGE_CTL, 0, 16⟩
abbrev FAN_AGE_DUTY : FieldRef := ⟨.FAN_AGE, 0, 16⟩
abbrev FAN_AGE_RESULT : FieldRef := ⟨.FAN_AGE, 16, 3⟩
abbrev FAN_AGE_OLD : FieldRef := ⟨.FAN_AGE, 19, 1⟩
abbrev FAN_AGE_REF_AGE_REF : FieldRef := ⟨.FAN_AGE_REF, 0, 16⟩
abbrev FAN_AGE_LIM_AGE_LIM : FieldRef := ⟨.FAN_AGE_LIM, 0, 16⟩
abbrev FAN_AGE_LIM_RATIO : FieldRef := ⟨.FAN_AGE_LIM, 16, 16⟩
abbrev FAN_STALLS_STALLS : FieldRef := ⟨.FAN_STALLS, 0, 16⟩
abbrev FAN_TAB_T : FieldRef := ⟨.FAN_TAB, 0, 12⟩
abbrev FAN_TAB_D : FieldRef := ⟨.FAN_TAB, 16, 8⟩
abbrev HL_CFG_T0_OK : FieldRef := ⟨.HL_CFG, 6, 1⟩
abbrev HL_CFG_DIAG_EN : FieldRef := ⟨.HL_CFG, 7, 1⟩
abbrev HL_CFG_IDLE_FR : FieldRef := ⟨.HL_CFG, 8, 8⟩
abbrev HL_CFG_REPLAY_FR : FieldRef := ⟨.HL_CFG, 16, 8⟩
abbrev HL_STATUS_SAT : FieldRef := ⟨.HL_STATUS, 16, 1⟩
abbrev HL_CNT_HDR_CRC_HDR_ERR : FieldRef := ⟨.HL_CNT_HDR_CRC, 0, 16⟩
abbrev HL_CNT_HDR_CRC_CRC_ERR : FieldRef := ⟨.HL_CNT_HDR_CRC, 16, 16⟩
abbrev HL_CNT_FRM_GAP_FRAMING : FieldRef := ⟨.HL_CNT_FRM_GAP, 0, 16⟩
abbrev HL_CNT_FRM_GAP_GAP : FieldRef := ⟨.HL_CNT_FRM_GAP, 16, 16⟩
abbrev HL_CNT_DUP_BOUND_DUP : FieldRef := ⟨.HL_CNT_DUP_BOUND, 0, 16⟩
abbrev HL_CNT_DUP_BOUND_NOT_BOUND : FieldRef := ⟨.HL_CNT_DUP_BOUND, 16, 16⟩
abbrev HL_CNT_PARTIAL_PARTIAL : FieldRef := ⟨.HL_CNT_PARTIAL, 0, 16⟩
abbrev HL_CNT_PARTIAL_REPLAYS : FieldRef := ⟨.HL_CNT_PARTIAL, 16, 16⟩
abbrev I2C_CFG_EN : FieldRef := ⟨.I2C_CFG, 0, 1⟩
abbrev I2C_STATUS_REJECTS : FieldRef := ⟨.I2C_STATUS, 0, 16⟩
abbrev I2C_STATUS_ACC_ERR : FieldRef := ⟨.I2C_STATUS, 16, 16⟩
abbrev NVM_CTL_FROG_UNLOCK0 : FieldRef := ⟨.NVM_CTL, 0, 1⟩
abbrev NVM_CTL_FROG_UNLOCK1 : FieldRef := ⟨.NVM_CTL, 1, 1⟩
abbrev NVM_CTL_LOCK_DOWN : FieldRef := ⟨.NVM_CTL, 2, 1⟩
abbrev NVM_CMD_OP : FieldRef := ⟨.NVM_CMD, 0, 4⟩
abbrev NVM_ADDR_ADDR : FieldRef := ⟨.NVM_ADDR, 0, 32⟩
abbrev NVM_POND_POND : FieldRef := ⟨.NVM_POND, 0, 24⟩
abbrev NVM_LEN_LEN : FieldRef := ⟨.NVM_LEN, 0, 21⟩
abbrev NVM_STATUS_BUSY : FieldRef := ⟨.NVM_STATUS, 0, 1⟩
abbrev NVM_STATUS_ERR : FieldRef := ⟨.NVM_STATUS, 8, 4⟩
abbrev NVM_JNEXT_SLOT : FieldRef := ⟨.NVM_JNEXT, 5, 12⟩
abbrev XF_CTL_EN : FieldRef := ⟨.XF_CTL, 0, 1⟩
abbrev XF_CTL_XDIV : FieldRef := ⟨.XF_CTL, 4, 2⟩
abbrev XF_STATUS_READY : FieldRef := ⟨.XF_STATUS, 0, 1⟩
abbrev XF_STATUS_QUAD : FieldRef := ⟨.XF_STATUS, 1, 1⟩
abbrev XF_STATUS_ADDR4 : FieldRef := ⟨.XF_STATUS, 2, 1⟩
abbrev XF_STATUS_DENSITY : FieldRef := ⟨.XF_STATUS, 8, 4⟩
abbrev UPD_CMD_KEYSRC : FieldRef := ⟨.UPD_CMD, 0, 1⟩
abbrev UPD_MAN_ADDR : FieldRef := ⟨.UPD_MAN, 0, 24⟩
abbrev UPD_PAY_ADDR : FieldRef := ⟨.UPD_PAY, 0, 24⟩
abbrev UPD_STATUS_BUSY : FieldRef := ⟨.UPD_STATUS, 0, 1⟩
abbrev UPD_STATUS_RESULT : FieldRef := ⟨.UPD_STATUS, 1, 3⟩
abbrev UPD_STATUS_SLOT : FieldRef := ⟨.UPD_STATUS, 4, 2⟩
abbrev UPD_STATUS_KEY_ERR : FieldRef := ⟨.UPD_STATUS, 8, 1⟩
abbrev WDT_CTL_EN : FieldRef := ⟨.WDT_CTL, 0, 1⟩
abbrev WDT_CTL_TIMEOUT : FieldRef := ⟨.WDT_CTL, 16, 16⟩
abbrev BOOT_STATUS_COPY : FieldRef := ⟨.BOOT_STATUS, 0, 1⟩
abbrev BOOT_STATUS_COPY0_ERR : FieldRef := ⟨.BOOT_STATUS, 1, 1⟩
abbrev BOOT_STATUS_COPY1_ERR : FieldRef := ⟨.BOOT_STATUS, 2, 1⟩
abbrev BOOT_STATUS_FAIL : FieldRef := ⟨.BOOT_STATUS, 3, 1⟩
abbrev BOOT_STATUS_BLOCK0 : FieldRef := ⟨.BOOT_STATUS, 4, 3⟩
abbrev BOOT_STATUS_BLOCK1 : FieldRef := ⟨.BOOT_STATUS, 8, 3⟩
abbrev STRAP_STATUS_I2C_A : FieldRef := ⟨.STRAP_STATUS, 0, 3⟩
abbrev STRAP_STATUS_BOOT_HOLD : FieldRef := ⟨.STRAP_STATUS, 3, 1⟩
abbrev STRAP_STATUS_TEST_MODE : FieldRef := ⟨.STRAP_STATUS, 4, 1⟩

end F

end Sys2Proof.Machine
end

