-- ==== Sys2Proof/Machine/State.lean ====
section
/-!
DEFINITION. Machine/State.lean: everything the manual gives the GZ16K to hold, as plain data. Plain registers stand
in one table keyed by control-space address; what the manual describes without a register of its own (copies, banks,
alignment, buffers, timers) has fields here. `Nat` counters of frames and of received things never wrap; where the
manual gives a width, the value is a bit vector or the writer bounds it.
-/
namespace Sys2Proof.Machine

/-- Reasons to stop. No command of this block stops: an access that the manual refuses is reported to its master
and the machine goes on, so the type has no constructor (nobody raises one; safe). -/
inductive Fault where
  deriving DecidableEq, Repr

/-- Reasons to refuse a command. -/
inductive Refusal where
  /-- Raised by the dispatcher for a command that has no meaning yet; safe. -/
  | notModelled (mnemonic : String)
  deriving DecidableEq, Repr

/-- The state of a shadowed change (R30, R33, R158). `dirty t`: written by tenant `t`. `pending c`: held by the
pending commit of issue number `c`. -/
inductive Change where
  | clean
  | dirty (t : Nat)
  | pending (c : Nat)
  deriving DecidableEq, Repr

/-- A pending commit (R28, R38). `id` is its issue number; `up` the rows its acceptance powered up (R172). -/
structure Commit where
  id : Nat
  tenant : Nat
  target : Word
  scope : BitVec 6
  up : List Nat
  deriving DecidableEq, Repr

/-- The two copies of a connection entry or selector; `bank` names the active one (R158). -/
structure Copies where
  c0 : Word
  c1 : Word
  bank : Bool
  deriving DecidableEq, Repr

/-- A pattern checker (R169, R170, R851). `mode` is the PAT_MODE acting, `hist` the newest 15 bits received since the
search began (newest first), `gen` the own generator's last 15 bits, `errs` the last 16 bytes' errors in SYNC. -/
structure Checker where
  mode : Nat
  sync : Bool
  good : Nat
  hist : List Bool
  gen : List Bool
  errs : List Bool
  prev : Option Byte
  expect : Byte
  deriving DecidableEq, Repr

def Checker.init : Checker := ⟨0, false, 0, [], [], [], none, 0⟩

/-- The fabric's state without registers. `out`: bytes transmitted in the current frame; `routed`: bytes to be
transmitted in the next; `src`: bytes that tone sources and generators present in the current frame (R166 to R168).
`rejected`: commits rejected since the last boundary, by tenant (R562).
`capWait`/`capRun`: a capture waits for the boundary, or has recorded so many frames (R185). -/
structure Fabric where
  conn : Tab Copies
  sel : Tab Copies
  out : Tab Byte
  routed : Tab Byte
  src : Tab Byte
  checkers : Tab Checker
  capWait : Bool
  capRun : Option Nat
  capSlot : Nat
  rowsDown : List Nat
  idleFrom : Tab Nat
  gateFrom : Nat
  rejected : Tab Nat
  deriving DecidableEq, Repr

/-- What an unlisted connection entry holds (R180): IDLE, byte 0xFF. -/
def connInit : Copies := ⟨0x00FF0000, 0x00FF0000, false⟩
/-- What an unlisted selector holds (R180). -/
def selInit : Copies := ⟨0, 0, false⟩

def Fabric.init : Fabric := ⟨[], [], [], [], [], [], false, none, 0, [], [], 0, []⟩

/-- The clock root (R79 to R92). `oscEn`: pin OSC_EN; `settling`: the settle count runs; `kept`: OSC_EN stayed high
through Brumation, so that the next start skips the settle time (R84); `pllOn`: the root PLL is enabled; `midFrame`: the
derived clocks stopped other than at a strobe (R89); `into`: AUD_CLK cycles of the frame that SYS_TIME is known to have
counted, at its last read or where it stopped (R73, R89). -/
structure Clocks where
  oscEn : Bool
  settling : Bool
  kept : Bool
  pllOn : Bool
  midFrame : Bool
  into : Nat
  deriving DecidableEq, Repr

/-- A reference candidate's monitor (R96 to R111). `age`: frames since its marker; `def_`: LOS or loss of alignment
of a REFIN in DATA mode; `fresh`: made failed at the next boundary (R136); `wtr`: frames left of its running timer;
`code`, `count`: the QL code last received and how often in succession; `ssmAge`: frames since an SSM nibble;
`err`: its last phase comparison; `sum`, `num`: comparisons of this update interval; `align`: alignment offset; `edges`:
rising edges of a REFIN in CLOCK mode since its last marker or since it was enabled (R98). -/
structure Cand where
  age : Nat
  losDef : Bool
  lofDef : Bool
  fresh : Bool
  freqBad : Bool
  wtr : Option Nat
  code : Nat
  count : Nat
  ssmAge : Nat
  err : Int
  sum : Int
  num : Nat
  align : Int
  failed : Bool
  edges : Nat
  deriving DecidableEq, Repr

def Cand.init : Cand := ⟨8800, false, false, false, false, none, 0, 0, 0, 0, 0, 0, 0, true, 0⟩

/-- The selector and the DPLL. `cfg`: the configuration registers that act, as the last boundary found them (R119);
`want`, `wantFree`: the selection evaluated at the last boundary, and whether it asks for free run; `take`, `takeFree`:
what this update interval boundary applies (R118); `kp`, `ki`: shifts of the last consistent pair; `kpWas`, `kiWas`:
those that the last DPLL_UPDATE found (R138); `integ`: I of R124; `inLock`, `outLock`: successive intervals within and
beyond; `held`: intervals left with the proportional path held (R130); `errZero`: the selected candidate failed (R125);
`due`: an update interval boundary has begun whose DPLL_UPDATE has not run; `secSum`, `secNum`, `secLocked`: the
second's steering words (R131); `forceBad`: the forced candidate that event 663 has reported. -/
structure Dpll where
  cfg : Tab Word
  want : Option Nat
  wantFree : Bool
  take : Option Nat
  takeFree : Bool
  kp : Nat
  ki : Nat
  kpWas : Nat
  kiWas : Nat
  integ : Int
  inLock : Nat
  outLock : Nat
  held : Nat
  errZero : Bool
  due : Bool
  secSum : Int
  secNum : Nat
  secLocked : Bool
  forceBad : Option Nat
  deriving DecidableEq, Repr

def Dpll.init : Dpll := ⟨[], none, false, none, false, 16, 24, 16, 24, 0, 0, 0, 0, false, false, 0, 0, true, none⟩

/-- A latched bank of per-second counters (R222, R275). -/
structure Bank where
  sec : Word
  vals : List Nat
  sat : Nat
  deriving DecidableEq, Repr

def Bank.init : Bank := ⟨0, [], 0⟩

/-- A received line frame after the store: 32 bytes and its place in the received multiframe, if known. -/
structure LineFrame where
  bytes : List Byte
  mf : Option Nat
  deriving DecidableEq, Repr

/-- A symbol on a dual-rail line. -/
inductive Sym where
  | zero | pos | neg
  deriving DecidableEq, Repr

/-- A line port without its registers (R189 to R232). Receive: `polR` last mark's polarity, `shR` the decoder's delayed
symbols (0 none, 1 a mark, 2 a mark of a substitution, 3 a mark that violates), `fb` bits the framer has not used,
`aligned`, `odd` (the next frame is NFAS), `fasBad`, `nfasBad` successive incorrect words, `aRun` successive A bits
against RAI, `mfBits` bit 1 of the last NFAS words, `mfHits` frames at which MFAS stood, `mfPos` place of the next frame
in the multiframe, `alFrames` frames since alignment, `crc` of the running submultiframe (none before its start),
`crcPrev` of the one before, `cBits` the C bits received, `smf`/`smfBad` of the 915-in-1,000 count, `saPart` NFAS words
of the submultiframe, `saSeen`, `nibSeen` a word or a nibble was captured, `saEvt` event due. Defects are LINE_STATUS;
`chg`: one has changed in this frame; `seen` LOS, LOF, AIS, RAI at any moment of this frame. `aisLow`/`aisHigh`: the
last 512-bit period. Store: `sb` bits below one frame, `skip` bits to drop before them, `frames` complete frames not
delivered, `fill` in 1/384 bits without the received frame in progress, `phase` VCO cycles from the start of the last
received frame to the local boundary (none before the first from a source), `late` boundaries since it, `cur` the frame
delivered in this frame, `act` what the last boundary decided for this frame (0 repeat, 1 deliver, 2 delete one and
deliver), `recentre`. Transmit: `polT`, `marks` (odd number of marks since the last V), `zeros`, `shT` the encoder,
`txCrc`, `txCrcPrev`, `txPos` and `txNeg` the last frame's marks. Counters: `cnt` in the order of R223, `banks`, `newer`
which is newer, `cvb` code violations of the superframe, `rxCfg` the LINE_RX_CFG that acts (R218), `on` started. -/
structure Line where
  on : Bool
  polR : Bool
  shR : List Nat
  fb : List Bool
  aligned : Bool
  odd : Bool
  fasBad : Nat
  nfasBad : Nat
  aRun : Nat
  mfBits : List Bool
  mfHits : List Nat
  mfPos : Option Nat
  mfDone : Bool
  alFrames : Nat
  crc : Option (BitVec 4)
  crcPrev : Option (BitVec 4)
  cBits : List Bool
  smf : Nat
  smfBad : Nat
  saPart : List (BitVec 5)
  saEvt : Bool
  saSeen : Bool
  nibSeen : Bool
  chg : Bool
  seen : BitVec 4
  aisLow : Bool
  aisHigh : Bool
  sb : List Bool
  frames : List LineFrame
  skip : Nat
  fill : Int
  phase : Option Int
  late : Nat
  cur : LineFrame
  act : Nat
  recentre : Bool
  polT : Bool
  marks : Bool
  zeros : Nat
  shT : List Sym
  txCrc : Option (BitVec 4)
  txCrcPrev : Option (BitVec 4)
  txPos : BitVec 256
  txNeg : BitVec 256
  cnt : List Nat
  bank0 : Bank
  bank1 : Bank
  newer : Bool
  cvb : Nat
  rxCfg : Word
  deriving DecidableEq, Repr

def Line.init : Line :=
  { on := false, polR := false, shR := [], fb := [], aligned := false, odd := false, fasBad := 0, nfasBad := 0,
    aRun := 0, mfBits := [], mfHits := [], mfPos := none, mfDone := false, alFrames := 0, crc := none,
    crcPrev := none, cBits := [], smf := 0, smfBad := 0, saPart := [], saEvt := false, saSeen := false,
    nibSeen := false, chg := false, seen := 0, aisLow := false, aisHigh := false, sb := [], frames := [],
    skip := 0, fill := 98304, phase := none, late := 1, cur := ⟨[], none⟩, act := 0, recentre := false, polT := false, marks := false, zeros := 0,
    shT := [], txCrc := none, txCrcPrev := none, txPos := 0, txNeg := 0, cnt := [], bank0 := Bank.init,
    bank1 := Bank.init, newer := false, cvb := 0, rxCfg := 32 }

/-- A received trunk frame in the 20-frame buffer: its FN and its 2,048 descrambled bytes. -/
structure TrunkFrame where
  fn : Byte
  bytes : List Byte
  deriving DecidableEq, Repr

/-- A trunk without its registers (R237 to R273). Receive: `fb` bits not used, `aligned`, `fawBad` successive bad FAW
positions, `fnPrev`, `fnBad`, `fnGood` successions of FN, `bip` of the frame before, filters of QL, protection channel
and trace (`qlC`, `pcC`, `trC` with counts), `trPart` the trace being assembled, `mfPos` the last place in the received
multiframe, `rxCfg` and `expTr` the registers of R267 that act, `buf` the newest 20 frames (newest first), `p` the FN to
deliver, `d` at the last boundary, `cur` delivered bytes, `sdErr` and `sdGood` superframe counts, `sdSeen`, `chg` a
defect has changed in this frame, `seen` LOS, LOF, LOMF of this frame, `recentre`. Transmit: `txBits` last frame,
`txBip`, `trace` the 16 bytes of the running multiframe (none: zeros). `raw` the received bits for LOOP 2. Counters in
the order of R276. -/
structure Trunk where
  on : Bool
  fb : List Bool
  aligned : Bool
  fawBad : Nat
  fnPrev : Option Byte
  fnBad : Nat
  fnGood : Nat
  bip : Option (BitVec 16)
  qlC : Nat
  qlN : Nat
  pcC : BitVec 16
  pcN : Nat
  trC : List Byte
  trN : Nat
  trPart : List Byte
  buf : List TrunkFrame
  p : Byte
  d : Int
  cur : List Byte
  sdErr : Nat
  sdGood : Nat
  sdSeen : Bool
  mfPos : Nat
  rxCfg : Word
  expTr : List Byte
  chg : Bool
  seen : BitVec 3
  recentre : Bool
  phase : Int
  txBits : List Bool
  txBip : BitVec 16
  trace : List Byte
  raw : List Bool
  cnt : List Nat
  bank0 : Bank
  bank1 : Bank
  newer : Bool
  deriving DecidableEq, Repr

def Trunk.init : Trunk :=
  { on := false, fb := [], aligned := false, fawBad := 0, fnPrev := none, fnBad := 0, fnGood := 0, bip := none,
    qlC := 0, qlN := 0, pcC := 0, pcN := 0, trC := [], trN := 0, trPart := [], buf := [], p := 0, d := 0,
    cur := [], sdErr := 0, sdGood := 0, sdSeen := false, mfPos := 0, rxCfg := 0, expTr := [], chg := false, seen := 0, recentre := false, phase := 0, txBits := [], txBip := 0, trace := [],
    raw := [], cnt := [], bank0 := Bank.init, bank1 := Bank.init, newer := false }

/-- A 1+1 pair (R259 to R265): whether it is formed, its P, the last recorded Δ and whether one has been recorded since
the recentring, which member had the larger delay, D, whether the hold of R264 was given up, whether P is held at the
next boundary, and which members were frame aligned and aligned at the last. -/
structure Pair where
  formed : Bool
  p : Byte
  delta : Nat
  recorded : Bool
  oddLate : Bool
  d : Int
  gaveUp : Bool
  recentre : Bool
  wait : Bool
  fr0 : Bool
  fr1 : Bool
  al0 : Bool
  al1 : Bool
  deriving DecidableEq, Repr

def Pair.init : Pair := ⟨false, 0, 0, false, false, 0, false, false, false, false, false, false, false⟩

/-- A block of audio samples on its way to or from a queue (R294): its start time and frame, how many device frames it
holds, its tag and its samples, left-justified, in entry order. -/
structure AudBlock where
  time : BitVec 64
  frame : Word
  frames : Nat
  tag : BitVec 16
  samples : List Word
  deriving DecidableEq, Repr

/-- An audio port without its registers (R279 to R314). `width`, `count`: the last consistent AUD_FRAME pair, as coded;
`carry`: an I²S bit that falls in the next sample frame; `dout`: the bits of the last frame; `rx`: the block being
filled; `rxDone`: a full block waiting for RXQ; `tx`: samples left of the block that plays; `rxRot`, `txRot`: rotation
of the DMA positions (R307); `rxDry`: an overrun is in progress; `txDry`: a block of this frame could not be read;
`overNow`, `underNow`: counted in this frame (R304, R305); `quiet`: a restart applies in this frame (R311). -/
structure Audio where
  on : Bool
  width : Nat
  count : Nat
  carry : Bool
  dout : List Bool
  rx : AudBlock
  rxDone : Option AudBlock
  tx : List Word
  rxRot : Nat
  txRot : Nat
  rxDry : Bool
  txDry : Bool
  overNow : Bool
  underNow : Bool
  quiet : Bool
  deriving DecidableEq, Repr

def AudBlock.init : AudBlock := ⟨0, 0, 0, 0, []⟩
def Audio.init : Audio :=
  ⟨false, 0, 1, false, [], AudBlock.init, none, [], 0, 0, false, false, false, false, false⟩

/-- A received HDLC frame at its closing flag or abort, not yet checked: its bits after deletion as far as they were
collected, how many there were, the frame stamp, and whether one of its entries could not be written (R325). -/
structure HdlcRx where
  bits : List Bool
  count : Nat
  aborted : Bool
  stamp : Word
  lost : Bool
  deriving DecidableEq, Repr

/-- An HDLC channel without its registers (R323 to R338). Receive: `ones` successive 1s, `inFrame`, `bits` collected
(newest first) of the `got` bits since the flag, `wrote` entries written beyond the tail and `lost` where one could not
be, `done` frames closed. Transmit: `txBits` bits to send, `frames` the place in them of each frame's body and of the
end of its closing flag, `flags` flags at their end, `out` the bytes presented in this frame, `ready` the tail of TXQ at
the boundary that began it (R330). `cfg`, `lim`, `que`: the registers of R335 that act; `off`: EN was cleared since the
boundary (R337). `evt`: a sticky bit newly set (R343). -/
structure Hdlc where
  on : Bool
  ones : Nat
  inFrame : Bool
  bits : List Bool
  got : Nat
  wrote : Nat
  lost : Bool
  done : List HdlcRx
  txBits : List Bool
  frames : List (Nat × Nat)
  flags : Nat
  out : List Byte
  ready : BitVec 17
  cfg : Word
  lim : Word
  que : Word
  off : Bool
  evt : Bool
  deriving DecidableEq, Repr

def Hdlc.init : Hdlc := ⟨false, 0, false, [], 0, 0, false, [], [], [], 0, [], 0, 0, 2048, 0, false, false⟩

/-- One register context of a core (R344, R345). `f` holds C, Z, N, V, IE in bits 0 to 4 (R346). -/
structure Ctx where
  a : Word
  x : Word
  y : Word
  s : BitVec 24
  f : BitVec 5
  pc : BitVec 24
  seg : Vector (BitVec 64) 16
  deriving DecidableEq, Repr

def Ctx.init : Ctx := ⟨0, 0, 0, 0, 0, 0, Vector.replicate 16 0⟩

/-- CORE_STATUS.STATE (R459). -/
inductive CoreSt where
  | off | stopped | run | wait | dbg | faultStop
  deriving DecidableEq, Repr

/-- A running load of cache lines into way 0 (R424): first line, lines, lines loaded, cycles since the last line. -/
structure ILoad where
  base : Nat
  total : Nat
  done : Nat
  acc : Nat
  deriving DecidableEq, Repr

/-- A line of an instruction cache (R415, R422): its line address plus 1, 0 for an invalid one, and the copy of its 32
bytes. -/
structure CLine where
  tag : Nat
  bytes : List Byte
  deriving DecidableEq, Repr

def CLine.none : CLine := ⟨0, []⟩

/-- The line buffer (R417 to R422): the line, the cycles its prefetch has left, and the copy that a completed prefetch
holds. -/
structure LBuf where
  line : Nat
  left : Nat
  bytes : List Byte
  deriving DecidableEq, Repr

/-- A core (R344, R415 to R460). `way0`, `way1`: the lines by set; `lru`: set to the way used last plus 1; `lb`: the
line buffer; `lastLine`: the line fetched from last; `part`: cycles of the instruction in progress that had passed when
the core's clock stopped (R854), 0 if none was in progress; `afterReti`: no interrupt before one instruction (R433);
`haltReq`, `bpSkip`, `stepping`, `bps`, `regSel`: debug unit (R449, R450, R460); `restart`: held restart (R856);
`startAt`: starts at the next boundary (R504, R531); `wasRun`: it waited at entry to Torpor, or was not OFF at a shed of
T0 (R664, R857); `cyc`, `fcyc`: its cycles in all and since the frame strobe; `doneIn`: the last instruction completed
in HANDLER (R570); `seq`: samples captured. -/
structure Core where
  st : CoreSt
  inHandler : Bool
  main : Ctx
  hand : Ctx
  way0 : Tab CLine
  way1 : Tab CLine
  lru : Tab Nat
  lb : Option LBuf
  lastLine : Option Nat
  load : Option ILoad
  part : Nat
  afterReti : Bool
  haltReq : Bool
  bpSkip : Bool
  stepping : Bool
  bps : Tab Word
  regSel : Word
  restart : Bool
  startAt : Bool
  wasRun : Bool
  cyc : Nat
  fcyc : Nat
  doneIn : Bool
  seq : BitVec 16
  deriving DecidableEq, Repr

def Core.init : Core :=
  { st := .off, inHandler := false, main := Ctx.init, hand := Ctx.init, way0 := [], way1 := [], lru := [],
    lb := none, lastLine := none, load := none, part := 0, afterReti := false, haltReq := false, bpSkip := false, stepping := false, bps := [],
    regSel := 0, restart := false, startAt := false, wasRun := false, cyc := 0, fcyc := 0, doneIn := false, seq := 0 }

/-- Which of a pond word's 72 stored bits are wrong (R473): bits 0 to 63 of the data, and check bits 0 to 7 as bits 64
to 71. -/
inductive WordErr where
  | good
  | one (bit : Fin 72)
  | two (a b : Fin 72)
  deriving DecidableEq, Repr

/-- A tenant (R504, R527 to R532). `returnAt`: returns at the next boundary (T0 wrote RETURN); `shedAt`: frame
boundaries since the shed was requested; `mbxFull`: TEN_MBX holds an unread value (R526); `cut`: a tail shed has come
and no core of the tenant has started since (R338). -/
inductive TenSt where
  | off | run | shedding | shed
  deriving DecidableEq, Repr

structure Tenant where
  st : TenSt
  returnAt : Bool
  age : Nat
  mbxFull : Bool
  cut : Bool
  deriving DecidableEq, Repr

def Tenant.init : Tenant := ⟨.off, false, 0, false, false⟩

/-- A queue's counts (R507 to R513, R614). `acked`, `sent`: stream positions; `acked0`: the position of HEAD. -/
structure Queue where
  base : Nat
  cfg : Word
  wm : BitVec 17
  head : BitVec 17
  tail : BitVec 17
  drop : BitVec 16
  dropSat : Bool
  cfgErr : Nat
  acked : Word
  sent : Word
  deriving DecidableEq, Repr

def Queue.init : Queue := ⟨0, 0, 1, 0, 0, 0, false, 0, 0, 0⟩

/-- A raised event that waits for its delivery window (R520): source, named tenant, stamp (R56). -/
structure Raised where
  num : Nat
  tenant : Option Nat
  stamp : Word
  deriving DecidableEq, Repr

/-- A performance counter's value and what goes with it (R556 to R576). `holders`: the masters whose read holds the
overflow, in the order of their reads; `held`: an overflow is held; `prev`: the signal's last value was non-zero;
`inDel`: its overflow's event waits for its delivery window; `due`: frame and cycle of an overflow whose sample has not
been captured; `dueAt`: the core's cycle in which the router delivers it; `dueInstr`: instructions completed since;
`ready`: word 0 of the record, once the boundary of R570 has come; `wait`: a captured record waits for the sampler. -/
structure PCtr where
  val : Nat
  holders : List Nat
  held : Bool
  prev : Bool
  inDel : Bool
  due : Option (Word × Nat)
  dueAt : Nat
  dueInstr : Nat
  ready : Option Nat
  wait : Option (List Byte)
  deriving DecidableEq, Repr

def PCtr.init : PCtr := ⟨0, [], false, false, false, none, 0, 0, none, none⟩

/-- A packet the device has put into its replay buffer or sends (R589, R594). -/
structure Pkt where
  typ : Nat
  tenant : Nat
  nak : Bool
  seq : BitVec 12
  ack : BitVec 12
  payload : List Byte
  deriving DecidableEq, Repr

/-- An unacknowledged page (R614 to R620): its packet's SEQ, its queue, the stream position after it, and whether it was
declared partial or void. -/
structure Page where
  seq : BitVec 12
  queue : Nat
  fin : Word
  dead : Bool
  deriving DecidableEq, Repr

/-- A QPUT that waits for room in its queue (R612). -/
structure Hold where
  queue : Nat
  entry : List Byte
  rspq : Bool
  seq : BitVec 12
  tenant : Nat
  deriving DecidableEq, Repr

/-- A host link without its registers. `cfg`: the HL_CFG whose MODE, LANES and OCLK_DIV act (R588); `ackDue`: a packet
was accepted and nothing has been sent since (R600); `idle`: frames without a good packet; `noAck`: frames without an
acknowledgement while packets are unacknowledged; `out`: packets sent, newest first, in the current frame; `wait`: in
SPI mode the packets that the host has not clocked out, oldest first (R587, R602); `errSeen`: the frame's error event
was raised (R646). -/
structure Link where
  cfg : Word
  txNext : BitVec 12
  exp : BitVec 12
  last : BitVec 12
  replay : List Pkt
  holds : List Hold
  pages : List Page
  ackDue : Bool
  idle : Nat
  noAck : Nat
  out : List Pkt
  wait : List Pkt
  errSeen : Bool
  deriving DecidableEq, Repr

def Link.init : Link := ⟨1, 0, 0, 4095, [], [], [], false, 0, 0, [], [], false⟩

/-- The I²C target and the JTAG port (R627 to R639). `stat`: bits 1 and 2 of STAT (bit 0 is unused); `resp`: the bytes
of the last read; `csaAddr`, `csaWrite`, `csaData`, `csaErr`: the control-space access; `dbgOut`: the word last
captured. -/
structure Maint where
  stat : BitVec 3
  resp : List Byte
  csaAddr : Word
  csaWrite : Bool
  csaData : Word
  csaErr : Bool
  dbgOut : Word
  deriving DecidableEq, Repr

def Maint.init : Maint := ⟨0, [], 0, false, 0, false, 0⟩

/-- What a pad drives: nothing (a high impedance, no current), a level, or a panel column's current code (R759). -/
inductive PadLevel
  | float
  | low
  | high
  | source (code : Nat)
  deriving DecidableEq, Repr

/-- Power, wake and pads (R647 to R686). `waking`: a Torpor wake has begun; `brumWake`: no commit that covers PWR has
applied since a wake from Brumation (R488, R673); `bankUp`: how banks that are not on rise (see Machine/Pond.lean);
`latched`: per pad group the levels latched when it lost its power, in the order of R815; `cmpRaw`: the comparators'
unfiltered outputs; `deferred`: wake causes that have occurred in the state to be left (R684); `running`: port domains
that carry traffic (R649); `isolated`: the fabric has powered up and its isolation has not been released since (R672);
`supply`: the I/O banks whose supply is in range, VDDIO_L0 to L3, T, H, A and F from bit 0 up (R817, R822). -/
structure Power where
  waking : Bool
  brumWake : Bool
  bankUp : Tab Nat
  latched : Tab (Option (List PadLevel))
  cmpRaw : BitVec 4
  deferred : BitVec 14
  running : BitVec 18
  isolated : Bool
  supply : BitVec 8
  deriving DecidableEq, Repr

def Power.init : Power := ⟨false, false, [], [], 0, 0, 0, false, 0xFF⟩

/-- Reset and the watchdog (R690 to R709). `sources`: POR, PIN, WDT, SOFT, THERMAL asserted since the reset began;
`held`: the device holds reset (R693); `wdt`: the count; `waiting`: sources of a device reset that waits for the flash
(R705); `coreEn`: pin CORE_EN. -/
structure Rst where
  sources : BitVec 5
  held : Bool
  wdt : Nat
  waiting : BitVec 5
  coreEn : Bool
  deriving DecidableEq, Repr

def Rst.init : Rst := ⟨0, false, 8000, 0, false⟩

/-- A running NVM controller command (R723, R724) with its operands as the write of GO found them. -/
structure NvmJob where
  op : Nat
  addr : Nat
  pond : Nat
  len : Nat
  err : Nat
  deriving DecidableEq, Repr

/-- The flashes, the fuses and the update engine (R711 to R753). `nvm`, `xf`: bytes, 0xFF where not listed; `xfMbit`,
`xfPage`: size in Mbit and page size that SFDP gave, and `xfTable`, the table itself; `slots`: key hashes, 32 bytes each
at 32k; `slotSt`: slot states; `dbgLock`, `csaLock`, `uid`: fuses; `job`: the running command; `check`: the running
image check (manifest, payload, KEYSRC); `fuse`: the running fuse operation (slot, and the hash to program or nothing
for a revocation). -/
structure Nvm where
  nvm : Tab Byte
  xf : Tab Byte
  xfMbit : Nat
  xfPage : Nat
  xfTable : List Byte
  slots : Tab Byte
  slotSt : Tab Nat
  dbgLock : BitVec 16
  csaLock : Bool
  uid : BitVec 128
  job : Option NvmJob
  check : Option (Nat × Nat × Bool)
  fuse : Option (Nat × List Byte)
  deriving DecidableEq, Repr

def Nvm.init : Nvm := ⟨[], [], 0, 256, [], [], [], 0, false, 0, none, none, none⟩

/-- A panel descriptor slot (R766 to R773): the submitted rectangle, its order, the source row and byte it copies next,
whether a blanking period has begun since submission and whether the scan has returned to row 0. -/
structure PDesc where
  order : Nat
  src : Nat
  x2 : Nat
  y : Nat
  w2 : Nat
  h1 : Nat
  stride : Nat
  vsync : Bool
  row : Nat
  byte : Nat
  blanked : Bool
  wrapped : Bool
  deriving DecidableEq, Repr

def PDesc.init : PDesc := ⟨0, 0, 0, 0, 0, 0, 0, false, 0, 0, false, false⟩

/-- The panel driver (R755 to R776). `ven`: PNL_VEN; `venLow`: it goes low at the next boundary; `wait`: boundaries
until the scan starts; `period`: the row period of the scan frame in progress; `prev`: levels the columns drove in the
one before; `drive`: per column the precharge code and the drive cycles of the row period in progress; `iseg`: its drive
current; `subs`: submissions; `served`: the slot served last. -/
structure Panel where
  ven : Bool
  venLow : Bool
  wait : Nat
  period : Nat
  prev : List Nat
  drive : List (Nat × Nat)
  iseg : Nat
  descs : Tab PDesc
  subs : Nat
  served : Nat
  deriving DecidableEq, Repr

def Panel.init : Panel := ⟨false, false, 0, 0, [], [], 0, [], 0, 3⟩

/-- A thermistor input (R783, R784): its last conversions (newest first), good conversions in a row, and a fault found
since the last control tick. -/
structure Therm where
  last : List Nat
  good : Nat
  due : Bool
  deriving DecidableEq, Repr

def Therm.init : Therm := ⟨[], 0, false⟩

/-- A fan channel (R790 to R803). `mode`, `pin`: the last consistent pair; `running`: RUN was active at the last control
tick; `demand`; `zc`: good crossings in a row; `attempt`; `pause`: in the 500 ms pause; `step`, `steps`: step interval
and crossings since SPEED changed; `comm`, `acc`: the commutation step, and µs since the last open-loop step; `seen`,
`edges`, `edgeTicks`: a tach edge has come, the edge periods (newest first), control ticks since the last edge;
`stTicks`, `kickTicks`: since the state or KICK began; the ageing measurement. -/
structure Fan where
  mode : Nat
  pin : Nat
  running : Bool
  demand : Nat
  zc : Nat
  attempt : Nat
  pause : Bool
  step : Nat
  steps : Nat
  seen : Bool
  edges : List Nat
  edgeTicks : Nat
  stTicks : Nat
  kickTicks : Nat
  ageTicks : Nat
  ageGood : Nat
  ageSum : Nat
  comm : Nat
  acc : Nat
  deriving DecidableEq, Repr

def Fan.init : Fan := ⟨0, 0, false, 0, 0, 0, false, 0, 0, false, [], 0, 0, 0, 0, 0, 0, 0, 0⟩

/-- Temperature and fans. `die`: die conversions (newest first, two); `warn`, `shut`, `abort`: declared; `cool`:
successive conversions below 115 °C; `acting`: the active views that act since the last control tick (R804);
`tickDone`: this frame's control tick has run. -/
structure Thermal where
  inputs : Tab Therm
  fans : Tab Fan
  die : List Nat
  warn : Bool
  shut : Bool
  abort : Bool
  cool : Nat
  acting : Tab Word
  tickDone : Bool
  deriving DecidableEq, Repr

def Thermal.init : Thermal := ⟨[], [], [], false, false, false, 0, [], false⟩

/-- The last control-space access and whether it raised an access error: what R5 and R6 report to the master. -/
structure Access where
  master : Nat
  value : Word
  err : Bool
  deriving DecidableEq, Repr

/-- The whole machine. `frame`, `sys`, `rtc`: FRAME_COUNT, SYS_TIME, RTC; `ticks` counts frame boundaries and never
wraps; `regs`: plain registers by address; `latches`: what is latched or held per master; `chg`: change states of
shadow views by address; `secDone`: the second boundary of this frame was served. -/
structure State where
  frame : Word
  sys : BitVec 64
  rtc : BitVec 48
  ticks : Nat
  secDone : Bool
  regs : Tab Word
  latches : Tab Word
  chg : Tab Change
  commits : List Commit
  nextId : Nat
  fab : Fabric
  clk : Clocks
  cands : Tab Cand
  dpll : Dpll
  lines : Tab Line
  trunks : Tab Trunk
  pairs : Tab Pair
  audio : Tab Audio
  hdlc : Tab Hdlc
  cores : Tab Core
  tenants : Tab Tenant
  queues : Tab Queue
  raised : List Raised
  held : List Nat
  pend : Tab (Option Word)
  pctrs : Tab PCtr
  links : Tab Link
  maint : Maint
  pwr : Power
  rst : Rst
  nvm : Nvm
  pnl : Panel
  th : Thermal
  mem : Tab Byte
  aon : Tab Byte
  ecc : Tab WordErr
  eccJobs : List (Nat × Nat)
  ceGrown : Bool
  ueNew : Bool
  scrub : Nat
  last : Access
  freeCtr : Nat
  pending : List Instr
  deriving DecidableEq, Repr

/-- Where the field of a register stands in a word. -/
def fieldOf (w : Word) (lo width : Nat) : Nat := (w.toNat >>> lo) % 2 ^ width

/-- A word with one field replaced. -/
def withField (w : Word) (lo width n : Nat) : Word :=
  (w &&& ~~~(BitVec.ofNat 32 ((2 ^ width - 1) <<< lo))) ||| BitVec.ofNat 32 ((n % 2 ^ width) <<< lo)

/-- The reset word of a register: every field at its Reset column (R14). -/
def RegInfo.resetWord (r : RegInfo) : Word :=
  r.flds.foldl (fun w f => withField w f.lo f.w f.reset) 0

/-- Masters of port C, L and M for a schedule entry (R468, R496). -/
def schedWord (e : Nat) : Word :=
  let r := e % 32
  let l := if r % 2 = 0 then r / 2
    else if r = 1 ∨ r = 17 then 0x11 else if r = 3 then 0x10
    else if r = 5 then 0x20 else if r = 7 then 0x21 else if r = 9 then 0x22 else if r = 11 then 0x23
    else if r = 13 then 0x33 else if r = 15 then 0x34 else if r = 19 then 0x32 else if r = 21 then 0x35 else 0x36
  let m := if r < 16 then r else if r = 16 then 0x10 else if r ≤ 20 then 0x20 + (r - 17)
    else if r = 21 ∨ r = 23 ∨ r = 25 ∨ r = 27 then 0x30
    else if r = 22 ∨ r = 24 ∨ r = 26 ∨ r = 28 then 0x31 else 0xFF
  BitVec.ofNat 32 (e % 16 + l * 256 + m * 65536)

/-- What a register reads as after reset: the Reset column, and the values that rules give beside it: TEN_EVT_MASK of
T0 (R537) and the fixed schedule (R468). -/
def RegKind.resetAt (k : RegKind) (i : Nat) : Word :=
  match k with
  | .TEN_EVT_MASK => if i = 0 then 0xFFFFFFFF else 0
  | .POND_SCHED => schedWord i
  | k => k.info.resetWord

/-- The same by address. -/
def resetWord (a : Nat) : Word :=
  match regAt a with
  | none => 0
  | some r => r.k.resetAt r.i

/-- The ISA of T0's segment table after the boot sequencer (R702), as (entry, word 0, word 1). -/
def bootSegs : List (Nat × Word × Word) :=
  let both (e : Nat) (w0 w1 : Word) := [(e, w0, w1), (e + 16, w0, w1)]
  both 15 0x00FF0005 0x80008000 ++ both 0 0x00FF8003 0x80006000 ++
    [(14, 0x00FFE033, 0x80001000), (30, 0x00FFF033, 0x80001000)] ++
    both 1 0x01200003 0x80001000 ++ both 2 0x011F0003 0x80000400 ++ both 3 0x01240003 0x80000400 ++
    both 4 0x01250003 0x80010000 ++ both 5 0x011D0003 0x80010000 ++ both 6 0x011E0003 0x80004400 ++
    [(7, 0x00000003, 0x80FF0000)]

/-- T0's segment table after the boot sequencer, as register contents. -/
def bootSegRegs (t : Tab Word) : Tab Word :=
  bootSegs.foldl (fun t e =>
    tabPut (fun _ => 0) (tabPut (fun _ => 0) t (RegKind.TEN_SEG_W0.addr 0 e.1) e.2.1)
      (RegKind.TEN_SEG_W1.addr 0 e.1) e.2.2) t

/-- A context as R347 starts it from descriptors. -/
def Ctx.start (seg : Nat → BitVec 64) (pc : BitVec 24) : Ctx :=
  { Ctx.init with
    s := BitVec.ofNat 24 (((seg 14).toNat >>> 32) % 2 ^ 25), pc := pc,
    seg := Vector.ofFn fun i : Fin 16 => seg i.val }

/-- The descriptor of an entry of the boot table. -/
def bootSeg (e : Nat) : BitVec 64 :=
  match bootSegs.find? fun x => x.1 = e with
  | some (_, w0, w1) => w1 ++ w0
  | none => 0

/-- The eft as it runs the froglet's first instruction (R347, R702). -/
def eftBoot : Core :=
  { Core.init with
    st := .run
    main := Ctx.start bootSeg 0
    hand := Ctx.start (fun n => bootSeg (16 + n)) 0 }

/-- Power-on values with the machine held in reset: every field at its reset value, nothing running. -/
def State.dead : State :=
  { frame := 0, sys := 0, rtc := 0, ticks := 0, secDone := false, regs := [], latches := [], chg := [], commits := [],
    nextId := 0, fab := Fabric.init, clk := ⟨false, false, false, false, false, 0⟩, cands := [], dpll := Dpll.init, lines := [],
    trunks := [], pairs := [], audio := [], hdlc := [], cores := [], tenants := [(0, { Tenant.init with st := .run })],
    queues := [], raised := [], held := [], pend := [], pctrs := [], links := [], maint := Maint.init,
    pwr := Power.init, rst := Rst.init, nvm := Nvm.init, pnl := Panel.init, th := Thermal.init, mem := [], aon := [],
    ecc := [], eccJobs := [], ceGrown := false, ueNew := false, scrub := 0, last := ⟨0, 0, false⟩, freeCtr := 0,
    pending := [] }

/-- The machine right after reset: the "Start-up state" of spec/18, with the eft at the froglet's first instruction.
The eft domain is power-good, T0 is RUN, the segment table is the boot sequencer's. -/
def State.reset : State :=
  { State.dead with
    regs := tabPut (fun _ => 0) (bootSegRegs []) (RegKind.PWR_DOM_STATUS.addr 0 0) 0x00100000
    cores := [(16, eftBoot)] }

/-- The canonical form of pond memory and of AON RAM: rising addresses, and no byte that an unlisted address would
read as (0, log entry 2). -/
abbrev Memory.wf (m : Tab Byte) : Bool := tabWf (fun _ => (0 : Byte)) m

end Sys2Proof.Machine
end

