-- ==== Sys2Proof/Machine/Ops.lean ====
section
/-!
DEFINITION. Machine/Ops.lean: the named operations over State: registers and their fields, domains and clocks (R838),
raising events (R56, R518, R860), ownership and rights (R497 to R510, R607), pond memory with its error correction
(R462 to R487), and what the device does after every command (R515, R659).
-/
namespace Sys2Proof.Machine

abbrev Out := Host.Outcome State Fault Refusal

/-! ### Registers -/

/-- A register (the shadow view of a shadowed one). -/
def State.reg (s : State) (k : RegKind) (i : Nat := 0) (j : Nat := 0) : Word :=
  tabGet (fun _ => k.resetAt i) s.regs (k.addr i j)

def State.setReg (s : State) (k : RegKind) (v : Word) (i : Nat := 0) (j : Nat := 0) : State :=
  { s with regs := tabPut (fun _ => k.resetAt i) s.regs (k.addr i j) v }

/-- The active copy of a shadowed register; another register itself. -/
def State.act (s : State) (k : RegKind) (i : Nat := 0) (j : Nat := 0) : Word :=
  tabGet (fun _ => k.resetAt i) s.regs (k.actAddr i j)

def State.setAct (s : State) (k : RegKind) (v : Word) (i : Nat := 0) (j : Nat := 0) : State :=
  { s with regs := tabPut (fun _ => k.resetAt i) s.regs (k.actAddr i j) v }

/-- A field of a register. -/
def State.f (s : State) (f : FieldRef) (i : Nat := 0) (j : Nat := 0) : Nat := fieldOf (s.reg f.k i j) f.lo f.w

/-- A field of the active copy of a shadowed register. -/
def State.fa (s : State) (f : FieldRef) (i : Nat := 0) (j : Nat := 0) : Nat :=
  fieldOf (s.act f.k i j) f.lo f.w

def State.b (s : State) (f : FieldRef) (i : Nat := 0) (j : Nat := 0) : Bool := decide (s.f f i j ≠ 0)

def State.ba (s : State) (f : FieldRef) (i : Nat := 0) (j : Nat := 0) : Bool := decide (s.fa f i j ≠ 0)

def State.setF (s : State) (f : FieldRef) (n : Nat) (i : Nat := 0) (j : Nat := 0) : State :=
  s.setReg f.k (withField (s.reg f.k i j) f.lo f.w n) i j

def State.setB (s : State) (f : FieldRef) (b : Bool) (i : Nat := 0) (j : Nat := 0) : State :=
  s.setF f (if b then 1 else 0) i j

/-- Add to a saturating counter field; `sat` is its sticky flag (R178, R513, R645). -/
def State.bump (s : State) (f : FieldRef) (n : Nat) (sat : Option FieldRef) (i : Nat := 0) (j : Nat := 0) : State :=
  let t := s.f f i j + n
  if t < 2 ^ f.w then s.setF f t i j
  else
    let s := s.setF f (2 ^ f.w - 1) i j
    match sat with
    | some g => s.setF g 1 i j
    | none => s

/-- Set bit `n` of a register. -/
def State.setBit (s : State) (k : RegKind) (n : Nat) (i : Nat := 0) (j : Nat := 0) : State :=
  s.setReg k (s.reg k i j ||| BitVec.ofNat 32 (1 <<< n)) i j

/-- A free number, and the counter moved on so that the next is another. -/
def State.free (s : State) : Nat × State := (Config.freeNat s.freeCtr, { s with freeCtr := s.freeCtr + 1 })

/-- What a free number of an output is keyed by: its use, its place, and the count of frame boundaries, none of which
the timing of hosts moves (R54, log entry 3). -/
def State.outKey (s : State) (use i : Nat) : Nat := Nat.pair (Nat.pair use i) s.ticks

/-- A free number of an output. Uses: 0 an interrupted frame, 1 to 3 means of the DPLL, 4 to 7 of fans, 8 and 9 a line's
store and C bits, 10 a trunk's missing frame, 11 an audio port's turn, 12, 13 and 15 a fan's gates, 14 a
thermistor, 16 the header of an HDLC frame that is arriving, 17 the level at which a clock is caught. -/
def State.outNat (s : State) (use i : Nat) : Nat := Config.outNat (s.outKey use i)

/-- A free byte of an output. -/
def State.outFree (s : State) (use i : Nat) : Byte := Config.outByte (s.outKey use i)

/-! ### Frames (R18, R19) -/

/-- Frame `a` is after frame `b`. -/
def after (a b : Word) : Bool := decide (1 ≤ (a - b).toNat ∧ (a - b).toNat ≤ 0x7FFFFFFF)

/-! ### Clocks and domains -/

/-- The derived clocks run (R69). -/
def State.divRun (s : State) : Bool := s.b F.CLK_ROOT_STATUS_DIV_RUN

def State.fabPg (s : State) : Bool := s.b F.PWR_DOM_STATUS_FAB_PG

/-- The fabric domain is powered and clocked; its isolation goes with its clock (R672, R703). -/
def State.fabUp (s : State) : Bool := s.fabPg && s.divRun

/-- Power domains of the ports: 0 to 15 line groups, 16 trunks, 17 audio, panel and fans. -/
def State.domPg (s : State) (d : Nat) : Bool := (s.reg .PWR_DOM_STATUS).getLsbD d

/-- A port domain carries traffic (R649, R650). -/
def State.domRun (s : State) (d : Nat) : Bool := s.pwr.running.getLsbD d && s.fabUp

def State.corePg (s : State) (n : Nat) : Bool :=
  if n = 16 then s.b F.PWR_DOM_STATUS_EFT_PG else s.b F.PWR_DOM_STATUS_NEWT_PG

/-- An I/O bank's supply is in range, so that its inputs are read as they are; without it they read 0 and raise no wake
(R817). -/
def State.bankIn (s : State) (b : Nat) : Bool := s.pwr.supply.getLsbD b

/-- PWR_STATUS.STATE (R653). -/
def State.dev (s : State) : Nat := s.f F.PWR_STATUS_STATE

/-- May a register be reached (R838)? CORE_CTL and CORE_START stand in the AON domain by their entry in the map. -/
def State.reach (s : State) (r : RegRef) : Bool :=
  match r.k.info.dom with
  | .aon => true
  | .fab => s.fabUp
  | .core => if r.i = 16 then s.corePg 16 else s.corePg 0 && s.divRun
  | .seg => r.i = 0 || s.fabUp
  | .apf => s.domPg 17 && s.fabUp

/-! ### Events -/

/-- AON-domain sources (R860). -/
def aonSource (n : Nat) : Bool :=
  decide ((656 ≤ n ∧ n ≤ 679) ∨ (752 ≤ n ∧ n ≤ 754) ∨ (784 ≤ n ∧ n ≤ 792) ∨ n = 800 ∨ n = 801 ∨
    (824 ≤ n ∧ n ≤ 828) ∨ n = 1008)

/-- Raise an event, for one tenant or shared, with a stamp. While the router does not run, an AON source is held
(R860); any other source raises nothing. -/
def State.raiseAt (s : State) (n : Nat) (t : Option Nat) (stamp : Word) : State :=
  if s.fabUp then { s with raised := s.raised ++ [⟨n, t, stamp⟩] }
  else if aonSource n && !(s.held.contains n) then { s with held := s.held ++ [n] }
  else s

def State.raise (s : State) (n : Nat) : State := s.raiseAt n none s.frame
def State.raiseTo (s : State) (n t : Nat) : State := s.raiseAt n (some t) s.frame

/-! ### Ownership (R497 to R499) -/

/-- Tenants T1 to T15. -/
def others : List Nat := [1, 2, 3, 4, 5, 6, 7, 8, 9, 10, 11, 12, 13, 14, 15]

def State.coreOwner (s : State) (n : Nat) : Nat :=
  if n = 16 then 0 else (others.find? fun t => (s.reg .TEN_CORES t).getLsbD n).getD 0

def State.slotOwner (s : State) (n : Nat) : Nat :=
  (others.find? fun t => (s.reg .TEN_SLOT_OWN t (n / 32)).getLsbD (n % 32)).getD 0

def State.selOwner (s : State) (n : Nat) : Nat :=
  (others.find? fun t => (s.reg .TEN_SEL_OWN t (n / 32)).getLsbD (n % 32)).getD 0

def State.hasQueue (s : State) (t q : Nat) : Bool :=
  let first := s.f F.TEN_QRANGE_FIRST t
  decide (first ≤ q ∧ q < first + s.f F.TEN_QRANGE_COUNT t)

def State.queueOwner (s : State) (q : Nat) : Nat := (others.find? fun t => s.hasQueue t q).getD 0

def State.ten (s : State) (t : Nat) : Tenant := tabGet (fun _ => Tenant.init) s.tenants t
def State.setTen (s : State) (t : Nat) (v : Tenant) : State :=
  { s with tenants := tabPut (fun _ => Tenant.init) s.tenants t v }

def State.core (s : State) (n : Nat) : Core := tabGet (fun _ => Core.init) s.cores n
def State.setCore (s : State) (n : Nat) (c : Core) : State :=
  { s with cores := tabPut (fun _ => Core.init) s.cores n c }

/-! ### Masters -/

end Sys2Proof.Machine

namespace Sys2Proof

/-- A number for each master: per-master latches are keyed by it (R75, R165, R225, R564, R607). -/
def Master.id : Master → Nat
  | .core n => n.val
  | .jtag => 17
  | .i2c => 18
  | .link k t => 32 + 16 * k.val + t.val

end Sys2Proof

namespace Sys2Proof.Machine

/-- The tenant a master acts for (R607, R628, R637). -/
def State.tenantOf (s : State) : Master → Nat
  | .core n => s.coreOwner n.val
  | .link _ t => t.val
  | .jtag => 0
  | .i2c => 0

/-- Where a per-master latch for an address is kept. -/
def latchKey (m : Master) (a : Nat) : Nat := m.id * 0x100000000 + a

def State.latch (s : State) (m : Master) (a : Nat) : Word := tabGet (fun _ => (0 : Word)) s.latches (latchKey m a)
def State.setLatch (s : State) (m : Master) (a : Nat) (v : Word) : State :=
  { s with latches := tabPut (fun _ => (0 : Word)) s.latches (latchKey m a) v }

/-- May a tenant write this register (R78, R120, R219, R268, R313, R339, R458, R503, R510, R577, R661)?
Registers that check their own writers, and active views, are let through here. -/
def State.tenantMay (s : State) (t : Nat) (r : RegRef) : Bool :=
  decide (t = 0) ||
  match r.k.info.wr with
  | .t0 => false
  | .any | .active => true
  | .slot => decide (s.slotOwner r.i = t)
  | .sel => decide (s.selOwner r.i = t)
  | .line => decide (s.slotOwner (r.i * 32) = t)
  | .trk => decide (s.f F.TRK_OWNER_TENANT r.i = t)
  | .aud => decide (s.f F.AUD_OWNER_TENANT r.i = t)
  | .hdlc => decide (s.f F.HDLC_CH_OWNER_TENANT r.i = t)
  | .core => decide (s.coreOwner r.i = t)
  | .queue => decide (s.queueOwner r.i = t)
  | .tenctl => decide (r.i = t)
  | .budget => decide (r.i = t)

def State.mayWrite (s : State) (m : Master) (r : RegRef) : Bool := s.tenantMay (s.tenantOf m) r

/-- May the tenant of a master read this register (R503, R861, and the commit records of spec/04)? -/
def State.mayRead (s : State) (m : Master) (r : RegRef) : Bool :=
  let t := s.tenantOf m
  decide (t = 0) ||
  match r.k with
  | .FAB_CMT_APPLIED_FRAME | .FAB_CMT_APPLIED_INFO | .FAB_CMT_REJ_FRAME | .FAB_CMT_REJ_INFO | .TEN_EVT_MASK
  | .TEN_CTL | .TEN_STATUS | .TEN_CORES | .TEN_QRANGE | .TEN_LINKS | .TEN_MBX | .TEN_MBX_INFO | .TEN_MBX_DOOR
  | .TEN_MBX_ALLOW | .TEN_SHED_FRAME | .TEN_SHED_CAUSE | .TEN_SEG_W0 | .TEN_SEG_W1 | .TEN_SEL_OWN
  | .TEN_SLOT_OWN => decide (r.i = t)
  | .CORE_EVT_EN | .CORE_EVT_PEND | .EVR_MERGED => decide (s.coreOwner r.i = t)
  | .Q_BASE | .Q_CFG | .Q_WM | .Q_HEAD | .Q_TAIL | .Q_FILL | .Q_DROP | .Q_STAT => decide (s.queueOwner r.i = t)
  | _ => true

/-! ### Pond memory -/

/-- POND_BANK_STATUS of a bank (R485, R495). -/
def State.bankSt (s : State) (b : Nat) : Nat := fieldOf (s.reg .POND_BANK_STATUS) (2 * b) 2

def State.setBankSt (s : State) (b v : Nat) : State :=
  s.setReg .POND_BANK_STATUS (withField (s.reg .POND_BANK_STATUS) (2 * b) 2 v)

/-- Every byte of the range lies in pond memory in a bank that is on, and the schedule runs (R483, R491). -/
def State.pondOn (s : State) (a len : Nat) : Bool :=
  s.divRun && decide (a + len ≤ 0x1000000) && decide (s.bankSt (a / 0x100000) = 2) &&
    decide (s.bankSt ((a + len - 1) / 0x100000) = 2)

/-- A byte of pond memory. -/
def State.byte (s : State) (a : Nat) : Byte := tabGet (fun _ => (0 : Byte)) s.mem a

def State.setByte (s : State) (a : Nat) (v : Byte) : State :=
  { s with mem := tabPut (fun _ => (0 : Byte)) s.mem a v }

/-- `n` bytes from an address on. -/
def State.bytes (s : State) (a n : Nat) : List Byte := (List.range n).map fun i => s.byte (a + i)

def State.setBytes (s : State) (a : Nat) : List Byte → State
  | [] => s
  | v :: t => (s.setByte a v).setBytes (a + 1) t

/-- Little-endian value of bytes (R1). -/
def leNat : List Byte → Nat
  | [] => 0
  | b :: t => b.toNat + 256 * leNat t

/-- `n` bytes of a number, lowest first (R1). -/
def leBytes : Nat → Nat → List Byte
  | 0, _ => []
  | n + 1, v => BitVec.ofNat 8 v :: leBytes n (v / 256)

/-- The 8-byte words a range touches. -/
def wordsOf (a len : Nat) : List Nat :=
  (List.range ((a + len - 1) / 8 + 1 - a / 8)).map (a / 8 + ·)

def State.eccOf (s : State) (w : Nat) : WordErr := tabGet (fun _ => WordErr.good) s.ecc w
def State.setEcc (s : State) (w : Nat) (v : WordErr) : State :=
  { s with ecc := tabPut (fun _ => WordErr.good) s.ecc w v }

/-- One wrong bit is corrected; two are detected (R473). -/
def WordErr.ce : WordErr → Bool
  | .one _ => true
  | _ => false

def WordErr.ue : WordErr → Bool
  | .two _ _ => true
  | _ => false

/-- Invert a stored bit. A third wrong bit is not followed up: the word stays uncorrectable. -/
def WordErr.flip (e : WordErr) (b : Fin 72) : WordErr :=
  match e with
  | .good => .one b
  | .one c => if c = b then .good else .two c b
  | .two a c => if a = b then .one c else if c = b then .one a else e

/-- What reading words does to their check bits (R474, R477): correctable words are counted, and corrected unless a
word is uncorrectable, which is recorded with master and port. The Bool says that no word was uncorrectable. -/
def State.eccRead (s : State) (master port : Nat) (words : List Nat) : State × Bool :=
  let ce := words.filter fun w => (s.eccOf w).ce
  let s1 := if ce.isEmpty then s else
    { s.bump F.POND_ECC_CE_COUNT_COUNT ce.length none with
      ceGrown := s.ceGrown || decide (s.f F.POND_ECC_CE_COUNT_COUNT ≠ 0xFFFF) }
  let s2 := if decide (s.f F.POND_ECC_CE_COUNT_COUNT + ce.length ≥ 0x10000)
    then s1.setF F.POND_ECC_UE_INFO_CE_SAT 1 else s1
  match words.find? fun w => (s.eccOf w).ue with
  | none => (ce.foldl (fun s w => s.setEcc w .good) s2, true)
  | some w =>
    let s3 := if decide (s2.f F.POND_ECC_UE_COUNT_COUNT = 0xFFFF) then s2.setF F.POND_ECC_UE_INFO_UE_SAT 1
      else s2.bump F.POND_ECC_UE_COUNT_COUNT 1 none
    let s4 := s3.setReg .POND_ECC_UE_ADDR (BitVec.ofNat 32 (w * 8))
    let s5 := s4.setF F.POND_ECC_UE_INFO_MASTER master
    ({ (s5.setF F.POND_ECC_UE_INFO_PORT port).setF F.POND_ECC_UE_INFO_UE_ANY 1 with ueNew := true }, false)

/-- Read pond bytes in one access; none where a word is uncorrectable. -/
def State.pondRead (s : State) (master port a len : Nat) : State × Option (List Byte) :=
  match s.eccRead master port (wordsOf a len) with
  | (s1, true) => (s1, some (s1.bytes a len))
  | (s1, false) => (s1, none)

/-- Write pond bytes in one access (R475, R476): words written in part are read and corrected first, and words written
whole lose their errors. The Bool says that the write was made. -/
def State.pondWrite (s : State) (master port a : Nat) (bs : List Byte) : State × Bool :=
  let ws := wordsOf a bs.length
  let whole := fun w => decide (a ≤ w * 8 ∧ w * 8 + 8 ≤ a + bs.length)
  match s.eccRead master port (ws.filter fun w => !(whole w)) with
  | (s1, true) => (((ws.filter whole).foldl (fun s w => s.setEcc w .good) s1).setBytes a bs, true)
  | (s1, false) => (s1, false)

/-! ### Segment descriptors (R360, R361, R446) -/

def segBase (d : BitVec 64) : Nat := (d.toNat % 2 ^ 32) / 64 * 64
def segLimit (d : BitVec 64) : Nat := (d.toNat >>> 32) % 2 ^ 25
def segMode (d : BitVec 64) : Nat := (d.toNat >>> 4) % 4
def segR (d : BitVec 64) : Bool := d.getLsbD 0
def segW (d : BitVec 64) : Bool := d.getLsbD 1
def segXR (d : BitVec 64) : Bool := d.getLsbD 2
def segFW (d : BitVec 64) : Bool := d.getLsbD 3
def segValid (d : BitVec 64) : Bool := d.getLsbD 63

/-- The blocks of the control space map (R837), pond memory apart: first and last address. -/
def ctlBlocks : List (Nat × Nat) :=
  [(0x01000000, 0x0100FFFF), (0x01010000, 0x0101FFFF), (0x01020000, 0x01020FFF), (0x01021000, 0x01021FFF),
   (0x01030000, 0x01031FFF), (0x01080000, 0x010BFFFF), (0x01100000, 0x0111FFFF), (0x01120000, 0x01123FFF),
   (0x01130000, 0x01131FFF), (0x01140000, 0x01143FFF), (0x01180000, 0x011BFFFF), (0x011C0000, 0x011C47FF),
   (0x011D0000, 0x011DFFFF), (0x011E0000, 0x011E43FF), (0x011E4400, 0x011E47FF), (0x011F0000, 0x011F03FF),
   (0x01200000, 0x01200FFF), (0x01210000, 0x01213FFF), (0x01220000, 0x01220FFF), (0x01230000, 0x01230407),
   (0x01240000, 0x012403FF), (0x01250000, 0x0125FFFF)]

/-- A region lies wholly within a range; an empty one lies at its base (R361). -/
def regionIn (base limit lo hi : Nat) : Bool := decide (lo ≤ base ∧ base ≤ hi ∧ base + limit ≤ hi + 1)

/-- Well-formed under R361; for the eft also under R446. -/
def segWellFormed (eft : Bool) (d : BitVec 64) : Bool :=
  let base := segBase d
  let limit := segLimit d
  let pond := regionIn base limit 0 0xFFFFFF
  (pond || ctlBlocks.any fun r => regionIn base limit r.1 r.2) &&
  (!(segXR d) || pond) &&
  (!(segFW d) || regionIn base limit 0x01000000 0x0100FFFF || regionIn base limit 0x01020000 0x01020FFF) &&
  !(segW d && segFW d) &&
  decide ((d.toNat >>> 57) % 64 = 0) &&
  (!eft || regionIn base limit 0x00FF0000 0x00FFFFFF || decide (base + limit ≤ 0x00FF0000) ||
    decide (base ≥ 0x01000000))

/-- Entry `k` of a tenant's segment table (R505). -/
def State.segEntry (s : State) (t k : Nat) : BitVec 64 := s.reg .TEN_SEG_W1 t k ++ s.reg .TEN_SEG_W0 t k

/-- Some VALID, well-formed entry of the table covers a range with the rights asked (R509, R576). -/
def State.segCovers (s : State) (t a len : Nat) (needR : Bool) : Bool :=
  (List.range 64).any fun k =>
    let d := s.segEntry t k
    segValid d && segWellFormed false d && segW d && (!needR || segR d) &&
      decide (segBase d ≤ a ∧ a + len ≤ segBase d + segLimit d)

/-! ### What follows every command -/

def qEn (q : Queue) : Bool := q.cfg.getLsbD 0
def qDrops (q : Queue) : Bool := q.cfg.getLsbD 1
def qSumEn (q : Queue) : Bool := q.cfg.getLsbD 2
def qEsize (q : Queue) : Nat := 8 * 2 ^ fieldOf q.cfg 4 3
def qDepth (q : Queue) : Nat := 2 ^ fieldOf q.cfg 8 5
def qFill (q : Queue) : Nat := (q.tail - q.head).toNat
def qHigh (q : Queue) : Nat := if q.wm = 0 then 1 else q.wm.toNat

/-- The condition of R515 for a queue's QSUM bit. -/
def qAbove (q : Queue) : Bool := qEn q && qSumEn q && decide (qHigh q ≤ qFill q)

/-- The QSUM bit of a queue stands at this word and bit. -/
def State.qsumBit (s : State) (q : Nat) : Bool := (s.reg .QSUM (q / 256) (q % 256 / 32)).getLsbD (q % 32)

/-- R515 for one queue: set its bit and raise the summary event for its owner. -/
def State.qsumOne (s : State) (e : Nat × Queue) : State :=
  if qAbove e.2 && decide (e.1 < 16384) && !(s.qsumBit e.1) then
    (s.setBit .QSUM (e.1 % 32) (e.1 / 256) (e.1 % 256 / 32)).raiseTo (908 + e.1 / 256) (s.queueOwner e.1)
  else s

/-- R515: the summary logic, which runs while the fabric does. -/
def State.qsums (s : State) : State := if s.fabUp then s.queues.foldl State.qsumOne s else s

/-- Service class of an event source (R656). -/
def classOf (n : Nat) : Nat :=
  if n ≤ 575 ∨ (640 ≤ n ∧ n ≤ 719) then 0
  else if (720 ≤ n ∧ n ≤ 783) ∨ (988 ≤ n ∧ n ≤ 1003) then 1
  else if n ≤ 639 ∨ (908 ≤ n ∧ n ≤ 987) then 2 else 3

/-- Bits of a CORE_EVT_EN word that belong to a class. -/
def classMask (c w : Nat) : Nat :=
  (List.range 32).foldl (fun a i => if classOf (32 * w + i) = c then a + 2 ^ i else a) 0

/-- A source of class `c` is enabled at one of the tenant's cores (R658): the words of CORE_EVT_EN that are not 0 are
the listed ones. -/
def State.classUsed (s : State) (t c : Nat) : Bool :=
  s.regs.any fun e =>
    decide (0x011C1000 ≤ e.1 ∧ e.1 < 0x011C1000 + 17 * 0x80) &&
      (let off := e.1 - 0x011C1000
       decide (s.coreOwner (off / 0x80) = t) && decide (e.2.toNat &&& classMask c (off % 0x80 / 4) ≠ 0))

/-- Deepest state a tenant tolerates (R657, R658); LATc 0 sets no limit. -/
def State.tolerates (s : State) (t : Nat) : Nat :=
  (List.range 4).foldl (fun d c =>
      let lat := fieldOf (s.reg .PWR_BUDGET t) (4 * c) 4
      if decide (lat ≠ 0) && s.classUsed t c then min d lat else d)
    (if (s.reg .PWR_BUDGET t).getLsbD 16 then 3 else 2)

/-- Depth the tenants' budgets allow, before the wake sources are looked at. -/
def State.budgets (s : State) : Nat :=
  max 1 ((List.range 16).foldl (fun d t => if (s.ten t).st = .off then d else min d (s.tolerates t)) 3)

/-- ALLOWED (R659). -/
def State.allowed (s : State) : Nat := if s.reg .PWR_WAKE_EN = 0 then min 2 s.budgets else s.budgets

/-- GOAL (R660). -/
def State.goal (s : State) : Nat := min (s.f F.PWR_CTL_TARGET) (s.f F.PWR_STATUS_ALLOWED)

/-- R659, R660: ALLOWED follows its inputs, with its event; BRUM_CAPPED and GOAL follow. -/
def State.allow (s : State) : State :=
  let a := s.allowed
  let s := if s.f F.PWR_STATUS_ALLOWED = a then s else (s.setF F.PWR_STATUS_ALLOWED a).raise 792
  let s := if s.budgets = 3 ∧ a = 2 ∧ !(s.b F.PWR_STATUS_BRUM_CAPPED)
    then (s.setF F.PWR_STATUS_BRUM_CAPPED 1).raise 791 else s
  if s.f F.PWR_STATUS_GOAL = s.goal then s else s.setF F.PWR_STATUS_GOAL s.goal

/-- A core is clock-gated (R654). -/
def State.gated (s : State) (n : Nat) : Bool :=
  decide ((s.core n).st = .wait) && decide (1 ≤ s.f F.PWR_STATUS_GOAL) && !(s.pend.any fun e => decide (e.1 / 1024 = n))

/-- R655: Doze or Bask. -/
def State.dozeNow (s : State) : Bool :=
  decide (1 ≤ s.f F.PWR_STATUS_GOAL) && (List.range 17).all fun n =>
    match (s.core n).st with
    | .off | .stopped | .faultStop => true
    | .wait => s.gated n
    | .run | .dbg => false

/-- R655, R689: STATE outside Torpor and Brumation follows the cores, with its event. -/
def State.doze (s : State) : State :=
  let st := if s.dozeNow then 1 else 0
  if s.dev ≥ 2 ∨ s.dev = st then s else (s.setF F.PWR_STATUS_STATE st).raise 789

/-- The level-sensitive logic that follows every command: queue summaries and the choice of state. It rests while the
device holds reset. -/
def State.settle (s : State) : State := if s.rst.held then s else s.allow.doze.qsums

/-- A command's outcome: its effect on the state, the level-sensitive logic after it, and the waiting commands
untouched. -/
def run (f : State → State) (s : State) : Out := .next { (f s).settle with pending := s.pending }

end Sys2Proof.Machine
end

