-- ==== Sys2Proof/Machine/Queue.lean ====
section
/-!
DEFINITION. Machine/Queue.lean: the hardware queues (spec/13 R506 to R517) and the paged reads kept with them
(spec/16 R614 to R621): descriptors, puts and gets, enabling and disabling.
-/
namespace Sys2Proof.Machine

def State.queue (s : State) (q : Nat) : Queue := tabGet (fun _ => Queue.init) s.queues q
def State.setQueue (s : State) (q : Nat) (v : Queue) : State :=
  { s with queues := tabPut (fun _ => Queue.init) s.queues q v }

/-- Address of entry position `c` (R508). -/
def qAddr (q : Queue) (c : BitVec 17) : Nat := q.base + c.toNat % qDepth q * qEsize q

def qFull (q : Queue) : Bool := decide (qFill q = qDepth q)

/-- The ring's bank is on and the owner is not being shed (R514). -/
def State.qLive (s : State) (n : Nat) (q : Queue) : Bool :=
  let st := (s.ten (s.queueOwner n)).st
  qEn q && !(decide (st = .shedding) || decide (st = .shed)) && s.pondOn q.base (qDepth q * qEsize q)

/-- Entries read by a host but not released (R618). -/
def qHeld (q : Queue) : Nat := ((q.sent - q.acked).toNat + q.acked.toNat % qEsize q + qEsize q - 1) / qEsize q

/-- No room for a producer: full, off, or under R514. -/
def State.qNoRoom (s : State) (n : Nat) : Bool :=
  let q := s.queue n
  !(s.qLive n q) || qFull q

/-- Nothing for a core to take: empty, off, under R514, or with held entries (R621). -/
def State.qNothing (s : State) (n : Nat) : Bool :=
  let q := s.queue n
  !(s.qLive n q) || decide (qFill q = 0) || decide (qHeld q ≠ 0)

/-- Count a dropped entry (R512, R513). A queue that is off or under R514 counts nothing (R511, R514). -/
def State.qDrop (s : State) (n : Nat) : State :=
  let q := s.queue n
  if !(s.qLive n q) then s
  else if q.drop = 0xFFFF then s.setQueue n { q with dropSat := true }
  else s.setQueue n { q with drop := q.drop + 1 }

/-- Put one entry's bytes at position TAIL and publish it; the bytes have the entry's size. The Bool says that the
bytes could be written. -/
def State.qPut (s : State) (master n : Nat) (bs : List Byte) : State × Bool :=
  let q := s.queue n
  match s.pondWrite master 2 (qAddr q q.tail) bs with
  | (s1, true) => (s1.setQueue n { q with tail := q.tail + 1 }, true)
  | (s1, false) => (s1, false)

/-- Pad or cut a list to a length. -/
def fit (n : Nat) (bs : List Byte) : List Byte := (bs ++ List.replicate (n - bs.length) 0).take n

/-- Read the entry at position `c`. -/
def State.qRead (s : State) (master n : Nat) (c : BitVec 17) : State × Option (List Byte) :=
  let q := s.queue n
  s.pondRead master 2 (qAddr q c) (qEsize q)

/-- Release `k` entries from HEAD on to a core or a block; the stream positions follow HEAD (R614). -/
def State.qTake (s : State) (n k : Nat) : State :=
  let q := s.queue n
  let by_ : Word := BitVec.ofNat 32 (k * qEsize q)
  s.setQueue n { q with head := q.head + BitVec.ofNat 17 k, acked := q.acked + by_, sent := q.sent + by_ }

def State.qAdvance (s : State) (n : Nat) : State := s.qTake n 1

/-- The first failing check of R509, or 0. -/
def State.qCheck (s : State) (n : Nat) (q : Queue) : Nat :=
  let size := qDepth q * qEsize q
  if fieldOf q.cfg 4 3 > 5 ∨ fieldOf q.cfg 8 5 > 16 then 1
  else if q.base % qEsize q ≠ 0 then 2
  else if q.base + size > 0x1000000 ∨ q.base / 0x100000 ≠ (q.base + size - 1) / 0x100000 then 3
  else if s.segCovers (s.queueOwner n) q.base size true then 0 else 4

/-- Mark every unacknowledged page of a queue as ended on every link (R640, R642). -/
def State.voidPages (s : State) (n : Nat) : State :=
  { s with links := s.links.map fun l =>
      (l.1, { l.2 with pages := l.2.pages.map fun p => if p.queue = n then { p with dead := true } else p }) }

/-- Set HEAD and TAIL to 0 and discard every entry (R511, R529); stream positions follow HEAD (R640, R642). -/
def State.qEmpty (s : State) (n : Nat) : State :=
  (s.setQueue n { s.queue n with head := 0, tail := 0, acked := 0, sent := 0 }).voidPages n

/-- A write of Q_CFG (R509 to R511): `v` has only defined bits. The Bool is an access error (R510). -/
def State.writeQCfg (s : State) (n : Nat) (v : Word) : State × Bool :=
  let q := s.queue n
  let keep : Word := 0x1F70
  if qEn q then
    if (v &&& keep) ≠ (q.cfg &&& keep) then (s, true)
    else if v.getLsbD 0 then (s.setQueue n { q with cfg := v }, false)
    else ((s.setQueue n { q with cfg := v }).qEmpty n, false)
  else if v.getLsbD 0 then
    match s.qCheck n { q with cfg := v } with
    | 0 => (s.setQueue n { q with cfg := v, cfgErr := 0, head := 0, tail := 0, acked := 0, sent := 0 }, false)
    | e => (s.setQueue n { q with cfg := v &&& ~~~(1 : Word), cfgErr := e }, false)
  else (s.setQueue n { q with cfg := v }, false)

/-- A write of Q_BASE (R510). -/
def State.writeQBase (s : State) (n : Nat) (v : Word) : State × Bool :=
  let q := s.queue n
  if qEn q then (s, true) else (s.setQueue n { q with base := v.toNat % 0x1000000 / 8 * 8 }, false)

/-- A register of a queue descriptor as it reads (R507). -/
def State.readQ (s : State) (k : RegKind) (n : Nat) : Word :=
  let q := s.queue n
  match k with
  | .Q_BASE => BitVec.ofNat 32 q.base
  | .Q_CFG => q.cfg
  | .Q_WM => q.wm.setWidth 32
  | .Q_HEAD => q.head.setWidth 32
  | .Q_TAIL => q.tail.setWidth 32
  | .Q_FILL => BitVec.ofNat 32 (qFill q)
  | .Q_DROP => q.drop.setWidth 32 ||| (if q.dropSat then 0x10000 else 0)
  | .Q_STAT => BitVec.ofNat 32 (qHeld q % 2 ^ 17 + q.cfgErr * 2 ^ 17 + (if qEn q && qFull q then 2 ^ 20 else 0) +
      (if decide (qHigh q ≤ qFill q) then 2 ^ 21 else 0) + s.queueOwner n * 2 ^ 24)
  | _ => 0

/-- Clear the RC count of Q_DROP after a read (R9). -/
def State.clearQDrop (s : State) (n : Nat) : State := s.setQueue n { s.queue n with drop := 0 }

/-- A write of Q_DROP: W1C of DROP_SAT (R510). -/
def State.writeQDrop (s : State) (n : Nat) (v : Word) : State :=
  if v.getLsbD 16 then s.setQueue n { s.queue n with dropSat := false } else s

/-- A write of QSUM (R516): 1s clear the bits of queues that the tenant owns; T0 clears any. -/
def State.clearQsum (s : State) (t g w : Nat) (v : Word) : State :=
  let mine := (List.range 32).foldl (fun a i =>
    if v.getLsbD i && (decide (t = 0) || decide (s.queueOwner (256 * g + 32 * w + i) = t)) then a + 2 ^ i else a) 0
  s.setReg .QSUM (s.reg .QSUM g w &&& ~~~(BitVec.ofNat 32 mine)) g w

/-- A read of QSUM (R517). -/
def State.readQsum (s : State) (t g w : Nat) : Word :=
  if t = 0 then s.reg .QSUM g w else
  let mine := (List.range 32).foldl (fun a i =>
    if decide (s.queueOwner (256 * g + 32 * w + i) = t) then a + 2 ^ i else a) 0
  s.reg .QSUM g w &&& BitVec.ofNat 32 mine

end Sys2Proof.Machine
end

