-- ==== Sys2Proof/Machine/CoreOps.lean ====
section
/-!
DEFINITION. Machine/CoreOps.lean: what every core instruction shares (spec/11): counters of spec/15 that its cycles
and pulses advance, starting and restarting (R347, R454, R856, R857), the instruction cache and line buffer (R415 to
R428), fault entry (R436 to R439), interrupts pending (R429), and the request of a tail shed (R527, R528).
-/
namespace Sys2Proof.Machine

def State.pctr (s : State) (n k : Nat) : PCtr := tabGet (fun _ => PCtr.init) s.pctrs (n * 8 + k)
def State.setPctr (s : State) (n k : Nat) (c : PCtr) : State :=
  { s with pctrs := tabPut (fun _ => PCtr.init) s.pctrs (n * 8 + k) c }

/-- What one signal adds to a counter (R558): in edge mode a signal that becomes non-zero counts once. `level` says
that the signal stays at its value until the next report. -/
def PCtr.add (c : PCtr) (edge level : Bool) (amount : Nat) : PCtr :=
  if edge then
    if level then { c with val := c.val + (if c.prev || decide (amount = 0) then 0 else 1), prev := decide (amount ≠ 0) }
    else { c with val := c.val + min 1 amount }
  else { c with val := c.val + amount }

/-- Signals of R559 that are levels and hold across reports. -/
def levelSel (sel : Nat) : Bool := decide (sel = 1 ∨ sel = 2 ∨ sel = 3 ∨ sel = 4 ∨ sel = 5 ∨ sel = 13)

/-- The cycle in which the router delivers an overflow of core cycle `c - 1`, counted from the strobe: windows of 4 core
cycles anchored to it (R520, R570); on the FRC, of which a cycle is longer than a window, the next one. -/
def State.delivered (s : State) (n c : Nat) : Nat :=
  if n = 16 ∧ !(s.b F.CLK_EFT_SRC_CUR) then c else 4 * ((c - 1) / 4 + 1)

/-- A counter that passes its largest value in cycle `i` of a report asks for a sample, unless one is due (R570, R572):
the frame and cycle of the overflow, and the cycle of its delivery. -/
def State.sampleDue (s : State) (n i : Nat) (old new : PCtr) (sample : Bool) : PCtr :=
  let core := s.core n
  let at_ := core.fcyc + i - 1
  if sample && decide (old.val < 2 ^ 48 ∧ 2 ^ 48 ≤ new.val) && old.due.isNone then
    { new with
      due := some (if s.divRun then (s.frame + BitVec.ofNat 32 (at_ / 12288), at_ % 12288) else (s.frame, 0xFFFF))
      dueAt := core.cyc + (s.delivered n (core.fcyc + i) - core.fcyc), dueInstr := 0, ready := none }
  else new

/-- Core `n`'s counter `k` takes a report of the signal values of `t` cycles (R559, R561); `hold` keeps its value. A
level that overflows does so in the cycle that its value names, a pulse in the last. -/
def State.perfOne (s : State) (n k : Nat) (hold : Bool) (vals : List (Nat × Nat)) (t : Nat) : State :=
  let ctl := s.reg .PERF_CTL n k
  let sel := fieldOf ctl 0 6
  if sel = 0 then s
  else
    let total := vals.foldl (fun a v => if v.1 = sel then a + v.2 else a) 0
    if vals.any fun v => decide (v.1 = sel) then
      let c := s.pctr n k
      let c' := c.add (ctl.getLsbD 8) (levelSel sel) total
      let level := levelSel sel || decide (sel = 11)
      let i := if !level then t else if ctl.getLsbD 8 then min 1 t else min t (2 ^ 48 - c.val)
      s.setPctr n k (if hold || (s.reg .PERF_GLOBAL n).getLsbD k then { c' with val := c.val }
        else s.sampleDue n i c c' (ctl.getLsbD 9))
    else s

/-- Report the signal values of `t` cycles to core `n`'s four counters; they hold in DEBUG_HALT (R561). -/
def State.perf (s : State) (n : Nat) (vals : List (Nat × Nat)) (t : Nat := 0) : State :=
  [0, 1, 2, 3].foldl (fun s k => s.perfOne n k (decide ((s.core n).st = .dbg)) vals t) s

/-- Word 0 of a sample record (R572): the PC of a context, the counter and the skid. -/
def State.sampleWord (s : State) (n k : Nat) (hand : Bool) (skid : Nat) : Nat :=
  let core := s.core n
  (if hand then core.hand else core.main).pc.toNat + (if hand then 2 ^ 24 else 0) + k * 2 ^ 25 + skid * 2 ^ 27

/-- An instruction of core `n` has completed: samples count it, and one whose overflow has been delivered finds its
boundary (R570, R571). -/
def State.perfBoundary (s : State) (n : Nat) : State :=
  [0, 1, 2, 3].foldl (fun s k =>
    let c := s.pctr n k
    if c.due.isSome ∧ c.ready = none then
      let i := c.dueInstr + 1
      s.setPctr n k { c with
        dueInstr := i
        ready := if s.fabUp && decide (c.dueAt < (s.core n).cyc) then some (s.sampleWord n k (s.core n).doneIn (min 3 i))
          else none }
    else s) s

/-- A core that waits in `wev`, or has stopped, stands at a boundary: samples whose overflow has been delivered find it
there (R571). -/
def State.perfStand (s : State) (n : Nat) : State :=
  [0, 1, 2, 3].foldl (fun s k =>
    let c := s.pctr n k
    if c.due.isSome ∧ c.ready = none ∧ s.fabUp ∧ c.dueAt ≤ (s.core n).cyc then
      s.setPctr n k { c with ready := some (s.sampleWord n k (s.core n).inHandler (max 1 (min 3 c.dueInstr))) }
    else s) s

/-! ### Instruction cache -/

def cacheSets (n : Nat) : Nat := if n = 16 then 128 else 256

/-- Cycles of a fill or prefetch (R420, R448). -/
def State.fillTime (s : State) (n : Nat) : Nat :=
  if n = 16 ∧ !(s.b F.CLK_EFT_SRC_CUR) then 6 else 24

/-- The master code of a core's fetches (R496). -/
def fetchCode (n : Nat) : Nat := if n = 16 then 0x10 else n

/-- Is a line in the cache, and in which way? -/
def Core.hit (c : Core) (n line : Nat) : Option Nat :=
  let set := line % cacheSets n
  if (tabGet (fun _ => CLine.none) c.way0 set).tag = line + 1 then some 0
  else if (tabGet (fun _ => CLine.none) c.way1 set).tag = line + 1 then some 1 else none

/-- The copy of a line that a fetch would find (R422). -/
def Core.copyOf (c : Core) (n line : Nat) : Option (List Byte) :=
  let set := line % cacheSets n
  match c.hit n line with
  | some 0 => some (tabGet (fun _ => CLine.none) c.way0 set).bytes
  | some _ => some (tabGet (fun _ => CLine.none) c.way1 set).bytes
  | none => c.lb.bind fun b => if b.line = line ∧ b.left = 0 then some b.bytes else none

def Core.touch (c : Core) (n line way : Nat) : Core :=
  { c with lru := tabPut (fun _ => 0) c.lru (line % cacheSets n) (way + 1) }

/-- Put a line into the cache (R416, R423). -/
def Core.fill (c : Core) (pin : Bool) (n line : Nat) (bytes : List Byte) : Core :=
  let set := line % cacheSets n
  let way := if pin then 1 else if tabGet (fun _ => 0) c.lru set = 1 then 1 else 0
  let c := if way = 0 then { c with way0 := tabPut (fun _ => CLine.none) c.way0 set ⟨line + 1, bytes⟩ }
    else { c with way1 := tabPut (fun _ => CLine.none) c.way1 set ⟨line + 1, bytes⟩ }
  c.touch n line way

/-- Load lines of a running cache load whose time has come (R424, R426). -/
def State.loadLines (s : State) (n : Nat) : Nat → State
  | 0 => s
  | k + 1 =>
    let c := s.core n
    match c.load with
    | none => s
    | some l =>
      if l.done < l.total ∧ 24 * (l.done + 1) ≤ l.acc then
        let line := l.base + l.done
        let set := line % cacheSets n
        let ok := s.pondOn (line * 32) 32
        let r := if ok then s.eccRead (fetchCode n) 1 (wordsOf (line * 32) 32) else (s, false)
        let l' := { l with done := l.done + 1 }
        let c := { c with
          load := if l'.done = l'.total then none else some l'
          way0 := tabPut (fun _ => CLine.none) c.way0 set
            (if r.2 then ⟨line + 1, r.1.bytes (line * 32) 32⟩ else CLine.none) }
        let s1 := r.1.setCore n c
        let s2 := if r.2 then s1 else s1.setF F.CORE_ICACHE_LOAD_LOAD_ERR 1 n
        (if l'.done = l'.total then s2.setF F.CORE_ICACHE_LOAD_BUSY 0 n else s2).loadLines n k
      else s

/-- A prefetch ends: the line buffer takes its copy of the line, corrected (R474), or is emptied where a word cannot be
corrected or read (R421). -/
def State.lbDone (s : State) (n line : Nat) : State :=
  let r := if s.pondOn (line * 32) 32 then s.eccRead (fetchCode n) 1 (wordsOf (line * 32) 32) else (s, false)
  r.1.setCore n { r.1.core n with lb := if r.2 then some ⟨line, 0, r.1.bytes (line * 32) 32⟩ else none }

/-- The line buffer of core `n` as `k` cycles pass (R418). -/
def State.lbPass (s : State) (n k : Nat) : State :=
  let c := s.core n
  match c.lb with
  | none => s
  | some b =>
    if b.left = 0 then s
    else if b.left ≤ k then s.lbDone n b.line
    else s.setCore n { c with lb := some { b with left := b.left - k } }

/-- Let `k` cycles of core `n` pass: its count, which a debug halt freezes (R451), its prefetch and its cache load. -/
def State.pass (s : State) (n k : Nat) : State :=
  let c := s.core n
  let s1 := (s.setCore n { c with
    cyc := if c.st = .dbg then c.cyc else c.cyc + k, fcyc := c.fcyc + k
    load := c.load.map fun l => { l with acc := l.acc + k } }).lbPass n k
  match c.load with
  | none => s1
  | some l => s1.loadLines n l.total

/-- The outcome of a fetch: the stall it adds, and a fault code if it failed (R367, R415 to R421). -/
inductive Fetch where
  | ok (stall : Nat)
  | fault (code stall : Nat)
  deriving DecidableEq, Repr

/-- A fetch outcome with more stall before it. -/
def Fetch.later (k : Nat) : Fetch → Fetch
  | .ok stall => .ok (k + stall)
  | .fault code stall => .fault code (k + stall)

/-- AON RAM as the eft sees it (R444). -/
def inAon (n a : Nat) : Bool := decide (n = 16 ∧ 0x00FF0000 ≤ a ∧ a < 0x01000000)

/-- A running cache load goes on to its end (R424); the cycles that it takes. -/
def State.endLoad (s : State) (n : Nat) : State × Nat :=
  let c := s.core n
  match c.load with
  | some l => ((s.setCore n { c with load := some { l with acc := max l.acc (24 * l.total) } }).loadLines n l.total,
      24 * l.total - l.acc)
  | none => (s, 0)

/-- A fill of a missed line: a running prefetch is abandoned (R420). -/
def State.fillNow (s : State) (n line : Nat) (pin : Bool) : State × Fetch :=
  let c := s.core n
  let s := (s.setCore n { c with lb := c.lb.bind fun b => if b.left = 0 then some b else none }).perf n [(10, 1)]
  if !(s.pondOn (line * 32) 32) then (s, .fault 7 (s.fillTime n))
  else
    match s.eccRead (fetchCode n) 1 (wordsOf (line * 32) 32) with
    | (s1, true) => (s1.setCore n ((s1.core n).fill pin n line (s1.bytes (line * 32) 32)), .ok (s.fillTime n))
    | (s1, false) => (s1, .fault 8 (s.fillTime n))

/-- A miss (R420): it waits until a running load ends (R425). -/
def State.fillLine (s : State) (n line : Nat) (pin : Bool) : State × Fetch :=
  let r := s.endLoad n
  let f := r.1.fillNow n line pin
  (f.1, f.2.later r.2)

/-- The line buffer's line moves into the cache (R418). -/
def State.takeLine (s : State) (n line : Nat) (pin : Bool) (bytes : List Byte) : State :=
  s.setCore n ({ s.core n with lb := none }.fill pin n line bytes)

/-- Fetch one word at a checked address: cache, line buffer and fill. -/
def State.fetchLine (s : State) (n a : Nat) : State × Fetch :=
  if inAon n a then (s, .ok 0)
  else
    let line := a / 32
    let c := s.core n
    let pin := s.b F.CORE_ICACHE_CTL_PIN n
    match c.hit n line with
    | some w => (s.setCore n (c.touch n line w), .ok 0)
    | none =>
      match c.lb with
      | some b =>
        if b.line ≠ line then s.fillLine n line pin
        else if b.left = 0 then (s.takeLine n line pin b.bytes, .ok 0)
        else
          let s1 := s.lbDone n line
          match (s1.core n).lb with
          | some b1 => (s1.takeLine n line pin b1.bytes, .ok b.left)
          | none => ((s1.fillLine n line pin).1, ((s1.fillLine n line pin).2).later b.left)
      | none => s.fillLine n line pin

/-- R417: the first word of a line starts a prefetch of the next, and abandons one that runs. -/
def State.prefetch (s : State) (n a limitEnd : Nat) : State :=
  let c := s.core n
  let line := a / 32
  if inAon n a ∨ c.lastLine = some line then s
  else
    let c := { c with lastLine := some line }
    let next := line + 1
    let have_ := (c.hit n next).isSome || (match c.lb with | some b => decide (b.line = next) | none => false)
    if have_ ∨ limitEnd ≤ next * 32 ∨ inAon n (next * 32) then s.setCore n c
    else (s.setCore n { c with lb := some ⟨next, s.fillTime n, []⟩ }).perf n [(12, 1)]

/-- R428: INV and INV_ALL. -/
def State.icacheInv (s : State) (n : Nat) (all : Bool) : State :=
  let c := s.core n
  s.setCore n { c with
    way1 := []
    way0 := if all || !(s.b F.CORE_ICACHE_CTL_PIN n) then [] else c.way0
    lb := none, lastLine := none }

/-- A write of GO to CORE_ICACHE_LOAD (R424, R426). -/
def State.icacheLoad (s : State) (n : Nat) (v : Word) : State :=
  let count := fieldOf v 0 9
  let base := s.f F.CORE_ICACHE_LOAD_BASE_BASE n
  let top := if n = 16 then 0x00FF0000 else 0x01000000
  let s1 := s.setF F.CORE_ICACHE_LOAD_COUNT count n
  let s1 := if v.getLsbD 29 then s1.setF F.CORE_ICACHE_LOAD_LOAD_ERR 0 n else s1
  if !(v.getLsbD 31) then s1
  else if count = 0 ∨ count > cacheSets n ∨ base * 32 + count * 32 > top ∨ (s.core n).load.isSome then
    s1.setF F.CORE_ICACHE_LOAD_LOAD_ERR 1 n
  else
    (s1.setF F.CORE_ICACHE_LOAD_BUSY 1 n).setCore n { s1.core n with load := some ⟨base, count, 0, 0⟩ }

/-! ### Events pending at a core (R429 to R431, R521) -/

def pendKey (n e : Nat) : Nat := n * 1024 + e

/-- The events pending at core `n` with their stamps, in ascending number. -/
def State.pendList (s : State) (n : Nat) : List (Nat × Word) :=
  s.pend.filterMap fun e =>
    if e.1 / 1024 = n then e.2.map fun w => (e.1 % 1024, w) else none

def State.dropPend (s : State) (n e : Nat) : State :=
  { s with pend := tabPut (fun _ => none) s.pend (pendKey n e) none }

/-- Discard everything pending at core `n` (R454, R529). -/
def State.dropAllPend (s : State) (n : Nat) : State :=
  { s with pend := s.pend.filter fun e => decide (e.1 / 1024 ≠ n) }

/-- The lowest interrupt selector that names an event (R429). -/
def State.irqOf (s : State) (n e : Nat) : Option Nat :=
  [0, 1, 2, 3, 4, 5, 6, 7].find? fun i =>
    let w := s.reg .CORE_IRQ_SRC n i
    w.getLsbD 31 && decide (fieldOf w 0 10 = e)

/-- The earlier of two pending events (R522): by stamp, then by number. -/
def earlier (a b : Nat × Word) : Nat × Word :=
  if after a.2 b.2 then b else if after b.2 a.2 then a else if a.1 ≤ b.1 then a else b

def earliest : List (Nat × Word) → Option (Nat × Word)
  | [] => none
  | a :: t =>
    match earliest t with
    | none => some a
    | some b => some (earlier a b)

/-- The wait event that `wev` takes (R430, R522). -/
def State.waitEvent (s : State) (n : Nat) : Option (Nat × Word) :=
  earliest ((s.pendList n).filter fun e => (s.irqOf n e.1).isNone)

/-- The interrupt event accepted first (R431, R522). -/
def State.irqEvent (s : State) (n : Nat) : Option (Nat × Word) :=
  [0, 1, 2, 3, 4, 5, 6, 7].findSome? fun i =>
    earliest ((s.pendList n).filter fun e => decide (s.irqOf n e.1 = some i))

/-- The value of a level signal now (R558, R559, R578). -/
def State.levelNow (s : State) (n sel : Nat) : Bool :=
  let c := s.core n
  match sel with
  | 1 => true
  | 2 => decide (c.st = .run)
  | 3 => decide (c.st = .wait)
  | 4 => s.gated n
  | 5 => decide (c.st = .run) && c.inHandler
  | 13 => !(decide (c.st = .off ∨ c.st = .stopped)) && (s.irqEvent n).isSome
  | _ => false

/-- Cycles of core `n` with their signals (R559): `stall` of fetch stall, `k` others, and the pulses that fall in
them. -/
def State.spend (s : State) (n stall k : Nat) (pulses : List (Nat × Nat)) : State :=
  let t := stall + k
  if t = 0 then s
  else
    let v := fun (sel : Nat) => (sel, if s.levelNow n sel then t else 0)
    (s.perf n ([v 1, v 2, v 3, v 4, v 5, (11, stall), v 13] ++ pulses) t).pass n t

/-- The levels of core `n` have changed, or are about to: counters in edge mode see their values of this moment
(R558). -/
def State.levels (s : State) (n : Nat) : State :=
  [0, 1, 2, 3].foldl (fun s k =>
    let ctl := s.reg .PERF_CTL n k
    let sel := fieldOf ctl 0 6
    if ctl.getLsbD 8 && levelSel sel then
      s.perfOne n k (decide ((s.core n).st = .dbg)) [(sel, if s.levelNow n sel then 1 else 0)] 1
    else s) s

/-! ### Starting, stopping and restarting -/

/-- R347: start a core. A start of the eft reloads the watchdog (R695). -/
def State.coreStart (s : State) (n : Nat) : State :=
  let t := s.coreOwner n
  let pc := BitVec.ofNat 24 (s.f F.CORE_START_MAIN_PC n * 4)
  let s0 := if (s.ten t).cut ∧ (s.ten t).st = .run then s.setTen t { s.ten t with cut := false } else s
  let s1 := s0.setCore n { s.core n with
    st := .run, inHandler := false, main := Ctx.start (s.segEntry t) pc
    hand := Ctx.start (fun k => s.segEntry t (16 + k)) 0
    afterReti := false, lastLine := none, part := 0, startAt := false, restart := false, haltReq := false,
    bpSkip := false, stepping := false }
  if n = 16 then
    { s1 with rst := { s1.rst with wdt := max 1 (s.f F.WDT_CTL_TIMEOUT) } }
  else s1

/-- The effects of a restart apart from running again (R454, R453): caches, pins, loads, pending events, debug. -/
def State.coreClear (s : State) (n : Nat) : State :=
  let s1 := s.setCore n { s.core n with
    way0 := [], way1 := [], lru := [], lb := none, load := none, part := 0, bps := [], lastLine := none,
    haltReq := false, bpSkip := false, stepping := false, startAt := false, restart := false }
  ((s1.setF F.CORE_ICACHE_CTL_PIN 0 n).setF F.CORE_ICACHE_LOAD_BUSY 0 n).dropAllPend n

def State.coreRestart (s : State) (n : Nat) : State := (s.coreClear n).coreStart n

/-- Hold a core in STOPPED with the effects of a restart (R455). -/
def State.coreHold (s : State) (n : Nat) : State :=
  let s1 := s.coreClear n
  s1.setCore n { s1.core n with st := .stopped, inHandler := false, main := Ctx.init, hand := Ctx.init }

/-- A write of RESTART to CORE_CTL (R665, R856, R857). -/
def State.restartWrite (s : State) (n : Nat) : State :=
  let t := s.coreOwner n
  if !(s.corePg n) then
    let s1 := s.setCore n { s.core n with restart := true }
    if s.dev = 2 then { s1 with pwr := { s1.pwr with deferred := s1.pwr.deferred ||| 0x2000 } } else s1
  else
    match (s.ten t).st with
    | .run => if (s.core n).st = .off ∧ t ≠ 0 then s else s.coreRestart n
    | .off => s
    | _ => let s1 := s.coreHold n
      s1.setCore n { s1.core n with wasRun := true }

/-- Tail shed requested (R527, R528, R532, R538): causes 1 T0, 2 self, 3 double fault. -/
def State.shedRequest (s : State) (t cause : Nat) : State :=
  if (s.ten t).st = .run then
    let s1 := s.setTen t { s.ten t with st := .shedding, age := 0, returnAt := false, cut := true }
    let s2 := ((s1.setReg .TEN_SHED_FRAME s.frame t).setF F.TEN_SHED_CAUSE_CAUSE cause t).bump
      F.TEN_STATUS_SHEDS 1 none t
    (List.range 17).foldl (fun s n =>
      if s.coreOwner n = t then
        let c := s.core n
        s.setCore n { c with
          wasRun := decide (c.st ≠ .off)
          st := if c.st = .off ∨ c.st = .faultStop then c.st else .stopped }
      else s) s2
  else s

/-! ### Faults -/

def Core.ctx (c : Core) : Ctx := if c.inHandler then c.hand else c.main
def Core.setCtx (c : Core) (x : Ctx) : Core := if c.inHandler then { c with hand := x } else { c with main := x }

/-- Record a fault (R436, R439, R459). -/
def State.recordFault (s : State) (n code addr : Nat) (half pair : Bool) : State :=
  let c := s.core n
  let s1 := s.setReg .CORE_FAULT_INFO (withField (withField (withField (withField (s.reg .CORE_FAULT_INFO n) 0 4 code)
    4 1 (if c.inHandler then 1 else 0)) 5 1 (if half then 1 else 0)) 6 1 (if pair then 1 else 0)) n
  let s2 := s1.bump F.CORE_FAULT_INFO_COUNT 1 none n
  ((s2.setReg .CORE_FAULT_PC (c.ctx.pc.setWidth 32) n).setReg .CORE_FAULT_ADDR (BitVec.ofNat 32 addr) n).setReg
    .CORE_FAULT_FRAME s.frame n

/-- Take a fault (R436 to R440): from MAIN into HANDLER at 0x004; from HANDLER a double fault, which stops the core
and, with SHED_ON_DOUBLE, requests a tail shed. -/
def State.takeFault (s : State) (n code addr : Nat) (half pair : Bool) : State :=
  let c := s.core n
  let s1 := (s.recordFault n code addr half pair).perf n [(15, 1)]
  let owner := s.coreOwner n
  if c.inHandler then
    let s2 := (s1.setF F.CORE_FAULT_INFO_DOUBLE 1 n).setCore n { s1.core n with st := .faultStop }
    let s3 := s2.raiseTo (840 + 4 * n + 1) owner
    if s3.b F.TEN_CTL_SHED_ON_DOUBLE owner then s3.shedRequest owner 3 else s3
  else
    let c1 := s1.core n
    let h := { c1.hand with a := BitVec.ofNat 32 code, x := BitVec.ofNat 32 addr, y := s.frame, pc := 4 }
    ((s1.setCore n { c1 with inHandler := true, hand := h, afterReti := false }).spend n 0 10 []).raiseTo (840 + 4 * n) owner

/-- Stop a core for the debugger (R449); a step ends (R450). -/
def State.debugHalt (s : State) (n : Nat) : State :=
  ((s.setCore n { s.core n with st := .dbg, haltReq := false, stepping := false }).levels n).raiseTo (840 + 4 * n + 2)
    (s.coreOwner n)

/-- Does an enabled breakpoint name the PC in the current context (R449, R460)? -/
def Core.breaks (c : Core) : Bool :=
  [0, 1, 2, 3].any fun i =>
    let w := tabGet (fun _ => (0 : Word)) c.bps i
    w.getLsbD 31 && decide (fieldOf w 2 22 = c.ctx.pc.toNat / 4) && decide (w.getLsbD 30 = c.inHandler)

/-! ### Waiting in `wev` (R378, R430 to R434) -/

/-- An interrupt is to be accepted before anything else (R431, R433): not while a step runs (R450), nor inside an
instruction (R854). -/
def State.irqDue (s : State) (n : Nat) : Bool :=
  let c := s.core n
  !c.inHandler && c.main.f.getLsbD 4 && !c.afterReti && !c.stepping && decide (c.part = 0) && (s.irqEvent n).isSome

/-- `wev` takes an event in the running context: A, Y, C = 0, and the PC after the instruction (R378, R404). -/
def Ctx.takeEvent (c : Ctx) (e : Nat × Word) : Ctx :=
  { c with a := BitVec.ofNat 32 e.1, y := e.2, f := c.f &&& 0x1E, pc := c.pc + 4 }

/-- A core has power and a clock. -/
def State.clocked (s : State) (n : Nat) : Bool := s.corePg n && (decide (n = 16) || s.divRun)

/-- A core that waits in `wev`, with power and a clock, completes it once a wait event is pending and no interrupt comes
first; a step of it ends then (R450). -/
def State.wevFinish (s : State) (n : Nat) : State :=
  if (s.core n).st = .wait ∧ !(s.irqDue n) ∧ s.clocked n then
    match s.waitEvent n with
    | none => s
    | some e =>
      let s0 := (s.levels n).perfStand n
      let c := s0.core n
      let c' := { c.setCtx (c.ctx.takeEvent e) with st := .run, doneIn := c.inHandler }
      let s1 := (((s0.dropPend n e.1).setCore n c').spend n 0 6 [(6, 1), (16, 1)]).perfBoundary n
      if c.stepping then s1.debugHalt n else s1
  else s

end Sys2Proof.Machine
end

