-- ==== Sys2Proof/Machine/Fabric.lean ====
section
/-!
DEFINITION. Machine/Fabric.lean: connection entries and selectors (spec/04 R148 to R164), tone and pattern sources
(R167 to R170, R850, R851), parity (R175 to R179), capture (R185) and the routing of one frame (R149).
-/
namespace Sys2Proof.Machine

/-- Number of 1s. -/
def ones (w : Word) : Nat := (List.range 32).foldl (fun a i => if w.getLsbD i then a + 1 else a) 0

/-- A word with PAR computed (R148, R150). -/
def withPar (w : Word) : Word :=
  let d := w &&& 0x7FFFFFFF
  if ones d % 2 = 1 then d ||| 0x80000000 else d

/-- Parity holds (R148). -/
def parOk (w : Word) : Bool := decide (ones w % 2 = 0)

def State.conn (s : State) (n : Nat) : Copies := tabGet (fun _ => connInit) s.fab.conn n
def State.sel (s : State) (n : Nat) : Copies := tabGet (fun _ => selInit) s.fab.sel n
def State.setConn (s : State) (n : Nat) (c : Copies) : State :=
  { s with fab := { s.fab with conn := tabPut (fun _ => connInit) s.fab.conn n c } }
def State.setSel (s : State) (n : Nat) (c : Copies) : State :=
  { s with fab := { s.fab with sel := tabPut (fun _ => selInit) s.fab.sel n c } }

def Copies.active (c : Copies) : Word := if c.bank then c.c1 else c.c0
def Copies.inactive (c : Copies) : Word := if c.bank then c.c0 else c.c1
def Copies.setInactive (c : Copies) (w : Word) : Copies := if c.bank then { c with c0 := w } else { c with c1 := w }
def Copies.setActive (c : Copies) (w : Word) : Copies := if c.bank then { c with c1 := w } else { c with c0 := w }
def Copies.flip (c : Copies) : Copies := { c with bank := !c.bank }

/-- The change state of a shadow view. -/
def State.change (s : State) (a : Nat) : Change := tabGet (fun _ => Change.clean) s.chg a
def State.setChange (s : State) (a : Nat) (c : Change) : State :=
  { s with chg := tabPut (fun _ => Change.clean) s.chg a c }

/-- A tail shed of the tenant is due at this boundary, so that its pending commits never apply (R529). -/
def State.shedDue (s : State) (t : Nat) : Bool := decide ((s.ten t).st = .shedding ∧ 1 ≤ (s.ten t).age)

/-- What a shadowed register's active copy is once the commits of this boundary have applied (R27, R37): COMMIT_APPLY
follows FRAME_BOUNDARY, which has to know it where the frame that begins depends on it. -/
def State.actSoon (s : State) (k : RegKind) (i : Nat) : Word :=
  match s.change (k.addr i 0) with
  | .pending id =>
    if s.commits.any fun c => decide (c.id = id) && decide (c.target = s.frame) && !(s.shedDue c.tenant) then s.reg k i
    else s.act k i
  | _ => s.act k i

def Change.isPending : Change → Bool
  | .pending _ => true
  | _ => false

/-- The shadow view of an entry or selector (R160). -/
def Copies.shadow (c : Copies) (g : Change) : Word := if g = .clean then c.active else c.inactive

def entryMode (w : Word) : Nat := fieldOf w 14 2

/-- An entry whose reserved bits break R151. -/
def entryBad (w : Word) : Bool :=
  decide (fieldOf w 26 5 ≠ 0) || (decide (entryMode w = 0 ∨ entryMode w = 3) && decide (fieldOf w 24 2 ≠ 0))

def connAddr (n : Nat) : Nat := RegKind.FAB_CONN.addr n 0
def selAddr (n : Nat) : Nat := RegKind.FAB_SEL.addr n 0

/-- A write to a shadow entry by a tenant (R33, R150 to R153, R159). The Bool is an access error. -/
def State.writeConn (s : State) (t n : Nat) (v : Word) : State × Bool :=
  if entryBad v || decide (s.slotOwner n ≠ t) || (decide (entryMode v = 2) &&
      decide (s.selOwner (fieldOf v 16 10) ≠ t)) || (s.change (connAddr n)).isPending
  then (s, true)
  else ((s.setConn n ((s.conn n).setInactive (withPar v))).setChange (connAddr n) (.dirty t), false)

/-- A write to a shadow selector (R33, R150, R155, R159). -/
def State.writeSel (s : State) (t n : Nat) (v : Word) : State × Bool :=
  if decide (fieldOf v 29 2 ≠ 0) || decide (s.selOwner n ≠ t) || (s.change (selAddr n)).isPending
  then (s, true)
  else ((s.setSel n ((s.sel n).setInactive (withPar v))).setChange (selAddr n) (.dirty t), false)

/-- R164: discard the tenant's DIRTY changes of the scopes asked for. -/
def State.discardDirty (s : State) (t : Nat) (conn sel : Bool) : State :=
  { s with chg := s.chg.filter fun e =>
      !(decide (e.2 = .dirty t) && ((conn && decide (e.1 / 0x10000 = 0x100)) || (sel && decide (e.1 / 0x10000 = 0x102)))) }

/-! ### Tone and pattern sources -/

/-- R850: bits r(i − 15) to r(i − 1), newest first, moved on by one bit. -/
def prbsNext (h : List Bool) : Bool := xor (h.getD 13 true) (h.getD 14 true)

def prbsStep : Nat → List Bool → List Bool
  | 0, h => h
  | n + 1, h => prbsStep n ((prbsNext h :: h).take 15)

/-- r(i) for the sequence that starts with fifteen 1s (R850). -/
def prbsR (i : Nat) : Bool :=
  if i < 15 then true else (prbsStep (i - 14) (List.replicate 15 true)).headD true

/-- The bits p(i) of the inverted 2^15 − 1 sequence (R850). -/
def prbsP (i : Nat) : Bool := !(prbsR (i % 32767))

/-- A byte of eight bits, first bit as bit 7 (R2). -/
def byteOf (bs : List Bool) : Byte := BitVec.ofNat 8 (bs.foldl (fun a b => 2 * a + if b then 1 else 0) 0)

/-- The eight bits of a byte, bit 7 first (R2). -/
def bitsOf (b : Byte) : List Bool := [b.getLsbD 7, b.getLsbD 6, b.getLsbD 5, b.getLsbD 4, b.getLsbD 3, b.getLsbD 2,
  b.getLsbD 1, b.getLsbD 0]

/-- What generator `k` presents in frame `n` (R168). -/
def patByte (mode n : Nat) : Byte :=
  match mode with
  | 0 => 0x00
  | 1 => 0xFF
  | 2 => if n % 2 = 0 then 0xAA else 0x55
  | _ => byteOf ((List.range 8).map fun j => prbsP (8 * n + j))

/-- What tone source `k` presents in frame `n` (R167, R852). -/
def State.toneByte (s : State) (k n : Nat) : Byte :=
  if s.b F.FAB_TONE_CTL_EN k then
    let i := n % (s.f F.FAB_TONE_CTL_TONE_LEN k + 1)
    BitVec.ofNat 8 (fieldOf (s.reg .FAB_TONE_RAM (k * 64 + i / 4)) (8 * (i % 4)) 8)
  else 0xFF

/-- The mailbox bytes that newts present (R442). -/
def State.mailboxes (s : State) : List (Nat × Byte) :=
  (List.range 256).flatMap fun k =>
    let w := s.reg .CORE_MBX_TX (k / 16) (k % 16)
    if w = 0xFFFFFFFF then []
    else [0, 1, 2, 3].map fun i => (15360 + 4 * k + i, BitVec.ofNat 8 (fieldOf w (8 * i) 8))

/-- The input slots of tone sources, generators and mailboxes for the frame that begins (R144, R166, R442). -/
def State.sources (s : State) : Tab Byte :=
  let n := s.frame.toNat
  let tones := (List.range 16).map fun k => (15232 + k, s.toneByte k n)
  let pats := (List.range 16).map fun k => (15248 + k, patByte (s.f F.FAB_PAT_CTL_PAT_MODE k) n)
  (tones ++ pats ++ s.mailboxes).foldl (fun t e => tabPut (fun _ => (0xFF : Byte)) t e.1 e.2) []

def State.checker (s : State) (k : Nat) : Checker := tabGet (fun _ => Checker.init) s.fab.checkers k
def State.setChecker (s : State) (k : Nat) (c : Checker) : State :=
  { s with fab := { s.fab with checkers := tabPut (fun _ => Checker.init) s.fab.checkers k c } }

/-- Predict the eight bits of a byte from the bits before them: how many differ, and the history after (R169). Bits
with fewer than 15 before them count as errored. -/
def predict : List Bool → List Bool → Nat × List Bool
  | [], h => (0, h)
  | b :: t, h =>
    let good := decide (h.length ≥ 15) && decide (b = !(xor (h.getD 13 false) (h.getD 14 false)))
    let r := predict t ((b :: h).take 15)
    (r.1 + (if good then 0 else 1), r.2)

/-- The next eight bits of the checker's own generator, newest first in its history (R169). -/
def genBits : Nat → List Bool → List Bool × List Bool
  | 0, g => ([], g)
  | n + 1, g =>
    let b := !(xor (g.getD 13 false) (g.getD 14 false))
    let r := genBits n ((b :: g).take 15)
    (b :: r.1, r.2)

/-- Number of bits in which two bytes differ. -/
def diff (a b : Byte) : Nat := ones ((a ^^^ b).setWidth 32)

/-- One received byte at a checker (R169): the checker after it, errored bits to count, and whether SYNC changed. The
byte received before it is known whatever search it belonged to. -/
def Checker.byte (c : Checker) (x : Byte) : Checker × Nat × Bool :=
  let p := predict (bitsOf x) c.hist
  let g := genBits 8 c.gen
  if c.sync then
    let e := match c.mode with
      | 0 => diff x 0
      | 1 => diff x 0xFF
      | 2 => diff x c.expect
      | _ => diff x (byteOf g.1)
    let errs := (decide (e ≠ 0) :: c.errs).take 16
    if (errs.filter id).length ≥ 4 then
      ({ Checker.init with mode := c.mode, prev := some x }, e, true)
    else ({ c with gen := g.2, errs := errs, expect := ~~~c.expect, prev := some x, hist := p.2 }, e, false)
  else
    let ok := match c.mode with
      | 0 => decide (x = 0)
      | 1 => decide (x = 0xFF)
      | 2 => decide (x = 0xAA ∨ x = 0x55) && (match c.prev with | some y => decide (x ≠ y) | none => false)
      | _ => decide (p.1 = 0)
    let good := if ok then c.good + 1 else 0
    if good ≥ 4 then
      ({ c with sync := true, good := 0, hist := p.2, gen := p.2, errs := [], prev := some x, expect := ~~~x }, 0, true)
    else ({ c with good := good, hist := p.2, prev := some x }, 0, false)

/-- Checker `k` at a frame boundary: its byte of the frame routed, then a change of PAT_MODE (R169, R170, R851). PAT_SAT
is set when PAT_ERR would pass its largest value (log entry 93). -/
def State.runChecker (s : State) (k : Nat) (x : Byte) : State :=
  let r := (s.checker k).byte x
  let s1 := s.setChecker k r.1
  let s2 := if r.2.1 = 0 then s1 else
    let n := s1.f F.FAB_PAT_ERR_PAT_ERR k + r.2.1
    if n < 2 ^ 32 then s1.setF F.FAB_PAT_ERR_PAT_ERR n k
    else (s1.setF F.FAB_PAT_ERR_PAT_ERR 0xFFFFFFFF k).setF F.FAB_PAT_CTL_PAT_SAT 1 k
  let s3 := if r.2.2 then (s2.setB F.FAB_PAT_CTL_SYNC r.1.sync k).raise 645 else s2
  let mode := s3.f F.FAB_PAT_CTL_PAT_MODE k
  if mode = r.1.mode then s3
  else
    let s4 := s3.setChecker k { Checker.init with mode := mode, prev := some x }
    if r.1.sync then (s4.setF F.FAB_PAT_CTL_SYNC 0 k).raise 645 else s4

/-! ### Routing one frame -/

/-- The byte an output slot gets for the frame whose input bytes are `inp`, or none where parity fails, with whether
the entry failed (R149, R175, R176). -/
def State.route (s : State) (inp : Nat → Byte) (n : Nat) : Option Byte × Bool :=
  let w := (s.conn n).active
  if !(parOk w) then (none, true)
  else
    let src := fieldOf w 0 14
    let byte := BitVec.ofNat 8 (fieldOf w 16 8)
    match entryMode w with
    | 0 => (some byte, false)
    | 1 => (some (inp src), false)
    | 2 =>
      let v := (s.sel (fieldOf w 16 10)).active
      if !(parOk v) then (none, false)
      else
        let base := if v.getLsbD 28 then fieldOf v 14 14 else fieldOf v 0 14
        (some (inp ((base + src) % 16384)), false)
    | _ => (some (inp src ^^^ byte), false)

/-- The walk over the outputs (R149, R176, R177). Outputs not listed hold the empty entry and carry 0xFF. -/
def State.walk (s : State) (inp : Nat → Byte) : Tab Byte × List (Nat × Bool) :=
  s.fab.conn.foldl (fun (t : Tab Byte × List (Nat × Bool)) e =>
      match s.route inp e.1 with
      | (some b, _) => (tabPut (fun _ => (0xFF : Byte)) t.1 e.1 b, t.2)
      | (none, ent) => (t.1, t.2 ++ [(e.1, ent)])) ([], [])

/-- R177, R178: report the failing outputs of a frame. PAR_SAT is set when the count would pass its largest value (log
entry 93). -/
def State.parity (s : State) (bad : List (Nat × Bool)) : State :=
  match bad with
  | [] => s
  | (low, _) :: _ =>
    let s1 := (s.bump F.FAB_PAR_COUNT_COUNT bad.length none).setF F.FAB_PAR_STATUS_LAST_SLOT low
    let s2 := if s.f F.FAB_PAR_COUNT_COUNT + bad.length ≥ 0x10000 then s1.setF F.FAB_PAR_STATUS_PAR_SAT 1 else s1
    let s3 := if bad.any (·.2) then (s2.setF F.FAB_PAR_STATUS_CONN_ERR 1).raise 642 else s2
    if bad.any fun e => !e.2 then (s3.setF F.FAB_PAR_STATUS_SEL_ERR 1).raise 643 else s3

/-- What the walk of the frame before finds, in the frame in which it runs (R56, R166): failing outputs, and the bytes
of the checkers. -/
def State.walkFound (s : State) (bad : List (Nat × Bool)) : State :=
  (List.range 16).foldl (fun s k =>
    s.runChecker k (tabGet (fun _ => (0xFF : Byte)) s.fab.routed (15248 + k))) (s.parity bad)

/-- The first frame after one that the derived clocks' stop interrupted: bytes routed before are transmitted as R25
says, and of the bytes received in the interrupted frame each is free (log entry 92). -/
def State.lostFrame (s : State) : State :=
  let r := s.walk fun n => s.outFree 0 n
  ({ s with fab := { s.fab with out := s.fab.routed, routed := r.1 }, ticks := s.ticks + 1 }).walkFound r.2

/-- Bytes transmitted on an output slot in the current frame. -/
def State.outByte (s : State) (n : Nat) : Byte := tabGet (fun _ => (0xFF : Byte)) s.fab.out n

/-- The mailboxes of newt `n` in the frame that begins (R441). -/
def State.mailboxIn (s : State) (n : Nat) : State :=
  let s1 := (List.range 16).foldl (fun s j =>
    s.setReg .CORE_MBX_RX (BitVec.ofNat 32 (leNat ([0, 1, 2, 3].map fun i => s.outByte (15360 + 64 * n + 4 * j + i)))) n j) s
  s1.setReg .CORE_MBX_FRAME s.frame n

/-! ### Rows (R171 to R174, R853) and parity injection -/

/-- Some accepted commit holds the entry. -/
def State.entryHeld (s : State) (n : Nat) : Bool := (s.change (connAddr n)).isPending

/-- An accepted commit makes the entry non-idle. -/
def State.willBusy (s : State) (n : Nat) : Bool :=
  s.entryHeld n && decide (entryMode (s.conn n).inactive ≠ 0)

/-- The row may power down (R171, R853): AUTO is active, the active entry is idle and has been so for two frames. -/
def State.rowMayDrop (s : State) (n : Nat) : Bool :=
  s.ba F.FAB_GATE_CTL_AUTO && decide (entryMode (s.conn n).active = 0) && !(s.willBusy n) &&
    decide (max s.fab.gateFrom (tabGet (fun _ => 0) s.fab.idleFrom n) + 2 ≤ s.ticks)

def insertSorted (n : Nat) : List Nat → List Nat
  | [] => [n]
  | m :: t => if n < m then n :: m :: t else if n = m then m :: t else m :: insertSorted n t

def State.rowDown (s : State) (n : Nat) : State :=
  { s with fab := { s.fab with rowsDown := insertSorted n s.fab.rowsDown } }

def State.rowUp (s : State) (n : Nat) : State :=
  { s with fab := { s.fab with rowsDown := s.fab.rowsDown.filter fun m => decide (m ≠ n) } }

/-- R179, R184: flip the stored PAR of an active copy. A SLOT above 1,023 names no selector: nothing is flipped, and the
write is no error (log entry 94). -/
def State.parInject (s : State) (v : Word) : State :=
  if v.getLsbD 31 then
    let n := fieldOf v 0 14
    if v.getLsbD 30 then
      if n < 1024 then s.setSel n ((s.sel n).setActive ((s.sel n).active ^^^ 0x80000000)) else s
    else
      let c := s.conn n
      s.setConn n (c.setActive (c.active ^^^ 0x80000000))
  else s

/-- A write of FAB_CAPTURE_CTL (R185). -/
def State.captureWrite (s : State) (v : Word) : State :=
  let s1 := s.setReg .FAB_CAPTURE_CTL (v &&& 0x80003FFF)
  if v.getLsbD 31 then
    { s1 with fab := { s1.fab with capWait := true, capRun := none, capSlot := fieldOf v 0 14 } }
  else { s1 with fab := { s1.fab with capWait := false, capRun := none } }

/-- A capture at a frame boundary: record the byte of the frame that ended, or begin (R185). The eighth byte's frame
ends the recording; FAB_CAPTURE_DONE reports it. -/
def State.captureFrame (s : State) : State :=
  let s1 := match s.fab.capRun with
    | some i =>
      if i < 8 then
        let b := (s.outByte s.fab.capSlot).toNat
        let w := withField (s.reg .FAB_CAPTURE_DATA (i / 4)) (8 * (i % 4)) 8 b
        let s1 := s.setReg .FAB_CAPTURE_DATA w (i / 4)
        { s1 with fab := { s1.fab with capRun := some (i + 1) } }
      else s
    | none => s
  if s1.fab.capWait then { s1 with fab := { s1.fab with capWait := false, capRun := some 0 } } else s1

/-- R180: the fabric as it powers up. -/
def State.fabricReset (s : State) : State := { s with fab := Fabric.init }

end Sys2Proof.Machine
end

