-- ==== Sys2Proof/Machine/RefSel.lean ====
section
/-!
DEFINITION. Machine/RefSel.lean: the reference selector and the DPLL (spec/03): monitoring, quality levels,
wait-to-restore, selection, the loop filter, realignment, holdover and the history ring.
-/
namespace Sys2Proof.Machine

def State.cand (s : State) (n : Nat) : Cand := tabGet (fun _ => Cand.init) s.cands n
def State.setCand (s : State) (n : Nat) (c : Cand) : State :=
  { s with cands := tabPut (fun _ => Cand.init) s.cands n c }

/-- Candidate numbers. -/
def candNums : List Nat := [0, 1, 2, 3, 4, 5, 6, 7]

/-- Two's complement reading of a field of width `w`. -/
def signedOf (w n : Nat) : Int := if n < 2 ^ (w - 1) then n else (n : Int) - (2 ^ w : Nat)

/-- Two's complement field of width `w`. -/
def unsignedOf (w : Nat) (i : Int) : Nat := (i % ((2 ^ w : Nat) : Int)).toNat

/-- The clamp of R66. -/
def clampSteer (i : Int) : Int := max (-8000000) (min 8000000 i)

/-- A mean of whole numbers as a whole number. The manual does not say how a mean is rounded, so the value is free
between the two whole numbers next to it (log entry 17). It shapes the steering word, so it is a free number of an
output; `use` tells the means apart. -/
def State.mean (s : State) (use : Nat) (sum : Int) (n : Nat) : Int :=
  if n = 0 ∨ sum % n = 0 then sum / n else sum / n + ((s.outNat use 0 % 2 : Nat) : Int)

/-! ### The configuration that acts (R119) -/

/-- Where the configuration registers of the selector and the DPLL stand; DPLL_LOOP is not one of them, since R51 has a
consistent pair used at once. -/
def refCfgAddrs : List Nat :=
  [RegKind.REF_SEL_CTL, .REF_INPUT_CTL, .DPLL_LOCK_CTL, .DPLL_HOLD_CTL, .DPLL_FREERUN_CAL].map (fun k => k.addr 0 0) ++
    [0, 1].flatMap (fun i => [RegKind.REF_TABLE_PRIO.addr i 0, RegKind.REF_TABLE_CTL.addr i 0]) ++
    candNums.flatMap fun n => [RegKind.REF_CAND_CFG.addr n 0, RegKind.REF_CAND_WTR.addr n 0]

/-- What has been written acts from here on. -/
def State.refTake (s : State) : State :=
  { s with dpll := { s.dpll with cfg := s.regs.filter fun e => decide (e.1 ∈ refCfgAddrs) } }

/-- A field of a configuration register as it acts. -/
def State.rf (s : State) (f : FieldRef) (i : Nat := 0) : Nat :=
  fieldOf (tabGet (fun _ => f.k.resetAt i) s.dpll.cfg (f.k.addr i 0)) f.lo f.w

def State.rb (s : State) (f : FieldRef) (i : Nat := 0) : Bool := decide (s.rf f i ≠ 0)

/-! ### Monitoring -/

/-- The rank of a QL code (R103): lower is better. -/
def qlRank (code : Nat) : Nat :=
  match code with
  | 2 => 0
  | 4 => 1
  | 8 => 2
  | 11 => 3
  | 15 => 4
  | _ => 5

/-- Is candidate `n` routed from this source (R96)? Types: 0 line, 1 trunk, 2 REFIN0, 3 REFIN1, 4 PPS_IN. -/
def State.candFrom (s : State) (n typ index : Nat) : Bool :=
  s.rb F.REF_CAND_CFG_EN n && decide (s.rf F.REF_CAND_CFG_TYPE n = typ) &&
    (decide (typ > 1) || decide (s.rf F.REF_CAND_CFG_INDEX n = index))

/-- A time difference as one to the nearest frame boundary: within half a frame, 49,152 VCO cycles, of 0 (R99). -/
def halfFrame (x : Int) : Int := (x + 49152) % 98304 - 49152

/-- A marker of candidate `n` arrives with its comparison, in VCO cycles (R98, R99, R123). -/
def State.candMarker (s : State) (n : Nat) (err : Int) : State :=
  let c := s.cand n
  s.setCand n { c with age := 0, err := err, sum := c.sum + halfFrame (err - c.align), num := c.num + 1 }

/-- A marker for every candidate routed from a line or a trunk. -/
def State.sourceMarker (s : State) (typ index : Nat) (err : Int) : State :=
  candNums.foldl (fun s n => if s.candFrom n typ index then s.candMarker n err else s) s

/-- The selected candidate. -/
def State.selected (s : State) : Option Nat :=
  if s.b F.REF_SEL_STATUS_SEL_VALID then some (s.f F.REF_SEL_STATUS_SEL_CAND) else none

/-- The accepted QL of a candidate becomes `code` (R105); SEL_QL shows that of the selected one (R142). A rewritten
source leaves it as it was until three codes of the new one have come, since nothing clears it (log entry 96). -/
def State.setQl (s : State) (n code : Nat) : State :=
  if s.f F.REF_CAND_STATUS_QL n = code then s
  else
    let s1 := s.setF F.REF_CAND_STATUS_QL code n
    (if s.selected = some n then s1.setF F.REF_SEL_STATUS_SEL_QL code else s1).raise (672 + n)

/-- A QL code is received for candidate `n` (R104, R105). -/
def State.candQl (s : State) (n code : Nat) : State :=
  let c := s.cand n
  let count := if c.code = code then min 3 (c.count + 1) else 1
  let s1 := s.setCand n { c with code := code, count := count, ssmAge := 0 }
  if count = 3 ∧ !(s.rb F.REF_CAND_CFG_QL_SRC n) then s1.setQl n code else s1

/-- A line or a trunk loses alignment: codes received later do not follow the earlier ones in succession (R105). -/
def State.sourceLost (s : State) (typ index : Nat) : State :=
  candNums.foldl (fun s n => if s.candFrom n typ index then s.setCand n { s.cand n with count := 0 } else s) s

/-- A QL code received on a line's Sa bit (`sa` 0 to 4) or on a trunk (R104). -/
def State.sourceQl (s : State) (typ index sa code : Nat) : State :=
  candNums.foldl (fun s n =>
    if s.candFrom n typ index && (decide (typ = 1) || decide (s.rf F.REF_CAND_CFG_SA_SEL n = sa))
    then s.candQl n code else s) s

/-- The source of candidate `n` reports a defect (R101). -/
def State.candDefect (s : State) (n : Nat) : Bool :=
  let i := s.rf F.REF_CAND_CFG_INDEX n
  let c := s.cand n
  match s.rf F.REF_CAND_CFG_TYPE n with
  | 0 => s.b F.LINE_STATUS_LOS i || s.b F.LINE_STATUS_AIS i || s.b F.LINE_STATUS_LOF i
  | 1 => i < 4 && (s.reg .TRK_STATUS i &&& 3) ≠ 0
  | 2 => s.rb F.REF_INPUT_CTL_REFIN0_MODE && (c.losDef || c.lofDef)
  | 3 => s.rb F.REF_INPUT_CTL_REFIN1_MODE && (c.losDef || c.lofDef)
  | _ => false

/-- Disabled, or PPS_IN while the bandwidth in use is not 0.1 Hz (R100). -/
def State.candCfgBad (s : State) (n : Nat) : Bool :=
  !(s.rb F.REF_CAND_CFG_EN n) ||
    (decide (s.rf F.REF_CAND_CFG_TYPE n = 4) && decide (s.f F.DPLL_STATUS_BW_USED ≠ 0))

/-- Set QUAL with its event (R143). -/
def State.setQual (s : State) (n : Nat) (q : Bool) : State :=
  if s.b F.REF_CAND_STATUS_QUAL n = q then s else (s.setB F.REF_CAND_STATUS_QUAL q n).raise (664 + n)

/-- Evaluate candidate `n`: failure conditions, wait-to-restore and quality level (R100 to R110), and e taken as 0 once
the selected candidate has failed (R125). -/
def State.candEval (s : State) (n : Nat) : State :=
  let c := s.cand n
  let s1 := ((s.setB F.REF_CAND_STATUS_FAIL_DEF (s.candDefect n) n).setB F.REF_CAND_STATUS_FAIL_FREQ c.freqBad n).setB
    F.REF_CAND_STATUS_FAIL_CFG (s.candCfgBad n) n
  let failed := (s1.reg .REF_CAND_STATUS n &&& 0x3C) ≠ 0
  let wtr := if failed then none
    else if c.failed then some (s.rf F.REF_CAND_WTR_WTR_S n * 8000) else c.wtr
  let zero := s.dpll.errZero || (failed && decide (s.selected = some n))
  let s2 := { s1.setCand n { c with failed := failed, wtr := wtr } with dpll := { s.dpll with errZero := zero } }
  let s3 := if failed then s2.setQual n false else s2
  let left := wtr.getD 0
  let s4 := (s3.setB F.REF_CAND_STATUS_WTR_RUN (decide (left ≠ 0)) n).setF F.REF_CAND_STATUS_WTR_LEFT
    ((left + 7999) / 8000) n
  let own := decide (s.rf F.REF_CAND_CFG_TYPE n ≤ 1) && !(s.rb F.REF_CAND_CFG_QL_SRC n)
  let s5 := if own then (if c.count = 3 then s4.setQl n c.code else s4)
    else s4.setQl n (s.rf F.REF_CAND_CFG_QL_ASSIGN n)
  let silent := own && decide (s.rf F.REF_CAND_CFG_TYPE n = 0) &&
    (decide (c.ssmAge ≥ 40000) || decide (s.rf F.REF_CAND_CFG_SA_SEL n > 4))
  s5.setB F.REF_CAND_STATUS_QL_FAILED (failed || silent) n

/-- Priority of candidate `n` in the active table (R112). -/
def State.prio (s : State) (n : Nat) : Nat :=
  s.rf ⟨.REF_TABLE_PRIO, 4 * n, 4⟩ (s.rf F.REF_SEL_CTL_TABLE)

def State.qlEn (s : State) : Bool := s.rb F.REF_TABLE_CTL_QL_EN (s.rf F.REF_SEL_CTL_TABLE)

/-- R113. -/
def State.selectable (s : State) (n : Nat) : Bool :=
  s.b F.REF_CAND_STATUS_QUAL n && decide (s.prio n ≠ 0) &&
    (!s.qlEn || (!(s.b F.REF_CAND_STATUS_QL_FAILED n) && decide (qlRank (s.f F.REF_CAND_STATUS_QL n) < 4) &&
      decide (qlRank (s.f F.REF_CAND_STATUS_QL n) ≤ qlRank (s.rf F.REF_TABLE_CTL_QL_MIN (s.rf F.REF_SEL_CTL_TABLE)))))

/-- The order of R114 as a number: rank of the QL, then priority, then candidate number. -/
def State.candKey (s : State) (n : Nat) : Nat :=
  ((if s.qlEn then qlRank (s.f F.REF_CAND_STATUS_QL n) else 0) * 16 + s.prio n) * 8 + n

/-- The best selectable candidate (R114). -/
def State.bestCand (s : State) : Option Nat :=
  candNums.foldl (fun b n =>
    if s.selectable n then
      match b with
      | none => some n
      | some m => if s.candKey n < s.candKey m then some n else some m
    else b) none

/-- What selection answers now (R115 to R117). -/
def State.wanted (s : State) : Option Nat :=
  match s.rf F.REF_SEL_CTL_MODE with
  | 0 =>
    if s.rb F.REF_TABLE_CTL_REVERT (s.rf F.REF_SEL_CTL_TABLE) then s.bestCand
    else
      match s.selected with
      | none => s.bestCand
      | some c =>
        let better := s.qlEn && candNums.any fun n => s.selectable n &&
          decide (qlRank (s.f F.REF_CAND_STATUS_QL n) < qlRank (s.f F.REF_CAND_STATUS_QL c))
        if s.selectable c && !better then some c else s.bestCand
  | 1 => let c := s.rf F.REF_SEL_CTL_FORCE_CAND
         if s.b F.REF_CAND_STATUS_QUAL c then some c else none
  | _ => none

/-- The forced candidate that is not qualified (event 663). -/
def State.forceBad (s : State) : Option Nat :=
  let c := s.rf F.REF_SEL_CTL_FORCE_CAND
  if s.rf F.REF_SEL_CTL_MODE = 1 ∧ !(s.b F.REF_CAND_STATUS_QUAL c) then some c else none

/-- Evaluate selection (R118); event 663 reports a forced candidate once. -/
def State.selEval (s : State) : State :=
  let s1 := candNums.foldl (fun s n => s.setB F.REF_CAND_STATUS_SELECTABLE (s.selectable n) n) s
  let bad := s1.forceBad
  let s2 := { s1 with dpll := { s1.dpll with
    want := s1.wanted, wantFree := decide (s1.rf F.REF_SEL_CTL_MODE = 3), forceBad := bad } }
  if bad.isSome ∧ bad ≠ s1.dpll.forceBad then s2.raise 663 else s2

/-- Candidate `n` starts failed, with its marker absent and no frequency measured (R110, R136, R140). -/
def State.candFail (s : State) (n : Nat) : State :=
  let s1 := s.setCand n { Cand.init with err := (s.cand n).err }
  ((s1.setB F.REF_CAND_STATUS_FAIL_ACT true n).setF F.REF_CAND_FREQ_VALID 0 n).candEval n

/-- The timer of candidate `n` has reached 0: it is qualified (R109). -/
def State.wtrDone (s : State) (n : Nat) : State :=
  let c := s.cand n
  if !c.failed && decide (c.wtr = some 0) then (s.setCand n { c with wtr := none }).setQual n true else s

/-- Time passes for candidate `n` at a frame boundary: ages, the timer, and a rewritten source (R108 to R110, R136). -/
def State.candFrame (s : State) (n : Nat) : State :=
  let c := s.cand n
  if c.fresh then s.candFail n
  else
    let wtr := c.wtr.map fun k => k - 1
    let s1 := s.setCand n { c with age := c.age + 1, ssmAge := c.ssmAge + 1, wtr := wtr }
    let s2 := if c.age = 0 then s1.setB F.REF_CAND_STATUS_FAIL_ACT false n else s1
    (s2.candEval n).wtrDone n

/-- R136: a write of a candidate's configuration. -/
def State.candCfgWrite (s : State) (n : Nat) (v : Word) : State :=
  let old := s.reg .REF_CAND_CFG n
  let s1 := s.setReg .REF_CAND_CFG v n
  if (old &&& 0x3FFF) ≠ (v &&& 0x3FFF) then s1.setCand n { s1.cand n with fresh := true } else s1

/-! ### The DPLL -/

/-- Set STATE with its event (R143). -/
def State.setDpll (s : State) (st : Nat) : State :=
  if s.f F.DPLL_STATUS_STATE = st then s else (s.setF F.DPLL_STATUS_STATE st).raise 659

def State.steer (s : State) (i : Int) : State := s.setF F.CLK_STEER_STEER (unsignedOf 24 (clampSteer i))

def State.freeCal (s : State) : Int := signedOf 24 (s.rf F.DPLL_FREERUN_CAL_CAL)

/-- The reference selector at a frame boundary. At an update interval boundary the selection that the boundary before
evaluated is the one to apply, as the manual's worked example has it: selectable at frame 2,640,024, realigned at
2,640,032 (R118; DEDUCED, log entry 96). -/
def State.refFrame (s : State) : State :=
  let s1 := s.refTake
  let s2 := if s1.frame.toNat % 8 = 0 then
      { s1 with dpll := { s1.dpll with due := true, take := s1.dpll.want, takeFree := s1.dpll.wantFree } }
    else s1
  let s3 := (candNums.foldl State.candFrame s2).selEval
  if s3.f F.DPLL_STATUS_STATE = 0 then s3.steer s3.freeCal else s3

/-- The selected candidate becomes `c` (event 660). With none selected, SEL_CAND and SEL_QL keep what they showed (log
entry 96). -/
def State.setSelected (s : State) (c : Option Nat) : State :=
  if s.selected = c then s
  else
    let s1 := match c with
      | some n => ((s.setF F.REF_SEL_STATUS_SEL_VALID 1).setF F.REF_SEL_STATUS_SEL_CAND n).setF F.REF_SEL_STATUS_SEL_QL
          (s.f F.REF_CAND_STATUS_QL n)
      | none => s.setF F.REF_SEL_STATUS_SEL_VALID 0
    s1.raise 660

/-- R126: consistency of a DPLL_LOOP value. -/
def loopOk (v : Word) : Bool :=
  let kp := fieldOf v 4 5
  let ki := fieldOf v 12 6
  match fieldOf v 0 2 with
  | 0 => decide (18 ≤ kp ∧ kp ≤ 20 ∧ 30 ≤ ki ∧ ki ≤ 32)
  | 1 => decide (15 ≤ kp ∧ kp ≤ 17 ∧ 23 ≤ ki ∧ ki ≤ 25)
  | 2 => decide (13 ≤ kp ∧ kp ≤ 15 ∧ 20 ≤ ki ∧ ki ≤ 22)
  | _ => decide (11 ≤ kp ∧ kp ≤ 13 ∧ 16 ≤ ki ∧ ki ≤ 18)

/-- A write of DPLL_LOOP (R50 to R53, R126). -/
def State.loopWrite (s : State) (v : Word) : State :=
  let s1 := s.setReg .DPLL_LOOP v
  if loopOk v then
    let s2 := { s1 with dpll := { s1.dpll with kp := fieldOf v 4 5, ki := fieldOf v 12 6 } }
    (s2.setF F.DPLL_STATUS_BW_USED (fieldOf v 0 2)).setF F.DPLL_STATUS_MISMATCH 0
  else (s1.setF F.DPLL_STATUS_MISMATCH 1).raise 661

/-- The phase error of the interval that ends (R99, R123, R125). -/
def State.phaseErr (s : State) : Int :=
  match s.selected with
  | none => 0
  | some n =>
    let c := s.cand n
    if s.dpll.errZero ∨ c.failed then 0
    else if s.rf F.REF_CAND_CFG_TYPE n = 4 then halfFrame (c.err - c.align)
    else s.mean 1 c.sum c.num

/-- The loop filter with e in VCO cycles: I and out (R124). -/
def pi (kp ki : Nat) (i e : Int) : Int × Int :=
  let x := e * 16777216
  let i' := clampSteer (i + x / ((2 ^ ki : Nat) : Int))
  (i', clampSteer (i' + x / ((2 ^ kp : Nat) : Int)))

/-- |e| in units that compare with nanoseconds: |e| · 15,625 against ns · 12,288 (1 VCO cycle is 1/786.432 MHz). -/
def within (e : Int) (ns : Nat) : Bool := decide (e.natAbs * 15625 ≤ ns * 12288)

/-- The filter with its shifts and the lock counters for one interval in LOCKING or LOCKED (R121, R124, R130). -/
def State.filter (s : State) (kp ki : Nat) (e : Int) : State :=
  let d := s.dpll
  if d.held > 0 then
    let s1 := { s with dpll := { d with held := d.held - 1 } }
    (s1.setB F.DPLL_STATUS_P_HELD (decide (d.held - 1 > 0))).steer d.integ
  else
    let r := pi kp ki d.integ e
    let ns := max 1 (s.rf F.DPLL_LOCK_CTL_LOCK_NS)
    let s1 := { s with dpll := { d with
      integ := r.1
      inLock := if within e ns then d.inLock + 1 else 0
      outLock := if within e (4 * ns) then 0 else d.outLock + 1 } }
    s1.steer r.2

/-- Entry `i` of the history ring counted by age: age 1 is the newest (R132). -/
def State.histAge (s : State) (age : Nat) : Int :=
  signedOf 24 (s.f F.DPLL_HIST_AVG ((s.f F.DPLL_HIST_HEAD_HEAD + 128 - (age - 1)) % 128))

/-- R132, R134: the holdover value. -/
def State.holdover (s : State) : State :=
  let guard := s.rf F.DPLL_HOLD_CTL_GUARD
  let window := s.rf F.DPLL_HOLD_CTL_WINDOW
  let count := s.f F.DPLL_HIST_HEAD_COUNT
  let sum := fun (n : Nat) => (List.range n).foldl (fun (a : Int) i => a + s.histAge (guard + 1 + i)) 0
  let full := decide (guard + window ≤ count)
  let n := if full then window else count - guard
  if n = 0 then
    (((s.setF F.DPLL_HOLD_VALUE_VALUE (unsignedOf 24 s.freeCal)).setF F.DPLL_HOLD_VALUE_SRC 2).setF
      F.DPLL_HIST_HEAD_USED 0).raise 662
  else
    let s1 := ((s.setF F.DPLL_HOLD_VALUE_VALUE (unsignedOf 24 (s.mean 2 (sum n) n))).setF F.DPLL_HOLD_VALUE_SRC
      (if full then 0 else 1)).setF F.DPLL_HIST_HEAD_USED n
    if full then s1 else s1.raise 662

def State.holdValue (s : State) : Int := signedOf 24 (s.f F.DPLL_HOLD_VALUE_VALUE)

/-- The local boundary moves `k` VCO cycles later: every comparison held is against the boundary as it now stands
(R127). -/
def State.shiftErrs (s : State) (k : Int) : State :=
  candNums.foldl (fun s n => s.setCand n { s.cand n with err := halfFrame ((s.cand n).err + k) }) s

/-- R127, R129, R130: enter LOCKING with realignment to candidate `n`. `err` is the time from its marker to the
local boundary, so the boundary leads the marker by its negative; after the pause of `k` cycles the offset makes the
next error 0. -/
def State.realign (s : State) (n : Nat) : State :=
  let k := (-(s.cand n).err) % 384
  let i := match s.f F.DPLL_STATUS_STATE with
    | 0 => s.freeCal
    | 3 => s.holdValue
    | _ => s.dpll.integ
  let s1 := s.shiftErrs k
  let s2 := s1.setCand n { s1.cand n with align := (s1.cand n).err, sum := 0, num := 0 }
  let s3 := { s2 with dpll := { s2.dpll with
    integ := clampSteer i, inLock := 0, outLock := 0, held := 2, errZero := false } }
  ((((s3.setF F.REF_SEL_STATUS_LAST_PAUSE k.toNat).setB F.DPLL_STATUS_P_HELD true).steer i).setDpll 1).setSelected
    (some n)

/-- Does this update interval boundary realign (R121)? -/
def State.realigns (s : State) : Bool :=
  let st := s.f F.DPLL_STATUS_STATE
  s.dpll.take.isSome && !(decide (s.selected = s.dpll.take) && (decide (st = 1) || decide (st = 2)))

/-- The change of state at an update interval boundary (R117, R121, R137). HOLD leaves FREERUN as it is: R121 names no
move from there to HOLDOVER (log entry 96). -/
def State.applySelection (s : State) : State :=
  let st := s.f F.DPLL_STATUS_STATE
  match s.dpll.take with
  | some n => if s.realigns then s.realign n else s
  | none =>
    let s1 := (s.setSelected none).setB F.DPLL_STATUS_P_HELD false
    if s.dpll.takeFree then s1.setDpll 0
    else if st = 1 ∨ st = 2 then (s1.holdover).setDpll 3 else s1

/-- Account the interval that ends for the history ring (R131). -/
def State.histInterval (s : State) : State :=
  { s with dpll := { s.dpll with
    secSum := s.dpll.secSum + signedOf 24 (s.f F.CLK_STEER_STEER)
    secNum := s.dpll.secNum + 1
    secLocked := s.dpll.secLocked && decide (s.f F.DPLL_STATUS_STATE = 2) } }

/-- The steering word follows the state (R122). -/
def State.steerNow (s : State) : State :=
  match s.f F.DPLL_STATUS_STATE with
  | 0 => s.steer s.freeCal
  | 3 => s.steer s.holdValue
  | _ => s

/-- The interval that ends: its phase error, and in LOCKING and LOCKED the filter. Where this boundary realigns, a pair
of shifts written since the last one waits for the first interval of the full filter (R138). -/
def State.endInterval (s : State) : State :=
  let e := s.phaseErr
  let s1 := match s.selected with
    | some _ => s.setF F.DPLL_PHASE_ERR (unsignedOf 17 e)
    | none => s
  let st := s.f F.DPLL_STATUS_STATE
  if st = 1 ∨ st = 2 then
    if s.realigns then s1.filter s.dpll.kpWas s.dpll.kiWas e else s1.filter s.dpll.kp s.dpll.ki e
  else s1

/-- DPLL_UPDATE (R118, R122 to R130, R137, R138). -/
def State.dpllUpdate (s : State) : State :=
  if !(s.dpll.due && s.fabUp) then s
  else
    let s1 := (s.histInterval.endInterval.applySelection).steerNow
    let s2 := { s1 with dpll := { s1.dpll with
      due := false, errZero := false, kpWas := s1.dpll.kp, kiWas := s1.dpll.ki } }
    candNums.foldl (fun s n => s.setCand n { s.cand n with sum := 0, num := 0 }) s2

/-- R131: write the second's mean into the ring, if every interval was LOCKED. -/
def State.histSecond (s : State) : State :=
  let d := s.dpll
  let s0 := { s with dpll := { d with secSum := 0, secNum := 0, secLocked := true } }
  if d.secLocked && decide (d.secNum = 1000) then
    let count := s.f F.DPLL_HIST_HEAD_COUNT
    let head := if count = 0 then 0 else (s.f F.DPLL_HIST_HEAD_HEAD + 1) % 128
    let s1 := (s0.setF F.DPLL_HIST_AVG (unsignedOf 24 (s.mean 3 d.secSum d.secNum)) head).setF F.DPLL_HIST_VALID 1 head
    (s1.setF F.DPLL_HIST_HEAD_HEAD head).setF F.DPLL_HIST_HEAD_COUNT (min 128 (count + 1))
  else s0

/-- R135: clear the history ring. -/
def State.histClear (s : State) : State :=
  let s1 := (List.range 128).foldl (fun s i => s.setReg .DPLL_HIST 0 i) s
  (s1.setF F.DPLL_HIST_HEAD_HEAD 0).setF F.DPLL_HIST_HEAD_COUNT 0

/-- R139: is a DPLL_HOLD_CTL write acceptable? -/
def holdCtlOk (v : Word) : Bool :=
  let w := fieldOf v 0 7
  let g := fieldOf v 8 6
  decide (2 ≤ g ∧ g ≤ 60 ∧ 1 ≤ w ∧ w ≤ 126 ∧ g + w ≤ 128)

/-- The DPLL and the candidates as the derived clocks start: free run, and every candidate failed (R121, R135, R140). -/
def State.refStart (s : State) : State :=
  let s1 := (s.refTake.histClear).setSelected none
  let d := s1.dpll
  let s2 := { s1 with dpll := { Dpll.init with
    cfg := d.cfg, kp := d.kp, ki := d.ki, kpWas := d.kp, kiWas := d.ki, forceBad := d.forceBad } }
  let s3 := ((s2.setB F.DPLL_STATUS_P_HELD false).setDpll 0).steer s2.freeCal
  (candNums.foldl State.candFail s3).selEval

end Sys2Proof.Machine
end

