-- ==== Sys2Proof/Machine/Line.lean ====
section
/-!
DEFINITION. Machine/Line.lean: the E1 line ports (spec/05): line codes, defects, framer, CRC-4 multiframe, Sa bits,
elastic store, transmit framing and the per-second counters.
-/
namespace Sys2Proof.Machine

def State.line (s : State) (p : Nat) : Line := tabGet (fun _ => Line.init) s.lines p
def State.setLine (s : State) (p : Nat) (l : Line) : State :=
  { s with lines := tabPut (fun _ => Line.init) s.lines p l }

/-- Add to the `i`-th accumulator of a list. -/
def bumpAt : List Nat → Nat → Nat → List Nat
  | [], 0, n => [n]
  | [], i + 1, n => 0 :: bumpAt [] i n
  | x :: t, 0, n => (x + n) :: t
  | x :: t, i + 1, n => x :: bumpAt t i n

/-- Count on a line's accumulator, in the order of R223. -/
def State.lineCount (s : State) (p i n : Nat) : State :=
  s.setLine p { s.line p with cnt := bumpAt (s.line p).cnt i n }

/-- Widths of the counters of R223. -/
def lineWidths : List Nat := [16, 16, 16, 16, 8, 8, 16, 16, 16, 16]

/-- A bank latched from accumulators: saturated values and one SAT bit for each counter at its largest value (R224). -/
def latchBank (widths : List Nat) (sec : Word) (cnt : List Nat) : Bank :=
  let vals := widths.mapIdx fun i w => min (2 ^ w - 1) (cnt.getD i 0)
  let sat := (widths.mapIdx fun i w => if 2 ^ w - 1 ≤ cnt.getD i 0 then 2 ^ i else 0).foldl (· + ·) 0
  ⟨sec, vals, sat⟩

/-! ### Defects -/

def State.losZeros (s : State) (p : Nat) : Nat := max 10 (fieldOf (s.line p).rxCfg 0 8)

/-- Bit of `Line.seen` for a defect: LOS, AIS, LOF, RAI in the order LOS, LOF, AIS, RAI of R223. -/
def seenBit (k : Nat) : BitVec 4 :=
  match k with
  | 0 => 1
  | 1 => 4
  | 2 => 2
  | 4 => 8
  | _ => 0

/-- Set or clear defect `k` of LINE_STATUS (0 LOS, 1 AIS, 2 LOF, 3 LOMF, 4 RAI, 5 NOCRC4); a set defect is sticky. -/
def State.lineDef (s : State) (p k : Nat) (b : Bool) : State :=
  let w := s.reg .LINE_STATUS p
  let l := s.line p
  if b then
    (s.setReg .LINE_STATUS (w ||| BitVec.ofNat 32 (0x101 <<< k)) p).setLine p
      { l with seen := l.seen ||| seenBit k, chg := l.chg || !(w.getLsbD k) }
  else (s.setReg .LINE_STATUS (w &&& ~~~(BitVec.ofNat 32 (1 <<< k))) p).setLine p { l with chg := l.chg || w.getLsbD k }

def State.lineDefect (s : State) (p k : Nat) : Bool := (s.reg .LINE_STATUS p).getLsbD k

def State.lineFramed (s : State) (p : Nat) : Bool := !(s.ba F.LINE_CTL_RX_FRAMING p)
def State.lineCrc (s : State) (p : Nat) : Bool := decide (1 ≤ s.fa F.LINE_CTL_CRC4 p ∧ s.fa F.LINE_CTL_CRC4 p ≤ 2)

/-- Alignment is lost: the framer starts over from the bits it has not used, and the store keeps its boundary. -/
def Line.unalign (l : Line) : Line :=
  { l with
    sb := if l.aligned then l.fb else l.sb
    aligned := false, odd := false, fasBad := 0, nfasBad := 0, aRun := 0, mfBits := [], mfHits := [], mfPos := none
    mfDone := false, alFrames := 0, crc := none, crcPrev := none, cBits := [], smf := 0, smfBad := 0, saPart := [] }

/-- Declare LOF on a framed port, and what goes with it: LOMF (R192), no RAI, no NOCRC4 (R196), and codes received later
no succession of the earlier ones (R105). -/
def State.lofDeclare (s : State) (p : Nat) : State :=
  if s.lineFramed p then
    let s1 := (s.sourceLost 0 p).setLine p (s.line p).unalign
    let s2 := ((s1.lineDef p 2 true).lineDef p 4 false).lineDef p 5 false
    if s.lineCrc p then s2.lineDef p 3 true else s2
  else s

/-! ### The elastic store -/

/-- Bits of the received frame in progress at a boundary, in 1/384 bits: what has come since the last one's end, less
than a whole frame (R204). Before the first one its start is taken to be the boundary that recentred the store. -/
def Line.inProgress (l : Line) : Int := min (l.phase.getD 0 % 98304 + 98304 * (l.late - 1 : Nat)) 98303

/-- A whole received frame has come, that began `phase` before the local boundary. -/
def Line.took (l : Line) (phase : Int) : Line :=
  { l with
    fill := match l.phase with
      | some _ => l.fill + 98304
      | none => l.fill + 98304 * (min l.late 2 : Nat) - phase % 98304
    phase := some phase, late := 0 }

/-- The store's fill at a boundary, in 1/384 bits. -/
def Line.fillNow (l : Line) : Int := l.fill + l.inProgress

/-- The fill in bits at a boundary, with a recentring made (R205). -/
def Line.fillBits (l : Line) : Nat := if l.recentre then 256 else (max 0 (min 512 (l.fillNow / 384))).toNat

/-- The store recentres at this boundary (R205): its fill is 256 bits, of which the frame that begins delivers the last
whole frame it holds. A port without alignment splits its bits at a boundary of its own from here on (R198, log entries
22, 78). -/
def State.lineRecentre (s : State) (p : Nat) : State :=
  let l := s.line p
  let k := if l.aligned then 0 else s.outNat 8 p % 256
  let last := l.frames.getLast?.getD l.cur
  (s.setLine p { l with
    recentre := false, fill := -l.inProgress, act := 1, skip := k, sb := if l.aligned then l.sb else []
    frames := if k = 0 then [last] else [last, last] }).setF F.LINE_RX_PHASE_FILL 256 p

/-- The defects that a start declares (R221). -/
def State.startDefects (s : State) (p : Nat) : Word :=
  if s.lineFramed p then (if s.lineCrc p then 0xC else 4) else 0

/-- A port starts or starts afresh (R221, R231): the receive side; transmit state, counters and what this frame has seen
go on. A change of its defects counts. -/
def State.lineStart (s : State) (p : Nat) : State :=
  let l := s.line p
  let old := s.reg .LINE_STATUS p
  let d := s.startDefects p
  let l' := { Line.init with
    on := true, rxCfg := l.rxCfg, recentre := true, chg := l.chg || decide (old &&& 0x3F ≠ d), saEvt := l.saEvt
    seen := l.seen ||| (if d = 0 then 0 else seenBit 2), cvb := l.cvb, polT := l.polT, marks := l.marks
    zeros := l.zeros, shT := l.shT, txCrc := l.txCrc, txCrcPrev := l.txCrcPrev, txPos := l.txPos, txNeg := l.txNeg
    cnt := l.cnt, bank0 := l.bank0, bank1 := l.bank1, newer := l.newer }
  ((s.sourceLost 0 p).setLine p l').setReg .LINE_STATUS ((old &&& 0xFFFFFFC0) ||| d ||| (d <<< 8)) p

/-- A port stops (R220). -/
def State.lineStop (s : State) (p : Nat) : State :=
  let s1 := s.setLine p { s.line p with
    on := false, chg := false, saEvt := false, seen := 0, cvb := 0, txPos := 0, txNeg := 0, txCrc := none, txCrcPrev := none
    cur := ⟨[], none⟩, frames := [] }
  s1.setReg .LINE_STATUS (s1.reg .LINE_STATUS p &&& 0xFFFFFFC0) p

/-- A port's group powers off (R227, R228): everything but the configuration is lost, and the banks hold zero counts. -/
def State.lineOff (s : State) (p : Nat) : State :=
  let l := s.line p
  let s1 := s.setLine p { Line.init with
    rxCfg := l.rxCfg, bank0 := ⟨l.bank0.sec, [], 0⟩, bank1 := ⟨l.bank1.sec, [], 0⟩, newer := l.newer }
  (((s1.setReg .LINE_STATUS 0 p).setReg .LINE_RX_SA 0 p).setReg .LINE_RX_PHASE 0 p).setReg .LINE_E_DEBIT 0 p

/-- LOS_DECLARE (R192, R193, R229). -/
def State.losDeclare (s : State) (p zeros : Nat) (noClock : Bool) : State :=
  if (s.line p).on && s.fabUp && !(s.lineDefect p 0) && (noClock || decide (s.losZeros p ≤ zeros)) then
    ((s.lineDef p 0 true).lineDef p 1 false).lofDeclare p
  else s

/-- Longest run of zeros, with the run at hand. -/
def longestRun : List Bool → Nat → Nat
  | [], run => run
  | b :: t, run => if b then max run (longestRun t 0) else longestRun t (run + 1)

def listOfBits {w : Nat} (v : BitVec w) : List Bool := (List.range w).map fun i => v.getLsbD (w - 1 - i)

/-- The window of R192 that clears LOS: it starts with a 1, holds four 1s and no run of LOS_ZEROS zeros. -/
def clearWindow (losZeros : Nat) (window : BitVec 32) : Bool :=
  window.getLsbD 31 && decide (4 ≤ ones window) && decide (longestRun (listOfBits window) 0 < losZeros)

/-- LOS_CLEAR (R192, R205). -/
def State.losClear (s : State) (p : Nat) (clock : Bool) (window : BitVec 32) : State :=
  if (s.line p).on && s.fabUp && s.lineDefect p 0 && clock && clearWindow (s.losZeros p) window then
    let s1 := s.lineDef p 0 false
    s1.setLine p { s1.line p with recentre := true }
  else s

/-- AIS_PERIOD_END (R192): a 512-bit period with this many zeros ends. -/
def State.aisPeriod (s : State) (p zeros : Nat) : State :=
  if (s.line p).on && s.fabUp then
    let l := s.line p
    let low := decide (zeros ≤ 2)
    let s1 := s.setLine p { l with aisLow := low, aisHigh := !low }
    if !(s.lineDefect p 1) && !(s.lineDefect p 0) && low && l.aisLow then (s1.lineDef p 1 true).lofDeclare p
    else if s.lineDefect p 1 && !low && l.aisHigh then s1.lineDef p 1 false
    else s1
  else s

/-! ### Line codes (R189 to R191) -/

/-- A symbol sampled from the rails; both rails high is decoded as no mark. -/
def symOf (pos neg : Bool) : Sym := if pos && !neg then .pos else if neg && !pos then .neg else .zero

/-- One symbol into the decoder: the bits it answers and the code violations it counts. `amp`: AMI. -/
def Line.decode1 (l : Line) (ami : Bool) (pos neg : Bool) : Line × List Bool × Nat :=
  let both := if pos && neg then 1 else 0
  match symOf pos neg with
  | .zero =>
    if ami then (l, [false], both)
    else ({ l with shR := (l.shR ++ [0]).drop (l.shR.length + 1 - 3) },
      if l.shR.length < 3 then [] else [decide (l.shR.headD 0 % 2 = 1)], both)
  | q =>
    let pol := decide (q = .pos)
    let viol := decide (pol = l.polR)
    if ami then ({ l with polR := pol }, [true], if viol then 1 else 0)
    else
      let sub := viol && decide (l.shR.length = 3) && decide (l.shR.getD 1 1 = 0) && decide (l.shR.getD 2 1 = 0) &&
        decide (l.shR.getD 0 2 ≤ 1)
      let sh := if sub then [if l.shR.getD 0 0 = 1 then 2 else 0, 0, 0] else l.shR
      let code := if sub then 2 else if viol then 3 else 1
      ({ l with polR := pol, shR := (sh ++ [code]).drop (sh.length + 1 - 3) },
        if sh.length < 3 then [] else [decide (sh.headD 0 % 2 = 1)], if viol && !sub then 1 else 0)

/-- Decode a run of symbols. -/
def Line.decode (ami : Bool) : Line → List (Bool × Bool) → Line × List Bool × Nat
  | l, [] => (l, [], 0)
  | l, (a, b) :: t =>
    let r := l.decode1 ami a b
    let q := Line.decode ami r.1 t
    (q.1, r.2.1 ++ q.2.1, r.2.2 + q.2.2)

/-- Emit the oldest of more than four waiting symbols. -/
def Line.emit (l : Line) : Line × List Sym :=
  match l.shT with
  | a :: t => if t.length ≥ 4 then ({ l with shT := t }, [a]) else (l, [])
  | [] => (l, [])

/-- One bit into the HDB3 encoder (R189). -/
def Line.encode1 (l : Line) (b : Bool) : Line × List Sym :=
  if b then
    let pol := !l.polT
    Line.emit { l with polT := pol, marks := !l.marks, zeros := 0, shT := l.shT ++ [if pol then .pos else .neg] }
  else if l.zeros = 3 then
    let keep := l.shT.take (l.shT.length - 3)
    let sy := fun (p : Bool) => if p then Sym.pos else Sym.neg
    let pol := if l.marks then l.polT else !l.polT
    let four := if l.marks then [Sym.zero, .zero, .zero, sy pol] else [sy pol, .zero, .zero, sy pol]
    Line.emit { l with polT := pol, marks := false, zeros := 0, shT := keep ++ four }
  else Line.emit { l with zeros := l.zeros + 1, shT := l.shT ++ [.zero] }

def Line.encode : Line → List Bool → Line × List Sym
  | l, [] => (l, [])
  | l, b :: t =>
    let r := l.encode1 b
    let q := Line.encode r.1 t
    (q.1, r.2 ++ q.2)

/-- AMI: alternate marks. -/
def amiSyms : Bool → List Bool → Bool × List Sym
  | pol, [] => (pol, [])
  | pol, b :: t =>
    let r := amiSyms (if b then !pol else pol) t
    (r.1, (if b then (if pol then Sym.neg else Sym.pos) else Sym.zero) :: r.2)

/-- 256 bits as a vector, first bit as bit 255. -/
def bits256 (bs : List Bool) : BitVec 256 := BitVec.ofNat 256 (bs.foldl (fun a b => 2 * a + if b then 1 else 0) 0)

/-! ### Framer -/

/-- The FAS word 0011011 in bits 2 to 8 of a byte that begins the list (R194). -/
def isFas (bs : List Bool) : Bool :=
  decide ((bs.drop 1).take 7 = [false, false, true, true, false, true, true])

/-- Search for frame alignment (R194): how many bits to give up, and whether the bits after them begin the frame with
the confirming FAS word. `fuel` bounds the candidates looked at. -/
def alignSearch : Nat → List Bool → Nat → Nat × Bool
  | 0, _, k => (k, false)
  | fuel + 1, bs, k =>
    if bs.length < 8 then (k, false)
    else if isFas bs then
      let f1 := bs.drop 256
      let f2 := bs.drop 512
      if f1.length < 2 then (k, false)
      else if f1.getD 1 false then
        if f2.length < 8 then (k, false)
        else if isFas f2 then (k + 512, true)
        else alignSearch fuel (bs.drop 1) (k + 1)
      else alignSearch fuel (bs.drop 1) (k + 1)
    else alignSearch fuel (bs.drop 1) (k + 1)

/-- CRC-4 of G.704: the remainder modulo x⁴ + x + 1 (R203, R213). -/
def crc4Step (r : BitVec 4) (b : Bool) : BitVec 4 :=
  let s := r <<< 1
  if xor (r.getLsbD 3) b then s ^^^ 3 else s

def crc4 (r : BitVec 4) (bs : List Bool) : BitVec 4 := bs.foldl crc4Step r

/-- A frame's bits with a C bit taken as 0 (R213): bit 1 of a FAS frame. -/
def zeroC (fas : Bool) (bs : List Bool) : List Bool := if fas then false :: bs.drop 1 else bs

/-- RAI follows three NFAS words in a row (R192). -/
def State.lineA (s : State) (p : Nat) (a : Bool) : State :=
  let l := s.line p
  let rai := s.lineDefect p 4
  let n := if a = rai then 0 else l.aRun + 1
  let s1 := s.setLine p { l with aRun := if n ≥ 3 then 0 else n }
  if n ≥ 3 then s1.lineDef p 4 a else s1

/-- MFAS in bit 1 of six successive NFAS words (R195). -/
def mfasPattern : List Bool := [false, false, true, false, true, true]

/-- Search for the CRC-4 multiframe with the bit 1 of an NFAS word (R195); the second of two patterns spaced 16, 32 or
48 frames ends it: the frame at hand is frame 11. -/
def State.mfSearch (s : State) (p : Nat) (b : Bool) : State :=
  let l := s.line p
  if s.lineCrc p && l.mfPos.isNone && !l.mfDone then
    let bits := (l.mfBits ++ [b]).drop (l.mfBits.length + 1 - 6)
    if bits = mfasPattern then
      if l.mfHits.any fun h => decide ((l.alFrames - h) % 16 = 0 ∧ l.alFrames - h ≤ 48) then
        (s.setLine p { l with mfBits := bits, mfPos := some 11 }).lineDef p 3 false
      else s.setLine p { l with mfBits := bits, mfHits := l.mfHits ++ [l.alFrames] }
    else s.setLine p { l with mfBits := bits }
  else s

/-- The Sa bits of a word that changed and are enabled for events. -/
def saChanged (en old new : BitVec 5) : Bool := decide ((old ^^^ new) &&& en ≠ 0)

/-- An NFAS word is received: its Sa bits and A bit (R200, R202). Sa4 is bit 0. -/
def State.lineSa (s : State) (p : Nat) (bs : List Bool) : State :=
  let sa := BitVec.ofNat 5 ((bs.getD 3 false).toNat + 2 * (bs.getD 4 false).toNat + 4 * (bs.getD 5 false).toNat +
    8 * (bs.getD 6 false).toNat + 16 * (bs.getD 7 false).toNat)
  let l := s.line p
  let old := BitVec.ofNat 5 (s.f F.LINE_RX_SA_SA_LAST p)
  let en := BitVec.ofNat 5 (fieldOf l.rxCfg 16 5)
  let evt := l.mfPos.isNone && l.saSeen && saChanged en old sa
  let s1 := s.setLine p { l with
    saSeen := true, saEvt := l.saEvt || evt, saPart := if l.mfPos.isSome then l.saPart ++ [sa] else l.saPart }
  ((s1.setF F.LINE_RX_SA_SA_LAST sa.toNat p).setB F.LINE_RX_SA_A_LAST (bs.getD 2 false) p).lineA p (bs.getD 2 false)

/-- The nibble of Sa bit `k` from the four words of a submultiframe, the first bit in bit 3 (R201). -/
def nibbleOf (ws : List (BitVec 5)) (k : Nat) : Nat :=
  ws.foldl (fun a w => 2 * a + (w.getLsbD k).toNat) 0

/-- The nibbles of a submultiframe (R201, R202), and the quality levels they bring (R104, R105). -/
def State.lineNibbles (s : State) (p : Nat) (ws : List (BitVec 5)) : State :=
  let l := s.line p
  let ks : List Nat := [0, 1, 2, 3, 4]
  let new := ks.foldl (fun a k => a + nibbleOf ws k * 16 ^ k) 0
  let old := s.f F.LINE_RX_SA_NIBBLES p
  let evt := l.nibSeen && ks.any fun k => (l.rxCfg.getLsbD (16 + k)) && decide (old / 16 ^ k % 16 ≠ nibbleOf ws k)
  let s1 := (s.setLine p { l with nibSeen := true, saEvt := l.saEvt || evt, saPart := [] }).setF
    F.LINE_RX_SA_NIBBLES new p
  ks.foldl (fun s k => s.sourceQl 0 p k (nibbleOf ws k)) s1

/-- A submultiframe ends: its CRC-4 against the bits received in it, which tell of the one before (R203, R192). -/
def State.smfEnd (s : State) (p : Nat) : State :=
  let l := s.line p
  let s1 := s.setLine p { l with crcPrev := l.crc, crc := none, cBits := [] }
  let s2 := match l.crcPrev with
    | none => s1
    | some c =>
      let bad := decide (l.cBits ≠ listOfBits c)
      let n := l.smfBad + if bad then 1 else 0
      let s2 := if bad then s1.lineCount p 1 1 else s1
      if s.ba F.LINE_CTL_CRC_LOSS_EN p && decide (n ≥ 915) then s2.lofDeclare p
      else if l.smf + 1 = 1000 then s2.setLine p { s2.line p with smf := 0, smfBad := 0 }
      else s2.setLine p { s2.line p with smf := l.smf + 1, smfBad := n }
  if l.saPart.length = 4 then s2.lineNibbles p l.saPart else s2.setLine p { s2.line p with saPart := [] }

/-- Push a frame to the elastic store. -/
def State.storeFrame (s : State) (p : Nat) (bs : List Bool) (mf : Option Nat) : State :=
  let l := s.line p
  let bytes := (List.range 32).map fun i => byteOf ((bs.drop (8 * i)).take 8)
  s.setLine p { l with frames := l.frames ++ [⟨bytes, mf⟩] }

/-- The multiframe part of one aligned frame: its place, its CRC-4 and its E bits (R203). -/
def State.lineMf (s : State) (p : Nat) (fas : Bool) (bs : List Bool) : State :=
  let l := s.line p
  match l.mfPos with
  | none => s
  | some k =>
    let crc := if k % 8 = 0 then some (crc4 0 (zeroC fas bs)) else l.crc.map fun r => crc4 r (zeroC fas bs)
    let cs := if fas then l.cBits ++ [bs.getD 0 false] else l.cBits
    let s1 := s.setLine p { l with crc := crc, cBits := if k % 8 = 0 then [bs.getD 0 false] else cs }
    let s2 := if (k = 13 ∨ k = 15) ∧ !(bs.getD 0 true) then s1.lineCount p 2 1 else s1
    let s3 := if k % 8 = 7 then s2.smfEnd p else s2
    s3.setLine p { s3.line p with mfPos := (s3.line p).mfPos.map fun k => (k + 1) % 16 }

/-- One aligned frame of 256 bits (R192, R194 to R203). -/
def State.lineFrame (s : State) (p : Nat) (bs : List Bool) : State :=
  let l := s.line p
  let s0 := s.storeFrame p bs l.mfPos
  if !l.odd then
    let bad := !(isFas bs)
    let s1 := if bad then s0.lineCount p 0 1 else s0
    let n := if bad then l.fasBad + 1 else 0
    if n ≥ 3 then s1.lofDeclare p
    else
      let s2 := s1.setLine p { s1.line p with fasBad := n, odd := true, alFrames := l.alFrames + 1 }
      s2.lineMf p true bs
  else
    let n := if bs.getD 1 true then 0 else l.nfasBad + 1
    if s.ba F.LINE_CTL_NFAS_LOSS p && decide (n ≥ 3) then s0.lofDeclare p
    else
      let s1 := s0.setLine p { s0.line p with nfasBad := n, odd := false }
      let s2 := ((s1.lineSa p bs).mfSearch p (bs.getD 0 false)).lineMf p false bs
      s2.setLine p { s2.line p with alFrames := l.alFrames + 1 }

/-- Frame alignment is found (R192, R205): LOF clears, AIS clears, the multiframe search starts. -/
def State.alignFound (s : State) (p : Nat) : State :=
  let s1 := s.setLine p { (s.line p).unalign with aligned := true, recentre := true, sb := [], skip := 0 }
  let s2 := (s1.lineDef p 2 false).lineDef p 1 false
  if s.lineCrc p then s2 else s2.lineDef p 3 false

/-- Use up the framer's bits: search, or take frames; `err` is the marker's comparison. -/
def State.lineFramer (s : State) (p : Nat) (err : Int) : Nat → State
  | 0 => s
  | fuel + 1 =>
    let l := s.line p
    if l.aligned then
      if l.fb.length < 256 then s
      else
        let s1 := s.setLine p { l with fb := l.fb.drop 256 }
        ((s1.sourceMarker 0 p err).lineFrame p (l.fb.take 256)).lineFramer p err fuel
    else
      let r := alignSearch l.fb.length l.fb 0
      let s1 := s.setLine p { l with fb := l.fb.drop r.1 }
      if r.2 then (s1.alignFound p).lineFramer p err fuel else s1

/-- A port without frame alignment splits its bits at a boundary of its own (R198). -/
def State.lineSplit (s : State) (p : Nat) : Nat → State
  | 0 => s
  | fuel + 1 =>
    let l := s.line p
    if l.sb.length < 256 then s
    else ((s.setLine p { l with sb := l.sb.drop 256 }).storeFrame p (l.sb.take 256) none).lineSplit p fuel

/-- Received bits, a frame's worth, enter the port. `phase`: VCO cycles from their start to the local boundary. -/
def State.lineBits (s : State) (p : Nat) (bs : List Bool) (phase : Int) : State :=
  let l := s.line p
  let s0 := s.setLine p (l.took phase)
  let l := s0.line p
  let k := min l.skip bs.length
  let s1 := if l.aligned then s0
    else (s0.setLine p { l with skip := l.skip - k, sb := l.sb ++ bs.drop k }).lineSplit p 3
  if s.lineFramed p then (s1.setLine p { s1.line p with fb := l.fb ++ bs }).lineFramer p phase 4 else s1

/-- Count code violations unless LOS is declared (R197). -/
def State.lineCv (s : State) (p n : Nat) : State :=
  if n = 0 ∨ s.lineDefect p 0 then s
  else (s.lineCount p 3 n).setLine p { (s.lineCount p 3 n).line p with cvb := (s.line p).cvb + n }

/-- LINE_FRAME_RECEIVED: 256 samples of the receive rails, the first as bit 255. -/
def State.lineReceive (s : State) (p : Nat) (pos neg : BitVec 256) (phase : Int) : State :=
  if (s.line p).on && s.fabUp && decide (s.fa F.LINE_CTL_LOOP p ≠ 1) then
    if s.ba F.LINE_CTL_IF_MODE p then
      (s.lineCv p ((listOfBits neg).filter id).length).lineBits p (listOfBits pos) phase
    else
      let r := Line.decode (s.ba F.LINE_CTL_CODE p) (s.line p) ((listOfBits pos).zip (listOfBits neg))
      ((s.setLine p r.1).lineCv p r.2.2).lineBits p r.2.1 phase
  else s

/-- MULTIFRAME_SEARCH_TIMEOUT (R192): CRC4 = 1 and 8 ms without the multiframe. -/
def State.mfTimeout (s : State) (p : Nat) : State :=
  let l := s.line p
  if l.on && s.fabUp && decide (s.fa F.LINE_CTL_CRC4 p = 1) && l.aligned && l.mfPos.isNone && decide (l.alFrames ≥ 64)
  then s.lofDeclare p else s

/-- NOCRC4 (R196): CRC4 = 2 and 400 ms of frame alignment without the multiframe. -/
def State.noCrc4 (s : State) (p : Nat) : State :=
  let l := s.line p
  if l.on && s.fabUp && decide (s.fa F.LINE_CTL_CRC4 p = 2) && l.aligned && l.mfPos.isNone && !l.mfDone &&
      decide (l.alFrames ≥ 3200)
  then ((s.setLine p { l with mfDone := true }).lineDef p 5 true).lineDef p 3 false else s

/-! ### The elastic store at a frame boundary -/

/-- The store as it delivers: the frame before again, the next, or the one after the next. -/
def Line.pop (l : Line) : Line :=
  match l.act, l.frames with
  | 0, _ => l
  | 2, _ :: f :: t => { l with cur := f, frames := t }
  | 2, _ => { l with frames := [] }
  | _, f :: t => { l with cur := f, frames := t }
  | _, [] => l

/-- Deliver the frame of local frame n at its end, as decided at its start (R204, R206), and note the place of the frame
delivered, a repeated one too, where n's bits 3:0 are 0 (R207). -/
def State.linePop (s : State) (p : Nat) : State :=
  let l := (s.line p).pop
  let s1 := s.setLine p l
  match l.cur.mf with
  | some k => if s.frame.toNat % 16 = 0 then s1.setF F.LINE_RX_PHASE_MF_OFFSET k p else s1
  | none => s1

/-- A change of LINE_CTL that starts the receive side afresh (R231), and one that recentres the store (R232). -/
def lineFresh (old new : Word) : Bool := decide ((old ^^^ new) &&& 0x3E ≠ 0)
def lineLoops (old new : Word) : Bool := decide ((old ^^^ new) &&& 0x180 ≠ 0)

/-- A commit that applies at this boundary recentres the store, so that no slip falls on it (R230). -/
def State.lineWillRecentre (s : State) (p : Nat) : Bool :=
  let old := s.act .LINE_CTL p
  let new := s.actSoon .LINE_CTL p
  lineFresh old new || lineLoops old new

/-- Decide what the store does in the frame that begins (R204, R205, R230). -/
def State.lineSlip (s : State) (p : Nat) : State :=
  let l := s.line p
  if l.recentre ∨ s.lineWillRecentre p then s.lineRecentre p
  else if l.fillNow < 32 * 384 then
    ((s.setLine p { l with act := 0 }).lineCount p 4 1).raise (4 * p + 2)
  else if l.fillNow > 480 * 384 then
    ((s.setLine p { l with act := 2, fill := l.fill - 196608 }).lineCount p 5 1).raise (4 * p + 2)
  else s.setLine p { l with act := 1, fill := l.fill - 98304 }

/-! ### Transmit (R209 to R215) -/

/-- The C bits of a submultiframe: free where its predecessor was not transmitted whole (log entry 3). -/
def State.crcOrFree (s : State) (p : Nat) (c : Option (BitVec 4)) : BitVec 4 := c.getD (BitVec.ofNat 4 (s.outNat 9 p))

/-- Timeslot 0 of frame `f` (R211, R212, R214), and the state with the debit and the C bits it used. -/
def State.timeslot0 (s : State) (p f : Nat) : List Bool × State :=
  let k := f % 16
  let crc := decide (s.fa F.LINE_CTL_CRC4 p ≠ 0)
  if k % 2 = 0 then
    if crc then
      let r := s.crcOrFree p (s.line p).txCrcPrev
      (r.getLsbD (3 - k % 8 / 2) :: [false, false, true, true, false, true, true],
        s.setLine p { s.line p with txCrcPrev := some r })
    else (s.ba F.LINE_TX_SA_SI_FAS p :: [false, false, true, true, false, true, true], s)
  else
    let word := s.fa F.LINE_TX_SA_SA_STATIC p
    let ssm := s.fa F.LINE_TX_SA_SSM_SEL p
    let nib := BitVec.ofNat 4 (s.fa F.LINE_TX_SA_SSM_TX p)
    let sa := [0, 1, 2, 3, 4].map fun i =>
      if i = ssm then nib.getLsbD (3 - (k % 8 - 1) / 2) else (word >>> i) % 2 == 1
    let rest := true :: s.ba F.LINE_TX_SA_TX_A p :: sa
    if crc then
      if k = 13 ∨ k = 15 then
        let d := s.f F.LINE_E_DEBIT_DEBIT p
        if d > 0 then (false :: rest, s.setF F.LINE_E_DEBIT_DEBIT (d - 1) p) else (true :: rest, s)
      else (mfasPattern.getD (k / 2) false :: rest, s)
    else (s.ba F.LINE_TX_SA_SI_NFAS p :: rest, s)

/-- The running CRC-4 of the transmitted submultiframe (R213). -/
def Line.txCrcFrame (l : Line) (k : Nat) (bs : List Bool) : Line :=
  let z := zeroC (k % 2 = 0) bs
  let crc := if k % 8 = 0 then some (crc4 0 z) else l.txCrc.map fun r => crc4 r z
  if k % 8 = 7 then { l with txCrc := none, txCrcPrev := crc } else { l with txCrc := crc }

/-- No CRC-4 of a transmitted submultiframe is known: it was not built here, or not whole. -/
def Line.noCrc (l : Line) : Line := { l with txCrc := none, txCrcPrev := none }

/-- The bits a port transmits in frame `f`, whose fabric bytes are in `out`. -/
def State.lineTxBits (s : State) (p f : Nat) : List Bool × State :=
  let fabric := (List.range 32).flatMap fun i => bitsOf (s.outByte (32 * p + i))
  if s.fa F.LINE_CTL_LOOP p = 2 then
    ((List.range 32).flatMap fun i => bitsOf ((s.line p).cur.bytes.getD i 0xFF), s.setLine p (s.line p).noCrc)
  else if s.ba F.LINE_CTL_TX_FRAMING p then
    (fabric, s.setLine p (s.line p).noCrc)
  else
    let r := s.timeslot0 p f
    let bs := r.1 ++ fabric.drop 8
    let l := r.2.line p
    (bs, r.2.setLine p (if s.fa F.LINE_CTL_CRC4 p ≠ 0 then l.txCrcFrame (f % 16) bs else l.noCrc))

/-- Encode and drive a frame's bits (R187, R189, R191). -/
def State.lineDrive (s : State) (p : Nat) (bs : List Bool) : State :=
  let l := s.line p
  if s.ba F.LINE_CTL_IF_MODE p then s.setLine p { l with txPos := bits256 bs, txNeg := 0, shT := [], zeros := 0 }
  else
    let r : Line × List Sym := if s.ba F.LINE_CTL_CODE p then
        let q := amiSyms l.polT bs
        ({ l with polT := q.1, shT := [], zeros := 0 }, q.2)
      else Line.encode l bs
    let sy := List.replicate (256 - r.2.length) Sym.zero ++ r.2
    s.setLine p { r.1 with
      txPos := bits256 (sy.map fun x => decide (x = .pos)), txNeg := bits256 (sy.map fun x => decide (x = .neg)) }

/-- What a running port does for the frame that ends: it delivers, transmits and feeds a local loop. -/
def State.lineEnd (s : State) (p : Nat) : State :=
  if (s.line p).on then
    let s1 := s.linePop p
    let r := s1.lineTxBits p s.frame.toNat
    let s2 := r.2.lineDrive p r.1
    if s.fa F.LINE_CTL_LOOP p = 1 then s2.lineBits p r.1 0 else s2
  else s

/-- What a running port does at the boundary that begins a frame: counters of frames with a defect, events, slips
(R199, R202, R204, R208, R218, R223). -/
def State.lineBegin (s : State) (p : Nat) : State :=
  let l := s.line p
  let s0 := s.setLine p { l with rxCfg := s.reg .LINE_RX_CFG p }
  if l.on then
    let now := s.reg .LINE_STATUS p
    let frames := [(6, 0), (7, 1), (8, 2), (9, 3)].foldl (fun s e =>
      if l.seen.getLsbD e.2 then s.lineCount p e.1 1 else s) s0
    let level := [0, 1, 2, 4].foldl (fun (a : BitVec 4) k => if now.getLsbD k then a ||| seenBit k else a) 0
    let s1 := frames.setLine p { frames.line p with seen := level, chg := false, saEvt := false }
    let s2 := if l.chg then s1.raise (4 * p) else s1
    let s3 := if l.saEvt then s2.raise (4 * p + 1) else s2
    let s4 := if s.frame.toNat % 16 = 0 then
        let thr := fieldOf l.rxCfg 8 8
        let s4 := s3.setLine p { s3.line p with cvb := 0 }
        if thr ≠ 0 ∧ l.cvb ≥ thr then s4.raise (4 * p + 3) else s4
      else s3
    let s5 := s4.setLine p { s4.line p with late := (s4.line p).late + 1 }
    (s5.setF F.LINE_RX_PHASE_FILL (s5.line p).fillBits p).lineSlip p
  else s0

/-- The port's group carries traffic. -/
def State.lineMay (s : State) (p : Nat) : Bool := s.domRun (p / 8) && s.ba F.LINE_CTL_EN p

/-- Start or stop the port as its active configuration and its group say (R220, R227, R228). -/
def State.lineSync (s : State) (p : Nat) : State :=
  if s.lineMay p && !(s.line p).on then (s.lineStart p).lineRecentre p
  else if !(s.lineMay p) && (s.line p).on then s.lineStop p
  else s

/-- A commit replaced the active LINE_CTL of a port, from the frame that begins (R27, R220, R231, R232). -/
def State.lineCtlApplied (s : State) (p : Nat) (old : Word) : State :=
  let new := s.act .LINE_CTL p
  let was := (s.line p).on
  let s1 := s.lineSync p
  if was && (s1.line p).on then
    if lineFresh old new then (s1.lineStart p).lineRecentre p
    else if lineLoops old new then (s1.setLine p { s1.line p with phase := none, late := 1 }).lineRecentre p
    else s1
  else s1

/-- A commit applied LINE_TX_E (R214); a group that carries no traffic keeps no debit (R228, R652). -/
def State.lineTxEApplied (s : State) (p : Nat) : State :=
  if s.domRun (p / 8) then
    s.setF F.LINE_E_DEBIT_DEBIT (min 1023 (s.f F.LINE_E_DEBIT_DEBIT p + s.fa F.LINE_TX_E_E_DEBT p)) p
  else s

/-- Line ports. -/
def linePorts : List Nat := List.range 128

/-- Latch a port's accumulators into the older bank, which becomes the newer (R222). -/
def State.lineSecond (s : State) (sec : Word) (p : Nat) : State :=
  let l := s.line p
  let b := latchBank lineWidths sec l.cnt
  s.setLine p (if l.newer then { l with bank0 := b, newer := false, cnt := [] }
    else { l with bank1 := b, newer := true, cnt := [] })

/-- The bank that a master reads (R225): the newer until it has selected one. -/
def bankOf (sel : Word) (newer : Bool) (b0 b1 : Bank) : Bank :=
  if sel = 1 then b0 else if sel = 2 then b1 else if newer then b1 else b0

/-- A counter register of a line port as a master reads it (R225). -/
def State.readLineCnt (s : State) (m : Master) (k : RegKind) (p : Nat) : Word :=
  let l := s.line p
  let b := bankOf (s.latch m (RegKind.LINE_CNT_SEC.addr p 0)) l.newer l.bank0 l.bank1
  let v := fun i => b.vals.getD i 0
  match k with
  | .LINE_CNT_SEC => (if l.newer then l.bank1 else l.bank0).sec
  | .LINE_CNT_FAS_CRC => BitVec.ofNat 32 (v 0 + v 1 * 65536)
  | .LINE_CNT_EBIT_CV => BitVec.ofNat 32 (v 2 + v 3 * 65536)
  | .LINE_CNT_SLIP_RAI => BitVec.ofNat 32 (v 4 + v 5 * 256 + v 9 * 65536)
  | .LINE_CNT_LOS_LOF => BitVec.ofNat 32 (v 6 + v 7 * 65536)
  | .LINE_CNT_AIS_SAT => BitVec.ofNat 32 (v 8 + b.sat * 65536)
  | _ => 0

/-- A read of LINE_CNT_SEC selects the newer bank (R225). -/
def State.selLineBank (s : State) (m : Master) (p : Nat) : State :=
  s.setLatch m (RegKind.LINE_CNT_SEC.addr p 0) (if (s.line p).newer then 2 else 1)

end Sys2Proof.Machine
end

