-- ==== Sys2Proof/Machine/Trunk.lean ====
section
/-!
DEFINITION. Machine/Trunk.lean: the trunk links (spec/06): the Jenmeord frame and its scrambler, defects, overhead
filters, the receive buffer, 1+1 pairs, transmit and counters.
-/
namespace Sys2Proof.Machine

def State.trunk (s : State) (t : Nat) : Trunk := tabGet (fun _ => Trunk.init) s.trunks t
def State.setTrunk (s : State) (t : Nat) (x : Trunk) : State :=
  { s with trunks := tabPut (fun _ => Trunk.init) s.trunks t x }
def State.pair (s : State) (k : Nat) : Pair := tabGet (fun _ => Pair.init) s.pairs k
def State.setPair (s : State) (k : Nat) (x : Pair) : State :=
  { s with pairs := tabPut (fun _ => Pair.init) s.pairs k x }

def State.trunkCount (s : State) (t i n : Nat) : State :=
  if n = 0 then s else s.setTrunk t { s.trunk t with cnt := bumpAt (s.trunk t).cnt i n }

/-- Widths of the counters of R276. -/
def trunkWidths : List Nat := [32, 32, 16, 16, 16, 16, 16, 8, 8]

/-- Set or clear defect `k`: LOS, LOF, LOMF, TIM, SD, DD_FAULT (R250). -/
def State.trunkDef (s : State) (t k : Nat) (b : Bool) : State :=
  let w := s.reg .TRK_STATUS t
  let x := s.trunk t
  if b then
    (s.setReg .TRK_STATUS (w ||| BitVec.ofNat 32 (0x101 <<< k)) t).setTrunk t
      { x with seen := x.seen ||| (if k ≤ 2 then BitVec.ofNat 3 (1 <<< k) else 0), chg := x.chg || !(w.getLsbD k) }
  else (s.setReg .TRK_STATUS (w &&& ~~~(BitVec.ofNat 32 (1 <<< k))) t).setTrunk t { x with chg := x.chg || w.getLsbD k }

def State.trunkDefect (s : State) (t k : Nat) : Bool := (s.reg .TRK_STATUS t).getLsbD k

/-- Event `i` of a trunk (R278). -/
def State.trunkEvt (s : State) (t i : Nat) : State := s.raise (512 + 16 * t + i)

/-! ### The frame and its scrambler -/

def faw : List Bool := listOfBits (0x1F356A4C : BitVec 32)

/-- s(k) of R238, `n` bits from the state h of the 15 bits before, newest first. -/
def scramble : Nat → List Bool → List Bool → List Bool
  | 0, _, _ => []
  | _, _, [] => []
  | n + 1, h, b :: t =>
    let x := xor (h.getD 13 true) (h.getD 14 true)
    xor b x :: scramble n ((x :: h).take 15) t

/-- Scramble or descramble the bits of bytes 4 to 2047: the first 15 bits of the sequence are 1 (R238, R239). -/
def scrambled (bs : List Bool) : List Bool :=
  (bs.take 15).map (! ·) ++ scramble (bs.length - 15) (List.replicate 15 true) (bs.drop 15)

/-- The exclusive-OR of the 16-bit words of a frame (R240). -/
def bip16 : Nat → List Bool → BitVec 16 → BitVec 16
  | 0, _, a => a
  | n + 1, bs, a => bip16 n (bs.drop 16) (a ^^^ BitVec.ofNat 16
      ((bs.take 16).foldl (fun x b => 2 * x + if b then 1 else 0) 0))

def bytesOfBits : Nat → List Bool → List Byte
  | 0, _ => []
  | n + 1, bs => byteOf (bs.take 8) :: bytesOfBits n (bs.drop 8)

/-- Differing bits of the first 32 bits against the FAW. -/
def fawDiff (bs : List Bool) : Nat := ((faw.zip bs).filter fun e => e.1 != e.2).length

/-- Search for the FAW (R251): bits to give up, and whether alignment is found there. -/
def fawSearch : Nat → List Bool → Nat → Nat × Bool
  | 0, _, k => (k, false)
  | fuel + 1, bs, k =>
    if bs.length < 32 then (k, false)
    else if fawDiff bs = 0 then
      let f1 := bs.drop 16384
      let f2 := bs.drop 32768
      if f1.length < 32 then (k, false)
      else if fawDiff f1 ≤ 1 then
        if f2.length < 32 then (k, false)
        else if fawDiff f2 ≤ 1 then (k, true)
        else fawSearch fuel (bs.drop 1) (k + 1)
      else fawSearch fuel (bs.drop 1) (k + 1)
    else fawSearch fuel (bs.drop 1) (k + 1)

/-- A received frame's bytes after descrambling. -/
def descramble (bs : List Bool) : List Byte := bytesOfBits 2048 (bs.take 32 ++ scrambled (bs.drop 32))

/-! ### Receive -/

/-- Four bytes of a trace register pair as a list (R277): position 4i + j in bits 8j + 7:8j. -/
def traceBytes (get : Nat → Word) : List Byte :=
  [0, 1, 2, 3].flatMap fun i => [0, 1, 2, 3].map fun j => BitVec.ofNat 8 (fieldOf (get i) (8 * j) 8)

def State.setTrace (s : State) (t : Nat) (bs : List Byte) : State :=
  [0, 1, 2, 3].foldl (fun s i =>
    s.setReg .TRK_RX_TRACE (BitVec.ofNat 32 (leNat ((bs.drop (4 * i)).take 4))) t i) s

/-- TIM follows the accepted trace (R250), which reads 0 until one is accepted. -/
def State.trunkTim (s : State) (t : Nat) : State :=
  let x := s.trunk t
  let en := x.rxCfg.getLsbD 16
  let same := decide (traceBytes (fun i => s.reg .TRK_RX_TRACE t i) = x.expTr)
  if s.trunkDefect t 3 then (if !en || same then s.trunkDef t 3 false else s)
  else if en && !same && !(s.trunkDefect t 2) then s.trunkDef t 3 true else s

/-- Declare LOF, and LOMF with it (R250). The overhead filters start over (R105, R245, R246). -/
def State.trunkLof (s : State) (t : Nat) : State :=
  let s1 := (s.sourceLost 1 t).setTrunk t { s.trunk t with
    aligned := false, fawBad := 0, fnPrev := none, fnBad := 0, fnGood := 0, bip := none, qlN := 0, pcN := 0, trN := 0
    trPart := [] }
  (s1.trunkDef t 1 true).trunkDef t 2 true

/-- The FN of an aligned frame (R250: LOMF), and the frame's place in its multiframe: that of an FN which follows on the
one before, and else the next place, so that an FN in error moves nothing (log entry 79). -/
def State.trunkFn (s : State) (t : Nat) (fn : Byte) : State :=
  let x := s.trunk t
  match x.fnPrev with
  | none => s.setTrunk t { x with fnPrev := some fn, mfPos := fn.toNat % 16 }
  | some p =>
    let good := decide (fn = p + 1)
    let x := { x with
      mfPos := if good then fn.toNat % 16 else (x.mfPos + 1) % 16
      fnPrev := some fn, fnBad := if good then 0 else x.fnBad + 1, fnGood := if good then x.fnGood + 1 else 0 }
    let s1 := s.setTrunk t x
    if s.trunkDefect t 2 then (if x.fnGood ≥ 2 then s1.trunkDef t 2 false else s1)
    else if x.fnBad ≥ 3 then (s1.setTrunk t { x with trN := 0, trPart := [] }).trunkDef t 2 true else s1

/-- QL, protection channel and REI of an aligned frame (R243, R245, R246). -/
def State.trunkOverhead (s : State) (t : Nat) (bytes : List Byte) : State :=
  let x := s.trunk t
  let ql := fieldOf ((bytes.getD 5 0).setWidth 32) 0 4
  let pc := (bytes.getD 6 0) ++ (bytes.getD 7 0)
  let rei := (bytes.getD 11 0).toNat
  let qlN := if x.qlN > 0 ∧ x.qlC = ql then min 3 (x.qlN + 1) else 1
  let pcN := if x.pcN > 0 ∧ x.pcC = pc then min 3 (x.pcN + 1) else 1
  let s1 := s.setTrunk t { x with qlC := ql, qlN := qlN, pcC := pc, pcN := pcN }
  let s2 := if qlN = 3 ∧ s.f F.TRK_RX_OH_QL t ≠ ql then (s1.setF F.TRK_RX_OH_QL ql t).trunkEvt t 1 else s1
  let old := s.f F.TRK_RX_OH_PC1 t * 256 + s.f F.TRK_RX_OH_PC2 t
  let s3 := if pcN = 3 ∧ old ≠ pc.toNat then
      ((s2.setF F.TRK_RX_OH_PC1 (pc.toNat / 256) t).setF F.TRK_RX_OH_PC2 (pc.toNat % 256) t).trunkEvt t 2 else s2
  let s4 := (s3.setF F.TRK_RX_OH_REI_LAST rei t).trunkCount t 1 (if rei ≤ 16 then rei else 0)
  s4.sourceQl 1 t 0 ql

/-- The trace byte of an aligned frame (R248). A multiframe without a whole trace ends a succession. -/
def State.trunkTrace (s : State) (t : Nat) (b : Byte) : State :=
  let x := s.trunk t
  if s.trunkDefect t 2 then s
  else if x.mfPos = 0 then s.setTrunk t { x with trPart := [b], trN := if x.trPart = [] then x.trN else 0 }
  else if x.trPart.length ≠ x.mfPos then s.setTrunk t { x with trPart := [], trN := 0 }
  else
    let part := x.trPart ++ [b]
    if part.length = 16 then
      let n := if x.trN > 0 ∧ x.trC = part then min 3 (x.trN + 1) else 1
      let s1 := s.setTrunk t { x with trPart := [], trC := part, trN := n }
      if n = 3 ∧ traceBytes (fun i => s.reg .TRK_RX_TRACE t i) ≠ part then (s1.setTrace t part).trunkEvt t 3 else s1
    else s.setTrunk t { x with trPart := part }

/-- Put a complete frame into the 20-frame buffer (R255). -/
def State.trunkBuffer (s : State) (t : Nat) (bytes : List Byte) : State :=
  s.setTrunk t { s.trunk t with buf := (⟨bytes.getD 4 0, bytes⟩ :: (s.trunk t).buf).take 20 }

/-- One aligned frame of 16,384 bits (R241, R243, R245 to R252). Answers whether alignment was kept. -/
def State.trunkFrame (s : State) (t : Nat) (bs : List Bool) : State × Bool :=
  let x := s.trunk t
  let d := fawDiff bs
  let s1 := s.trunkCount t 2 (if d ≥ 1 then 1 else 0)
  let bad := if d ≥ 2 then x.fawBad + 1 else 0
  if bad ≥ 4 then (s1.trunkLof t, false)
  else
    let bytes := descramble bs
    let fn := bytes.getD 4 0
    let sent := (bytes.getD 9 0) ++ (bytes.getD 10 0)
    let errs := match x.bip with
      | some v => ones ((v ^^^ sent).setWidth 32)
      | none => 0
    let s2 := (s1.trunkCount t 0 errs).trunkBuffer t bytes
    let s3 := s2.setTrunk t { s2.trunk t with fawBad := bad, bip := some (bip16 1024 bs 0), sdErr := x.sdErr + errs }
    ((((s3.trunkFn t fn).trunkOverhead t bytes).trunkTrace t (bytes.getD 8 0)).trunkTim t, true)

/-- Frame alignment is found (R251, R257): the two frames that showed it are in the buffer. -/
def State.trunkFound (s : State) (t : Nat) (f0 f1 : List Bool) : State :=
  let s1 := (s.trunkBuffer t (descramble f0)).trunkBuffer t (descramble f1)
  (s1.setTrunk t { s1.trunk t with aligned := true, recentre := true, fawBad := 0 }).trunkDef t 1 false

/-- Use up the receiver's bits. -/
def State.trunkFramer (s : State) (t : Nat) (err : Int) : Nat → State
  | 0 => s
  | fuel + 1 =>
    let x := s.trunk t
    if x.aligned then
      if x.fb.length < 16384 then s
      else
        let bs := x.fb.take 16384
        let rest := x.fb.drop 16384
        let r := ((s.setTrunk t { x with fb := rest }).sourceMarker 1 t err).trunkFrame t bs
        let s1 := if r.2 then r.1 else r.1.setTrunk t { r.1.trunk t with fb := bs.drop 1 ++ rest }
        s1.trunkFramer t err fuel
    else
      let r := fawSearch x.fb.length x.fb 0
      let fb := x.fb.drop r.1
      if r.2 then
        ((s.setTrunk t { x with fb := fb.drop 32768 }).trunkFound t (fb.take 16384)
          ((fb.drop 16384).take 16384)).trunkFramer t err fuel
      else s.setTrunk t { x with fb := fb }

def State.trunkBits (s : State) (t : Nat) (bs : List Bool) (err : Int) : State :=
  (s.setTrunk t { s.trunk t with fb := (s.trunk t).fb ++ bs, phase := err }).trunkFramer t err 5

/-- TRUNK_FRAME_RECEIVED: 16,384 received bits, the first as bit 16,383. -/
def State.trunkReceive (s : State) (t : Nat) (bits : BitVec 16384) (err : Int) : State :=
  if (s.trunk t).on && s.fabUp then
    let bs := listOfBits bits
    match s.fa F.TRK_CTL_LOOP t with
    | 1 => s
    | 2 => (s.setTrunk t { s.trunk t with raw := ((s.trunk t).raw ++ bs).take 49152 }).trunkBits t bs err
    | _ => s.trunkBits t bs err
  else s

/-- TRUNK_LOS_DECLARE (R250). -/
def State.trunkLosDeclare (s : State) (t quiet : Nat) (ppm : Int) : State :=
  if (s.trunk t).on && s.fabUp && !(s.trunkDefect t 0) && (decide (quiet ≥ 256) || decide (ppm.natAbs > 500)) then
    (s.trunkDef t 0 true).trunkLof t
  else s

/-- TRUNK_LOS_CLEAR (R250, R257): in one whole 16,384-bit period the longest stretch without a transition was `quiet`
bits, so that below 256 every window of 256 bits holds one. -/
def State.trunkLosClear (s : State) (t : Nat) (ppm : Int) (quiet : Nat) : State :=
  if (s.trunk t).on && s.fabUp && s.trunkDefect t 0 && decide (ppm.natAbs ≤ 500) && decide (quiet < 256) then
    let s1 := s.trunkDef t 0 false
    s1.setTrunk t { s1.trunk t with recentre := true }
  else s

/-! ### The receive buffer and pairs at a frame boundary -/

/-- e of a trunk against a frame number, taken in −128 to 127, plus 1 (R255). -/
def delayOf (newest p : Byte) : Int := (newest - p).toInt + 1

/-- The bytes of the frame numbered `p`; a place that holds no such frame gives free bytes (log entry 3). -/
def State.takeFrame (s : State) (t : Nat) (p : Byte) : List Byte :=
  match (s.trunk t).buf.find? fun f => f.fn = p with
  | some f => f.bytes
  | none => (List.range 2048).map fun i => s.outFree 10 (2048 * t + i)

def State.deliver (s : State) (t : Nat) (p : Byte) : State :=
  s.setTrunk t { s.trunk t with cur := s.takeFrame t p }

/-- A slip of a trunk: counter 7 repetition, 8 deletion. -/
def State.trunkSlipped (s : State) (t i : Nat) : State := (s.trunkCount t i 1).trunkEvt t 4

/-- An unpaired trunk at a boundary (R255 to R257). -/
def State.trunkUnpaired (s : State) (t : Nat) : State :=
  let x := s.trunk t
  match x.buf with
  | [] => s
  | f :: _ =>
    if x.recentre then
      let p := f.fn - 1
      (s.setTrunk t { x with recentre := false, p := p, d := 2 }).deliver t p
    else
      let d := delayOf f.fn (x.p + 1)
      if d < 1 then (s.setTrunk t { x with d := d + 1 }).trunkSlipped t 7
      else if d > 4 then
        ((s.setTrunk t { x with p := x.p + 2, d := d - 1 }).deliver t (x.p + 2)).trunkSlipped t 8
      else (s.setTrunk t { x with p := x.p + 1, d := d }).deliver t (x.p + 1)

/-- The delay of a member against P, where it is frame aligned. -/
def State.memberDelay (s : State) (t : Nat) (p : Byte) : Option Int :=
  let x := s.trunk t
  match x.buf with
  | f :: _ => if x.aligned then some (delayOf f.fn p) else none
  | [] => none

/-- Is a delay within the buffer (R260)? -/
def inRange (d : Option Int) : Bool :=
  match d with
  | some x => decide (1 ≤ x ∧ x ≤ 20)
  | none => false

/-- The frame number at which a pair recentres on the later of its frame-aligned members (R263). -/
def recentreP (p : Byte) (d0 d1 : Option Int) : Option Byte :=
  match d0, d1 with
  | some a, some b => some (p + BitVec.ofInt 8 (min a b - 2))
  | some a, none => some (p + BitVec.ofInt 8 (a - 2))
  | none, some b => some (p + BitVec.ofInt 8 (b - 2))
  | none, none => none

/-- D of a pair whose members `a0` and `a1` count as aligned (R262). -/
def Pair.dOf (x : Pair) (a0 a1 : Bool) (d0 d1 : Option Int) : Option Int :=
  match a0, a1 with
  | true, true => some (min (d0.getD 0) (d1.getD 0))
  | true, false => some (d0.getD 0 - (if x.recorded && x.oddLate then x.delta else 0))
  | false, true => some (d1.getD 0 - (if x.recorded && !x.oddLate then x.delta else 0))
  | false, false => none

/-- What a boundary does to P: the new P, whether it moved (a frame is delivered), and the slip counter (R262, R264). A
member that was aligned counts with the delay that it would have, out of range too: that is what makes the pair slip.
The hold of R264 goes on while the member that carries the traffic stays in 1 to 20. -/
def State.pairMove (s : State) (k : Nat) : Pair × Bool × Option Nat :=
  let x := s.pair k
  let e := 2 * k
  let h0 := s.memberDelay e x.p
  let h1 := s.memberDelay (e + 1) x.p
  let n0 := s.memberDelay e (x.p + 1)
  let n1 := s.memberDelay (e + 1) (x.p + 1)
  let becomes := (h0.isSome && !x.fr0) || (h1.isSome && !x.fr1)
  if x.recentre ∨ (!x.al0 ∧ !x.al1 ∧ becomes) then
    match recentreP x.p h0 h1 with
    | some p => ({ x with p := p, recentre := false, recorded := false, delta := 0, gaveUp := false }, true, none)
    | none => ({ x with p := x.p + 1 }, true, none)
  else if x.wait ∧ inRange (if x.al0 then h0 else h1) ∧ h0.isSome ∧ h1.isSome then (x, false, some 7)
  else
    let x := if x.wait && h0.isSome && h1.isSome then { x with gaveUp := true } else x
    match x.dOf (inRange n0 || (x.al0 && n0.isSome)) (inRange n1 || (x.al1 && n1.isSome)) n0 n1 with
    | none => ({ x with p := x.p + 1 }, true, none)
    | some d =>
      if d < 1 then (x, false, some 7)
      else if d > 4 then ({ x with p := x.p + 2 }, true, some 8)
      else ({ x with p := x.p + 1 }, true, none)

/-- A member of a pair after P is settled (R260). -/
def State.pairMember (s : State) (t : Nat) (p : Byte) (moved aligned : Bool) (d : Option Int) (slip : Option Nat) :
    State :=
  let s1 := s.setTrunk t { s.trunk t with p := p, d := d.getD 0 }
  let s2 := s1.trunkDef t 5 (!aligned)
  if aligned then
    let s3 := match slip with
      | some i => s2.trunkSlipped t i
      | none => s2
    if moved || decide ((s.trunk t).cur = []) then s3.deliver t p else s3
  else s2.setTrunk t { s2.trunk t with cur := [] }

/-- A formed pair at a boundary (R260 to R265). -/
def State.pairFrame (s : State) (k : Nat) : State :=
  let e := 2 * k
  let r := s.pairMove k
  let d0 := s.memberDelay e r.1.p
  let d1 := s.memberDelay (e + 1) r.1.p
  let a0 := inRange d0
  let a1 := inRange d1
  let both := a0 && a1
  let delta := (d0.getD 0 - d1.getD 0).natAbs
  let late := fun (d : Option Int) => match d with
    | some x => decide (x < 1)
    | none => false
  let x := { r.1 with
    delta := if both then delta else r.1.delta
    recorded := r.1.recorded || both
    oddLate := if both then decide (d0.getD 0 > d1.getD 0) else r.1.oddLate
    fr0 := d0.isSome, fr1 := d1.isSome, al0 := a0, al1 := a1
    wait := !r.1.recorded && !both && !r.1.gaveUp && ((a0 && late d1) || (a1 && late d0)) }
  let x := { x with d := (x.dOf a0 a1 d0 d1).getD x.d }
  let s1 := s.setPair k x
  let s2 := (s1.pairMember e x.p r.2.1 a0 d0 (if r.1.al0 then r.2.2 else none)).pairMember (e + 1) x.p r.2.1 a1 d1
    (if r.1.al1 then r.2.2 else none)
  [e, e + 1].foldl (fun s t =>
    (((s.setB F.TRK_PAIR_STATUS_ALIGN_EVEN (a0 && decide (t = e)) t).setB F.TRK_PAIR_STATUS_ALIGN_ODD a1 t).setF
      F.TRK_PAIR_STATUS_DELTA x.delta t).setF F.TRK_PAIR_STATUS_D x.d.toNat t) s2

/-- Form or end a pair as PAIR and the members' start say (R259, R263, R271). -/
def State.pairSync (s : State) (k : Nat) : State :=
  let e := 2 * k
  let want := s.ba F.TRK_CTL_PAIR e && (s.trunk e).on && (s.trunk (e + 1)).on
  let x := s.pair k
  if want && !x.formed then s.setPair k { Pair.init with formed := true, recentre := true, p := (s.trunk e).p }
  else if !want && x.formed then
    [e, e + 1].foldl (fun s t =>
      let s1 := if (s.trunk t).on then s.setTrunk t { s.trunk t with recentre := true } else s
      ((s1.trunkDef t 5 false).setF F.TRK_PAIR_STATUS_ALIGN_EVEN 0 t).setF F.TRK_PAIR_STATUS_ALIGN_ODD 0 t)
      (s.setPair k Pair.init)
  else s

/-! ### Transmit (R237 to R249) -/

def State.traceOf (s : State) (t : Nat) : List Byte :=
  traceBytes fun i => s.act .TRK_TX_TRACE t i

/-- The frame a trunk transmits in frame `f` with these DCC bytes, and the state after it. -/
def State.trunkTxFrame (s : State) (t f : Nat) (dcc : List Byte) : List Bool × State :=
  let x := s.trunk t
  let trace := x.trace
  let debit := s.f F.TRK_REI_DEBIT_DEBIT t
  let rei := min debit 16
  let oh := fun g => BitVec.ofNat 8 (s.fa g t)
  let head : List Byte := [BitVec.ofNat 8 f, oh F.TRK_TX_OH_QL, oh F.TRK_TX_OH_PC1, oh F.TRK_TX_OH_PC2,
    trace.getD (f % 16) 0, BitVec.ofNat 8 (x.txBip.toNat / 256), BitVec.ofNat 8 x.txBip.toNat, BitVec.ofNat 8 rei]
  let payload := (List.range 2016).map fun i => s.outByte (4096 + 2016 * t + i)
  let bits := faw ++ scrambled ((head ++ fit 8 dcc ++ List.replicate 12 0 ++ payload).flatMap bitsOf)
  (bits, s.setF F.TRK_REI_DEBIT_DEBIT (debit - rei) t)
where
  /-- Cut or pad to a length. -/
  fit (n : Nat) (bs : List Byte) : List Byte := (bs ++ List.replicate (n - bs.length) 0x7E).take n

/-- The trace that has been committed goes out from the first multiframe on, whatever the trunk sends meanwhile
(R247). -/
def State.traceTake (s : State) (t f : Nat) : State :=
  if f % 16 = 0 then s.setTrunk t { s.trunk t with trace := s.traceOf t } else s

/-- What a trunk drives in the frame that ended: a stopped one a steady logic 0 (R269). -/
def State.trunkDrives (s : State) (t : Nat) : List Bool :=
  if (s.trunk t).on then (s.trunk t).txBits else List.replicate 16384 false

/-- What a trunk does for the frame that ends: running, it transmits, and feeds a local loop (R272). -/
def State.trunkEnd (s : State) (t : Nat) (dcc : List Byte) : State :=
  let s := s.traceTake t s.frame.toNat
  if (s.trunk t).on then
    let r := if s.fa F.TRK_CTL_LOOP t = 2 then
        let raw := (s.trunk t).raw
        (raw.take 16384 ++ List.replicate (16384 - (raw.take 16384).length) false,
          s.setTrunk t { s.trunk t with raw := raw.drop 16384 })
      else s.trunkTxFrame t s.frame.toNat dcc
    let x := r.2.trunk t
    let s1 := r.2.setTrunk t { x with txBits := r.1, txBip := bip16 1024 r.1 0 }
    if s.fa F.TRK_CTL_LOOP t = 1 then s1.trunkBits t r.1 x.phase else s1
  else s

/-- SD at the end of a superframe (R250, R276). -/
def State.trunkSd (s : State) (t : Nat) : State :=
  let x := s.trunk t
  let thr := fieldOf x.rxCfg 0 16
  let bad := decide (thr ≠ 0 ∧ x.sdErr ≥ thr)
  let good := if thr ≠ 0 ∧ x.sdErr < thr then x.sdGood + 1 else 0
  let s1 := s.trunkCount t 3 (if x.sdSeen || s.trunkDefect t 4 then 1 else 0)
  let s2 := s1.setTrunk t { s1.trunk t with sdErr := 0, sdGood := good, sdSeen := false }
  if bad then s2.trunkDef t 4 true else if good ≥ 8 then s2.trunkDef t 4 false else s2

/-- What a running trunk does at the boundary that begins a frame, its delivery apart. -/
def State.trunkBegin (s : State) (t : Nat) : State :=
  let x := s.trunk t
  let s0 := s.setTrunk t { x with
    rxCfg := s.reg .TRK_RX_CFG t, expTr := traceBytes fun i => s.reg .TRK_EXP_TRACE t i }
  if x.on then
    let s1 := (if s.frame.toNat % 16 = 0 then s0.trunkSd t else s0).trunkTim t
    [(4, 0), (5, 1), (6, 2)].foldl (fun s e => s.trunkCount t e.1 (if x.seen.getLsbD e.2 then 1 else 0)) s1
  else s0

/-- The defect-state event (R253), after delivery. -/
def State.trunkReport (s : State) (t : Nat) : State :=
  let x := s.trunk t
  if x.on then
    let s1 := s.setTrunk t { x with chg := false, seen := (s.reg .TRK_STATUS t).setWidth 3 }
    if x.chg then s1.trunkEvt t 0 else s1
  else s

/-- TRK_RX_PHASE after delivery: DELAY is 0 unless the trunk is aligned, to its pair if it has one (R260, R277). -/
def State.trunkPhase (s : State) (t : Nat) : State :=
  let x := s.trunk t
  if x.on then
    let p := s.pair (t / 2)
    let al := x.aligned && (!p.formed || (if t % 2 = 0 then p.al0 else p.al1))
    let s1 := s.setF F.TRK_RX_PHASE_DELAY (if al then min 31 x.d.toNat else 0) t
    if s.frame.toNat % 16 = 0 ∧ x.cur ≠ [] then
      s1.setF F.TRK_RX_PHASE_MF_OFFSET ((x.cur.getD 4 0).toNat % 16) t else s1
  else s

/-- The trunks of pair `k` deliver at a boundary, paired or each for itself. -/
def State.trunksDeliver (s : State) (k : Nat) : State :=
  let ts := [2 * k, 2 * k + 1]
  let s1 := if (s.pair k).formed then s.pairFrame k
    else ts.foldl (fun s t => if (s.trunk t).on then s.trunkUnpaired t else s) s
  ts.foldl State.trunkPhase s1

/-- A change of EN, PAIR or LOOP. -/
def trunkModeChange (old new : Word) : Bool := decide ((old ^^^ new) &&& 0xF ≠ 0)

/-- A commit that applies at this boundary changes the mode of a trunk of pair `k`. -/
def State.trunkWillChange (s : State) (k : Nat) : Bool :=
  [2 * k, 2 * k + 1].any fun t => trunkModeChange (s.act .TRK_CTL t) (s.actSoon .TRK_CTL t)

/-- All trunks at the boundary that begins a frame. Where a commit changes EN, PAIR or LOOP from this frame on, the
trunk and its partner deliver as the commit applies (R27, R271). -/
def State.trunksBegin (s : State) : State :=
  let s1 := [0, 1, 2, 3].foldl State.trunkBegin s
  let s2 := [0, 1].foldl (fun s k => if s.trunkWillChange k then s else s.trunksDeliver k) s1
  [0, 1, 2, 3].foldl State.trunkReport s2

/-! ### Starting and stopping -/

/-- A trunk starts, or starts afresh (R270), with LOF and LOMF. A change of its defects counts. -/
def State.trunkStart (s : State) (t : Nat) : State :=
  let x := s.trunk t
  let old := s.reg .TRK_STATUS t
  let s1 := (s.sourceLost 1 t).setTrunk t { Trunk.init with
    on := true, recentre := true, rxCfg := x.rxCfg, expTr := x.expTr, chg := x.chg || decide (old &&& 0x3F ≠ 6)
    seen := x.seen ||| 6, sdSeen := x.sdSeen || old.getLsbD 4, cnt := x.cnt, bank0 := x.bank0, bank1 := x.bank1
    newer := x.newer, trace := x.trace }
  s1.setReg .TRK_STATUS ((old &&& 0xFFFFFFC0) ||| 0x606) t

/-- A trunk stops (R269). -/
def State.trunkStop (s : State) (t : Nat) : State :=
  let s1 := s.setTrunk t { s.trunk t with
    on := false, chg := false, seen := 0, sdSeen := false, cur := [], txBits := [], raw := [] }
  (s1.setReg .TRK_STATUS (s1.reg .TRK_STATUS t &&& 0xFFFFFFC0) t).setF F.TRK_RX_PHASE_DELAY 0 t

/-- The trunk domain powers off (R273). -/
def State.trunkOff (s : State) (t : Nat) : State :=
  let x := s.trunk t
  let s1 := s.setTrunk t { Trunk.init with
    rxCfg := x.rxCfg, expTr := x.expTr, bank0 := x.bank0, bank1 := x.bank1, newer := x.newer, trace := x.trace }
  let s2 := (([0, 1, 2, 3].foldl (fun s i => s.setReg .TRK_RX_TRACE 0 t i) s1).setReg .TRK_STATUS 0 t).setReg .TRK_RX_OH 0 t
  ((s2.setReg .TRK_REI_DEBIT 0 t).setReg .TRK_PAIR_STATUS 0 t).setReg .TRK_RX_PHASE 0 t

def State.trunkMay (s : State) (t : Nat) : Bool := s.domRun 16 && s.ba F.TRK_CTL_EN t

def State.trunkSync (s : State) (t : Nat) : State :=
  if s.trunkMay t && !(s.trunk t).on then s.trunkStart t
  else if !(s.trunkMay t) && (s.trunk t).on then s.trunkStop t
  else s

/-- A commit replaced the active TRK_CTL of a trunk (R269 to R272). -/
def State.trunkCtlApplied (s : State) (t : Nat) (old : Word) : State :=
  let new := s.act .TRK_CTL t
  let s1 := s.trunkSync t
  let s2 := if (old ^^^ new) &&& 0xC ≠ 0 then
      s1.setTrunk t { s1.trunk t with recentre := true, raw := [] } else s1
  let k := t / 2
  let s3 := s2.pairSync k
  if (old ^^^ new) &&& 0xC ≠ 0 ∧ (s3.pair k).formed then s3.setPair k { s3.pair k with recentre := true } else s3

/-- A commit applied TRK_TX_REI (R242); trunks whose domain carries no traffic keep no debit (R273, R652). -/
def State.trunkReiApplied (s : State) (t : Nat) : State :=
  if s.domRun 16 then
    s.setF F.TRK_REI_DEBIT_DEBIT (min 65535 (s.f F.TRK_REI_DEBIT_DEBIT t + s.fa F.TRK_TX_REI_REI_DEBT t)) t
  else s

def State.trunkSecond (s : State) (sec : Word) (t : Nat) : State :=
  let x := s.trunk t
  let b := latchBank trunkWidths sec x.cnt
  s.setTrunk t (if x.newer then { x with bank0 := b, newer := false, cnt := [] }
    else { x with bank1 := b, newer := true, cnt := [] })

/-- A counter register of a trunk as a master reads it (R275). -/
def State.readTrunkCnt (s : State) (m : Master) (k : RegKind) (t : Nat) : Word :=
  let x := s.trunk t
  let b := bankOf (s.latch m (RegKind.TRK_CNT_SEC.addr t 0)) x.newer x.bank0 x.bank1
  let v := fun i => b.vals.getD i 0
  match k with
  | .TRK_CNT_SEC => (if x.newer then x.bank1 else x.bank0).sec
  | .TRK_CNT_BIP => BitVec.ofNat 32 (v 0)
  | .TRK_CNT_REI => BitVec.ofNat 32 (v 1)
  | .TRK_CNT_FAW_SD => BitVec.ofNat 32 (v 2 + v 3 * 65536)
  | .TRK_CNT_LOS_LOF => BitVec.ofNat 32 (v 4 + v 5 * 65536)
  | .TRK_CNT_LOMF_SLIP => BitVec.ofNat 32 (v 6 + v 7 * 65536 + v 8 * 16777216)
  | .TRK_CNT_SAT => BitVec.ofNat 32 b.sat
  | _ => 0

def State.selTrunkBank (s : State) (m : Master) (t : Nat) : State :=
  s.setLatch m (RegKind.TRK_CNT_SEC.addr t 0) (if (s.trunk t).newer then 2 else 1)

/-- The input bytes that lines and trunks present in the current frame; 0xFF where nothing is delivered (R145). -/
def State.linkByte (s : State) (n : Nat) : Byte :=
  if n < 4096 then (s.line (n / 32)).cur.bytes.getD (n % 32) 0xFF
  else (s.trunk ((n - 4096) / 2016)).cur.getD (32 + (n - 4096) % 2016) 0xFF

end Sys2Proof.Machine
end

