-- ==== Sys2Proof/Machine/Hdlc.lean ====
section
/-!
DEFINITION. Machine/Hdlc.lean: the in-band management channels (spec/08): binding, flags and bit stuffing, frame
checks, queue entries in both directions, enabling and disabling.
-/
namespace Sys2Proof.Machine

def State.hd (s : State) (c : Nat) : Hdlc := tabGet (fun _ => Hdlc.init) s.hdlc c
def State.setHd (s : State) (c : Nat) (h : Hdlc) : State :=
  { s with hdlc := tabPut (fun _ => Hdlc.init) s.hdlc c h }

/-! ### Binding (R319, R320) -/

def Hdlc.bind (h : Hdlc) : Bool := h.cfg.getLsbD 1
def Hdlc.trunkOf (h : Hdlc) : Nat := fieldOf h.cfg 2 2
def Hdlc.base (h : Hdlc) : Nat := fieldOf h.cfg 14 10
def Hdlc.count (h : Hdlc) : Nat := fieldOf h.cfg 24 5 + 1
def Hdlc.fcsLen (h : Hdlc) : Nat := if h.cfg.getLsbD 4 then 4 else 2
def Hdlc.rxq (h : Hdlc) : Nat := fieldOf h.que 0 14
def Hdlc.txq (h : Hdlc) : Nat := fieldOf h.que 16 14
/-- R334. -/
def Hdlc.maxLen (h : Hdlc) : Nat := if fieldOf h.lim 0 12 = 0 then 2048 else fieldOf h.lim 0 12

/-- Bytes a channel carries in each direction in a frame. -/
def Hdlc.bytes (h : Hdlc) : Nat := if h.bind then 8 else h.count

/-- The bytes a running channel receives in the frame that ends. -/
def State.hdlcRxBytes (s : State) (h : Hdlc) : List Byte :=
  if h.bind then (List.range 8).map fun i => (s.trunk h.trunkOf).cur.getD (12 + i) 0xFF
  else (List.range h.count).map fun i => s.outByte (14208 + h.base + i)

/-! ### Counters and sticky bits (R342, R343) -/

/-- Set a sticky bit of HDLC_CH_STATUS and count; counters that overflow set SAT. -/
def State.hdlcCount (s : State) (c bit : Nat) (f : FieldRef) : State :=
  let new := !((s.reg .HDLC_CH_STATUS c).getLsbD bit)
  let s1 := (s.setBit .HDLC_CH_STATUS bit c).bump f 1 none c
  let s2 := if s.f f c + 1 ≥ 2 ^ f.w then s1.setF F.HDLC_CH_STATUS_SAT 1 c else s1
  let newSat := (s2.b F.HDLC_CH_STATUS_SAT c) && !(s.b F.HDLC_CH_STATUS_SAT c)
  if new || newSat then s2.setHd c { s2.hd c with evt := true } else s2

/-- Count a good frame (R342). -/
def State.hdlcGood (s : State) (c : Nat) (f : FieldRef) : State :=
  let s1 := s.bump f 1 none c
  if s.f f c + 1 ≥ 2 ^ f.w then
    let s2 := s1.setF F.HDLC_CH_STATUS_SAT 1 c
    if s.b F.HDLC_CH_STATUS_SAT c then s2 else s2.setHd c { s2.hd c with evt := true }
  else s1

/-! ### Receive (R323 to R329) -/

/-- The bits that a channel collects: the longest frame and one byte more, and a flag's first seven bits (R324). -/
def Hdlc.cap (h : Hdlc) : Nat := (h.maxLen + h.fcsLen) * 8 + 15

/-- One more bit of a frame; one that is too long is collected no further. -/
def Hdlc.keep (h : Hdlc) (b : Bool) : Hdlc :=
  if h.inFrame then { h with bits := if h.got < h.cap then b :: h.bits else h.bits, got := h.got + 1 } else h

/-- The frame being received ends: it waits for its checks. -/
def Hdlc.close (h : Hdlc) (stamp : Word) (aborted : Bool) : Hdlc :=
  let n := h.got - 7
  let bits := (h.bits.drop (h.bits.length - n)).reverse
  { h with
    inFrame := false, bits := [], got := 0, wrote := 0, lost := false
    done := h.done ++ [⟨bits, n, aborted, stamp, h.lost⟩] }

/-- The channel is between frames, or begins to collect one. -/
def Hdlc.fresh (h : Hdlc) (inFrame : Bool) : Hdlc :=
  { h with inFrame := inFrame, bits := [], got := 0, wrote := 0, lost := false }

/-- One received bit: flags, stuffing, aborts. `bits` stand newest first and hold a flag's first seven bits too. Seven
1s abort a frame; where nothing stands between them and the flag they are an abort too, unless they go on to be idle
(R323, log entry 98). -/
def Hdlc.rxBit (h : Hdlc) (stamp : Word) (b : Bool) : Hdlc :=
  if b then
    let n := min 15 (h.ones + 1)
    let h1 := { h.keep true with ones := n }
    if n = 7 ∧ h.inFrame ∧ 6 < h.got then h1.close stamp true
    else if n = 15 ∧ h.inFrame then h1.fresh false
    else h1
  else
    let h1 := { h with ones := 0 }
    if h.ones = 5 then h1
    else if h.ones = 6 then
      (if h.inFrame ∧ 7 < h.got then h1.close stamp false else h1).fresh true
    else if 7 ≤ h.ones ∧ h.inFrame then h1.close stamp true
    else h1.keep false

/-- Octets of a frame, each low-order bit first (R321). -/
def octets : Nat → List Bool → List Byte
  | 0, _ => []
  | n + 1, bs => BitVec.ofNat 8 ((bs.take 8).foldr (fun b a => 2 * a + if b then 1 else 0) 0) :: octets n (bs.drop 8)

/-- Bits of octets, low-order bit first. -/
def octetBits (bs : List Byte) : List Bool := bs.flatMap fun b => (bitsOf b).reverse

/-- The reflected CRC of ISO/IEC 13239 over bits in the order sent. -/
def crcRefl (poly : BitVec 32) (r : BitVec 32) (bs : List Bool) : BitVec 32 :=
  bs.foldl (fun r b => if xor (r.getLsbD 0) b then (r >>> 1) ^^^ poly else r >>> 1) r

/-- The FCS octets of a frame (R321). -/
def fcsOf (wide : Bool) (data : List Byte) : List Byte :=
  if wide then leBytes 4 (~~~(crcRefl 0xEDB88320 0xFFFFFFFF (octetBits data))).toNat
  else leBytes 2 ((crcRefl 0x8408 0xFFFF (octetBits data)) ^^^ 0xFFFF).toNat

/-- Split data into the parts that entries hold. -/
def chunks (k : Nat) : Nat → List Byte → List (List Byte)
  | 0, _ => []
  | _, [] => []
  | n + 1, bs => bs.take k :: chunks k n (bs.drop k)

/-- A receive entry (R328). -/
def hdlcEntry (c : Nat) (stamp : Word) (first last : Bool) (data : List Byte) : List Byte :=
  leBytes 2 data.length ++ [BitVec.ofNat 8 (first.toNat + 2 * last.toNat), BitVec.ofNat 8 c] ++
    leBytes 4 stamp.toNat ++ data

/-- From a tail shed of the owner until its cores restart, and while the bank of either queue is not on, a channel
counts its frames as NOBUF and finds TXQ empty (R338). -/
def State.hdlcHeld (s : State) (c : Nat) : Bool :=
  let h := s.hd c
  let ring := fun n => let q := s.queue n
    s.pondOn q.base (qDepth q * qEsize q)
  (s.ten (s.f F.HDLC_CH_OWNER_TENANT c)).cut || !(ring h.rxq) || !(ring h.txq)

/-- Entries that RXQ has room for. -/
def State.hdlcRoom (s : State) (c : Nat) : Nat :=
  let q := s.queue (s.hd c).rxq
  if s.hdlcHeld c || !(s.qLive (s.hd c).rxq q) || decide (qEsize q < 16) then 0 else qDepth q - qFill q

/-- Write entries beyond the tail, at position `i` and after, `n` being those of the frame; the Bool says that all could
be written (R325, R479). -/
def State.hdlcWrite (s : State) (c q n : Nat) (stamp : Word) : Nat → List (List Byte) → State × Bool
  | _, [] => (s, true)
  | i, d :: t =>
    let e := hdlcEntry c stamp (i = 0) (i + 1 = n) d
    match s.pondWrite 0x30 2 (qAddr (s.queue q) ((s.queue q).tail + BitVec.ofNat 17 i)) e with
    | (s1, true) => s1.hdlcWrite c q n stamp (i + 1) t
    | (s1, false) => (s1, false)

/-- Bytes of a frame that its entries hold: all of it, or all but the FCS (R329). -/
def Hdlc.dataLen (h : Hdlc) (bits : Nat) : Nat := bits / 8 - if h.cfg.getLsbD 10 then 0 else h.fcsLen

/-- While a frame arrives its full entries are written beyond the tail (R325). Their stamp is not known yet and reads as
a free number. -/
def State.hdlcArrive (s : State) (c : Nat) : State :=
  let h := s.hd c
  let e := qEsize (s.queue h.rxq)
  let data := (octets (h.dataLen (h.got - 7)) h.bits.reverse).take (h.maxLen + h.fcsLen)
  let full := min ((data.length - 1) / (e - 8)) (s.hdlcRoom c)
  if !h.on || !h.inFrame || h.lost || !h.done.isEmpty || decide (full ≤ h.wrote) then s
  else
    let parts := ((chunks (e - 8) data.length data).take full).drop h.wrote
    let r := s.hdlcWrite c h.rxq 0 (BitVec.ofNat 32 (s.outNat 16 c)) h.wrote parts
    r.1.setHd c { h with wrote := full, lost := !r.2 }

/-- Write the entries of a whole frame beyond the tail, as far as there is room; the Bool says that all stand there. -/
def State.hdlcStore (s : State) (c : Nat) (f : HdlcRx) (data : List Byte) : State × Bool :=
  let q := (s.hd c).rxq
  let parts := chunks (qEsize (s.queue q) - 8) data.length data
  let room := s.hdlcRoom c
  if f.lost then (s, false)
  else
    let r := s.hdlcWrite c q parts.length f.stamp 0 (parts.take room)
    (r.1, r.2 && decide (parts.length ≤ room))

/-- Publish a good frame's entries (R325 to R327). -/
def State.hdlcPublish (s : State) (c : Nat) (data : List Byte) : State :=
  let q := (s.hd c).rxq
  let n := (chunks (qEsize (s.queue q) - 8) data.length data).length
  (s.setQueue q { s.queue q with tail := (s.queue q).tail + BitVec.ofNat 17 n }).hdlcGood c F.HDLC_CNT_RX_FRAMES_RX

/-- The checks of R324 on a closed frame, in their order. The entries of a frame that fails stay beyond the tail. -/
def State.hdlcCheck (s : State) (c : Nat) (f : HdlcRx) : State :=
  let h := s.hd c
  let n := f.count / 8
  if f.aborted then s.hdlcCount c 9 F.HDLC_CNT_FCS_ABORT_ABORT
  else if f.count % 8 ≠ 0 then s.hdlcCount c 12 F.HDLC_CNT_ALIGN_NOBUF_ALIGN
  else if n ≤ h.fcsLen then s.hdlcCount c 10 F.HDLC_CNT_SHORT_LONG_SHORT
  else if n > h.maxLen + h.fcsLen then s.hdlcCount c 11 F.HDLC_CNT_SHORT_LONG_LONG
  else
    let all := octets n f.bits
    let data := all.take (n - h.fcsLen)
    let body := all.take (h.dataLen f.count)
    let r := s.hdlcStore c f body
    if fcsOf (h.cfg.getLsbD 4) data ≠ all.drop (n - h.fcsLen) then r.1.hdlcCount c 8 F.HDLC_CNT_FCS_ABORT_FCS_ERR
    else if h.lim.getLsbD 24 ∧ data.headD 0 ≠ BitVec.ofNat 8 (fieldOf h.lim 16 8) ∧ data.headD 0 ≠ 0xFF then r.1
    else if r.2 then r.1.hdlcPublish c body
    else r.1.hdlcCount c 13 F.HDLC_CNT_ALIGN_NOBUF_NOBUF

/-- HDLC_FRAME_RECEIVED: the oldest closed frame is checked and published or discarded. -/
def State.hdlcReceive (s : State) (c : Nat) : State :=
  let h := s.hd c
  match h.done with
  | [] => s
  | f :: t => (s.setHd c { h with done := t }).hdlcCheck c f

/-- Every closed frame is checked. -/
def State.hdlcFlush (s : State) (c : Nat) : State := (s.hd c).done.foldl (fun s _ => s.hdlcReceive c) s

/-! ### Transmit (R330 to R333) -/

def flagBits : List Bool := [false, true, true, true, true, true, true, false]

/-- Insert a 0 after five consecutive 1s (R331). -/
def stuff : List Bool → Nat → List Bool
  | [], _ => []
  | b :: t, n =>
    if b then (if n = 4 then true :: false :: stuff t 0 else true :: stuff t (n + 1))
    else false :: stuff t 0

/-- How a frame in TXQ ends: with LAST, with an ABORT entry, at an unreadable entry, or not yet. -/
inductive TxEnd where
  | last | abort | bad | none
  deriving DecidableEq, Repr

/-- Read the frame's entries from position `i` on: its data, how many entries, and how it ends. -/
def State.hdlcScan (s : State) (q : Nat) : Nat → Nat → State × List Byte × Nat × TxEnd
  | 0, i => (s, [], i, .none)
  | fuel + 1, i =>
    match s.qRead 0x30 q ((s.queue q).head + BitVec.ofNat 17 i) with
    | (s1, none) => (s1, [], i + 1, .bad)
    | (s1, some e) =>
      let fl := e.getD 2 0
      let data := (e.drop 8).take (leNat (e.take 2))
      if fl.getLsbD 2 then (s1, [], i + 1, .abort)
      else if fl.getLsbD 1 then (s1, data, i + 1, .last)
      else
        let r := s1.hdlcScan q fuel (i + 1)
        (r.1, data ++ r.2.1, r.2.2)

/-- Entries from position `i` on before the next with FIRST set (R333). One that cannot be read has none. -/
def State.hdlcSkip (s : State) (q : Nat) : Nat → Nat → State × Nat
  | 0, i => (s, i)
  | fuel + 1, i =>
    match s.qRead 0x30 q ((s.queue q).head + BitVec.ofNat 17 i) with
    | (s1, none) => s1.hdlcSkip q fuel (i + 1)
    | (s1, some e) => if (e.getD 2 0).getLsbD 0 then (s1, i) else s1.hdlcSkip q fuel (i + 1)

/-- Consume `n` entries of TXQ. -/
def State.hdlcConsume (s : State) (q n : Nat) : State := s.qTake q n

def abortBits : List Bool := List.replicate 8 true ++ flagBits

/-- Append a frame to the bits to send: opening flags, the stuffed body and its end. -/
def Hdlc.send (h : Hdlc) (body : List Bool) (aborted : Bool) : Hdlc :=
  let open_ := max (if h.flags = 0 then 1 else 0) (fieldOf h.cfg 6 4 + 1 - h.flags)
  let start := h.txBits ++ (List.replicate open_ flagBits).flatten
  let bits := start ++ stuff body 0 ++ if aborted then abortBits else flagBits
  { h with
    txBits := bits, flags := 1
    frames := if aborted then h.frames else h.frames ++ [(start.length, bits.length)] }

/-- An ABORT entry ends the frame in progress, the last that was taken: what is left of it gives way to eight 1s and a
flag (R333). -/
def Hdlc.cut (h : Hdlc) (start : Nat) : Hdlc :=
  { h with txBits := h.txBits.take start ++ abortBits, flags := 1, frames := h.frames.dropLast }

/-- Entries of TXQ that were there at the boundary that began this frame (R330). -/
def State.hdlcReady (s : State) (c : Nat) : Nat :=
  let h := s.hd c
  let q := s.queue h.txq
  let n := (h.ready - q.head).toNat
  if !h.on || s.hdlcHeld c || s.qNothing h.txq || decide (qFill q < n) then 0 else n

/-- An entry without FIRST at the head of TXQ: ABORT ends the frame in progress, and anything else is consumed up to the
next FIRST (R333). -/
def State.hdlcStray (s : State) (c n : Nat) (abort : Bool) : State :=
  let q := (s.hd c).txq
  match abort, (s.hd c).frames.getLast? with
  | true, some f => (s.hdlcConsume q 1).setHd c ((s.hd c).cut f.1)
  | _, _ =>
    let r := s.hdlcSkip q (n - 1) 1
    (r.1.hdlcConsume q r.2).hdlcCount c 14 F.HDLC_CNT_TXERR_TXERR

/-- HDLC_FRAME_TRANSMIT: the next complete frame of TXQ is taken for transmission. A frame that ends with an ABORT entry
was never complete (R330), so that none of its data is sent (log entry 98). -/
def State.hdlcTransmit (s : State) (c : Nat) : State :=
  let n := s.hdlcReady c
  let q := (s.hd c).txq
  if n = 0 then s
  else
    match s.qRead 0x30 q (s.queue q).head with
    | (s1, none) => ((s1.hdlcConsume q 1).setHd c ((s1.hd c).send [] true)).hdlcCount c 14 F.HDLC_CNT_TXERR_TXERR
    | (s1, some e) =>
      let h := s1.hd c
      if !((e.getD 2 0).getLsbD 0) then s1.hdlcStray c n ((e.getD 2 0).getLsbD 2)
      else
        let r := s1.hdlcScan q n 0
        match r.2.2.2 with
        | .none => r.1
        | .last =>
          let data := r.2.1
          (r.1.hdlcConsume q r.2.2.1).setHd c (h.send (octetBits (data ++ fcsOf (h.cfg.getLsbD 4) data)) false)
        | .abort => (r.1.hdlcConsume q r.2.2.1).setHd c (h.send [] true)
        | .bad =>
          ((r.1.hdlcConsume q r.2.2.1).setHd c (h.send (octetBits r.2.1) true)).hdlcCount c 14 F.HDLC_CNT_TXERR_TXERR

/-! ### The frame boundary -/

/-- Bits to fill up with while no frame waits (R332): the bits, and the flags at the end of the stream. -/
def idleFill (ones_ : Bool) : Nat → List Bool → Nat → List Bool × Nat
  | 0, bs, fl => (bs, fl)
  | k + 1, bs, fl => if ones_ then idleFill ones_ k (bs ++ List.replicate 8 true) 0
    else idleFill ones_ k (bs ++ flagBits) (min 16 (fl + 1))

/-- The bytes a running channel presents in the frame that begins. -/
def Hdlc.txFrame (h : Hdlc) : Hdlc :=
  let need := h.bytes * 8
  let r := idleFill (h.cfg.getLsbD 5) ((need + 7 - h.txBits.length) / 8) h.txBits h.flags
  { h with
    out := bytesOfBits h.bytes (r.1.take need), txBits := r.1.drop need, flags := r.2
    frames := (h.frames.filter fun f => decide (need < f.2)).map fun f => (f.1 - need, f.2 - need) }

/-- A running channel goes on: the frames whose closing flag leaves in the frame that begins are sent (R342), and the
entries that TXQ holds now can be taken in it (R330). -/
def State.hdlcNext (s : State) (c : Nat) (h : Hdlc) : State :=
  let sent := h.frames.filter fun f => decide (f.2 ≤ h.bytes * 8)
  sent.foldl (fun s _ => s.hdlcGood c F.HDLC_CNT_TX_FRAMES_TX)
    (s.setHd c { h.txFrame with ready := (s.queue h.txq).tail })

/-- A running channel takes the bytes of the frame that ends. Frames that closed in the one before are published by then
(R326). -/
def State.hdlcEnd (s : State) (c : Nat) : State :=
  if (s.hd c).on then
    let s1 := s.hdlcFlush c
    let h := s1.hd c
    (s1.setHd c (((s1.hdlcRxBytes h).flatMap bitsOf).foldl (fun h b => h.rxBit s1.frame b) h)).hdlcArrive c
  else s

/-- Channels that run, other than `c`. -/
def State.hdlcOthers (s : State) (c : Nat) : List Hdlc :=
  (s.hdlc.filter fun e => decide (e.1 ≠ c) && e.2.on).map (·.2)

/-- The first failing check of R337, or 0. -/
def State.hdlcCfgErr (s : State) (c : Nat) (h : Hdlc) : Nat :=
  let owner := s.f F.HDLC_CH_OWNER_TENANT c
  let slots := !h.bind && (decide (h.base + h.count > 1024) || (s.hdlcOthers c).any fun o =>
    !o.bind && decide (h.base < o.base + o.count ∧ o.base < h.base + h.count))
  if slots then 1
  else if h.bind && (s.hdlcOthers c).any fun o => o.bind && decide (o.trunkOf = h.trunkOf) then 2
  else if s.queueOwner h.rxq ≠ owner ∨ s.queueOwner h.txq ≠ owner then 3
  else if qEsize (s.queue h.rxq) < 16 ∨ qEsize (s.queue h.txq) < 16 then 4
  else 0

/-- EN becomes 1: the channel starts, or stays stopped with the code of the check that fails (R337). -/
def State.hdlcStart (s : State) (c : Nat) (h : Hdlc) : State :=
  match s.hdlcCfgErr c h with
  | 0 => ((s.hdlcNext c { h with on := true }).setF F.HDLC_CH_STATUS_CFG_ERR 0 c).setF F.HDLC_CH_STATUS_RUN 1 c
  | e => (s.setHd c h).setF F.HDLC_CH_STATUS_CFG_ERR e c

/-- EN becomes 0: closed frames are checked, and what is being received or sent is discarded (R336). -/
def State.hdlcStop (s : State) (c : Nat) : State :=
  let s1 := s.hdlcFlush c
  (s1.setHd c { Hdlc.init with evt := (s1.hd c).evt }).setF F.HDLC_CH_STATUS_RUN 0 c

/-- A running channel whose EN is 0, or was since the boundary before, stops. -/
def State.hdlcStops (s : State) (c : Nat) : State :=
  if (s.hd c).on && (!(s.b F.HDLC_CH_CFG_EN c) || (s.hd c).off) then s.hdlcStop c else s

/-- The configuration that acts from this boundary on (R335 to R337), and the bytes of the frame that begins. -/
def State.hdlcBegin (s : State) (c : Nat) : State :=
  let h := s.hd c
  let h1 := { h with
    cfg := s.reg .HDLC_CH_CFG c, lim := s.reg .HDLC_CH_LIMITS c, que := s.reg .HDLC_CH_QUEUE c
    off := false, evt := false }
  if h1.cfg.getLsbD 0 && (h.off || !(h.cfg.getLsbD 0)) then
    s.hdlcStart c { Hdlc.init with cfg := h1.cfg, lim := h1.lim, que := h1.que }
  else if h.on then s.hdlcNext c h1
  else s.setHd c h1

/-- A tenant owns a channel of a group of 16. -/
def State.ownsChannel (s : State) (g t : Nat) : Bool :=
  (List.range 16).any fun i => decide (s.f F.HDLC_CH_OWNER_TENANT (16 * g + i) = t)

/-- The summary event of a group of 16 channels, for each owner of one of them (R343, R518). -/
def State.hdlcGroup (s : State) (g : Nat) : State :=
  if s.hdlc.any fun e => decide (e.1 / 16 = g) && e.2.evt then
    (List.range 16).foldl (fun s t => if s.ownsChannel g t then s.raiseTo (972 + g) t else s) s
  else s

def hdlcChannels : List Nat := List.range 256

/-- All channels at the boundary that begins a frame. -/
def State.hdlcsBegin (s : State) : State :=
  hdlcChannels.foldl State.hdlcBegin ((List.range 16).foldl State.hdlcGroup (hdlcChannels.foldl State.hdlcStops s))

/-- The byte an engine slot presents in the current frame (R320, R322). -/
def State.hdlcSlotByte (s : State) (k : Nat) : Byte :=
  match s.hdlc.find? fun e => e.2.on && !e.2.bind && decide (e.2.base ≤ k ∧ k < e.2.base + e.2.count) with
  | some e => e.2.out.getD (k - e.2.base) 0xFF
  | none => 0xFF

/-- The DCC bytes of a trunk in the current frame (R249). -/
def State.dccBytes (s : State) (t : Nat) : List Byte :=
  match s.hdlc.find? fun e => e.2.on && e.2.bind && decide (e.2.trunkOf = t) with
  | some e => e.2.out
  | none => List.replicate 8 0x7E

/-- R335: a write of HDLC_CH_CFG, HDLC_CH_LIMITS or HDLC_CH_QUEUE is refused while EN is 1, unless it clears EN. -/
def State.hdlcWriteBad (s : State) (k : RegKind) (c : Nat) (v : Word) : Bool :=
  s.b F.HDLC_CH_CFG_EN c && !(decide (k = .HDLC_CH_CFG) && !(v.getLsbD 0))

/-- A write that clears EN stops the channel at the next boundary, even if EN is set again before it (R336, R337). -/
def State.hdlcCleared (s : State) (r : RegRef) (v : Word) : State :=
  if r.k = .HDLC_CH_CFG ∧ v.getLsbD 0 = false then s.setHd r.i { s.hd r.i with off := true } else s

end Sys2Proof.Machine
end

