-- ==== Sys2Proof/Machine/Audio.lean ====
section
/-!
DEFINITION. Machine/Audio.lean: the serial audio ports (spec/07): formats and bit layout, G.711, fabric channels, the
DMA path with its blocks, starting and stopping, underrun, overrun and rotation.
-/
namespace Sys2Proof.Machine

def State.aud (s : State) (p : Nat) : Audio := tabGet (fun _ => Audio.init) s.audio p
def State.setAud (s : State) (p : Nat) (a : Audio) : State :=
  { s with audio := tabPut (fun _ => Audio.init) s.audio p a }

/-- Event `i` of an audio port (R317). -/
def State.audEvt (s : State) (p i : Nat) : State := s.raise (576 + 8 * p + i)

/-! ### G.711 (R290) -/

/-- Magnitude with the sign taken as a ones' complement. -/
def onesMag (x : Int) : Nat := if x < 0 then (-x - 1).toNat else x.toNat

/-- Segment and mantissa of an A-law magnitude of 11 bits. -/
def alawSeg : Nat → Nat → Nat → Nat
  | 0, e, m => e * 16 + (m - 16)
  | fuel + 1, e, m => if m > 31 then alawSeg fuel (e + 1) (m / 2) else e * 16 + (m - 16)

/-- A-law compression of a 13-bit sample. -/
def alawEncode (x : Int) : Byte :=
  let m := onesMag x / 2
  let v := if m > 15 then alawSeg 7 1 m else m
  BitVec.ofNat 8 (if x < 0 then v else v + 128) ^^^ 0x55

/-- A-law expansion to 16 bits. -/
def alawDecode (b : Byte) : Int :=
  let v := (b ^^^ 0x55).toNat
  let e := v / 16 % 8
  let m := if e = 0 then v % 16 * 16 + 8 else ((v % 16 + 16) * 16 + 8) * 2 ^ (e - 1)
  if v ≥ 128 then m else -(m : Int)

/-- Number of significant bits. -/
def bitLen : Nat → Nat → Nat
  | 0, _ => 0
  | fuel + 1, n => if n = 0 then 0 else 1 + bitLen fuel (n / 2)

/-- µ-law compression of a 14-bit sample. -/
def ulawEncode (x : Int) : Byte :=
  let m := min 0x1FFF (onesMag x + 33)
  let seg := 1 + bitLen 8 (m / 64)
  let v := (8 - seg) * 16 + (15 - m / 2 ^ seg % 16)
  BitVec.ofNat 8 (if x < 0 then v else v + 128)

/-- µ-law expansion to 16 bits. -/
def ulawDecode (b : Byte) : Int :=
  let c := (~~~b).toNat
  let e := c / 16 % 8
  let step := 4 * 2 ^ (e + 1)
  let m : Int := 128 * 2 ^ e + step * (c % 16) + step / 2 - 132
  if b.toNat < 128 then -m else m

/-! ### Layout (R281 to R284) -/

def audWidth (w : Nat) : Nat := 16 + 8 * w

/-- F of R281 for a width and a slot count. -/
def audF (width slots : Nat) : Nat :=
  ([32, 64, 128, 256, 512].find? fun f => decide (width * slots ≤ f)).getD 1024

/-- Sample frames in a device frame, by RATE. -/
def audRate (r : Nat) : Nat := if r = 0 then 1 else if r = 1 then 2 else 6

/-- R285 for the codes of SLOT_WIDTH and SLOT_COUNT. -/
def audPairOk (w c fmt rate : Nat) : Bool :=
  decide (w ≤ 2) && (decide (fmt = 2) || decide (c = 1)) && decide (audF (audWidth w) (c + 1) * audRate rate ≤ 3072)

/-- First bit of channel `c`. -/
def audBit (fmt width f delay c : Nat) : Nat :=
  match fmt with
  | 0 => c * (f / 2) + 1
  | 1 => c * (f / 2)
  | _ => c * width + delay

/-- The layout of a port: format, width, channels, frame length, delay and rate. -/
structure AudLayout where
  fmt : Nat
  width : Nat
  chans : Nat
  len : Nat
  delay : Nat
  rate : Nat

def State.audLayout (s : State) (p : Nat) : AudLayout :=
  let a := s.aud p
  let fmt := s.fa F.AUD_CFG_FORMAT p
  let w := audWidth a.width
  ⟨fmt, w, if fmt = 2 then a.count + 1 else 2, audF w (a.count + 1), s.fa F.AUD_CFG_FS_DELAY p,
    audRate (s.fa F.AUD_CFG_RATE p)⟩

/-- A received sample, left-justified in 32 bits. `din` has the bits of the frame and the first of the next one, which
can be the last bit of a sample (R283). -/
def audSample (y : AudLayout) (din : List Bool) (i c : Nat) : Word :=
  let bits := (din.drop (i * y.len + audBit y.fmt y.width y.len y.delay c)).take y.width
  let bits := bits ++ List.replicate (32 - bits.length) false
  BitVec.ofNat 32 (bits.foldl (fun a b => 2 * a + if b then 1 else 0) 0)

/-- Bytes of a sample for the fabric (R288 to R290), most significant first. -/
def audToFabric (coding : Nat) (v : Word) : List Byte :=
  match coding with
  | 0 => [alawEncode (v.toInt / 524288)]
  | 1 => [ulawEncode (v.toInt / 262144)]
  | 2 => [BitVec.ofNat 8 (v.toNat / 16777216), BitVec.ofNat 8 (v.toNat / 65536)]
  | _ => [BitVec.ofNat 8 (v.toNat / 16777216), BitVec.ofNat 8 (v.toNat / 65536), BitVec.ofNat 8 (v.toNat / 256)]

def audBytes (coding : Nat) : Nat := if coding ≤ 1 then 1 else coding

/-- A sample from fabric bytes, left-justified (R290). -/
def audFromFabric (coding : Nat) (bs : List Byte) : Word :=
  match coding with
  | 0 => BitVec.ofInt 32 (alawDecode (bs.getD 0 0) * 65536)
  | 1 => BitVec.ofInt 32 (ulawDecode (bs.getD 0 0) * 65536)
  | 2 => BitVec.ofNat 32 ((bs.getD 0 0).toNat * 16777216 + (bs.getD 1 0).toNat * 65536)
  | _ => BitVec.ofNat 32 ((bs.getD 0 0).toNat * 16777216 + (bs.getD 1 0).toNat * 65536 + (bs.getD 2 0).toNat * 256)

/-- First fabric slot of a port (R144). -/
def audSlot (p : Nat) : Nat := 12160 + 256 * p

def State.audDest (s : State) (p c : Nat) : Nat := s.fa F.AUD_CHMAP_DEST p c
def State.audCoding (s : State) (p c : Nat) : Nat := s.fa F.AUD_CHMAP_CODING p c
def State.audBase (s : State) (p c : Nat) : Nat := s.fa F.AUD_CHMAP_SLOT_BASE p c

/-- The input bytes of a running port for the frame that ends, by fabric slot (R289, R292). -/
def State.audIn (s : State) (p : Nat) (din : List Bool) : List (Nat × Byte) :=
  if !(s.aud p).on then []
  else
    let y := s.audLayout p
    (List.range y.chans).flatMap fun c =>
      if s.audDest p c = 1 then
        let k := s.audCoding p c
        (List.range y.rate).flatMap fun i =>
          (audToFabric k (audSample y din i c)).mapIdx fun j b =>
            (audSlot p + s.audBase p c + i * audBytes k + j, b)
      else []

/-- DMA channels in ascending order (R293). -/
def State.audDma (s : State) (p : Nat) : List Nat :=
  (List.range (s.audLayout p).chans).filter fun c => decide (s.audDest p c = 2)

/-- DMA positions in a sample frame, the marker counted (R310); none without DMA channels. -/
def State.audPos (s : State) (p : Nat) : Nat :=
  let n := (s.audDma p).length
  if n = 0 then 0 else n + if s.ba F.AUD_CFG_MARK_EN p then 1 else 0

def rotate {α : Type} (k : Nat) (l : List α) : List α := l.drop (k % l.length) ++ l.take (k % l.length)

/-- A rotation, free, where R307 applies; `dir` is 0 for transmit and 1 for receive. -/
def State.audTurn (s : State) (p dir old : Nat) : Nat :=
  let n := s.audPos p
  if s.fa F.AUD_CFG_FORMAT p = 2 ∧ n > 2 then (old + s.outNat 11 (2 * p + dir)) % n else old

/-- A sample as the bytes of a block (R295). -/
def State.audPack (s : State) (p : Nat) (v : Word) : List Byte :=
  if s.ba F.AUD_CFG_Q_FMT p then leBytes 4 v.toNat else leBytes 2 (v.toNat / 65536)

/-- The marker as a sample (R310, R316). -/
def State.audMark (s : State) (p : Nat) : Word :=
  let v := s.act .AUD_MARK p
  if s.ba F.AUD_CFG_Q_FMT p then v else v <<< 16

/-! ### The frame that ends -/

/-- Received DMA samples of the frame that ends, turned by the rotation. -/
def State.audRx (s : State) (p : Nat) (din : List Bool) : List Word :=
  let y := s.audLayout p
  let mark := if s.ba F.AUD_CFG_MARK_EN p then [s.audMark p] else []
  (List.range y.rate).flatMap fun i =>
    rotate (s.aud p).rxRot (mark ++ (s.audDma p).map fun c => audSample y din i c)

/-- The entry of a receive block (R294). -/
def State.audEntry (s : State) (p : Nat) (b : AudBlock) : List Byte :=
  leBytes 8 b.time.toNat ++ leBytes 4 b.frame.toNat ++ leBytes 2 b.frames ++ leBytes 2 b.tag.toNat ++
    b.samples.flatMap fun v => s.audPack p v

/-- Write a receive block; the Bool says whether it could be written (R479). -/
def State.audStore (s : State) (p : Nat) (b : AudBlock) : State × Bool :=
  let q := s.fa F.AUD_QUEUE_RXQ p
  if s.qNoRoom q then (s, false) else s.qPut 0x31 q (s.audEntry p b)

/-- AUDIO_RX_BLOCK: write the completed block, or begin an overrun (R294, R305). -/
def State.audRxBlock (s : State) (p : Nat) : State :=
  let a := s.aud p
  match a.rxDone with
  | none => s
  | some b =>
    match (s.setAud p { a with rxDone := none }).audStore p b with
    | (s1, true) => s1
    | (s1, false) => s1.setAud p { s1.aud p with rxDry := true }

/-- The receive DMA path for the frame that ends (R293, R305). When a block is full the one before it has been written,
or has met a full queue: the schedule carries every block in time (R297). -/
def State.audRxFrame (s : State) (p : Nat) (din : List Bool) : State :=
  let a := s.aud p
  let new : AudBlock := ⟨s.sys + 3072, s.frame + 1, 0, 0, []⟩
  if s.audPos p = 0 then s
  else if a.rxDry then
    if s.qNoRoom (s.fa F.AUD_QUEUE_RXQ p) then s else s.setAud p { a with rxDry := false, rx := new }
  else
    let b := { a.rx with frames := a.rx.frames + 1, samples := a.rx.samples ++ s.audRx p din }
    if b.frames = s.fa F.AUD_CFG_BLOCK_FRAMES p + 1 then
      let s1 := s.audRxBlock p
      let a1 := s1.aud p
      s1.setAud p { a1 with rxDone := if a1.rxDry then none else some b, rx := new }
    else s.setAud p { a with rx := b }

/-- Take one sample frame's positions from the playing block; zeros where it is empty. -/
def takePos (n : Nat) (tx : List Word) : List Word × List Word :=
  (tx.take n ++ List.replicate (n - tx.length) 0, tx.drop n)

/-- The DMA samples that play in `k` sample frames, a list for each, the block left, and marker mismatches. -/
def State.audTx (s : State) (p : Nat) : Nat → List Word → List (List Word) × List Word × Nat
  | 0, tx => ([], tx, 0)
  | k + 1, tx =>
    let r := takePos (s.audPos p) tx
    let seq := rotate (s.aud p).txRot r.1
    let rest := State.audTx s p k r.2
    if s.ba F.AUD_CFG_MARK_EN p then
      let bad := if tx ≠ [] ∧ seq.headD 0 ≠ s.audMark p then 1 else 0
      (seq.drop 1 :: rest.1, rest.2.1, rest.2.2 + bad)
    else (seq :: rest.1, rest.2.1, rest.2.2)

/-- The word channel `c` sends in sample frame `i`. -/
def State.audWord (s : State) (p c i : Nat) (dma : List Word) : Word :=
  match s.audDest p c with
  | 1 =>
    let k := s.audCoding p c
    audFromFabric k ((List.range (audBytes k)).map fun j =>
      s.outByte (audSlot p + s.audBase p c + i * audBytes k + j))
  | 2 => dma.getD (((s.audDma p).takeWhile fun x => decide (x ≠ c)).length) 0
  | _ => 0

/-- The bits of one sample frame with the one that falls in the next (R283, R284). -/
def State.audFrameBits (s : State) (p i : Nat) (dma : List Word) : List Bool :=
  let y := s.audLayout p
  let words := (List.range y.chans).map fun c => (audBit y.fmt y.width y.len y.delay c, s.audWord p c i dma)
  (List.range (y.len + 1)).map fun o =>
    words.any fun w => decide (w.1 ≤ o ∧ o < w.1 + y.width) && w.2.getLsbD (31 - (o - w.1))

/-- Join sample frames: bit 0 of one carries the last bit of the one before it. -/
def joinFrames (len : Nat) : Bool → List (List Bool) → List Bool × Bool
  | c, [] => ([], c)
  | c, f :: t =>
    let r := joinFrames len (f.getD len false) t
    ((c || f.getD 0 false) :: (f.drop 1).take (len - 1) ++ r.1, r.2)

/-- What a running port does for the frame that ends: DMA in both directions and its data output. -/
def State.audEnd (s : State) (p : Nat) (din : List Bool) : State :=
  if !(s.aud p).on then s
  else
    let y := s.audLayout p
    let t := s.audTx p y.rate (s.aud p).tx
    let frames := (List.range y.rate).map fun i => s.audFrameBits p i (t.1.getD i [])
    let j := joinFrames y.len (s.aud p).carry frames
    let s1 := s.audRxFrame p din
    let s2 := s1.setAud p { s1.aud p with tx := t.2.1, dout := j.1, carry := j.2 }
    if t.2.2 = 0 then s2
    else (List.range t.2.2).foldl (fun s _ => s.audEvt p 3) (s2.setF F.AUD_STATUS_ROT 1 p)

/-- A new frame begins: nothing is counted in it yet, and no block has failed in it. -/
def State.audBegin (s : State) (p : Nat) : State :=
  let a := s.aud p
  if a.on then s.setAud p { a with overNow := false, underNow := false, txDry := false, quiet := false } else s

/-! ### Blocks, underrun, overrun -/

/-- AUDIO_TX_BLOCK_START: take the next block from TXQ (R294, R296). A block that could not be read leaves the frame
without samples (R297, R479). -/
def State.audTxStart (s : State) (p : Nat) : State :=
  let a := s.aud p
  let q := s.fa F.AUD_QUEUE_TXQ p
  if a.on && decide (s.audPos p ≠ 0) && decide (a.tx = []) && !a.underNow && !a.txDry && !(s.qNothing q) then
    match s.qRead 0x31 q (s.queue q).head with
    | (s1, none) => (s1.qAdvance q).setAud p { s1.aud p with txDry := true }
    | (s1, some bs) =>
      let w := if s.ba F.AUD_CFG_Q_FMT p then 4 else 2
      let n := (s.fa F.AUD_CFG_BLOCK_FRAMES p + 1) * (s.audLayout p).rate * s.audPos p
      let sample := fun i =>
        let v := leNat ((bs.drop (16 + i * w)).take w)
        BitVec.ofNat 32 (if w = 4 then v else v * 65536)
      let s2 := (s1.qAdvance q).setAud p { s1.aud p with tx := (List.range n).map sample }
      let s3 := s2.setF F.AUD_TX_LAST_TAG_TAG (leNat ((bs.drop 14).take 2)) p
      (s3.setReg .AUD_TX_LAST_TIME_LO (s.sys.setWidth 32) p).setReg .AUD_TX_LAST_TIME_HI ((s.sys >>> 32).setWidth 32) p
  else s

/-- AUDIO_UNDERRUN (R304, R306, R307, R311). -/
def State.audUnderrun (s : State) (p : Nat) : State :=
  let a := s.aud p
  if a.on && decide (s.audPos p ≠ 0) && decide (a.tx = []) && !a.underNow && !a.quiet &&
      (a.txDry || s.qNothing (s.fa F.AUD_QUEUE_TXQ p)) then
    let s1 := s.setAud p { a with underNow := true, txRot := s.audTurn p 0 a.txRot }
    ((s1.bump F.AUD_UNDER_CNT_COUNT 1 none p).setF F.AUD_STATUS_UNDER 1 p |> fun s2 =>
      if s.f F.AUD_UNDER_CNT_COUNT p + 1 ≥ 0x10000 then s2.setF F.AUD_STATUS_UNDER_SAT 1 p else s2).audEvt p 1
  else s

/-- AUDIO_OVERRUN (R305, R306, R307, R311). A full block that meets a full queue begins it. -/
def State.audOverrun (s : State) (p : Nat) : State :=
  let s := if (s.aud p).on && s.qNoRoom (s.fa F.AUD_QUEUE_RXQ p) then s.audRxBlock p else s
  let a := s.aud p
  if a.on && a.rxDry && !a.overNow && !a.quiet then
    let s1 := s.setAud p { a with overNow := true, rxRot := s.audTurn p 1 a.rxRot }
    ((s1.bump F.AUD_OVER_CNT_COUNT 1 none p).setF F.AUD_STATUS_OVER 1 p |> fun s2 =>
      if s.f F.AUD_OVER_CNT_COUNT p + 1 ≥ 0x10000 then s2.setF F.AUD_STATUS_OVER_SAT 1 p else s2).audEvt p 2
  else s

/-! ### AUD_FRAME (R285, R286) -/

/-- A write of AUD_FRAME; the Bool is an access error. -/
def State.audFrame (s : State) (p : Nat) (v : Word) : State × Bool :=
  let a := s.aud p
  if a.on then (s, true)
  else
    let s1 := s.setReg .AUD_FRAME v p
    if audPairOk (fieldOf v 0 2) (fieldOf v 8 5) (s.fa F.AUD_CFG_FORMAT p) (s.fa F.AUD_CFG_RATE p) then
      ((s1.setAud p { a with width := fieldOf v 0 2, count := fieldOf v 8 5 }).setF F.AUD_STATUS_MISMATCH 0 p, false)
    else ((s1.setF F.AUD_STATUS_MISMATCH 1 p).audEvt p 5, false)

/-! ### Starting and stopping (R299 to R303, R309, R314) -/

/-- Some element occurs twice. -/
def hasDup : List Nat → Bool
  | [] => false
  | x :: t => t.contains x || hasDup t

/-- The first failing condition of R301, or 0. -/
def State.audCheck (s : State) (p : Nat) : Nat :=
  let a := s.aud p
  let y := s.audLayout p
  let dma := s.audDma p
  let fabric := (List.range 32).filter fun c => decide (s.audDest p c = 1)
  let slots := fabric.flatMap fun c =>
    (List.range (y.rate * audBytes (s.audCoding p c))).map fun i => s.audBase p c + i
  let rxq := s.fa F.AUD_QUEUE_RXQ p
  let txq := s.fa F.AUD_QUEUE_TXQ p
  let size := 16 + (s.fa F.AUD_CFG_BLOCK_FRAMES p + 1) * y.rate * s.audPos p *
    (if s.ba F.AUD_CFG_Q_FMT p then 4 else 2)
  let owner := s.f F.AUD_OWNER_TENANT p
  if !(audPairOk a.width a.count (s.fa F.AUD_CFG_FORMAT p) (s.fa F.AUD_CFG_RATE p)) then 1
  else if (List.range 32).any fun c => decide (c ≥ a.count + 1) && decide (s.audDest p c ≠ 0) then 2
  else if (slots.any fun i => decide (i > 255)) || hasDup slots then 3
  else if dma = [] then 0
  else if size > qEsize (s.queue rxq) ∨ size > qEsize (s.queue txq) then 4
  else if s.queueOwner rxq ≠ owner ∨ s.queueOwner txq ≠ owner then 5
  else 0

/-- R303: write the receive blocks that are full or partly filled, if RXQ has room. -/
def State.audFlush (s : State) (p : Nat) : State :=
  let a := s.aud p
  let s1 := match a.rxDone with
    | some b => (s.audStore p b).1
    | none => s
  let s2 := if a.rx.frames = 0 then s1 else (s1.audStore p a.rx).1
  s2.setAud p { a with rx := { a.rx with frames := 0, samples := [] }, rxDone := none }

/-- R303, R309: the receive blocks are written, a partly played transmit block is discarded, and new ones begin. -/
def State.audDmaReset (s : State) (p : Nat) : State :=
  let s1 := s.audFlush p
  s1.setAud p { s1.aud p with
    rx := ⟨s.sys, s.frame, 0, 0, []⟩, rxDone := none, tx := [], rxRot := 0, txRot := 0, rxDry := false, txDry := false
    quiet := true }

/-- Stop a running port (R302, R303). -/
def State.audStop (s : State) (p : Nat) : State :=
  let s1 := s.audDmaReset p
  ((s1.setAud p { s1.aud p with on := false, dout := [], carry := false }).setF F.AUD_STATUS_RUN 0 p).audEvt p 0

/-- Start a port, or record why it does not start (R300, R301). A running port starts afresh. -/
def State.audStart (s : State) (p : Nat) : State :=
  match s.audCheck p with
  | 0 =>
    let s1 := if (s.aud p).on then s.audDmaReset p else s
    let a := s1.aud p
    let s2 := s1.setAud p { Audio.init with
      on := true, width := a.width, count := a.count, rx := ⟨s.sys, s.frame, 0, 0, []⟩, quiet := a.on }
    ((s2.setF F.AUD_STATUS_RUN 1 p).setF F.AUD_STATUS_ERR 0 p).audEvt p 0
  | e =>
    let s1 := if (s.aud p).on then s.audStop p else s
    (s1.setF F.AUD_STATUS_ERR e p).audEvt p 4

def State.audMay (s : State) (p : Nat) : Bool := s.domRun 17 && s.ba F.AUD_CTL_EN p

/-- What a commit that applies START changes of a port asks of it (R299, R309): `en` its new EN; `start`, `restart`:
AUD_CTL is applied with EN = 1, and with RESTART too; `changed`: AUD_CFG, AUD_QUEUE or AUD_CHMAP changes; `was`: the
port was running. -/
structure AudChange where
  mine : Bool
  en : Bool
  start : Bool
  restart : Bool
  changed : Bool
  was : Bool

/-- The registers that the commit applies, with their active values; the shadow views hold the new ones. -/
def State.audChange (s : State) (olds : List (RegRef × Word)) (p : Nat) : AudChange :=
  let mine := olds.filter fun e => decide (e.1.i = p) && (match e.1.k with
    | .AUD_CTL | .AUD_CFG | .AUD_QUEUE | .AUD_MARK | .AUD_CHMAP => true
    | _ => false)
  let ctl := mine.any fun e => decide (e.1.k = .AUD_CTL)
  let word := if ctl then s.reg .AUD_CTL p else s.act .AUD_CTL p
  { mine := decide (mine ≠ []), en := word.getLsbD 0, start := ctl && word.getLsbD 0
    restart := ctl && word.getLsbD 0 && word.getLsbD 1
    changed := mine.any fun e => (match e.1.k with
      | .AUD_CFG | .AUD_QUEUE | .AUD_CHMAP => true
      | _ => false) && decide (s.reg e.1.k e.1.i e.1.j ≠ e.2)
    was := (s.aud p).on }

/-- Before the changes are active, a port that they stop or restart writes its blocks under the old ones (R303). -/
def State.audBefore (s : State) (p : Nat) (c : AudChange) : State :=
  if c.was && c.mine && (!c.en || c.changed || c.restart) then s.audFlush p else s

/-- The START changes of a port are active (R299, R309). RESTART acts once. -/
def State.audApplied (s : State) (p : Nat) (c : AudChange) : State :=
  if !c.mine then s
  else
    let s0 := s.setReg .AUD_CTL (s.reg .AUD_CTL p &&& ~~~(2 : Word)) p
    let s1 := s0.setAct .AUD_CTL (s0.act .AUD_CTL p &&& ~~~(2 : Word)) p
    let on := (s1.aud p).on
    if !(s1.audMay p) then (if on then s1.audStop p else s1)
    else if on && !c.was then s1
    else if c.changed || (c.start && !on) then s1.audStart p
    else if on && c.restart then (s1.audDmaReset p).audEvt p 0
    else s1

/-- The audio domain powers off, or AUD_CLK stops (R314): everything that moves is lost, and a running port stops. -/
def State.audLose (s : State) (p : Nat) : State :=
  let a := s.aud p
  let s1 := s.setAud p { Audio.init with width := a.width, count := a.count }
  let s2 := ((s1.setF F.AUD_STATUS_RUN 0 p).setF F.AUD_UNDER_CNT_COUNT 0 p).setF F.AUD_OVER_CNT_COUNT 0 p
  if a.on then s2.audEvt p 0 else s2

/-- R314: a port with EN = 1 starts afresh when the domain and its clock are back. -/
def State.audSync (s : State) (p : Nat) : State :=
  if s.audMay p && !(s.aud p).on then s.audStart p else s

def audPorts : List Nat := [0, 1, 2, 3, 4, 5, 6, 7]

/-! ### The outputs of a port (R279, R280, R283, R302) -/

/-- AUD_FSYNC in a bit period of a sample frame. -/
def audFsync (y : AudLayout) (o : Nat) : Bool :=
  match y.fmt with
  | 0 => decide (y.len / 2 ≤ o)
  | 1 => decide (o < y.len / 2)
  | _ => decide (o = 0)

/-- What a port drives: `mclk`, `bclk` the AUD_CLK cycles of a clock's period, 0 for a clock held low; `fsync` the
levels over a sample frame and `dout` the bits of the last frame, both low where there are none. Outputs change on
falling edges of AUD_BCLK. -/
structure AudPins where
  mclk : Nat
  bclk : Nat
  fsync : List Bool
  dout : List Bool
  deriving DecidableEq, Repr

/-- AUD_CLK is divided by 1, 2 or 4 for AUD_MCLK, started or not, and by 3,072 / (F × sample frames) for AUD_BCLK. -/
def State.audPins (s : State) (p : Nat) : AudPins :=
  let y := s.audLayout p
  let m := s.fa F.AUD_CFG_MCLK_DIV p
  let mclk := if s.domRun 17 ∧ m ≠ 0 then 2 ^ (m - 1) else 0
  if (s.aud p).on then ⟨mclk, 3072 / (y.len * y.rate), (List.range y.len).map (audFsync y), (s.aud p).dout⟩
  else ⟨mclk, 0, [], []⟩

end Sys2Proof.Machine
end

