-- ==== Sys2Proof/Machine/Panel.lean ====
section
/-!
DEFINITION. Machine/Panel.lean: the panel driver (spec/20): its states, its scan and its update descriptors.
-/
namespace Sys2Proof.Machine

def State.pnlSt (s : State) : Nat := s.f F.PNL_STATUS_STATE

/-- Change STATE, with its event (R764). -/
def State.setPnl (s : State) (st : Nat) : State :=
  if s.pnlSt = st then s else (s.setF F.PNL_STATUS_STATE st).raise 818

def State.pdesc (s : State) (k : Nat) : PDesc := tabGet (fun _ => PDesc.init) s.pnl.descs k
def State.setPdesc (s : State) (k : Nat) (d : PDesc) : State :=
  { s with pnl := { s.pnl with descs := tabPut (fun _ => PDesc.init) s.pnl.descs k d } }

def pnlSlots : List Nat := [0, 1, 2, 3]

/-- WAITING or RUNNING. -/
def State.pdBusy (s : State) (k : Nat) : Bool :=
  let st := s.f F.PNL_DESC_STATUS_STATE k
  decide (st = 1 ∨ st = 2)

/-- A slot ends (R768, R772, R773, R775). -/
def State.pdEnd (s : State) (k err : Nat) : State :=
  ((s.setF F.PNL_DESC_STATUS_STATE 3 k).setF F.PNL_DESC_STATUS_ERR err k).raise (if err = 0 then 816 else 817)

/-! ### Scan -/

def State.pnlRows (s : State) : Nat := s.f F.PNL_GEOM_ROWS + 1
def State.pnlPeriods (s : State) : Nat := s.pnlRows + s.f F.PNL_GEOM_VBLANK

/-- A byte of the panel RAM (R756). -/
def State.pnlByte (s : State) (a : Nat) : Nat := fieldOf (s.reg .PNL_RAM (a / 4)) (8 * (a % 4)) 8

/-- The grey level of a pixel (R756). -/
def State.pixel (s : State) (x y : Nat) : Nat :=
  let b := s.pnlByte (128 * y + x / 2)
  if x % 2 = 0 then b % 16 else b / 16

/-- The overdrive code of a transition (R763). -/
def State.overdrive (s : State) (p n : Nat) : Nat :=
  fieldOf (s.reg .PNL_OD ((16 * p + n) / 4)) (8 * ((16 * p + n) % 4)) 8

/-- Cycles of a grey step, and PCLK cycles up to the end of the drive phase, of a row period (R758). -/
def State.pnlStep (s : State) : Nat := max 1 (s.f F.PNL_TIMING_GS)
def State.pnlDriven (s : State) : Nat := s.f F.PNL_TIMING_PRE + 15 * s.pnlStep

/-- AUD_CLK cycles of a row period (R758). -/
def State.pnlLength (s : State) : Nat :=
  (s.f F.PNL_TIMING_PDIV + 1) * (s.pnlDriven + s.f F.PNL_TIMING_DIS)

/-- Begin the row period `i` of a scan frame: select the row and drive every column, or blank (R759, R760, R762). -/
def State.pnlPeriod (s : State) (i : Nat) : State :=
  let iseg := s.f F.PNL_DRIVE_ISEG
  if i < s.pnlRows then
    let cols := s.f F.PNL_GEOM_COLS + 1
    let levels := (List.range cols).map fun c => s.pixel c i
    let drive := levels.zipIdx.map fun e => (s.overdrive (s.pnl.prev.getD e.2 0) e.1, e.1 * s.pnlStep)
    let s1 := (s.setF F.PNL_STATUS_ROW i).setF F.PNL_STATUS_BLANK 0
    { s1 with pnl := { s1.pnl with period := i, prev := levels, drive := drive, iseg := iseg } }
  else
    let s1 := s.setF F.PNL_STATUS_BLANK 1
    { s1 with pnl := { s1.pnl with period := i, prev := [], drive := [], iseg := iseg } }

/-- A blanking period begins: slots submitted before have seen one (R769, R770). -/
def State.pnlBlanked (s : State) : State :=
  pnlSlots.foldl (fun s k => if s.pdBusy k then s.setPdesc k { s.pdesc k with blanked := true } else s) s

/-- The scan returns to row 0 (R772). -/
def State.pnlWrapped (s : State) : State :=
  pnlSlots.foldl (fun s k =>
    if s.pdBusy k && (s.pdesc k).blanked then s.setPdesc k { s.pdesc k with wrapped := true } else s) s

/-- Outputs of OFF: no row and no column is driven. -/
def State.pnlDark (s : State) : State :=
  let s1 := (s.setF F.PNL_STATUS_ROW 0).setF F.PNL_STATUS_BLANK 0
  { s1 with pnl := { s1.pnl with period := 0, prev := [], drive := [], iseg := 0 } }

/-- PANEL_SCAN_START (R761, R764). -/
def State.pnlStart (s : State) : State :=
  if s.pnlSt = 1 ∧ s.pnl.wait = 0 ∧ s.domRun 17 then
    ({ s with pnl := { s.pnl with prev := [] } }.pnlPeriod 0).setPnl 2
  else s

/-- PANEL_ROW_PERIOD: the row period in progress ends when its `cycles` of AUD_CLK have passed, and the next begins or
the scan stops (R758, R759, R764). -/
def State.pnlNext (s : State) (cycles : Nat) : State :=
  if !(s.domRun 17) || decide (cycles ≠ s.pnlLength) then s
  else if s.pnlSt = 3 then
    let s1 := s.pnlDark
    ({ s1 with pnl := { s1.pnl with venLow := true } }).setPnl 0
  else if s.pnlSt = 2 then
    let i := s.pnl.period + 1
    if i < s.pnlPeriods then
      (if i = s.pnlRows then s.pnlBlanked else s).pnlPeriod i
    else
      let s1 := s.setF F.PNL_SCAN_COUNT_SCANS ((s.f F.PNL_SCAN_COUNT_SCANS + 1) % 2 ^ 32)
      let s2 := if s.pnlRows = s.pnlPeriods then s1.pnlBlanked else s1
      s2.pnlWrapped.pnlPeriod 0
  else s

/-! ### What the driver puts out (R759, R760) -/

/-- A current source at a code; 0 sources nothing (R763). -/
def PadLevel.current (code : Nat) : PadLevel := if code = 0 then .float else .source code

/-- Column `c` in PCLK cycle `n` of the row period in progress. -/
def State.pnlCol (s : State) (n c : Nat) : PadLevel :=
  match s.pnl.drive[c]? with
  | none => .float
  | some d =>
    if n < s.f F.PNL_TIMING_PRE then PadLevel.current d.1
    else if n < s.pnlDriven then
      if n - s.f F.PNL_TIMING_PRE < d.2 then PadLevel.current s.pnl.iseg else .float
    else .low

/-- Row `r` in PCLK cycle `n` of the row period in progress: selected, or inactive. -/
def State.pnlRow (s : State) (n r : Nat) : PadLevel :=
  let lit := decide (2 ≤ s.pnlSt) && decide (s.pnl.period < s.pnlRows) && decide (r = s.pnl.period) &&
    decide (n < s.pnlDriven)
  if lit = s.b F.PNL_CTL_ROW_POL then .high else .low

/-- PNL_VEN, the columns and the rows. -/
def State.pnlPins (s : State) (n : Nat) : List PadLevel :=
  (if s.pnl.ven then .high else .low) :: (List.range 256).map (s.pnlCol n) ++ (List.range 64).map (s.pnlRow n)

/-! ### Power -/

/-- What a write of PNL_CTL does (R764). -/
def State.pnlCtl (s : State) (v : Word) : State :=
  let s1 := s.setReg .PNL_CTL (v &&& 0x0000FF03)
  if v.getLsbD 0 then
    if s.pnlSt = 0 ∧ s.domRun 17 then
      ({ s1 with pnl := { s1.pnl with ven := true, venLow := false, wait := s1.f F.PNL_CTL_VEN_DELAY * 8 + 1 } }).setPnl 1
    else s1
  else if s.pnlSt = 1 then ({ s1 with pnl := { s1.pnl with venLow := true, wait := 0 } }).setPnl 0
  else if s.pnlSt = 2 then s1.setPnl 3
  else s1

/-- The panel at a frame boundary: the supply delay counts, and PNL_VEN goes low (R764). -/
def State.pnlFrame (s : State) : State :=
  { s with pnl := { s.pnl with
      wait := s.pnl.wait - 1
      ven := s.pnl.ven && !s.pnl.venLow
      venLow := false } }

/-- The domain stops carrying traffic, or the derived clocks stop (R764). -/
def State.pnlOff (s : State) : State :=
  let s1 := s.pnlDark
  ({ s1 with pnl := { s1.pnl with ven := false, venLow := false, wait := 0 } }).setPnl 0

/-- The domain stops carrying traffic: slots end too (R775). -/
def State.pnlStop (s : State) : State :=
  pnlSlots.foldl (fun s k => if s.pdBusy k then s.pdEnd k 4 else s) s.pnlOff

/-- The audio, panel and fans domain powers off: the panel RAM is 0 when it is back (R774). -/
def State.pnlLose (s : State) : State :=
  { s with regs := s.regs.filter fun e => !(decide (0x01212000 ≤ e.1) && decide (e.1 < 0x01214000)) }

/-! ### Descriptors -/

/-- The check of R768. -/
def PDesc.check (d : PDesc) : Nat :=
  if d.y + d.h1 + 1 > 64 ∨ d.x2 + d.w2 > 127 then 1
  else if d.src + d.h1 * d.stride + d.w2 + 1 > 0x1000000 then 2
  else 0

/-- A write of PNL_DESC_CTL_k (R767, R768). The Bool is an access error. -/
def State.pnlSubmit (s : State) (k : Nat) (v : Word) : State × Bool :=
  let s1 := s.setReg .PNL_DESC_CTL (v &&& 0x00010FFF) k
  if !(v.getLsbD 31) then (s1, false)
  else if s.pdBusy k then (s, true)
  else
    let d : PDesc := { PDesc.init with
      order := s.pnl.subs, src := s.f F.PNL_DESC_SRC_SRC k, x2 := s.f F.PNL_DESC_RECT_X2 k
      y := s.f F.PNL_DESC_RECT_Y k, w2 := s.f F.PNL_DESC_RECT_W2 k, h1 := s.f F.PNL_DESC_RECT_H1 k
      stride := fieldOf v 0 12, vsync := v.getLsbD 16 }
    let s2 := { s1 with pnl := { s1.pnl with subs := s.pnl.subs + 1 } }
    let s3 := ((s2.setPdesc k d).setF F.PNL_DESC_STATUS_SEQ (d.order % 256) k).setF F.PNL_DESC_STATUS_ERR 0 k
    match d.check with
    | 0 => (s3.setF F.PNL_DESC_STATUS_STATE 1 k, false)
    | e => (s3.pdEnd k e, false)

/-- Two rectangles share a pixel. -/
def PDesc.shares (a b : PDesc) : Bool :=
  decide (a.x2 ≤ b.x2 + b.w2 ∧ b.x2 ≤ a.x2 + a.w2 ∧ a.y ≤ b.y + b.h1 ∧ b.y ≤ a.y + a.h1)

/-- PNL_DESC_START (R769, R770). -/
def State.pnlDescStart (s : State) (k : Nat) : State :=
  let d := s.pdesc k
  let blocked := pnlSlots.any fun j =>
    s.pdBusy j && decide ((s.pdesc j).order < d.order) && (s.pdesc j).shares d
  if s.domRun 17 ∧ s.f F.PNL_DESC_STATUS_STATE k = 1 ∧ !blocked ∧ (!d.vsync ∨ s.pnlSt ≠ 2 ∨ d.blanked) then
    s.setF F.PNL_DESC_STATUS_STATE 2 k
  else s

/-- Write bytes into the panel RAM. -/
def State.pnlStore (s : State) (a : Nat) : List Byte → State
  | [] => s
  | b :: t =>
    (s.setReg .PNL_RAM (withField (s.reg .PNL_RAM (a / 4)) (8 * (a % 4)) 8 b.toNat) (a / 4)).pnlStore (a + 1) t

/-- The running slot that the engine serves next (R771). -/
def State.pnlServe (s : State) : Option Nat :=
  ([1, 2, 3, 4].map fun i => (s.pnl.served + i) % 4).find? fun k => decide (s.f F.PNL_DESC_STATUS_STATE k = 2)

/-- PANEL_ENGINE_ACCESS (R771 to R773). -/
def State.pnlEngine (s : State) : State :=
  if !(s.domRun 17) then s else
  match s.pnlServe with
  | none => s
  | some k =>
    let d := s.pdesc k
    let a := d.src + d.row * d.stride + d.byte
    let len := min (d.w2 + 1 - d.byte) (32 - a % 32)
    let s0 := { s with pnl := { s.pnl with served := k } }
    if !(s.pondOn a len) then s0.pdEnd k 3
    else
      match s0.pondRead 0x32 1 a len with
      | (s1, none) => s1.pdEnd k 3
      | (s1, some bs) =>
        let s2 := s1.pnlStore (128 * (d.y + d.row) + d.x2 + d.byte) bs
        if d.byte + len ≤ d.w2 then s2.setPdesc k { d with byte := d.byte + len }
        else if d.row < d.h1 then s2.setPdesc k { d with byte := 0, row := d.row + 1 }
        else
          let s3 := s2.pdEnd k 0
          if d.vsync && d.wrapped then (s3.setF F.PNL_STATUS_LATE 1).raise 819 else s3

/-- R762: is a write to the panel's geometry or timing refused? -/
def State.pnlHeld (s : State) : Bool := decide (s.pnlSt ≠ 0)

end Sys2Proof.Machine
end

