-- ==== Sys2Proof/Machine/Thermal.lean ====
section
/-!
DEFINITION. Machine/Thermal.lean: thermistor inputs, the die sensor and the fan channels (spec/21). Timers of whole
milliseconds count control ticks.
-/
namespace Sys2Proof.Machine

/-- A field of a shadowed thermal or fan register as it acts (R804). -/
def State.tf (s : State) (f : FieldRef) (i : Nat := 0) (j : Nat := 0) : Nat :=
  fieldOf (tabGet (fun _ => f.k.resetAt i) s.th.acting (f.k.actAddr i j)) f.lo f.w

def State.therm (s : State) (i : Nat) : Therm := tabGet (fun _ => Therm.init) s.th.inputs i
def State.setTherm (s : State) (i : Nat) (x : Therm) : State :=
  { s with th := { s.th with inputs := tabPut (fun _ => Therm.init) s.th.inputs i x } }
def State.fan (s : State) (k : Nat) : Fan := tabGet (fun _ => Fan.init) s.th.fans k
def State.setFan (s : State) (k : Nat) (x : Fan) : State :=
  { s with th := { s.th with fans := tabPut (fun _ => Fan.init) s.th.fans k x } }

def thInputs : List Nat := [0, 1, 2, 3, 4, 5, 6, 7]
def fanChannels : List Nat := [0, 1, 2, 3]

/-! ### Thermistor inputs -/

/-- Set or clear an input's FAULT, with its event (R783, R809). -/
def State.thFault (s : State) (i : Nat) (b : Bool) : State :=
  if s.b F.TH_TEMP_FAULT i = b then s
  else
    let st := s.f F.TH_STATUS_FAULT
    let st' := if b then st ||| 2 ^ i else st &&& (255 - 2 ^ i)
    ((s.setB F.TH_TEMP_FAULT b i).setF F.TH_STATUS_FAULT st').raise 802

/-- Entry `j` of an input's linearisation. -/
def State.thLin (s : State) (i j : Nat) : Nat :=
  if j = 16 then s.tf F.TH_LIN8_L16 i
  else if j % 2 = 0 then s.tf F.TH_LIN_L2w i (j / 2) else s.tf F.TH_LIN_L2w_1 i (j / 2)

/-- TEMP of a mean of raw values (R784). -/
def State.linearise (s : State) (i r : Nat) : Nat :=
  let j := r / 256
  let a : Int := s.thLin i j
  let b : Int := s.thLin i (j + 1)
  (a + (b - a) * ((r % 256 : Nat) : Int) / 256).toNat

/-- TH_CONVERSION (R782 to R784). TEMP is free until four conversions have been made. -/
def State.thConversion (s : State) (i raw : Nat) : State :=
  if !(s.domRun 17 && decide (s.tf F.TH_CFG_EN / 2 ^ i % 2 = 1)) then s
  else
    let x := s.therm i
    let last := (raw :: x.last).take 4
    let s1 := s.setF F.TH_TEMP_RAW raw i
    if raw < s.tf F.TH_LIMITS_SHORT_LIM ∨ raw > s.tf F.TH_LIMITS_OPEN_LIM then
      s1.setTherm i { last := last, good := 0, due := true }
    else
      let good := x.good + 1
      let s2 := s1.setTherm i { x with last := last, good := good }
      let faulty := x.due || s.b F.TH_TEMP_FAULT i
      if faulty && decide (good < 4) then s2
      else
        let s3 := (s2.setTherm i { s2.therm i with due := false }).thFault i false
        if last.length = 4 then s3.setF F.TH_TEMP_TEMP (s3.linearise i (last.sum / 4)) i
        else s3.setF F.TH_TEMP_TEMP (s3.outNat 14 i) i

/-- An input without conversions (R785). -/
def State.thIdle (s : State) (i : Nat) : State :=
  ((s.setTherm i Therm.init).thFault i false).setF F.TH_TEMP_TEMP 0xFFF i

/-- A fault found since the last control tick shows from this one on (R783). -/
def State.thTick (s : State) (i : Nat) : State :=
  if s.tf F.TH_CFG_EN / 2 ^ i % 2 = 0 then s.thIdle i
  else if (s.therm i).due then ((s.setTherm i { s.therm i with due := false }).thFault i true).setF F.TH_TEMP_TEMP 0xFFF i
  else s

/-! ### Fan channels -/

def State.fanSt (s : State) (k : Nat) : Nat := s.f F.FAN_STATUS_STATE k

/-- Change a channel's STATE, with its event (R796, R809); its timer starts again. -/
def State.setFanSt (s : State) (k st : Nat) : State :=
  if s.fanSt k = st then s
  else ((s.setF F.FAN_STATUS_STATE st k).setFan k { s.fan k with stTicks := 0 }).raise (804 + k)

def State.setDuty (s : State) (k d : Nat) : State := s.setF F.FAN_STATUS_DUTY d k
def State.fanSpeed (s : State) (k rpm : Nat) : State := s.setF F.FAN_SPEED_SPEED (min rpm 0xFFFF) k

def State.countStall (s : State) (k : Nat) : State := s.bump F.FAN_STALLS_STALLS 1 none k

/-- RATIO and OLD (R803). -/
def State.ageEval (s : State) (k : Nat) : State :=
  let ref := s.f F.FAN_AGE_REF_AGE_REF k
  if s.f F.FAN_AGE_RESULT k = 1 ∧ ref ≠ 0 then
    let r := min 0xFFFF (s.f F.FAN_AGE_DUTY k * 256 / ref)
    (s.setF F.FAN_AGE_LIM_RATIO r k).setB F.FAN_AGE_OLD (decide (r > s.f F.FAN_AGE_LIM_AGE_LIM k)) k
  else s

/-- A measurement ends (R801, R802); a channel in AGEING returns to RUN at its demand. -/
def State.ageEnd (s : State) (k result : Nat) : State :=
  let s1 := (s.setF F.FAN_AGE_RESULT result k).raise (808 + k)
  if s.fanSt k = 5 then (s1.setFanSt k 3).setDuty k (s.fan k).demand else s1

/-- Stop a channel: every output off (R791, R796). A measurement in progress ends without a value (R802). The tach input
of a variable supply counts on (R799); the speed of direct drive is 0 outside RUN (R797). -/
def State.fanStop (s : State) (k : Nat) : State :=
  let s1 := if s.fanSt k = 5 then s.ageEnd k 4 else s
  let x := s1.fan k
  let s2 := (s1.setFanSt k 0).setDuty k 0
  let y := { Fan.init with mode := x.mode, pin := x.pin, running := x.running }
  if x.mode = 2 then s2.setFan k { y with seen := x.seen, edges := x.edges, edgeTicks := x.edgeTicks }
  else (s2.fanSpeed k 0).setFan k y

/-- ALIGN: step 0 at START_DUTY (R796). -/
def State.fanAlign (s : State) (k attempt : Nat) : State :=
  let s1 := s.setFan k { s.fan k with attempt := attempt, zc := 0, pause := false, steps := 0, comm := 0, acc := 0 }
  ((s1.setFanSt k 1).setDuty k (s1.tf F.FAN_BLDC_START_DUTY k)).fanSpeed k 0

/-- KICK at full duty (R798). -/
def State.fanKick (s : State) (k : Nat) : State :=
  let s1 := s.setFan k { s.fan k with kickTicks := 0 }
  (s1.setFanSt k 6).setDuty k 255

def State.fanStart (s : State) (k : Nat) : State :=
  if (s.fan k).mode = 1 then s.fanAlign k 1 else s.fanKick k

def State.fanStalled (s : State) (k : Nat) : State :=
  let s1 := (s.countStall k).setFanSt k 4
  if (s.fan k).mode = 1 then (s1.setDuty k 0).fanSpeed k 0 else s1

/-- Step 3 of R792 for a table of points. -/
def tableDuty (pts : List (Nat × Nat)) (th : Nat) : Nat :=
  match pts.head?, pts.getLast? with
  | some p0, some p7 =>
    if th ≤ p0.1 then p0.2
    else if th ≥ p7.1 then p7.2
    else
      match (pts.zip (pts.drop 1)).find? fun e => decide (e.1.1 < e.2.1 ∧ e.1.1 ≤ th ∧ th < e.2.1) with
      | some ((t, d), (t', d')) =>
        ((d : Int) + Int.tdiv (((d' : Int) - d) * ((th : Int) - t)) ((t' : Int) - t)).toNat
      | none => p7.2
  | _, _ => 0

/-- The hottest sensor of a mask (step 1 of R792). -/
def State.hottest (s : State) (sens : Nat) : Nat :=
  let die := if sens / 256 % 2 = 1 then s.f F.TH_DIE_CODE else 0
  thInputs.foldl (fun m i => if sens / 2 ^ i % 2 = 1 then max m (s.f F.TH_TEMP_TEMP i) else m) die

/-- R792, R793: Th and the demand of a channel with RUN = 1. -/
def State.fanDemand (s : State) (k : Nat) : Nat × Nat :=
  let tc := s.hottest (s.tf F.FAN_CTL_SENS k)
  let hyst := s.tf F.FAN_DRIVE_HYST k
  let th0 := s.f F.FAN_SPEED_TH k
  let th := if !(s.fan k).running then tc else if tc > th0 then tc else if tc + hyst < th0 then tc + hyst else th0
  let d0 := tableDuty (thInputs.map fun i => (s.tf F.FAN_TAB_T k i, s.tf F.FAN_TAB_D k i)) th
  let d1 := if s.tf F.FAN_CTL_SRC k = 1 then s.tf F.FAN_CTL_FIXED_DUTY k else d0
  let d2 := if s.tf F.FAN_CTL_WARN_FULL k = 1 ∧ s.th.warn then 255 else d1
  let floor := s.tf F.FAN_DRIVE_MIN_DUTY k
  (th, if d2 ≠ 0 ∧ d2 < floor then floor else d2)

/-- One tick of an ageing measurement (R801). -/
def State.ageTick (s : State) (k : Nat) : State :=
  let rpm := s.f F.FAN_AGE_CTL_RPM k
  let v := s.f F.FAN_SPEED_SPEED k
  let duty := s.f F.FAN_STATUS_DUTY k
  let d := if v < rpm then min 255 (duty + 1) else if v > rpm then duty - 1 else duty
  let x := s.fan k
  let near := decide ((max v rpm - min v rpm) * 50 ≤ rpm)
  let s1 := s.setDuty k d
  if x.ageGood ≥ 1000 then s1.setFan k { x with ageTicks := x.ageTicks + 1 }
  else if near then
    s1.setFan k { x with ageTicks := x.ageTicks + 1, ageGood := x.ageGood + 1, ageSum := x.ageSum + d }
  else s1.setFan k { x with ageTicks := x.ageTicks + 1, ageGood := 0, ageSum := 0 }

/-- The step interval of the open-loop ramp `t` ms after it began, in µs (R796). -/
def State.rampInterval (s : State) (k t : Nat) : Nat :=
  let a := s.tf F.FAN_BLDC_RAMP_RAMP_START k
  let b := s.tf F.FAN_BLDC_RAMP_RAMP_END k
  let n := s.tf F.FAN_BLDC_RAMP_MS k * 8
  if n ≤ t then b else ((a : Int) + ((b : Int) - a) * t / n).toNat

/-- One millisecond of open-loop steps (R796). The interval is reckoned once in each, at its end (log entry 63). -/
def State.rampTick (s : State) (k : Nat) : State :=
  let x := s.fan k
  let n := max 1 (s.rampInterval k x.stTicks)
  let acc := x.acc + 1000
  s.setFan k { x with step := n, comm := (x.comm + acc / n) % 6, acc := acc % n }

/-- A channel at a control tick (R792, R796, R798, R801). -/
def State.fanTick (s : State) (k : Nat) : State :=
  let x := s.fan k
  let s := s.setFan k { x with
    stTicks := x.stTicks + 1, kickTicks := x.kickTicks + 1, edgeTicks := x.edgeTicks + 1 }
  if s.tf F.FAN_CTL_RUN k = 0 then
    let s1 := if s.fanSt k = 0 then s else s.fanStop k
    s1.setFan k { s1.fan k with running := false, demand := 0 }
  else
    let r := s.fanDemand k
    let s1 := (s.setF F.FAN_SPEED_TH r.1 k).setFan k { s.fan k with running := true, demand := r.2 }
    if x.mode = 0 then s1
    else if r.2 = 0 then (if s.fanSt k = 0 then s1 else s1.fanStop k)
    else
      match s.fanSt k with
      | 0 => s1.fanStart k
      | 2 => if x.pause then s1 else s1.rampTick k
      | 3 => s1.setDuty k r.2
      | 4 => if x.mode = 2 then s1.setDuty k r.2 else s1
      | 5 => if s.th.warn then s1.ageEnd k 4 else s1.ageTick k
      | _ => s1

/-- Active views of the block, which act from a control tick on (R804). -/
def actingOf (regs : Tab Word) : Tab Word :=
  regs.filter fun e => decide (0x01220800 ≤ e.1 ∧ e.1 < 0x01221000)

/-- CONTROL_TICK (R781, R792). -/
def State.controlTick (s : State) : State :=
  if s.fabUp && decide (s.frame.toNat % 8 = 0) && !s.th.tickDone && s.domRun 17 then
    let s1 := { s with th := { s.th with tickDone := true, acting := actingOf s.regs } }
    fanChannels.foldl State.fanTick (thInputs.foldl State.thTick s1)
  else s

/-- ALIGN_END (R796). -/
def State.alignEnd (s : State) (k : Nat) : State :=
  if s.domRun 17 ∧ s.fanSt k = 1 ∧ (s.fan k).stTicks ≥ s.tf F.FAN_BLDC_ALIGN_MS k then
    (s.setFan k { s.fan k with zc := 0, step := s.tf F.FAN_BLDC_RAMP_RAMP_START k }).setFanSt k 2
  else s

/-- RAMP_TIMEOUT (R796). -/
def State.rampTimeout (s : State) (k : Nat) : State :=
  let x := s.fan k
  if s.domRun 17 ∧ s.fanSt k = 2 ∧ !x.pause ∧ x.stTicks ≥ s.tf F.FAN_BLDC_RAMP_MS k * 8 then
    if x.attempt < 3 then (s.setFan k { x with pause := true, zc := 0, stTicks := 0 }).setDuty k 0
    else s.fanStalled k
  else s

/-- RAMP_PAUSE_END (R796). -/
def State.rampPauseEnd (s : State) (k : Nat) : State :=
  let x := s.fan k
  if s.domRun 17 ∧ s.fanSt k = 2 ∧ x.pause ∧ x.stTicks ≥ 500 then s.fanAlign k (x.attempt + 1) else s

/-- BEMF_ZERO_CROSSING (R796, R797): `interval` is the step interval and `at_` the crossing's place in it, in µs. -/
def State.bemf (s : State) (k interval at_ : Nat) : State :=
  let x := s.fan k
  if !(s.domRun 17) ∨ x.mode ≠ 1 then s
  else if s.fanSt k = 2 ∧ !x.pause then
    let zc := if interval ≤ 4 * at_ ∧ 4 * at_ ≤ 3 * interval then x.zc + 1 else 0
    let s1 := s.setFan k { x with zc := zc, step := interval, steps := 0 }
    if zc ≥ 12 then (s1.setFanSt k 3).setDuty k x.demand else s1
  else if s.fanSt k = 3 ∨ s.fanSt k = 5 then
    let n := x.steps + 1
    let s1 := s.setFan k { x with step := interval, steps := n % 6, comm := (x.comm + 1) % 6 }
    if n % 6 = 0 ∧ interval ≠ 0 then
      s1.fanSpeed k (10000000 / (interval * max 1 (s.tf F.FAN_BLDC_POLE_PAIRS k)))
    else s1
  else s

/-- COMMUTATION_TIMEOUT (R796): `quiet` µs have passed since the last zero crossing. -/
def State.commTimeout (s : State) (k quiet : Nat) : State :=
  if s.domRun 17 ∧ s.fanSt k = 3 ∧ (s.fan k).mode = 1 ∧ 2 * (s.fan k).step ≤ quiet then (s.countStall k).fanAlign k 1 else s

/-- STALL_RETRY (R796, R800). -/
def State.stallRetry (s : State) (k : Nat) : State :=
  let x := s.fan k
  if s.domRun 17 ∧ s.fanSt k = 4 ∧ x.stTicks ≥ 10000 ∧ x.demand ≠ 0 then s.fanStart k else s

/-- KICK_END (R798). -/
def State.kickEnd (s : State) (k : Nat) : State :=
  let x := s.fan k
  if s.domRun 17 ∧ s.fanSt k = 6 ∧ x.kickTicks ≥ s.tf F.FAN_TACH_KICK_MS k * 10 then
    (s.setFanSt k 3).setDuty k x.demand
  else s

/-- TACH_EDGE (R799, R800): `period` is the time in µs since the last counted edge. -/
def State.tachEdge (s : State) (k period : Nat) : State :=
  let x := s.fan k
  if !(s.domRun 17) ∨ x.mode ≠ 2 ∨ (x.seen ∧ period < 100) then s
  else
    let n := s.tf F.FAN_TACH_PPR k + 1
    let edges := if x.seen then (period :: x.edges).take 4 else []
    let s1 := s.setFan k { x with seen := true, edges := edges, edgeTicks := 0 }
    let s2 := if edges.length ≥ n then s1.fanSpeed k (60000000 / (edges.take n).sum) else s1
    if s.fanSt k = 4 then (s2.setFanSt k 3).setDuty k x.demand else s2

/-- TACH_TIMEOUT (R799, R800). -/
def State.tachTimeout (s : State) (k : Nat) : State :=
  let x := s.fan k
  if s.domRun 17 ∧ x.mode = 2 ∧ x.edgeTicks ≥ 1000 then
    let s1 := (s.setFan k { x with seen := false, edges := [] }).fanSpeed k 0
    if s.fanSt k = 3 ∧ x.demand ≠ 0 ∧ x.kickTicks ≥ s.tf F.FAN_TACH_SPINUP k * 10 then s1.fanStalled k else s1
  else s

/-- A pair of R790. -/
def fanPairOk (k mode pin : Nat) : Bool :=
  decide ((mode = 0 ∧ pin = 0) ∨ (mode = 1 ∧ pin = 1 ∧ k < 2) ∨ (mode = 2 ∧ pin = 2))

/-- A write of FAN_MODE (R790, R791). -/
def State.fanMode (s : State) (k : Nat) (v : Word) : State :=
  let mode := fieldOf v 0 2
  let pin := fieldOf v 4 2
  let s1 := s.setReg .FAN_MODE (v &&& 0x33) k
  if !(fanPairOk k mode pin) then (s1.setF F.FAN_STATUS_MISMATCH 1 k).raise (812 + k)
  else
    let s2 := s1.setF F.FAN_STATUS_MISMATCH 0 k
    if (s.fan k).mode = mode ∧ (s.fan k).pin = pin then s2
    else
      let s3 := (s2.fanStop k).fanSpeed k 0
      s3.setFan k { Fan.init with mode := mode, pin := pin, running := (s3.fan k).running }

/-- A write of FAN_AGE_CTL (R801, R802, R805). The Bool is an access error. -/
def State.ageStart (s : State) (k : Nat) (v : Word) : State × Bool :=
  let s1 := s.setReg .FAN_AGE_CTL (v &&& 0xFFFF) k
  if !(v.getLsbD 31) then (s1, false)
  else if s.fanSt k = 5 then (s, true)
  else if s.fanSt k ≠ 3 then (s1.ageEnd k 3, false)
  else
    let s2 := s1.setFan k { s.fan k with ageTicks := 0, ageGood := 0, ageSum := 0 }
    (s2.setFanSt k 5, false)

/-- AGE_DONE (R801, R803). -/
def State.ageDone (s : State) (k : Nat) : State :=
  let x := s.fan k
  if s.fanSt k = 5 ∧ x.ageGood ≥ 1000 then
    ((s.setF F.FAN_AGE_DUTY (s.mean (4 + k) ((x.ageSum * 256 : Nat) : Int) 1000).toNat k).ageEnd k 1).ageEval k
  else s

/-- AGE_TIMEOUT (R802). -/
def State.ageTimeout (s : State) (k : Nat) : State :=
  if s.fanSt k = 5 ∧ (s.fan k).ageTicks ≥ 60000 then s.ageEnd k 2 else s

/-- The domain stops carrying traffic (R785, R806). -/
def State.fansStop (s : State) : State :=
  let s1 := fanChannels.foldl (fun s k =>
    let x := s.fan k
    (((s.setFanSt k 0).setDuty k 0).setReg .FAN_SPEED 0 k).setFan k { Fan.init with mode := x.mode, pin := x.pin }) s
  thInputs.foldl State.thIdle s1

/-! ### What a channel drives (R790, R791, R794 to R796) -/

/-- The outputs of a channel: the phases whose high gate FAN_GH carries the PWM and whose low gate FAN_GL is held on,
whether FAN_PWM carries it, its period and high time in AUD_CLK cycles, and the cycles that a phase's two gates are both
off at a change of step. -/
structure FanPins where
  gh : BitVec 3
  gl : BitVec 3
  pwm : Bool
  period : Nat
  high : Nat
  gap : Nat
  deriving DecidableEq, Repr

/-- The driven phase of a commutation step and its return phase: two different ones. The manual does not say which, so
they are free, and the same at every time (log entry 97). -/
def fanPhases (k comm : Nat) : Nat × Nat :=
  let d := Config.outNat (Nat.pair (Nat.pair 12 (8 * k + comm)) 0) % 3
  (d, (d + 1 + Config.outNat (Nat.pair (Nat.pair 13 (8 * k + comm)) 0) % 2) % 3)

/-- Is every output of the channel off: stopped, stalled in direct drive, in a pause between attempts, or without
traffic? -/
def State.fanQuiet (s : State) (k : Nat) : Bool :=
  let x := s.fan k
  !(s.domRun 17) || decide (s.fanSt k = 0) || decide (x.mode = 0) ||
    (decide (x.mode = 1) && (decide (s.fanSt k = 4) || (decide (s.fanSt k = 2) && x.pause)))

/-- What channel `k` drives. A duty of 255 is 100 % (R792, R794); at a change of step at least 8 AUD_CLK cycles pass
(R795). -/
def State.fanPins (s : State) (k : Nat) : FanPins :=
  let x := s.fan k
  let n := s.tf F.FAN_DRIVE_PWM_DIV k + 1
  let duty := s.f F.FAN_STATUS_DUTY k
  let p : FanPins := ⟨0, 0, false, 256 * n, if duty = 255 then 256 * n else duty * n, 8 + s.outNat 15 k⟩
  if s.fanQuiet k then { p with high := 0 }
  else if x.mode = 1 then
    let r := fanPhases k x.comm
    { p with gh := BitVec.ofNat 3 (2 ^ r.1), gl := BitVec.ofNat 3 (2 ^ r.2) }
  else if k < 2 then { p with gh := 1 }
  else { p with pwm := true }

/-! ### The die sensor (R786 to R789) -/

/-- The flags that a die conversion declares or clears. Conversions cool the count of R789. -/
def State.dieConversion (s : State) (code : Nat) : State :=
  let two := (code :: s.th.die).take 2
  let all2 := fun p : Nat → Bool => decide (two.length = 2) && two.all p
  let warn := if s.th.warn then !(all2 fun c => decide (c < 2944)) else all2 fun c => decide (c ≥ 3024)
  let s1 := { s.setF F.TH_DIE_CODE code with
    th := { s.th with die := two, warn := warn, cool := if code < 2864 then s.th.cool + 1 else 0 } }
  let s2 := if warn ≠ s.th.warn then (s1.setB F.TH_STATUS_WARN warn).raise 800 else s1
  let s3 := if warn ∧ !s.th.warn then
      fanChannels.foldl (fun s k => if s.fanSt k = 5 then s.ageEnd k 4 else s) s2 else s2
  let s4 := if !s.th.shut && all2 (fun c => decide (c ≥ 3184)) then
      { s3.raise 801 with th := { s3.th with shut := true } } else s3
  if code ≥ 3344 then { s4 with th := { s4.th with abort := true } } else s4

end Sys2Proof.Machine
end

