-- ==== Sys2Proof/Machine/Pads.lean ====
section
/-!
DEFINITION. Machine/Pads.lean: the pad groups (spec/17 R674 to R676; spec/22 R815 to R817): what they drive at reset, what
they are latched at, and when they follow their domain.
-/
namespace Sys2Proof.Machine

/-- The power-good bit of a pad group's domain. -/
def padDomain (g : Nat) : Nat := if g < 17 then g else if g < 20 then 17 else 18

/-- The I/O bank of a pad group (R811, R813). -/
def padBank (g : Nat) : Nat :=
  if g < 16 then g / 4 else if g = 16 then 4 else if g = 17 then 6 else if g < 20 then 7 else 5

def State.padHeld (s : State) (g : Nat) : Bool := (s.reg .PWR_PAD_HOLD).getLsbD g

def PadLevel.ofBool (b : Bool) : PadLevel := if b then .high else .low

/-- The level of a clock or a pulse with a period: low where it stands still. The manual does not say at which level it
is caught, so that is free (log entry 103). -/
def State.padPulse (s : State) (i : Nat) (runs : Bool) : PadLevel :=
  PadLevel.ofBool (runs && decide (s.outNat 17 i % 2 = 1))

/-- A pulse that is high for `high` of its `period` cycles. -/
def State.padPwm (s : State) (i period high : Nat) : PadLevel :=
  if period ≤ high then .high else s.padPulse i (decide (high ≠ 0))

/-- The gates of a fan channel, FAN_GH and then FAN_GL. -/
def State.fanGates (s : State) (k : Nat) : List PadLevel :=
  let x := s.fanPins k
  ((List.range 3).map fun i => if x.gh.getLsbD i then s.padPwm (256 + 8 * k) x.period x.high else .low) ++
    (List.range 3).map fun i => PadLevel.ofBool (x.gl.getLsbD i)

/-- FAN_PWM of a channel. -/
def State.fanPwm (s : State) (k : Nat) : PadLevel :=
  let x := s.fanPins k
  if x.pwm then s.padPwm (256 + 8 * k) x.period x.high else .low

/-- The levels at which the outputs of a group stand last, in the order of R815: each line port's clock and marks, each
trunk's pair, each audio port's clock, frame sync, data and master clock, the panel, the fans, a host link. -/
def State.padLevels (s : State) (g : Nat) : List PadLevel :=
  if g < 16 then
    ((List.range 8).map (8 * g + ·)).flatMap fun p =>
      [s.padPulse p true, PadLevel.ofBool ((s.line p).txPos.getLsbD 0), PadLevel.ofBool ((s.line p).txNeg.getLsbD 0)]
  else if g = 16 then
    [0, 1, 2, 3].flatMap fun t =>
      let b := (s.trunkDrives t).getLastD false
      [PadLevel.ofBool b, PadLevel.ofBool !b]
  else if g = 17 then
    audPorts.flatMap fun p =>
      let x := s.audPins p
      [s.padPulse (128 + p) (decide (x.bclk ≠ 0)), PadLevel.ofBool (x.fsync.getLastD false),
        PadLevel.ofBool (x.dout.getLastD false), s.padPulse (136 + p) (decide (x.mclk ≠ 0))]
  else if g = 18 then s.pnlPins 0
  else if g = 19 then s.fanGates 0 ++ s.fanGates 1 ++ [s.fanPwm 2, s.fanPwm 3]
  else
    let l := tabGet (fun _ => Link.init) s.links (g - 20)
    let spi := l.cfg.getLsbD 0
    [s.padPulse (512 + g) (!spi), .low, .low, .low, .low, if spi then .float else .low, PadLevel.ofBool l.wait.isEmpty]

/-- The reset levels of a group (R815). -/
def padReset (g : Nat) : List PadLevel :=
  if g < 16 then List.replicate 24 .low
  else if g = 16 then [.low, .high, .low, .high, .low, .high, .low, .high]
  else if g = 17 then List.replicate 32 .low
  else if g = 18 then .low :: List.replicate 320 .float
  else if g = 19 then List.replicate 12 .low ++ [.high, .high]
  else [.low, .low, .low, .low, .low, .float, .high]

/-- What holds the outputs of a group in place of its logic: no supply, under which a pad drives nothing, or the hold,
at the latched levels or the reset levels; nothing where they follow their domain (R815, R817). -/
def State.padHolds (s : State) (g : Nat) : Option (List PadLevel) :=
  if !(s.bankIn (padBank g)) then some ((padReset g).map fun _ => .float)
  else if s.padHeld g then some ((tabGet (fun _ => none) s.pwr.latched g).getD (padReset g))
  else none

/-- Latch a group's outputs at their last values, unless it is held already. -/
def State.latchPad (s : State) (g : Nat) : State :=
  if s.padHeld g then s
  else
    let s1 := s.setBit .PWR_PAD_HOLD g
    { s1 with pwr := { s1.pwr with latched := tabPut (fun _ => none) s1.pwr.latched g (some (s.padLevels g)) } }

def State.latchPads (s : State) (gs : List Nat) : State := gs.foldl State.latchPad s

/-- A write of PWR_PAD_REL (R675). The Bool is an access error: some group's domain is not power-good. -/
def State.padRelease (s : State) (v : Word) : State × Bool :=
  (List.range 24).foldl (fun (x : State × Bool) g =>
    if !(v.getLsbD g) then x
    else if x.1.domPg (padDomain g) then
      let s1 := x.1.setReg .PWR_PAD_HOLD (x.1.reg .PWR_PAD_HOLD &&& ~~~(BitVec.ofNat 32 (2 ^ g)))
      ({ s1 with pwr := { s1.pwr with latched := tabPut (fun _ => none) s1.pwr.latched g none } }, x.2)
    else (x.1, true)) (s, false)

/-- TH_VREF stands at VDDA while the domain carries traffic, and at 0 V otherwise (R816). -/
def State.thVref (s : State) : Bool := s.domRun 17

end Sys2Proof.Machine
end

