-- ==== Sys2Proof/Machine/Pond.lean ====
section
/-!
DEFINITION. Machine/Pond.lean: bank levels (spec/12 R483 to R494), the scrubber (R480 to R482, R492) and error
injection (R858). `pwr.bankUp` says of a bank that is not yet on: 1 rising from retain, 2 rising from off (the value of
a bank not listed), 3 and 4 the same but ready and waiting for its target frame.
-/
namespace Sys2Proof.Machine

def bankNums : List Nat := List.range 16

def State.bankCode (s : State) (b : Nat) : Nat := tabGet (fun _ => 2) s.pwr.bankUp b
def State.setBankCode (s : State) (b c : Nat) : State :=
  { s with pwr := { s.pwr with bankUp := tabPut (fun _ => 2) s.pwr.bankUp b c } }

/-- A bank's field in a register of levels. -/
def levelIn (w : Word) (b : Nat) : Nat := fieldOf w (2 * b) 2

def State.runWord (s : State) : Word := s.act .POND_BANK_RUN

/-- In Torpor with no wake begun (R489, R664, R666). -/
def State.torpid (s : State) : Bool := decide (s.dev = 2) && !s.pwr.waking

/-- The level that applied commits and the state give a bank (R484, R488, R489). -/
def State.bankLevel (s : State) (b : Nat) : Nat :=
  if s.torpid then levelIn (s.reg .POND_BANK_TORPOR) b
  else if s.dev = 3 ∨ s.pwr.brumWake then levelIn (s.reg .POND_BANK_BRUM) b
  else levelIn s.runWord b

/-- An accepted commit of T0 that covers PWR raises the bank: with the POND_BANK_RUN that it holds, or after a wake from
Brumation with the active one (R485, R673). -/
def State.pendRaise (s : State) (b : Nat) : Bool :=
  let g := s.change (RegKind.POND_BANK_RUN.addr 0 0)
  s.commits.any fun c => decide (c.tenant = 0) && c.scope.getLsbD 5 &&
    (if g = .pending c.id then decide (levelIn (s.reg .POND_BANK_RUN) b = 2)
     else s.pwr.brumWake && decide (levelIn s.runWord b = 2))

/-! ### The scrubber -/

/-- The first line of the next bank that is on after bank `b`, wrapping; whether it wrapped. -/
def State.nextOn (s : State) (b : Nat) : Option (Nat × Bool) :=
  ((List.range 16).map fun i => (b + 1 + i) % 16).findSome? fun c =>
    if s.bankSt c = 2 then some (c * 32768, decide (c ≤ b)) else none

def State.setLine5 (s : State) (line : Nat) (wrapped : Bool) : State :=
  let s1 := s.setF F.POND_SCRUB_STATUS_LINE line
  if wrapped then s1.setF F.POND_SCRUB_STATUS_PASSES ((s1.f F.POND_SCRUB_STATUS_PASSES + 1) % 4096) else s1

/-- R492: the scrubber leaves a bank that reached off. -/
def State.scrubLeave (s : State) (b : Nat) : State :=
  let line := s.f F.POND_SCRUB_STATUS_LINE
  if line / 32768 = b then
    match s.nextOn b with
    | some (l, w) => s.setLine5 l w
    | none => s.setLine5 (b * 32768) false
  else s

/-- One line read by the scrubber (R480 to R482). -/
def State.scrubRead (s : State) : State :=
  let line := s.f F.POND_SCRUB_STATUS_LINE
  let at_ := if s.bankSt (line / 32768) = 2 then some (line, false) else s.nextOn (line / 32768)
  match at_ with
  | none => s
  | some (l, w) =>
    let s1 := (s.setLine5 l w).eccRead 0x35 1 (wordsOf (l * 32) 32)
    s1.1.setLine5 ((l + 1) % 0x80000) (decide (l + 1 = 0x80000))

/-- The next entry that the scrubber uses (R480): the count moves on to it and past it. -/
def State.scrubLine (s : State) : State :=
  if s.divRun ∧ s.b F.POND_SCRUB_CTL_EN then
    let d := 2 ^ s.f F.POND_SCRUB_CTL_DIV
    { s with scrub := ((s.scrub + d - 1) / d * d + 1) % 0x8000 }.scrubRead
  else s

/-! ### Bank levels -/

/-- A bank reaches off: contents, errors and waiting injections are lost (R483). -/
def State.bankOff (s : State) (b : Nat) : State :=
  let s1 := { s with
    mem := s.mem.filter fun e => decide (e.1 / 0x100000 ≠ b)
    ecc := s.ecc.filter fun e => decide (e.1 / 0x20000 ≠ b)
    eccJobs := s.eccJobs.filter fun e => decide (e.1 / 0x20000 ≠ b) }
  (s1.setBankSt b 0).setBankCode b 2

/-- A bank begins to rise, if it is not on or rising (R485). -/
def State.bankRaise (s : State) (b : Nat) : State :=
  match s.bankSt b with
  | 0 => (s.setBankSt b 3).setBankCode b 2
  | 1 => (s.setBankSt b 3).setBankCode b 1
  | _ => s

/-- The bank rises from off, or is off. -/
def State.fromOff (s : State) (b : Nat) : Bool :=
  decide (s.bankSt b = 0) || (decide (s.bankSt b = 3) && decide (s.bankCode b % 2 = 0))

/-- Put a bank to a level now: off and retain at once, on as soon as it is ready (R485 to R489). A bank that had risen
from off has no contents to keep. -/
def State.bankTo (s : State) (b lvl : Nat) : State :=
  if lvl = 2 then
    if s.bankSt b = 3 ∧ s.bankCode b ≥ 3 then (s.setBankSt b 2).setBankCode b 2 else s.bankRaise b
  else if lvl = 1 then
    let s1 := if s.fromOff b then s.bankOff b else s
    (s1.setBankSt b 1).setBankCode b 2
  else if s.bankSt b = 0 then s else s.bankOff b

/-- A bank takes a level that loses what it holds. -/
def State.bankLoses (s : State) (b lvl : Nat) : Bool :=
  decide (s.bankSt b ≠ 0) && (decide (lvl = 0) || (decide (lvl = 1) && s.fromOff b))

/-- A bank takes its level. One that an accepted commit raises then rises; one that rises for it already goes on rising,
but from off if its level is off (R485, R487). -/
def State.bankApply (s : State) (b lvl : Nat) : State :=
  if !(s.pendRaise b) ∨ lvl = 2 then s.bankTo b lvl
  else if s.bankSt b = 3 ∧ (lvl = 1 ∨ s.fromOff b = true) then s
  else (s.bankTo b lvl).bankRaise b

/-- What the scrubber finds after banks took their levels: it leaves one that reached off (R492). -/
def State.scrubAfter (old s : State) (lvl : Nat → Nat) : State :=
  let b := old.f F.POND_SCRUB_STATUS_LINE / 32768
  let risen := old.pendRaise b && decide (old.bankSt b = 3) && old.fromOff b
  if old.bankLoses b (lvl b) && !risen then s.scrubLeave b else s

/-- Every bank takes its level, and commits that raise banks raise them (R487). -/
def State.banksTo (s : State) (lvl : Nat → Nat) : State :=
  s.scrubAfter (bankNums.foldl (fun s b => s.bankApply b (lvl b)) s) lvl

/-- Banks take levels, those for which one is given, whatever commits wait (R488, R489). -/
def State.banksSet (s : State) (lvl : Nat → Option Nat) : State :=
  let b := s.f F.POND_SCRUB_STATUS_LINE / 32768
  let s1 := bankNums.foldl (fun s b => match lvl b with
    | some l => s.bankTo b l
    | none => s) s
  match lvl b with
  | some l => if s.bankLoses b l then s1.scrubLeave b else s1
  | none => s1

/-- BANK_READY: a rising bank is ready (R486). Clearing waits while ROOT_CLK is stopped. -/
def State.bankReady (s : State) (b : Nat) : State :=
  let c := s.bankCode b
  if s.bankSt b = 3 ∧ c < 3 ∧ (c = 1 ∨ s.divRun) then
    if s.bankLevel b = 2 then (s.setBankSt b 2).setBankCode b 2 else s.setBankCode b (c + 2)
  else s

/-- A commit that covers PWR is accepted: the banks that it raises rise (R485, R673). -/
def State.banksAccept (s : State) : State :=
  if s.torpid then s else bankNums.foldl (fun s b => if s.pendRaise b then s.bankRaise b else s) s

/-- A commit that covers PWR applies: banks take their level in the active POND_BANK_RUN (R484, R485, R487). -/
def State.banksApply (s : State) : State :=
  let s1 := { s with pwr := { s.pwr with brumWake := false } }
  if s.torpid then s1 else s1.banksTo (levelIn s1.runWord)

/-- A commit that raised banks is rejected: a bank that rises for no other returns to its level (R488). -/
def State.banksReject (s : State) : State :=
  s.banksSet fun b =>
    if s.bankSt b = 3 ∧ s.bankLevel b ≠ 2 ∧ s.pendRaise b = false then some (s.bankLevel b) else none

/-! ### Injection (R858) -/

/-- A write of POND_ECC_INJECT. The Bool is an access error. -/
def State.eccInject (s : State) (v : Word) : State × Bool :=
  let w := fieldOf v 3 21
  if v.getLsbD 31 then
    if s.bankSt (w / 0x20000) ≠ 2 then (s, true)
    else
      let bits := fieldOf v 28 2
      (if bits = 1 ∨ bits = 2 then { s with eccJobs := s.eccJobs ++ [(w, bits)] } else s, false)
  else (s, false)

/-- The flip is made in the first free C entry. -/
def State.eccFlip (s : State) : State :=
  match s.eccJobs with
  | [] => s
  | (w, bits) :: rest =>
    if s.divRun then
      ({ s with eccJobs := rest }).setEcc w (if bits = 1 then (s.eccOf w).flip 64 else ((s.eccOf w).flip 64).flip 65)
    else s

/-- R490: a write of bank levels with a forbidden code. -/
def levelsBad (brum : Bool) (v : Word) : Bool :=
  bankNums.any fun b => decide (levelIn v b = 3) || (brum && decide (levelIn v b = 2))

end Sys2Proof.Machine
end

