-- ==== Sys2Proof/Machine/Domain.lean ====
section
/-!
DEFINITION. Machine/Domain.lean: the power domains (spec/17 R647 to R652): port domains that carry traffic, and
what a domain loses when it powers off.
-/
namespace Sys2Proof.Machine

/-! ### Port domains -/

/-- Ports of a line group. -/
def groupPorts (g : Nat) : List Nat := (List.range 8).map (8 * g + ·)

def State.trunksSync (s : State) : State := [0, 1].foldl State.pairSync ([0, 1, 2, 3].foldl State.trunkSync s)

/-- A port domain stops carrying traffic: its ports count as off (R652, R764, R775, R806). -/
def State.domStop (s : State) (d : Nat) : State :=
  if d < 16 then (groupPorts d).foldl State.lineOff s
  else if d = 16 then [0, 1].foldl State.pairSync ([0, 1, 2, 3].foldl State.trunkOff s)
  else (audPorts.foldl State.audLose s).pnlStop.fansStop

/-- A port domain starts carrying traffic. -/
def State.domStart (s : State) (d : Nat) : State :=
  if d < 16 then (groupPorts d).foldl State.lineSync s
  else if d = 16 then s.trunksSync
  else audPorts.foldl State.audSync s

/-- The domains that R649 lets carry traffic. -/
def State.runNow (s : State) : BitVec 18 :=
  (s.act .PWR_RUN &&& s.reg .PWR_DOM_CTL &&& s.reg .PWR_DOM_STATUS).setWidth 18

/-- R649, R650 at a frame boundary or a commit: domains stop and start. -/
def State.runUpdate (s : State) : State :=
  let new := s.runNow
  let old := s.pwr.running
  let stop := (List.range 18).filter fun d => old.getLsbD d && !(new.getLsbD d)
  let start := (List.range 18).filter fun d => new.getLsbD d && !(old.getLsbD d)
  let s1 := stop.foldl State.domStop s
  start.foldl State.domStart { s1 with pwr := { s1.pwr with running := new } }

/-- A port domain powers off (R651, R674): pads are latched and state is lost. -/
def State.domPowerOff (s : State) (d : Nat) : State :=
  let s1 := s.latchPads ((List.range 20).filter fun g => decide (padDomain g = d))
  let s2 := s1.setReg .PWR_DOM_STATUS (s1.reg .PWR_DOM_STATUS &&& ~~~(BitVec.ofNat 32 (2 ^ d)))
  if d < 16 then (groupPorts d).foldl State.lineOff s2
  else if d = 16 then [0, 1, 2, 3].foldl State.trunkOff s2
  else s2.pnlLose

/-- A write of PWR_DOM_CTL (R648, R651). The Bool is an access error. -/
def State.domCtl (s : State) (v : Word) : State × Bool :=
  let old := s.reg .PWR_DOM_CTL
  let new := v &&& 0x3FFFF
  let cleared := old &&& ~~~new
  if cleared &&& s.act .PWR_RUN ≠ 0 then (s, true)
  else
    ((List.range 18).foldl (fun s d => if cleared.getLsbD d then s.domPowerOff d else s)
      (s.setReg .PWR_DOM_CTL new), false)

/-- DOMAIN_POWER_GOOD (R648). -/
def State.domGood (s : State) (d : Nat) : State :=
  if (s.reg .PWR_DOM_CTL).getLsbD d then s.setBit .PWR_DOM_STATUS d else s

/-! ### What is lost with a domain -/

/-- Drop registers, which then hold their reset values. -/
def State.dropRegs (s : State) (p : RegRef → Bool) : State :=
  { s with regs := s.regs.filter fun e => match regAt e.1 with | some r => !(p r) | none => true }

/-- Per-master latches of registers that are lost go with them. -/
def State.dropLatches (s : State) (p : RegRef → Bool) : State :=
  { s with latches := s.latches.filter fun e => match regAt (e.1 % 0x100000000) with | some r => !(p r) | none => true }

/-- A register kept in the fabric domain (R647, R505). -/
def inFabric (r : RegRef) : Bool :=
  match r.k.info.dom with
  | .fab | .apf => true
  | .seg => decide (r.i ≠ 0)
  | _ => false

/-- The fabric domain's contents after it powers up (R180, R181, R536, R537, R672): every register at its reset value,
every tenant but T0 OFF, no queue, no event, no commit. The die warning stands in the AON domain. -/
def State.fabricLose (s : State) : State :=
  let s1 := (s.dropRegs inFabric).dropLatches inFabric
  let s2 := { s1 with
    regs := s1.regs.filter fun e => decide (e.1 < 0x100000000)
    chg := s1.chg.filter fun e => match regAt e.1 with | some r => !(inFabric r) | none => false
    commits := [], fab := Fabric.init, lines := [], trunks := [], pairs := [], audio := [], hdlc := []
    tenants := [(0, { Tenant.init with st := .run })], queues := [], raised := [], pend := [], links := []
    pctrs := s1.pctrs.filter fun e => decide (e.1 / 8 ≠ 17)
    pnl := Panel.init
    th := { s1.th with inputs := [], fans := [], acting := [], tickDone := false } }
  s2.setB F.TH_STATUS_WARN s2.th.warn

/-- What a core loses when its domain powers off (R579, R664): everything but whether it starts at the wake. -/
def State.coreLose (s : State) (n : Nat) : State :=
  let c := s.core n
  let core := fun r : RegRef => decide (r.k.info.dom = .core ∧ r.i = n)
  let s1 := ((s.dropRegs core).dropLatches core).setCore n
    { Core.init with st := c.st, wasRun := c.wasRun, restart := c.restart, startAt := c.startAt }
  { s1 with pctrs := s1.pctrs.filter fun e => decide (e.1 / 8 ≠ n) }

end Sys2Proof.Machine
end

