-- ==== Sys2Proof/Machine/Perf.lean ====
section
/-!
DEFINITION. Machine/Perf.lean: performance counters beyond their counting (spec/15): fabric counters, overflow and its
hold, reading and writing 48 bits, PC samples and the sample ring. The fabric is block 17.
-/
namespace Sys2Proof.Machine

/-- Block and counter number of a counter. -/
def ctrOf : PerfCtr → Nat × Nat
  | .core n k => (n.val, k.val)
  | .fab k => (17, k.val)

def ctrNums (n : Nat) : List Nat := if n = 17 then [0, 1, 2, 3, 4, 5, 6, 7] else [0, 1, 2, 3]

/-- Fabric counters take their signals of one cycle of a frame boundary, by tenant where R563 filters (16 for a value
of no tenant); `ones_` cycles passed for ONE. -/
def State.fperf (s : State) (ones_ : Nat) (vals : List (Nat × Nat × Nat)) : State :=
  (ctrNums 17).foldl (fun s k =>
    let ctl := s.reg .FPERF_CTL k
    let sel := fieldOf ctl 0 5
    let edge := ctl.getLsbD 8
    if sel = 0 ∨ (s.reg .FPERF_GLOBAL).getLsbD k then s
    else
      let mine := vals.filter fun v => decide (v.1 = sel) &&
        (decide (v.2.1 = 16) || ctl.getLsbD 20 || decide (v.2.1 = fieldOf ctl 16 4))
      let total := mine.foldl (fun a v => a + v.2.2) 0
      let n := if sel = 1 then (if edge then 0 else ones_) else if edge then min 1 total else total
      let c := s.pctr 17 k
      if n = 0 then s else s.setPctr 17 k { c with val := c.val + n }) s

def State.setOvf (s : State) (n k : Nat) : State :=
  if n = 17 then s.setBit .FPERF_STATUS k else s.setBit .PERF_STATUS k n

/-- Raise a block's overflow event (R581). -/
def State.ovfEvent (s : State) (n : Nat) : State :=
  if n = 17 then s.raise 1007 else s.raiseTo (840 + 4 * n + 3) (s.coreOwner n)

/-- R566 for one counter that passed its largest value: wrap, and report or hold. The Bool says that the block's
event is due. -/
def State.wrapOne (s : State) (n k : Nat) : State × Bool :=
  let c := s.pctr n k
  if c.val < 2 ^ 48 then (s, false)
  else
    let free := c.holders.isEmpty
    let s1 := s.setPctr n k { c with val := c.val % 2 ^ 48, held := c.held || !free, inDel := c.inDel || free }
    if free then (s1.setOvf n k, true) else (s1, false)

/-- R566, R569: the counters of a block that have passed their largest value overflow, with one event. -/
def State.wrapBlock (s : State) (n : Nat) : State :=
  let r := (ctrNums n).foldl (fun (x : State × Bool) k =>
    let y := x.1.wrapOne n k
    (y.1, x.2 || y.2)) (s, false)
  if r.2 then r.1.ovfEvent n else r.1

/-- Report a held overflow once no read holds it (R565). -/
def State.holdEnds (s : State) (n k : Nat) : State :=
  let c := s.pctr n k
  if c.held ∧ c.holders = [] then
    ((s.setPctr n k { c with held := false, inDel := true }).setOvf n k).ovfEvent n
  else s

/-- R565: 64 cycles after a read of _LO its hold ends. Every hold lasts as long, so the oldest ends first. -/
def State.holdTimeout (s : State) (n k : Nat) : State :=
  (s.setPctr n k { s.pctr n k with holders := (s.pctr n k).holders.tail }).holdEnds n k

/-- A frame strobe as the counters see it: the cores' FRAME (R559), and the signals of the fabric's that have a value in
the cycle of a boundary (R562). -/
def State.strobePulses (s : State) (vals : List (Nat × Nat × Nat)) : State :=
  let s1 := (List.range 17).foldl (fun s n => if s.corePg n then (s.perf n [(20, 1)]).wrapBlock n else s) s
  (s1.fperf 0 ((2, 16, 1) :: vals)).wrapBlock 17

/-- Where per-master halves are kept: at the addresses of _LO and _HI. -/
def ctrLo (n k : Nat) : Nat := if n = 17 then RegKind.FPERF_CNT_LO.addr k 0 else RegKind.PERF_CNT_LO.addr n k
def ctrHi (n k : Nat) : Nat := if n = 17 then RegKind.FPERF_CNT_HI.addr k 0 else RegKind.PERF_CNT_HI.addr n k

/-- R564, R565: a read of _LO; a second one by a master begins its hold anew. -/
def State.readCntLo (s : State) (m : Master) (n k : Nat) : State × Word :=
  let s0 := s.wrapBlock n
  let c := s0.pctr n k
  let c' := { c with holders := (c.holders.filter fun h => decide (h ≠ m.id)) ++ [m.id] }
  ((s0.setPctr n k c').setLatch m (ctrHi n k) (BitVec.ofNat 32 (c.val / 2 ^ 32 % 2 ^ 16)), BitVec.ofNat 32 c.val)

/-- R564, R565: a read of _HI. -/
def State.readCntHi (s : State) (m : Master) (n k : Nat) : State × Word :=
  let s0 := s.wrapBlock n
  let c := s0.pctr n k
  let s1 := s0.setPctr n k { c with holders := c.holders.filter fun h => decide (h ≠ m.id) }
  (s1.holdEnds n k, s.latch m (ctrHi n k))

/-- R567: a write of _LO is held. -/
def State.writeCntLo (s : State) (m : Master) (n k : Nat) (v : Word) : State := s.setLatch m (ctrLo n k) v

/-- R567: a write of _HI loads both halves. -/
def State.writeCntHi (s : State) (m : Master) (n k : Nat) (v : Word) : State :=
  let s0 := s.wrapBlock n
  s0.setPctr n k { s0.pctr n k with val := fieldOf v 0 16 * 2 ^ 32 + (s.latch m (ctrLo n k)).toNat }

/-- R568: what a write of PERF_CTLk or FPERF_CTLk does beside the register. -/
def State.ctlZero (s : State) (n k : Nat) : State :=
  let c := s.pctr n k
  let sel := if n = 17 then 0 else s.f F.PERF_CTL_SEL n k
  let s1 := s.setPctr n k
    { PCtr.init with holders := c.holders, wait := c.wait, prev := decide (n ≠ 17) && s.levelNow n sel }
  if c.inDel && !((ctrNums n).any fun j => (s1.pctr n j).inDel) then
    let e := if n = 17 then 1007 else 840 + 4 * n + 3
    { s1 with raised := s1.raised.filter fun r => decide (r.num ≠ e) }
  else s1

/-- A write of PERF_CTLk (R560, R568) or FPERF_CTLk (R563, R568); the Bool is an access error. -/
def State.writePerfCtl (s : State) (n k : Nat) (v : Word) : State × Bool :=
  if n = 17 then
    if fieldOf v 0 5 > 7 then (s, true) else ((s.setReg .FPERF_CTL (v &&& 0x001F011F) k).ctlZero n k, false)
  else if fieldOf v 0 6 > 20 then (s, true)
  else ((s.setReg .PERF_CTL (v &&& 0x0000033F) n k).ctlZero n k, false)

/-! ### Samples -/

/-- A lost sample (R574). -/
def State.sampleLost (s : State) (n : Nat) : State := s.bump F.PERF_SBUF_LOST_LOST 1 (some F.PERF_SBUF_LOST_LOST_SAT) n

/-- Word 0 of the record that counter `k` of core `n` captures now (R570, R571): what the boundary of a running core
fixed; a core that does not run stands at a boundary, with the skid of the instructions completed and at least 1. -/
def State.captured (s : State) (n k : Nat) : Option Nat :=
  let c := s.pctr n k
  let core := s.core n
  if c.ready.isSome then c.ready
  else if core.st = .run ∨ !s.fabUp then none
  else some (s.sampleWord n k core.inHandler (max 1 (min 3 c.dueInstr)))

/-- R570 to R572: capture the sample that counter `k` of core `n` asks for, once its overflow has been delivered and its
boundary has come. -/
def State.capture (s : State) (n k : Nat) : State :=
  let c := s.pctr n k
  match c.due, s.captured n k with
  | some (frame, cycle), some w =>
    let core := s.core n
    let rec_ := leBytes 4 w ++ leBytes 4 frame.toNat ++ leBytes 2 cycle ++ leBytes 2 core.seq.toNat ++ leBytes 4 0
    let s1 := s.setCore n { core with seq := core.seq + 1 }
    let c' := { c with due := none, dueAt := 0, dueInstr := 0, ready := none }
    if c.wait.isSome then (s1.setPctr n k c').sampleLost n else s1.setPctr n k { c' with wait := some rec_ }
  | _, _ => s

/-- R573 to R575: write one record into core `n`'s ring, or lose it. -/
def State.sampleStore (s : State) (n : Nat) (r : List Byte) : State :=
  let size := s.f F.PERF_SBUF_CFG_SIZE_LOG2 n
  let wr := s.f F.PERF_SBUF_WR_WR n
  let a := s.f F.PERF_SBUF_BASE_BASE n * 16 + 16 * (wr % 2 ^ size)
  if !(s.b F.PERF_SBUF_CFG_EN n) then s.sampleLost n
  else if (wr + 2 ^ 17 - s.f F.PERF_SBUF_RD_RD n) % 2 ^ 17 ≥ 2 ^ size then s.sampleLost n
  else if !(s.pondOn a 16) then (s.setF F.PERF_SBUF_CFG_BANK_ERR 1 n).sampleLost n
  else (s.pondWrite 0x33 1 a r).1.setF F.PERF_SBUF_WR_WR ((wr + 1) % 2 ^ 17) n

/-- The waiting sample served next (R575). -/
def State.nextSample (s : State) : Option (Nat × Nat × List Byte) :=
  (List.range 17).findSome? fun n => [0, 1, 2, 3].findSome? fun k =>
    (s.pctr n k).wait.map fun r => (n, k, r)

/-- R575: a schedule entry of the sampler. -/
def State.sampleWrite (s : State) : State :=
  if s.divRun then
    match s.nextSample with
    | none => s
    | some (n, k, r) => (s.setPctr n k { s.pctr n k with wait := none }).sampleStore n r
  else s

/-- The first failing check of R576, or 0. -/
def State.ringCheck (s : State) (n size : Nat) : Nat :=
  let base := s.f F.PERF_SBUF_BASE_BASE n * 16
  let len := 16 * 2 ^ size
  if size < 4 ∨ size > 16 then 1
  else if base % len ≠ 0 then 2
  else if base + len > 0x1000000 ∨ base / 0x100000 ≠ (base + len - 1) / 0x100000 then 3
  else if s.segCovers (s.coreOwner n) base len false then 0 else 4

/-- A write of PERF_SBUF_CFG (R576, R580). -/
def State.writeSbufCfg (s : State) (n : Nat) (v : Word) : State :=
  let was := s.b F.PERF_SBUF_CFG_EN n
  let size := fieldOf v 4 5
  let s1 := s.setF F.PERF_SBUF_CFG_SIZE_LOG2 size n
  let s2 := if v.getLsbD 16 then s1.setF F.PERF_SBUF_CFG_BANK_ERR 0 n else s1
  if v.getLsbD 0 ∧ !was then
    match s2.ringCheck n size with
    | 0 => (((s2.setF F.PERF_SBUF_CFG_EN 1 n).setF F.PERF_SBUF_CFG_CFG_ERR 0 n).setF F.PERF_SBUF_WR_WR 0 n).setF
        F.PERF_SBUF_RD_RD 0 n
    | e => s2.setF F.PERF_SBUF_CFG_CFG_ERR e n
  else s2.setB F.PERF_SBUF_CFG_EN (v.getLsbD 0) n

end Sys2Proof.Machine
end

