-- ==== Sys2Proof/Machine/Commit.lean ====
section
/-!
DEFINITION. Machine/Commit.lean: commits (spec/01 R28 to R47, R849; spec/04 R158 to R174): issue, acceptance, rejection,
application, and the shadow views of registers.
-/
namespace Sys2Proof.Machine

def Scope.bit : Scope → Nat
  | .conn => 0
  | .sel => 1
  | .line => 2
  | .trunk => 3
  | .start => 4
  | .pwr => 5

/-- The address of a shadow connection entry, and of a shadow selector. -/
def isConn (a : Nat) : Bool := decide (a / 0x10000 = 0x100 ∧ a % 4 = 0)
def isSel (a : Nat) : Bool := decide (a / 0x10000 = 0x102 ∧ a % 4 = 0)

/-- The scope bit of a shadow view (R29). -/
def scopeOf (a : Nat) : Option Nat :=
  if isConn a then some 0 else if isSel a then some 1
  else
    match regAt a with
    | some r => r.k.info.scope.map Scope.bit
    | none => none

/-- Is a change within a tenant's rights (R40, R152, R153, R155)? -/
def State.changeOk (s : State) (t a : Nat) : Bool :=
  if isConn a then
    let n := a % 0x10000 / 4
    let w := (s.conn n).inactive
    decide (s.slotOwner n = t) && (!decide (entryMode w = 2) || decide (s.selOwner (fieldOf w 16 10) = t))
  else if isSel a then decide (s.selOwner (a % 0x10000 / 4) = t)
  else
    match regAt a with
    | some r => s.tenantMay t r
    | none => true

/-- The changes that a commit would cover (R30, R32, R161). -/
def State.covers (s : State) (t : Nat) (scope : BitVec 6) : List Nat :=
  s.chg.filterMap fun e =>
    if decide (e.2 = .dirty t) && (match scopeOf e.1 with | some b => scope.getLsbD b | none => false) then some e.1 else none

/-- Record and report a rejection (R43, R44). -/
def State.rejectNote (s : State) (t : Nat) (target : Word) (scope : BitVec 6) (reason : Nat) : State :=
  let s1 := ((s.setReg .FAB_CMT_REJ_FRAME target t).setReg .FAB_CMT_REJ_INFO
    (BitVec.ofNat 32 (scope.toNat + reason * 256)) t).raiseTo 641 t
  { s1 with fab := { s1.fab with
      rejected := tabPut (fun _ => 0) s1.fab.rejected t (tabGet (fun _ => 0) s1.fab.rejected t + 1) } }

def State.pendingOf (s : State) (t : Nat) : List Commit := s.commits.filter fun c => decide (c.tenant = t)

/-- Why a commit is rejected on arrival, 0 if it is accepted (R35, R36, R39, R40, R528, R849). -/
def State.arrival (s : State) (t : Nat) (target : Word) (scope : BitVec 6) : Nat :=
  let st := (s.ten t).st
  if st = .shedding ∨ st = .shed then 4
  else if !(after target s.frame) then 1
  else if (s.pendingOf t).length ≥ 64 then 2
  else if (s.covers t scope).any fun a => !(s.changeOk t a) then 3
  else 0

/-- An accepted commit holds its changes; idle rows that it needs power up (R161, R172), banks that it raises rise. -/
def State.accept (s : State) (t : Nat) (target : Word) (scope : BitVec 6) : State :=
  let as := s.covers t scope
  let up := if s.ba F.FAB_GATE_CTL_AUTO then
      (as.filter fun a => isConn a && decide (entryMode (s.conn (a % 0x10000 / 4)).inactive ≠ 0) &&
        s.fab.rowsDown.contains (a % 0x10000 / 4)).map (· % 0x10000 / 4)
    else []
  let s1 := as.foldl (fun s a => s.setChange a (.pending s.nextId)) s
  let s2 := up.foldl State.rowUp s1
  let s3 := { s2 with
    commits := s2.commits ++ [⟨s2.nextId, t, target, scope, up⟩]
    nextId := s2.nextId + 1 }
  if t = 0 ∧ scope.getLsbD 5 then s3.banksAccept else s3

/-- A commit arrives (R28, R35 to R41). -/
def State.issueCommit (s : State) (t : Nat) (target : Word) (scope : BitVec 6) : State :=
  match s.arrival t target scope with
  | 0 => s.accept t target scope
  | e => s.rejectNote t target scope e

/-! ### Rejection of pending commits -/

/-- The change of a shadow view goes back to CLEAN with the active copy unchanged (R46, R164). -/
def State.dropChange (s : State) (a : Nat) : State :=
  let s1 := s.setChange a .clean
  if isConn a || isSel a then s1
  else
    match regAt a with
    | some r => s1.setReg r.k (s1.act r.k r.i r.j) r.i r.j
    | none => s1

/-- Changes that a pending commit holds. -/
def State.heldBy (s : State) (id : Nat) : List Nat :=
  s.chg.filterMap fun e => if e.2 = .pending id then some e.1 else none

/-- Take a pending commit out, with its record and event; its changes become DIRTY again (R41, R163). -/
def State.rejectOne (s : State) (reason : Nat) (c : Commit) : State :=
  let s1 := (s.heldBy c.id).foldl (fun s a => s.setChange a (.dirty c.tenant)) s
  ({ s1 with commits := s1.commits.filter fun d => decide (d.id ≠ c.id) }).rejectNote c.tenant c.target c.scope reason

/-- R853: rows that rejected commits had powered up go down again. -/
def State.rowsBack (s : State) (cs : List Commit) : State :=
  (cs.flatMap (·.up)).foldl (fun s n =>
    if s.ba F.FAB_GATE_CTL_AUTO && decide (entryMode (s.conn n).active = 0) && !(s.willBusy n) then s.rowDown n else s) s

/-- A tail shed rejects a tenant's pending commits with SHED and discards its changes (R46, R529). -/
def State.rejectTenant (s : State) (t : Nat) : State :=
  let cs := s.pendingOf t
  let s1 := cs.foldl (fun s c => s.rejectOne 4 c) s
  let s2 := s1.rowsBack cs
  let s3 := if t = 0 then s2.banksReject else s2
  (s3.chg.filterMap fun e => if e.2 = .dirty t then some e.1 else none).foldl State.dropChange s3

/-- Entry to Brumation rejects every pending commit with HALTED (R47, R669). -/
def State.rejectAll (s : State) : State :=
  let s1 := s.commits.foldl (fun s c => s.rejectOne 5 c) s
  s1.banksReject

/-! ### Application -/

/-- Make one pending change active (R162), with the idle times of rows (R171, R853). -/
def State.applyAddr (s : State) (a : Nat) : State :=
  let s1 := s.setChange a .clean
  if !(s.change a).isPending then s
  else if isConn a then
    let n := a % 0x10000 / 4
    let c := s1.conn n
    let s2 := s1.setConn n c.flip
    if entryMode c.inactive = 0 ∧ entryMode c.active ≠ 0 then
      { s2 with fab := { s2.fab with idleFrom := tabPut (fun _ => 0) s2.fab.idleFrom n s2.ticks } }
    else s2
  else if isSel a then s1.setSel (a % 0x10000 / 4) (s1.sel (a % 0x10000 / 4)).flip
  else
    match regAt a with
    | some r => s1.setAct r.k (s1.reg r.k r.i r.j) r.i r.j
    | none => s1

/-- FAB_GATE_CTL applied (R174, R853). -/
def State.gateApplied (s : State) (old : Word) : State :=
  let on := s.ba F.FAB_GATE_CTL_AUTO
  if on && !(old.getLsbD 0) then { s with fab := { s.fab with gateFrom := s.ticks } }
  else if !on && old.getLsbD 0 then { s with fab := { s.fab with rowsDown := [] } }
  else s

/-- The pairs of trunks that a commit changed the mode of: they deliver now, from the frame on which it applies (R27,
R271). -/
def State.trunksApplied (s : State) (olds : List (RegRef × Word)) : State :=
  [0, 1].foldl (fun s k =>
    if olds.any fun e => decide (e.1.k = .TRK_CTL ∧ e.1.i / 2 = k) && trunkModeChange e.2 (s.act .TRK_CTL e.1.i) then
      s.trunksDeliver k
    else s) s

/-- What follows from an applied register, given its old active value. -/
def State.applied (s : State) (e : RegRef × Word) : State :=
  match e.1.k with
  | .FAB_GATE_CTL => s.gateApplied e.2
  | .PWR_RUN => s.runUpdate
  | .LINE_CTL => s.lineCtlApplied e.1.i e.2
  | .LINE_TX_E => s.lineTxEApplied e.1.i
  | .TRK_CTL => s.trunkCtlApplied e.1.i e.2
  | .TRK_TX_REI => s.trunkReiApplied e.1.i
  | _ => s

/-- Registers among changes, with the active values they replace. -/
def State.oldsOf (s : State) (as : List Nat) : List (RegRef × Word) :=
  as.filterMap fun a =>
    if isConn a || isSel a then none
    else (regAt a).map fun r => (r, s.act r.k r.i r.j)

/-- Which hooks run first: power, then the rest. -/
def isPwr (e : RegRef × Word) : Bool := decide (e.1.k.info.scope = some .pwr)

/-- Record and report an applied commit (R43, R44). -/
def State.applyNote (s : State) (c : Commit) : State :=
  ((s.setReg .FAB_CMT_APPLIED_FRAME c.target c.tenant).setReg .FAB_CMT_APPLIED_INFO
    (c.scope.setWidth 32) c.tenant).raiseTo 640 c.tenant

/-- COMMIT_APPLY: every commit pending for this frame takes effect together (R31, R37, R42, R183). Where several are one
tenant's, its record of applied commits keeps the one issued last, as R44 has it for rejected ones (log entry 95). -/
def State.commitApply (s : State) : State :=
  if !s.fabUp then s
  else
    let cs := s.commits.filter fun c => decide (c.target = s.frame) && !(s.shedDue c.tenant)
    let held := cs.map fun c => (c, s.heldBy c.id)
    let as := held.flatMap (·.2)
    let olds := s.oldsOf as
    let auds := audPorts.map fun p => (p, s.audChange olds p)
    let s1 := as.foldl State.applyAddr (auds.foldl (fun s e => s.audBefore e.1 e.2) s)
    let s2 := { s1 with commits := s1.commits.filter fun c => decide (c.target ≠ s.frame) || s.shedDue c.tenant }
    let s3 := (olds.filter isPwr).foldl State.applied s2
    let s4 := if cs.any fun c => decide (c.tenant = 0) && c.scope.getLsbD 5 then s3.banksApply else s3
    let s5 := ((olds.filter fun e => !(isPwr e)).foldl State.applied s4).trunksApplied olds
    let s6 := auds.foldl (fun s e => s.audApplied e.1 e.2) s5
    let s7 := cs.foldl State.applyNote s6
    (s7.fperf 0 ((cs.map fun c => (3, c.tenant, 1)) ++
      held.map fun e => (5, e.1.tenant, (e.2.filter fun a => isConn a || isSel a).length))).wrapBlock 17

/-! ### Shadow views of registers -/

/-- A write to the shadow view of a register by a tenant (R30, R33). The Bool is an access error. A WO bit is part of
the change, so that a commit applies it (R309), and reads as 0 (R8). -/
def State.shadowWrite (s : State) (t : Nat) (r : RegRef) (v : Word) : State × Bool :=
  let a := r.k.addr r.i r.j
  if (s.change a).isPending then (s, true) else ((s.setReg r.k v r.i r.j).setChange a (.dirty t), false)

end Sys2Proof.Machine
end

