-- ==== Sys2Proof/Machine/Tenant.lean ====
section
/-!
DEFINITION. Machine/Tenant.lean: tenants, their ownership and states, the tail shed, mailboxes and the event router
(spec/13).
-/
namespace Sys2Proof.Machine

def tenantNums : List Nat := List.range 16
def coreNums : List Nat := List.range 17

def State.coresOf (s : State) (t : Nat) : List Nat := coreNums.filter fun n => decide (s.coreOwner n = t)

/-! ### Ownership (R497 to R501) -/

def State.tenHeld (s : State) (t : Nat) : Bool :=
  decide ((s.ten t).st = .run) || decide ((s.ten t).st = .shedding)

/-- A bit of `v` is owned by another tenant from T1 to T15 in the register `k`. -/
def State.owned (s : State) (k : RegKind) (t w : Nat) (v : Word) : Bool :=
  others.any fun u => decide (u ≠ t) && decide (v &&& s.reg k u w ≠ 0)

/-- A write of TEN_CORES. The Bool is an access error (R500, R501). -/
def State.writeCores (s : State) (t : Nat) (v : Word) : State × Bool :=
  if t = 0 ∨ s.tenHeld t ∨ s.owned .TEN_CORES t 0 v then (s, true) else (s.setReg .TEN_CORES v t, false)

def State.writeOwn (s : State) (k : RegKind) (t w : Nat) (v : Word) : State × Bool :=
  if t = 0 ∨ s.owned k t w v then (s, true) else (s.setReg k v t w, false)

/-- A write of TEN_QRANGE (R500, R501). -/
def State.writeQrange (s : State) (t : Nat) (v : Word) : State × Bool :=
  let first := fieldOf v 0 14
  let count := fieldOf v 16 15
  let clash := others.any fun u =>
    let f := s.f F.TEN_QRANGE_FIRST u
    let c := s.f F.TEN_QRANGE_COUNT u
    decide (u ≠ t ∧ 0 < c ∧ 0 < count ∧ first < f + c ∧ f < first + count)
  if t = 0 ∨ s.tenHeld t ∨ first + count > 16384 ∨ clash then (s, true) else (s.setReg .TEN_QRANGE v t, false)

/-- Ownership registers of T0 read as what T0 owns (spec/13, after R503). -/
def State.readOwn (s : State) (k : RegKind) (t w : Nat) : Word :=
  if t ≠ 0 then s.reg k t w
  else
    let all := others.foldl (fun a u => a ||| s.reg k u w) 0
    match k with
    | .TEN_CORES => ~~~all &&& 0xFFFF
    | .TEN_QRANGE => 0
    | _ => ~~~all

/-! ### Tenant states (R504, R527 to R533, R862) -/

/-- A start in Torpor starts a wake with cause START (R665). -/
def State.startWake (s : State) : State :=
  if s.dev = 2 then { s with pwr := { s.pwr with deferred := s.pwr.deferred ||| 0x2000 } } else s

/-- START: the tenant enters RUN, and its newts start at the next boundary. -/
def State.tenStart (s : State) (t : Nat) : State :=
  if (s.ten t).st = .off then
    let s1 := s.setTen t { s.ten t with
      st := .run, returnAt := false, age := 0, cut := (s.ten t).cut && !(s.coresOf t).isEmpty }
    ((s.coresOf t).foldl (fun s n => s.setCore n { s.core n with startAt := true }) s1).startWake
  else s

/-- RETURN: a SHED tenant returns at the next boundary. -/
def State.tenReturn (s : State) (t : Nat) : State :=
  if (s.ten t).st = .shed then (s.setTen t { s.ten t with returnAt := true }).startWake else s

/-- STOP: a SHED tenant other than T0 is OFF, and so are its newts. -/
def State.tenStop (s : State) (t : Nat) : State :=
  if (s.ten t).st = .shed ∧ t ≠ 0 then
    (s.coresOf t).foldl (fun s n => s.setCore n { s.core n with st := .off, wasRun := false, startAt := false })
      (s.setTen t { s.ten t with st := .off, returnAt := false, age := 0 })
  else s

/-- A write of TEN_CTL by a tenant (R503, R862). The Bool is an access error. -/
def State.tenCtl (s : State) (by_ t : Nat) (v : Word) : State × Bool :=
  if by_ ≠ 0 then (if v.getLsbD 1 then s.shedRequest t 2 else s, false)
  else if ones (v &&& 0xF) > 1 then (s, true)
  else
    let s1 := s.setReg .TEN_CTL (v &&& 0x300) t
    (if v.getLsbD 0 then s1.tenStart t
     else if v.getLsbD 1 then s1.shedRequest t 1
     else if v.getLsbD 2 then s1.tenReturn t
     else if v.getLsbD 3 then s1.tenStop t
     else s1, false)

/-- Start a core now, or with the next wake if its domain is off (R504, R531, R666). -/
def State.startOrWait (s : State) (n : Nat) : State :=
  if s.corePg n then s.coreStart n else s.setCore n { s.core n with wasRun := true, startAt := false }

/-- Newts that START put off start at a boundary while their tenant runs (R504, R529). -/
def State.startDue (s : State) : State :=
  coreNums.foldl (fun s n =>
    if (s.core n).startAt && decide ((s.ten (s.coreOwner n)).st = .run) then s.startOrWait n else s) s

/-- A SHED tenant at a boundary: it returns if RETURN was written, or from frame f + 2 on if AUTO_RETURN is 1 (R531,
R532, R857). -/
def State.returnDue (s : State) (t : Nat) : State :=
  let x := s.ten t
  if x.st = .shed ∧ (x.returnAt ∨ (2 ≤ x.age ∧ (t = 0 ∨ s.b F.TEN_CTL_AUTO_RETURN t))) then
    let cs := (s.coresOf t).filter fun n => decide (t ≠ 0) || decide ((s.core n).st ≠ .off)
    let s1 := s.setTen t { x with st := .run, returnAt := false, age := 0, cut := x.cut && !cs.isEmpty }
    (cs.foldl State.startOrWait s1).raiseTo 1006 0
  else s

/-- Tenants at a frame boundary. -/
def State.tenantsFrame (s : State) : State :=
  let s1 := tenantNums.foldl (fun s t =>
    let x := s.ten t
    if x.st = .shedding ∨ x.st = .shed then s.setTen t { x with age := x.age + 1 } else s) s
  (tenantNums.foldl State.returnDue s1).startDue

/-- Each link discards its held entries for a tenant's queues (R640). -/
def State.dropHolds (s : State) (t : Nat) : State :=
  { s with links := s.links.map fun l =>
      (l.1, { l.2 with holds := l.2.holds.filter fun h => decide (s.queueOwner h.queue ≠ t) }) }

/-- R529 for one tenant. -/
def State.shedOne (s : State) (t : Nat) : State :=
  let s1 := s.rejectTenant t
  let cs := s1.coresOf t
  let s2 := cs.foldl State.dropAllPend s1
  let qs := (s2.queues.filter fun e => qEn e.2 && decide (s2.queueOwner e.1 = t)).map (·.1)
  let s3 := (qs.foldl State.qEmpty s2).dropHolds t
  let s4 := (cs.filter fun n => decide (t ≠ 0) || decide ((s3.core n).st ≠ .off)).foldl State.coreHold s3
  (s4.setTen t { s4.ten t with st := .shed }).raiseTo 1006 0

/-- TAIL_SHED: at the boundary after the request (R529), in the fabric's time. -/
def State.tailShed (s : State) : State :=
  if !s.fabUp then s
  else tenantNums.foldl (fun s t =>
    if s.shedDue t then s.shedOne t else s) s

/-! ### Mailboxes (R525, R526) -/

def viaLink : Master → Option Nat
  | .link k _ => some k.val
  | _ => none

/-- A write of TEN_MBX_DOOR. The Bool is an access error. -/
def State.mbxDoor (s : State) (m : Master) (t : Nat) (v : Word) : State × Bool :=
  let u := s.tenantOf m
  let bound := match viaLink m with
    | some k => (s.reg .TEN_LINKS t).getLsbD k
    | none => false
  if decide (u = 0) || decide (u = t) || bound || (s.reg .TEN_MBX_ALLOW t).getLsbD u then
    let s1 := s.setReg .TEN_MBX v t
    let s2 := s1.setF F.TEN_MBX_INFO_SENDER u t
    let s3 := (s2.setB F.TEN_MBX_INFO_VIA_LINK (viaLink m).isSome t).setF F.TEN_MBX_INFO_LINK ((viaLink m).getD 0) t
    let s4 := if (s.ten t).mbxFull then s3.setF F.TEN_MBX_INFO_OVER 1 t else s3
    ((s4.setTen t { s4.ten t with mbxFull := true }).raiseTo (988 + t) t, false)
  else (s, true)

/-- A read of TEN_MBX leaves nothing unread (R9, R526). -/
def State.mbxRead (s : State) (t : Nat) : State :=
  (s.setTen t { s.ten t with mbxFull := false }).setReg .TEN_MBX 0 t

/-! ### The event router (R518 to R523, R860) -/

/-- Both masks let a source through to a core (R519). -/
def State.unmasked (s : State) (n e : Nat) : Bool :=
  (s.reg .TEN_EVT_MASK (s.coreOwner n) (e / 32)).getLsbD (e % 32) && (s.reg .CORE_EVT_EN n (e / 32)).getLsbD (e % 32)

/-- Deliver an event to a core, or merge it (R521). -/
def State.deliverTo (s : State) (n e : Nat) (stamp : Word) : State :=
  match tabGet (fun _ => none) s.pend (pendKey n e) with
  | some _ => if s.f F.EVR_MERGED_COUNT n = 0xFFFF then s else s.setF F.EVR_MERGED_COUNT (s.f F.EVR_MERGED_COUNT n + 1) n
  | none => ({ s with pend := tabPut (fun _ => none) s.pend (pendKey n e) (some stamp) } : State).levels n

/-- One raised event in its delivery window (R519); sources are numbered 0 to 1,023 (R518). -/
def State.deliverOne (s : State) (r : Raised) : State :=
  coreNums.foldl (fun s n =>
    let mine := match r.tenant with
      | some t => decide (s.coreOwner n = t)
      | none => true
    if mine && decide (r.num < 1024) && s.unmasked n r.num then s.deliverTo n r.num r.stamp else s) s

/-- The events that wait for their delivery window, delivered (R520). Their overflows can no longer be discarded
(R568). -/
def State.deliverAll (s : State) : State :=
  let s1 := s.raised.foldl State.deliverOne { s with raised := [] }
  { s1 with pctrs := s1.pctrs.map fun e => (e.1, { e.2 with inDel := false }) }

/-- EVENT_DELIVERY: a delivery window. A core that was clock-gated takes 8 cycles to run (R434, R654), and a core that
waits in `wev` completes it (R378). -/
def State.eventDelivery (s : State) : State :=
  if !s.fabUp then s
  else
    let sleepers := coreNums.filter s.gated
    let s1 := s.deliverAll
    let s2 := (sleepers.filter fun n => !(s1.gated n)).foldl (fun s n => s.spend n 0 8 []) s1
    coreNums.foldl State.wevFinish s2

/-- AON_EVENT_RELEASE (R860). -/
def State.releaseHeld (s : State) : State :=
  if s.fabUp then { s with raised := s.raised ++ s.held.map fun n => ⟨n, none, s.frame⟩, held := [] } else s

/-- R523: the bits that a write clears in word `w` of a mask discard those sources' pending events at `cores`. -/
def State.discardMasked (s : State) (cores : List Nat) (w : Nat) (cleared : Word) : State :=
  { s with pend := s.pend.filter fun e =>
      !(cores.contains (e.1 / 1024) && decide (e.1 % 1024 / 32 = w) && cleared.getLsbD (e.1 % 32)) }

def State.writeMask (s : State) (t w : Nat) (v : Word) : State :=
  (s.setReg .TEN_EVT_MASK v t w).discardMasked (s.coresOf t) w (s.reg .TEN_EVT_MASK t w &&& ~~~v)

def State.writeEvtEn (s : State) (n w : Nat) (v : Word) : State :=
  (s.setReg .CORE_EVT_EN v n w).discardMasked [n] w (s.reg .CORE_EVT_EN n w &&& ~~~v)

/-- CORE_EVT_PEND as it reads. -/
def State.pendWord (s : State) (n w : Nat) : Word :=
  (s.pendList n).foldl (fun a e => if e.1 / 32 = w then a ||| BitVec.ofNat 32 (2 ^ (e.1 % 32)) else a) 0

end Sys2Proof.Machine
end

