-- ==== Sys2Proof/Machine/Clock.lean ====
section
/-!
DEFINITION. Machine/Clock.lean: the clock root and device time (spec/02 R64 to R95, spec/11 R854): starting and
stopping the oscillator, the root PLL and the derived clocks, the eft's clock source, SYS_TIME and the RTC.
-/
namespace Sys2Proof.Machine

/-- PLL_LOCK changes (R95). -/
def State.setLock (s : State) (b : Bool) : State :=
  if s.b F.CLK_ROOT_STATUS_PLL_LOCK = b then s else (s.setB F.CLK_ROOT_STATUS_PLL_LOCK b).raise 656

/-- A core that runs keeps its place in an instruction as its clock stops or changes, with a free number of cycles
passed, below 33, the longest count (R854). -/
def State.keepPlace (s : State) (n : Nat) : State :=
  if (s.core n).st = .run then
    let k := s.free.1 % 33
    let s1 := s.free.2.spend n 0 k []
    s1.setCore n { s1.core n with part := k }
  else s

/-- The eft moves to the FRC at once, without the stall of R81, and within an instruction if it ran on CORE_CLK
(R86, R87, R854). -/
def State.eftToFrc (s : State) : State :=
  let s1 := if s.b F.CLK_EFT_SRC_CUR then s.keepPlace 16 else s
  (s1.setF F.CLK_EFT_SRC_SRC 0).setF F.CLK_EFT_SRC_CUR 0

/-- What the stop of the derived clocks does to a core (R854): a prefetch on its way is abandoned, a running cache load
too, with LOAD_ERR, and a newt that runs keeps its place. -/
def State.coreClockStop (s : State) (n : Nat) : State :=
  let s1 := if n = 16 then s else s.keepPlace n
  let c := s1.core n
  let s2 := s1.setCore n { c with lb := c.lb.bind fun b => if b.left = 0 then some b else none, load := none }
  if c.load.isSome then (s2.setF F.CORE_ICACHE_LOAD_LOAD_ERR 1 n).setF F.CORE_ICACHE_LOAD_BUSY 0 n else s2

/-- AUD_CLK cycles of the frame that have passed now: a free number, not below what was seen before (R73). -/
def State.intoFrame (s : State) : Nat × State :=
  (s.clk.into + s.free.1 % (3072 - s.clk.into), s.free.2)

/-- The derived clocks stop (R92, R764, R314); `strobe` says that they stop at a frame strobe (R88, R89). SYS_TIME
holds the count that it has reached. -/
def State.stopClocks (s : State) (strobe : Bool) : State :=
  if !s.divRun then s
  else
    let s1 := (audPorts.foldl State.audLose s).pnlOff
    let s2 := coreNums.foldl State.coreClockStop s1
    let r := if strobe then (0, s2) else s2.intoFrame
    { r.2.setF F.CLK_ROOT_STATUS_DIV_RUN 0 with clk := { r.2.clk with midFrame := !strobe, into := r.1 } }

/-- The root PLL and the oscillator wait for it stop. -/
def State.stopPll (s : State) : State :=
  { s.setLock false with clk := { s.clk with settling := false, pllOn := false } }

/-! ### CLK_ROOT_CTL (R79, R83, R84, R703) -/

/-- Restarts that a core held while its domain was off act (R856). -/
def State.heldRestarts (s : State) (ns : List Nat) : State :=
  ns.foldl (fun s n => if (s.core n).restart then (s.setCore n { s.core n with restart := false }).restartWrite n else s) s

/-- Newts that lost their power in Brumation start (R456). -/
def State.newtsReturn (s : State) : State :=
  (List.range 16).foldl (fun s n =>
    if (s.core n).wasRun then (s.setCore n { s.core n with wasRun := false }).coreRestart n else s) s

/-- The fabric and newt domains power up, with CORE_EN, unless they are on; in Brumation nothing does (R672, R703). -/
def State.fabricOn (s : State) : State :=
  if s.dev = 3 ∨ s.fabPg then s
  else
    let s1 := (s.setF F.PWR_DOM_STATUS_FAB_PG 1).setF F.PWR_DOM_STATUS_NEWT_PG 1
    ({ s1 with rst := { s1.rst with coreEn := true }, pwr := { s1.pwr with isolated := true } }).newtsReturn.heldRestarts
      (List.range 16)

/-- PLL_EN becomes 1: OSC_EN rises and the settle count runs, or the PLL is enabled at once where OSC_EN stayed high
through Brumation. -/
def State.pllSet (s : State) : State :=
  let k := s.clk.kept
  let s1 := { s with clk := { s.clk with oscEn := true, settling := !k, kept := false, pllOn := k } }
  (if k then s1.setF F.CLK_ROOT_STATUS_OSC_OK 1 else s1).fabricOn

/-- A switch of the eft's clock after the instruction, with its stall: two free numbers from 0 to 3, one for each clock
(R81, log entry 16). -/
def State.eftSwitch (s : State) (core : Bool) : State :=
  if s.b F.CLK_EFT_SRC_CUR = core then s
  else
    let (a, s1) := s.free
    let (b, s2) := s1.free
    let s3 := s2.setB F.CLK_EFT_SRC_CUR core
    if s3.corePg 16 then s3.spend 16 0 (a % 4 + b % 4) [] else s3

/-- PLL_EN becomes 0 (R83): the eft returns to the FRC by a switch, then the derived clocks stop, then the PLL. OSC_EN
stays as it is. -/
def State.pllClear (s : State) : State :=
  (((s.setF F.CLK_EFT_SRC_SRC 0).eftSwitch false).stopClocks false).stopPll

/-- A write of CLK_ROOT_CTL. -/
def State.rootCtl (s : State) (v : Word) : State :=
  let was := s.b F.CLK_ROOT_CTL_PLL_EN
  let s1 := s.setReg .CLK_ROOT_CTL (v &&& 0xFFFF0003)
  if v.getLsbD 0 && !was then s1.pllSet
  else if !(v.getLsbD 0) && was then s1.pllClear
  else s1

/-- `cycles` FRC cycles have passed since OSC_EN rose: at OSC_SETTLE the root PLL is enabled (R79). OSC_OK rises here,
or with PLL_EN where OSC_EN stayed high through Brumation: the manual names no moment (log entry 13). -/
def State.settleEnd (s : State) (cycles : Nat) : State :=
  if s.clk.settling && decide (s.f F.CLK_ROOT_CTL_OSC_SETTLE ≤ cycles) then
    { s.setF F.CLK_ROOT_STATUS_OSC_OK 1 with clk := { s.clk with settling := false, pllOn := true } }
  else s

/-! ### The derived clocks start (R69, R89 to R91) -/

/-- At the first frame strobe: the frame number, SYS_TIME counting on from FRAME_COUNT × 3,072, and the RTC as latched
(R89 to R91). What becomes of the bytes of an interrupted frame is log entry 92. -/
def State.timeResume (s : State) : State :=
  let f := if s.clk.midFrame then s.frame + 1 else s.frame
  let s1 := { s with
    frame := f
    sys := BitVec.ofNat 64 (f.toNat * 3072)
    secDone := if s.clk.midFrame then false else s.secDone
    clk := { s.clk with midFrame := false, into := 0 } }
  ((s1.setReg .TIME_RESUME_FRAME f).setReg .TIME_RESUME_RTC_LO (s.rtc.setWidth 32)).setReg
    .TIME_RESUME_RTC_HI ((s.rtc >>> 32).setWidth 32)

/-- Lines, trunks and pairs that were carrying traffic search again (R92). The frame that a stop interrupted leaves a
submultiframe without its CRC-4 (R213). -/
def State.portsRestart (s : State) (lost : Bool) : State :=
  let s1 := linePorts.foldl (fun s p =>
    if (s.line p).on then
      ((if lost then s.setLine p (s.line p).noCrc else s).lineStart p).lineRecentre p
    else s) s
  let s2 := [0, 1, 2, 3].foldl (fun s t =>
    let s := if lost then s.traceTake t (s.frame - 1).toNat else s
    if (s.trunk t).on then s.trunkStart t else s) s1
  let s3 := [0, 1].foldl (fun s k => if (s.pair k).formed then s.setPair k Pair.init else s) s2
  [0, 1].foldl State.pairSync s3

/-- What begins with the first frame: what an interrupted frame leaves (`lost`), the cores' cycles, the schedule entry,
the sources' first bytes, the newts' mailboxes (R441), and the strobe that the counters see (R559, R562). -/
def State.firstFrame (s : State) (lost : Bool) : State :=
  let s0 := if lost then s.lostFrame else s
  let s1 := coreNums.foldl (fun s n => s.setCore n { s.core n with fcyc := 0 }) s0
  let s2 := { s1 with scrub := 0, fab := { s1.fab with src := s1.sources } }
  ((List.range 16).foldl State.mailboxIn s2).strobePulses []

/-- PLL_LOCK rises: the dividers start. -/
def State.pllLock (s : State) : State :=
  if s.clk.pllOn && !(s.b F.CLK_ROOT_STATUS_PLL_LOCK) then
    let s1 := s.timeResume.setF F.CLK_ROOT_STATUS_DIV_RUN 1
    let s2 := (s1.setLock true).portsRestart s.clk.midFrame
    (audPorts.foldl State.audSync s2).refStart.firstFrame s.clk.midFrame
  else s

/-! ### CLK_EFT_SRC (R80, R81) -/

/-- A write of CLK_EFT_SRC. -/
def State.eftSrc (s : State) (v : Word) : State :=
  let want := v.getLsbD 0
  if want && !(s.b F.CLK_ROOT_STATUS_PLL_LOCK) then (s.setF F.CLK_EFT_SRC_SW_ERR 1).raise 658
  else
    let s1 := if v.getLsbD 2 then s.setF F.CLK_EFT_SRC_SW_ERR 0 else s
    (s1.setB F.CLK_EFT_SRC_SRC want).eftSwitch want

/-! ### Failures (R86, R87) -/

/-- A cause of waking occurs while the core domains are off: it waits until the device acts on it. -/
def State.defer (s : State) (bit : Nat) : State :=
  { s with pwr := { s.pwr with deferred := s.pwr.deferred ||| BitVec.ofNat 14 (2 ^ bit) } }

/-- What the oscillator monitor compares (R85): FRC cycles since the last edge of OSC_IN, and the edges counted over the
last 16,000 FRC cycles. -/
def oscBad (quiet edges : Nat) : Bool := decide (16 ≤ quiet ∨ edges < 11059 ∨ 13517 < edges)

/-- The oscillator monitor, which works while OSC_EN is high, declares failure (R85, R86). -/
def State.oscFail (s : State) (quiet edges : Nat) : State :=
  if s.clk.oscEn && oscBad quiet edges then
    let s1 := (s.eftToFrc.stopClocks false).stopPll.setF F.CLK_ROOT_STATUS_OSC_OK 0
    let s2 := ((s1.setF F.CLK_ROOT_CTL_PLL_EN 0).setF F.CLK_ROOT_STATUS_OSC_FAIL 1).raise 657
    if s.dev = 2 then s2.defer 12 else s2
  else s

/-- PLL_LOCK falls with the oscillator good. -/
def State.lockLost (s : State) : State :=
  if s.clk.pllOn && s.b F.CLK_ROOT_STATUS_PLL_LOCK then
    ((s.eftToFrc.stopClocks false).setF F.CLK_ROOT_STATUS_LOCK_LOST 1).setLock false
  else s

/-- The FRC is measured (R72). -/
def State.frcMeasure (s : State) (hz : Nat) : State :=
  if s.divRun then s.setF F.CLK_FRC_MEAS_FRC_HZ hz else s

/-! ### Time registers (R75, R77, R680) -/

/-- SYS_TIME now: the count at the last frame strobe and the cycles since; stopped, it holds. -/
def State.sysNow (s : State) : BitVec 64 × State :=
  if s.divRun then
    let (k, s1) := s.intoFrame
    (s1.sys + BitVec.ofNat 64 k, { s1 with clk := { s1.clk with into := k } })
  else (s.sys + BitVec.ofNat 64 s.clk.into, s)

def sysHiAddr : Nat := RegKind.SYS_TIME_HI.addr 0 0
def rtcHiAddr : Nat := RegKind.RTC_HI.addr 0 0
def rtcLoAddr : Nat := RegKind.RTC_LO.addr 0 0

def State.sysTimeLo (s : State) (m : Master) : State × Word :=
  let (t, s1) := s.sysNow
  (s1.setLatch m sysHiAddr ((t >>> 32).setWidth 32), t.setWidth 32)

def State.rtcLoRead (s : State) (m : Master) : State × Word :=
  (s.setLatch m rtcHiAddr ((s.rtc >>> 32).setWidth 32), s.rtc.setWidth 32)

/-- The RTC's low half is held: one hold, since only T0 writes it (R77, R78). -/
def State.rtcLoWrite (s : State) (v : Word) : State := s.setReg .RTC_LO v

def State.rtcHiWrite (s : State) (v : Word) : State :=
  { s with rtc := BitVec.ofNat 48 ((v.toNat % 0x10000) * 0x100000000 + (s.reg .RTC_LO).toNat) }

end Sys2Proof.Machine
end

