-- ==== Sys2Proof/Machine/Nvm.lean ====
section
/-!
DEFINITION. Machine/Nvm.lean: the NVM controller and the external flash (spec/19 R711 to R713, R723 to R732, R746 to
R750): its commands, their errors, discovery, and what thermal shutdown does to a program or erase.
-/
namespace Sys2Proof.Machine

/-- CRC-32C (R591). -/
def crc32c (bs : List Byte) : Word := ~~~(crcRefl 0x82F63B78 0xFFFFFFFF (octetBits bs))

/-! ### The two stores -/

def isXf (op : Nat) : Bool := decide (9 ≤ op)

/-- The command without its store: 1 read, 2 block, 3 page, 4 erase, 5 margin (R724). -/
def opKind (op : Nat) : Nat := if isXf op then op - 8 else op

def opDefined (op : Nat) : Bool := decide ((1 ≤ op ∧ op ≤ 5) ∨ (9 ≤ op ∧ op ≤ 12))

/-- Program or erase operations (R668, R705). -/
def opWrites (op : Nat) : Bool := decide (2 ≤ opKind op ∧ opKind op ≤ 4)

def State.flash (s : State) (xf : Bool) : Tab Byte := if xf then s.nvm.xf else s.nvm.nvm

def State.setFlash (s : State) (xf : Bool) (t : Tab Byte) : State :=
  if xf then { s with nvm := { s.nvm with xf := t } } else { s with nvm := { s.nvm with nvm := t } }

def State.flashByte (s : State) (xf : Bool) (a : Nat) : Byte := tabGet (fun _ => 0xFF) (s.flash xf) a

def State.flashBytes (s : State) (xf : Bool) (a n : Nat) : List Byte :=
  (List.range n).map fun i => s.flashByte xf (a + i)

/-- A program changes 1s to 0s (R713). -/
def State.flashProgram (s : State) (xf : Bool) (a : Nat) : List Byte → State
  | [] => s
  | b :: t =>
    (s.setFlash xf (tabPut (fun _ => 0xFF) (s.flash xf) a (s.flashByte xf a &&& b))).flashProgram xf (a + 1) t

/-- An erase sets a 4 KB sector to all 1s (R713). -/
def State.flashErase (s : State) (xf : Bool) (a : Nat) : State :=
  s.setFlash xf ((s.flash xf).filter fun e => decide (e.1 / 4096 ≠ a / 4096))

/-- Bytes left in an unknown state: free values. -/
def State.flashFree (s : State) (xf : Bool) (a n : Nat) : State :=
  let t := (List.range n).foldl (fun t i => tabPut (fun _ => 0xFF) t (a + i) (Config.freeByte (s.freeCtr + i))) (s.flash xf)
  { s.setFlash xf t with freeCtr := s.freeCtr + n }

/-- Bytes of the store: 2 MB of NVM; what SFDP gave, and 16 MB at most with 3-byte addresses (R711, R728). -/
def State.flashSize (s : State) (xf : Bool) : Nat :=
  if xf then
    let n := s.nvm.xfMbit * 131072
    if s.b F.XF_STATUS_ADDR4 then n else min n 0x1000000
  else 0x200000

def State.pageSize (s : State) (xf : Bool) : Nat := if xf then s.nvm.xfPage else 256

/-! ### Pond memory as the controller sees it, word by word -/

/-- Split bytes at 8-byte boundaries. -/
def wordChunks : Nat → Nat → List Byte → List (Nat × List Byte)
  | 0, _, _ => []
  | k + 1, a, bs =>
    if bs = [] then []
    else
      let n := 8 - a % 8
      (a, bs.take n) :: wordChunks k (a + n) (bs.drop n)

/-- Read bytes of pond memory; none from the first word that cannot be read. -/
def State.nvFetch (s : State) (a n : Nat) : State × Option (List Byte) :=
  (wordChunks (n / 8 + 2) a (List.replicate n 0)).foldl (fun (x : State × Option (List Byte)) c =>
    match x.2 with
    | none => x
    | some got =>
      if x.1.pondOn c.1 c.2.length then
        match x.1.pondRead 0x34 1 c.1 c.2.length with
        | (s1, some bs) => (s1, some (got ++ bs))
        | (s1, none) => (s1, none)
      else (x.1, none)) (s, some [])

/-- Write bytes to pond memory; the Bool says that every word could be written. -/
def State.nvStore (s : State) (a : Nat) (bs : List Byte) : State × Bool :=
  (wordChunks (bs.length / 8 + 2) a bs).foldl (fun (x : State × Bool) c =>
    if x.2 && x.1.pondOn c.1 c.2.length then x.1.pondWrite 0x34 1 c.1 c.2 else (x.1, false)) (s, true)

/-! ### Commands (R723 to R725) -/

/-- RANGE. -/
def State.nvRange (s : State) (op addr pond len : Nat) : Bool :=
  let xf := isXf op
  let size := s.flashSize xf
  match opKind op with
  | 1 => decide (addr + len > size ∨ pond + len > 0x1000000)
  | 2 => decide (addr % 4096 ≠ 0 ∨ addr + 4096 > size ∨ pond + 4096 > 0x1000000)
  | 3 => decide (len = 0 ∨ len > 256 ∨ addr % s.pageSize xf + len > s.pageSize xf ∨ addr + len > size ∨
      pond + len > 0x1000000)
  | 4 => decide (addr % 4096 ≠ 0 ∨ addr + 4096 > size)
  | _ => decide (addr % 256 ≠ 0 ∨ addr + 256 > size)

/-- PROTECTED: a program or erase inside a locked froglet copy (R726). -/
def State.nvProtected (s : State) (op addr : Nat) : Bool :=
  !(isXf op) && opWrites op &&
    ((decide (addr < 0x10000) && !(s.b F.NVM_CTL_FROG_UNLOCK0)) ||
      (decide (0x10000 ≤ addr ∧ addr < 0x20000) && !(s.b F.NVM_CTL_FROG_UNLOCK1)))

/-- The error that a command has before it does anything, or 0. -/
def State.nvErr (s : State) (op addr pond len : Nat) : Nat :=
  if isXf op ∧ !(s.b F.XF_STATUS_READY) then 7
  else if s.nvRange op addr pond len then 2
  else if s.nvProtected op addr then 3 else 0

/-- A write of NVM_CMD with a defined OP. -/
def State.nvCmd (s : State) (v : Word) : State :=
  if v.getLsbD 31 then
    if s.nvm.job.isSome then (s.setF F.NVM_STATUS_ERR 1).raise 825
    else
      let op := fieldOf v 0 4
      let addr := s.f F.NVM_ADDR_ADDR
      let pond := s.f F.NVM_POND_POND
      let len := s.f F.NVM_LEN_LEN
      let s1 := (s.setF F.NVM_CMD_OP op).setF F.NVM_STATUS_BUSY 1
      { s1 with nvm := { s1.nvm with job := some ⟨op, addr, pond, len, s.nvErr op addr pond len⟩ } }
  else s.setF F.NVM_CMD_OP (fieldOf v 0 4)

/-- A write of NVM_CTL (R726). -/
def State.nvCtl (s : State) (v : Word) : State :=
  if s.b F.NVM_CTL_LOCK_DOWN then s
  else if fieldOf v 0 2 = 3 then s
  else s.setReg .NVM_CTL (v &&& 7)

/-- The journal entry that the controller writes itself (R730, R732). -/
def State.journal (s : State) (typ arg0 arg1 : Nat) : State :=
  let slot := s.f F.NVM_JNEXT_SLOT
  let body := [0x4A, BitVec.ofNat 8 typ, 0, 0] ++ leBytes 4 (s.reg .NVM_JSEQ).toNat ++ leBytes 4 arg0 ++ leBytes 4 arg1 ++
    List.replicate 12 0
  let s1 := s.flashProgram false (0x20000 + 32 * slot) (body ++ leBytes 4 (crc32c body).toNat)
  (s1.setF F.NVM_JNEXT_SLOT ((slot + 1) % 2048)).setReg .NVM_JSEQ (s1.reg .NVM_JSEQ + 1)

/-- A command ends (R723). -/
def State.nvEnd (s : State) (err : Nat) : State :=
  let s1 := ({ s with nvm := { s.nvm with job := none } }.setF F.NVM_STATUS_BUSY 0).setF F.NVM_STATUS_ERR err
  s1.raise (if err = 0 then 824 else 825)

/-- A command that shutdown or abort cut short: the manual gives no error code, so it is free. -/
def State.nvCut (s : State) : State :=
  let (n, s1) := s.free
  s1.nvEnd (n % 16)

/-- A read (NV_READ, XF_READ). -/
def State.nvRead (s : State) (j : NvmJob) : State :=
  let bs := s.flashBytes (isXf j.op) j.addr j.len
  match s.nvStore j.pond bs with
  | (s1, true) => (s1.setReg .NVM_CRC_OUT (crc32c bs)).nvEnd 0
  | (s1, false) => s1.nvEnd 5

/-- The data of a block command: read and checked before anything is erased. -/
def State.nvData (s : State) (j : NvmJob) : State × Nat × List Byte :=
  match s.nvFetch j.pond 4096 with
  | (s1, none) => (s1, 5, [])
  | (s1, some bs) => if crc32c bs = s1.reg .NVM_CRC_IN then (s1, 0, bs) else (s1, 4, [])

/-- A block command during which shutdown was declared (R746, R747): it stops in the erase or after some page, which
the command does not say: a free number. -/
def State.nvBlockHot (s : State) (j : NvmJob) (bs : List Byte) : State :=
  let (n, s0) := s.free
  let k := n % 17
  if k = 0 then ((s0.flashFree false j.addr 4096).journal 10 j.addr 0).nvCut
  else
    let s1 := (s0.flashErase false j.addr).flashProgram false j.addr (bs.take (256 * k))
    (s1.journal 9 (j.addr + 256 * (k - 1)) 1).nvCut

/-- The flash's busy bit stayed set (XF_TIMEOUT): its state is unknown. -/
def State.xfLost (s : State) (j : NvmJob) : State :=
  (if opKind j.op = 3 then s.flashFree true j.addr j.len else s.flashFree true j.addr 4096).nvEnd 8

/-- A command that found no error at its start ends; `fault` is VERIFY or XF_TIMEOUT where the flash gives it. -/
def State.nvPerform (s : State) (j : NvmJob) (fault : Nat) : State :=
  let xf := isXf j.op
  let hot := s.th.shut && !xf
  let timeout := decide (fault = 8) && xf
  let verify := if fault = 6 then 6 else 0
  match opKind j.op with
  | 1 => s.nvRead j
  | 2 =>
    match s.nvData j with
    | (s1, 0, bs) =>
      if hot then s1.nvBlockHot j bs
      else if timeout then s1.xfLost j
      else ((s1.flashErase xf j.addr).flashProgram xf j.addr bs).nvEnd verify
    | (s1, e, _) => s1.nvEnd e
  | 3 =>
    match s.nvFetch j.pond j.len with
    | (s1, none) => s1.nvEnd 5
    | (s1, some bs) =>
      if timeout then s1.xfLost j
      else
        let s2 := s1.flashProgram xf j.addr bs
        (if hot then s2.journal 9 (j.addr / 256 * 256) 0 else s2).nvEnd 0
  | 4 =>
    if hot then ((s.flashFree false j.addr 4096).journal 10 j.addr 0).nvCut
    else if timeout then s.xfLost j
    else (s.flashErase xf j.addr).nvEnd 0
  | _ => s.nvEnd verify

/-- Pond memory and the external flash need the derived clocks (R491, R729). -/
def opNeedsClocks (op : Nat) : Bool := isXf op || decide (opKind op ≤ 3)

/-- NVM_DONE, without the reset that may have waited for it. -/
def State.nvDone (s : State) (fault : Nat) : State :=
  match s.nvm.job with
  | none => s
  | some j =>
    if j.err ≠ 0 then s.nvEnd j.err
    else if opNeedsClocks j.op && !s.divRun then s
    else s.nvPerform j fault

/-- R748: at 145 °C a program or erase stops at once. -/
def State.nvAbort (s : State) : State :=
  match s.nvm.job with
  | none => s
  | some j =>
    if s.th.abort && opWrites j.op then
      if j.err ≠ 0 then s.nvEnd j.err
      else (if opKind j.op = 3 then s.flashFree (isXf j.op) j.addr j.len
        else s.flashFree (isXf j.op) j.addr 4096).nvCut
    else s

/-- A program or erase runs (R668, R705). -/
def State.nvBusyWriting (s : State) : Bool :=
  match s.nvm.job with
  | some j => opWrites j.op
  | none => false

/-! ### External flash discovery (R727, R728) -/

def byteAt (bs : List Byte) (i : Nat) : Nat := (bs.getD i 0xFF).toNat

/-- DWORD `n` (from 1) of the Basic Flash Parameter Table; 0 beyond its end. -/
def bfpt (bs : List Byte) (n : Nat) : Nat :=
  let base := leNat ((bs.drop 12).take 3)
  if n ≤ byteAt bs 11 then leNat ((bs.drop (base + 4 * (n - 1))).take 4) else 0

/-- floor of the base-2 logarithm. -/
def log2Floor : Nat → Nat → Nat
  | 0, _ => 0
  | k + 1, n => if n ≤ 1 then 0 else 1 + log2Floor k (n / 2)

/-- log2 of the size in bits (DWORD 2). -/
def sfdpDensity (bs : List Byte) : Nat :=
  let d := bfpt bs 2
  if d / 2 ^ 31 = 1 then d % 2 ^ 31 else log2Floor 40 (d + 1)

/-- Signature, major revision, 4 KB erase. -/
def sfdpOk (bs : List Byte) : Bool :=
  decide (leNat (bs.take 4) = 0x50444653) && decide (byteAt bs 10 = 1) && decide (bfpt bs 1 % 4 = 1)

/-- 1-1-4 fast read (DWORD 1 bit 22) with a quad-enable requirement of 0, 1, 4 or 5 (DWORD 15 bits 22:20). -/
def sfdpQuad (bs : List Byte) : Bool :=
  let q := bfpt bs 15 / 2 ^ 20 % 8
  decide (bfpt bs 1 / 2 ^ 22 % 2 = 1) && decide (15 ≤ byteAt bs 11) && decide (q = 0 ∨ q = 1 ∨ q = 4 ∨ q = 5)

/-- READY changes (R729). -/
def State.setXfReady (s : State) (b : Bool) : State :=
  if s.b F.XF_STATUS_READY = b then s else (s.setB F.XF_STATUS_READY b).raise 827

/-- XF_DISCOVERY: the controller has read the SFDP table. -/
def State.xfDiscover (s : State) (bs : List Byte) : State :=
  if s.b F.XF_CTL_EN && s.divRun then
    if sfdpOk bs then
      let lg := sfdpDensity bs - 20
      let big := decide (lg > 7) && decide (bfpt bs 1 / 2 ^ 17 % 4 ≠ 0)
      let s1 := ((s.setB F.XF_STATUS_QUAD (sfdpQuad bs)).setB F.XF_STATUS_ADDR4 big).setF F.XF_STATUS_DENSITY lg
      let page := if 11 ≤ byteAt bs 11 then 2 ^ (bfpt bs 11 / 16 % 16) else 256
      { s1 with nvm := { s1.nvm with xfMbit := 2 ^ lg, xfPage := page, xfTable := bs } }.setXfReady true
    else s.setXfReady false
  else s

/-! ### What the interface sends (R728, R729) -/

/-- The opcode of a 4 KB erase: DWORD 1 bits 15:8. -/
def State.xfEraseOp (s : State) : Nat := bfpt s.nvm.xfTable 1 / 256 % 256

/-- A read's opcode and dummy clocks: 1-1-4 as DWORD 3 gives them (bits 31:24; wait states and mode clocks, bits 20:16
and 23:21), otherwise 0x0B with 8. -/
def State.xfReadOp (s : State) : Nat × Nat :=
  let d := bfpt s.nvm.xfTable 3 / 2 ^ 16
  if s.b F.XF_STATUS_QUAD then (d / 256, d % 32 + d / 32 % 8) else (0x0B, 8)

/-- ROOT_CLK cycles of a period of XF_SCK. -/
def State.xfSck (s : State) : Nat := 2 ^ (s.f F.XF_CTL_XDIV + 2)

/-- A write of XF_CTL; EN = 0 leaves the external flash unused. -/
def State.xfCtl (s : State) (v : Word) : State :=
  let s1 := s.setReg .XF_CTL (v &&& 0x31)
  if v.getLsbD 0 then s1 else s1.setXfReady false

end Sys2Proof.Machine
end

