-- ==== Sys2Proof/Machine/LinkOps.lean ====
section
/-!
DEFINITION. Machine/LinkOps.lean: what host link packets share (spec/16 R589 to R604, R614 to R621, R640 to R646): sending
and numbering, acknowledgement, replay, pages, link resets, counters.
-/
namespace Sys2Proof.Machine

def State.link (s : State) (k : Nat) : Link := tabGet (fun _ => Link.init) s.links k
def State.setLink (s : State) (k : Nat) (l : Link) : State :=
  { s with links := tabPut (fun _ => Link.init) s.links k l }

def linkNums : List Nat := [0, 1, 2, 3]

/-- CRC-8 with polynomial x^8 + x^2 + x + 1 (R590). -/
def crc8 (bs : List Byte) : Byte :=
  bs.foldl (fun r b => (bitsOf b).foldl (fun r x => if xor (r.getLsbD 7) x then (r <<< 1) ^^^ 0x07 else r <<< 1) r) 0

/-- Count on a link; every counter saturates and sets SAT (R645). -/
def State.linkCount (s : State) (k : Nat) (f : FieldRef) : State := s.bump f 1 (some F.HL_STATUS_SAT) k

/-- `n` errors, which event 721 + 8k reports once in a frame (R646). -/
def State.linkErrors (s : State) (k : Nat) (f : FieldRef) (n : Nat) : State :=
  if n = 0 then s
  else
    let s1 := s.bump f n (some F.HL_STATUS_SAT) k
    if (s1.link k).errSeen then s1
    else (s1.setLink k { s1.link k with errSeen := true }).raise (721 + 8 * k)

def State.linkError (s : State) (k : Nat) (f : FieldRef) : State := s.linkErrors k f 1

/-! ### Sending (R596, R600) -/

/-- SPI mode (R588). -/
def Link.spi (l : Link) : Bool := l.cfg.getLsbD 0

/-- Send packets, oldest first: in QUAD mode the device clocks them out itself, in SPI mode they wait for the host
(R587). -/
def Link.emit (l : Link) (ps : List Pkt) : Link :=
  if l.spi then { l with wait := l.wait ++ ps, ackDue := false }
  else { l with out := ps.reverse ++ l.out, ackDue := false }

/-- The ACK that a packet carries: the number of the last packet received in order. -/
def Link.ackNow (l : Link) : BitVec 12 := l.exp - 1

/-- QDATA, CTL_DATA and STATUS are numbered (R594). -/
def Pkt.sequenced (p : Pkt) : Bool := decide (8 ≤ p.typ ∧ p.typ ≤ 10)

/-- A packet's bytes on the wire: header, payload, trailer (R589 to R591). -/
def Pkt.bytes (p : Pkt) : List Byte :=
  let h := leBytes 7 (p.typ % 16 + 0xA0 + p.tenant % 16 * 2 ^ 8 + (if p.nak then 2 ^ 13 else 0) + p.seq.toNat * 2 ^ 16 +
    p.ack.toNat * 2 ^ 28 + p.payload.length * 2 ^ 40)
  let body := h ++ [crc8 h] ++ p.payload
  body ++ leBytes 4 (crc32c body).toNat

/-- Waiting packets of which the host has clocked out `n` bytes, fill not counted: those sent whole, and the rest,
which begins with the one that was cut short (R602). -/
def clockOut : List Pkt → Nat → List Pkt × List Pkt
  | [], _ => ([], [])
  | p :: t, n =>
    if p.bytes.length ≤ n then
      let r := clockOut t (n - p.bytes.length)
      (p :: r.1, r.2)
    else ([], p :: t)

/-- Waiting packets up to the last that an acknowledgement names; the host has clocked them out. -/
def clockedBy (seqs : List (BitVec 12)) : List Pkt → List Pkt × List Pkt
  | [] => ([], [])
  | p :: t =>
    let r := clockedBy seqs t
    if r.1 ≠ [] ∨ (p.sequenced ∧ seqs.contains p.seq) then (p :: r.1, r.2) else ([], p :: t)

/-- Waiting packets have been sent, with the ACK of now (R600). -/
def Link.sent (l : Link) (r : List Pkt × List Pkt) : Link :=
  { l with out := (r.1.map fun p => { p with ack := l.ackNow }).reverse ++ l.out, wait := r.2 }

/-- A packet without a sequence number: NULL or LINK_RESET. -/
def State.sendPlain (s : State) (k typ : Nat) (nak : Bool) : State :=
  let l := s.link k
  s.setLink k (l.emit [⟨typ, 0, nak, 0, l.ackNow, []⟩])

def State.sendNull (s : State) (k : Nat) (nak : Bool) : State := s.sendPlain k 0 nak

/-- A sequenced packet: numbered and kept until it is acknowledged. -/
def State.sendSeq (s : State) (k typ tenant : Nat) (payload : List Byte) : State :=
  let l := s.link k
  let p : Pkt := ⟨typ, tenant, false, l.txNext, l.ackNow, payload⟩
  s.setLink k ({ l with
    txNext := l.txNext + 1, replay := l.replay ++ [p], noAck := if l.replay = [] then 0 else l.noAck }.emit [p])

/-- STATUS (R594, R608). -/
def State.sendStatus (s : State) (k tenant : Nat) (seq : BitVec 12) (code detail : Nat) : State :=
  s.sendSeq k 10 tenant (leBytes 2 seq.toNat ++ [BitVec.ofNat 8 code, 0] ++ leBytes 4 detail)

/-- Replay every unacknowledged packet in order, with the current ACK (R600, R601). -/
def State.replayAll (s : State) (k : Nat) : State :=
  let l := s.link k
  if l.replay = [] then s
  else
    let ps := l.replay.map fun p => { p with ack := l.ackNow }
    let wait := l.wait.filter fun p => !p.sequenced
    ((s.setLink k ({ l with noAck := 0, wait := wait }.emit ps)).linkCount k F.HL_CNT_PARTIAL_REPLAYS).raise (723 + 8 * k)

/-! ### Pages (R614 to R621) -/

/-- Stream position of HEAD. -/
def qHeadPos (q : Queue) : Nat := q.acked.toNat - q.acked.toNat % qEsize q

/-- A page's QDATA is acknowledged (R617, R620). -/
def State.pageAcked (s : State) (p : Page) : State :=
  if p.dead then s
  else
    let q := s.queue p.queue
    let done := (p.fin - BitVec.ofNat 32 (qHeadPos q)).toNat / qEsize q
    s.setQueue p.queue { q with acked := p.fin, head := q.head + BitVec.ofNat 17 done }

/-- The oldest `a` packets are acknowledged (R599). -/
def State.acknowledge (s : State) (k a : Nat) (ack : BitVec 12) : State :=
  let l := s.link k
  let gone := (l.replay.take a).map (·.seq)
  let pages := l.pages.filter fun p => gone.contains p.seq
  let s1 := pages.foldl State.pageAcked s
  s1.setLink k { l.sent (clockedBy gone l.wait) with
    replay := l.replay.drop a, last := ack, noAck := 0, pages := l.pages.filter fun p => !(gone.contains p.seq) }

/-- The ACK of a packet received with good checks (R599). -/
def State.takeAck (s : State) (k : Nat) (ack : BitVec 12) : State :=
  let l := s.link k
  let a := (ack - l.last).toNat
  if 1 ≤ a ∧ a ≤ l.replay.length then s.acknowledge k a ack else s

/-- A page is declared partial: SENT returns to ACKED (R619). -/
def State.partial1 (s : State) (k : Nat) (p : Page) : State :=
  let q := s.queue p.queue
  ((s.setQueue p.queue { q with sent := q.acked }).linkCount k F.HL_CNT_PARTIAL_PARTIAL).raise (722 + 8 * k)

/-- Declare partial the pages of a link that `sel` chooses by queue. -/
def State.partialPages (s : State) (k : Nat) (sel : Nat → Bool) : State :=
  let l := s.link k
  let s1 := (l.pages.filter fun p => !p.dead && sel p.queue).foldl (fun s p => s.partial1 k p) s
  s1.setLink k { l with pages := l.pages.map fun p => if sel p.queue then { p with dead := true } else p }

/-- A write of TEN_LINKS: pages of the tenant on links that it unbinds become partial (R641). -/
def State.writeTenLinks (s : State) (t : Nat) (v : Word) : State :=
  let old := s.reg .TEN_LINKS t
  (linkNums.filter fun k => old.getLsbD k && !(v.getLsbD k)).foldl
    (fun s k => s.partialPages k fun q => decide (s.queueOwner q = t)) (s.setReg .TEN_LINKS (v &&& 0xF) t)

/-! ### Link reset (R588, R603, R604) -/

/-- A link reset, and the LINK_RESET that the device sends. Pages that the replay buffer held are given up. -/
def State.linkReset (s : State) (k : Nat) : State :=
  let l := s.link k
  let s1 := (l.pages.filter fun p => !p.dead).foldl (fun s p =>
    s.setQueue p.queue { s.queue p.queue with sent := (s.queue p.queue).acked }) s
  let s2 := s1.setLink k { l with
    cfg := s.reg .HL_CFG k, txNext := 0, exp := 0, last := 4095, replay := [], pages := [], ackDue := false
    noAck := 0, wait := [] }
  (s2.raise (720 + 8 * k)).sendPlain k 15 false

/-- The fabric's isolation is released after it powered up: its links reset (R603, R672). -/
def State.linksReturn (s : State) : State :=
  if s.pwr.isolated && s.divRun then
    linkNums.foldl State.linkReset { s with pwr := { s.pwr with isolated := false } }
  else s

/-- Links at a frame boundary (R600, R619, R646). -/
def State.linkFrame (s : State) (k : Nat) : State :=
  let l := s.link k
  s.setLink k { l with
    out := [], errSeen := false, idle := l.idle + 1, noAck := if l.replay = [] then 0 else l.noAck + 1 }

/-! ### The pins (R582 to R587) -/

/-- The lanes 3:0 in each clock of a byte (R585). -/
def laneClocks (lanes : Nat) (b : Byte) : List (BitVec 4) :=
  let w := 2 ^ lanes
  (List.range (8 / w)).map fun j =>
    (List.range w).foldl (fun v i => if b.getLsbD (8 - w * (j + 1) + i) then v ||| BitVec.ofNat 4 (2 ^ i) else v) 0

/-- The frame line and the lanes in each clock of a packet, with the least pause after it (R586). -/
def packetClocks (lanes : Nat) (p : Pkt) : List (Bool × BitVec 4) :=
  (p.bytes.flatMap (laneClocks lanes)).map (fun v => (true, v)) ++ [(false, 0), (false, 0)]

/-- What MISO carries while CS_N is low: packets back to back, and then fill (R587). Lane 0 floats while CS_N is
high. -/
def Link.stream (l : Link) (n : Nat) : List Byte :=
  fit n (l.wait.flatMap fun p => { p with ack := l.ackNow }.bytes)

/-- Bytes of 0x00 and 0xFF between packets are skipped (R587). -/
def skipFill (bs : List Byte) : List Byte := bs.dropWhile fun b => decide (b = 0x00 ∨ b = 0xFF)

/-- What a link drives (R582, R583): `oclk` the ROOT_CLK cycles of HL_OCLK's period, 0 where it is low; `wire` HL_OFR
and HL_OD in each clock of the packets of this frame, none in SPI mode, where both are low but for lane 0; `attnN`
HL_ATTN_N. -/
structure LinkPins where
  oclk : Nat
  wire : List (Bool × BitVec 4)
  attnN : Bool
  deriving DecidableEq, Repr

def State.linkPins (s : State) (k : Nat) : LinkPins :=
  let l := s.link k
  if l.spi then ⟨0, [], l.wait.isEmpty⟩
  else ⟨2 ^ (fieldOf l.cfg 4 2 + 1), l.out.reverse.flatMap (packetClocks (fieldOf l.cfg 1 2)), l.wait.isEmpty⟩

/-- HL_SEQ and HL_STATUS as they read. -/
def State.readHlSeq (s : State) (k : Nat) : Word :=
  BitVec.ofNat 32 ((s.link k).txNext.toNat + (s.link k).exp.toNat * 65536)

def State.readHlStatus (s : State) (k : Nat) : Word :=
  (s.reg .HL_STATUS k &&& 0x10000) ||| BitVec.ofNat 32 ((s.link k).replay.length % 128 + (s.link k).holds.length % 8 * 256)

end Sys2Proof.Machine
end

