-- ==== Sys2Proof/Machine/Update.lean ====
section
/-!
DEFINITION. Machine/Update.lean: the update engine and the key fuses (spec/19 R714 to R722): SHA-512, the verification of
Ed25519 per RFC 8032 (log entry 60 gives the standards' constants), the check of an image and the fuse operations.
-/
namespace Sys2Proof.Machine

/-! ### SHA-512 -/

/-- The largest number whose `k`-th power is at most `n`, found from its bit `i - 1` down. -/
def rootFrom (k n : Nat) : Nat → Nat → Nat
  | 0, r => r
  | i + 1, r => rootFrom k n i (if (r + 2 ^ i) ^ k ≤ n then r + 2 ^ i else r)

/-- The first 64 bits of the fraction of a number's `k`-th root. -/
def rootBits (k p : Nat) : BitVec 64 := BitVec.ofNat 64 (rootFrom k (p * 2 ^ (64 * k)) 69 0)

/-- The first 80 primes: those below 410, none of which has a divisor above 20 alone. -/
def shaPrimes : List Nat :=
  (List.range 410).filter fun n => decide (2 ≤ n) && (List.range 21).all fun d => decide (d < 2 ∨ n ≤ d ∨ n % d ≠ 0)

/-- The round constants: cube roots of the first 80 primes. -/
def shaK : List (BitVec 64) := shaPrimes.map (rootBits 3)

/-- The first state: square roots of the first 8 primes. -/
def shaH (i : Nat) : BitVec 64 := rootBits 2 (shaPrimes.getD i 0)

/-- Big-endian words of 8 bytes. -/
def beWord (bs : List Byte) : BitVec 64 := BitVec.ofNat 64 (bs.foldl (fun a b => 256 * a + b.toNat) 0)

/-- `n` bytes of a number, highest first. -/
def beBytes (n v : Nat) : List Byte := (leBytes n v).reverse

/-- Extend the message schedule, newest word first. -/
def shaSchedule : Nat → List (BitVec 64) → List (BitVec 64)
  | 0, w => w
  | n + 1, w =>
    let a := w.getD 1 0
    let b := w.getD 14 0
    let s1 := a.rotateRight 19 ^^^ a.rotateRight 61 ^^^ (a >>> 6)
    let s0 := b.rotateRight 1 ^^^ b.rotateRight 8 ^^^ (b >>> 7)
    shaSchedule n ((s1 + w.getD 6 0 + s0 + w.getD 15 0) :: w)

/-- The eight working variables. -/
structure ShaVars where
  a : BitVec 64
  b : BitVec 64
  c : BitVec 64
  d : BitVec 64
  e : BitVec 64
  f : BitVec 64
  g : BitVec 64
  h : BitVec 64
  deriving DecidableEq, Repr

def shaRound (v : ShaVars) (kw : BitVec 64 × BitVec 64) : ShaVars :=
  let s1 := v.e.rotateRight 14 ^^^ v.e.rotateRight 18 ^^^ v.e.rotateRight 41
  let ch := (v.e &&& v.f) ^^^ (~~~v.e &&& v.g)
  let t1 := v.h + s1 + ch + kw.1 + kw.2
  let s0 := v.a.rotateRight 28 ^^^ v.a.rotateRight 34 ^^^ v.a.rotateRight 39
  let maj := (v.a &&& v.b) ^^^ (v.a &&& v.c) ^^^ (v.b &&& v.c)
  ⟨t1 + s0 + maj, v.a, v.b, v.c, v.d + t1, v.e, v.f, v.g⟩

def shaBlock (v : ShaVars) (block : List Byte) : ShaVars :=
  let w0 := (List.range 16).map fun i => beWord ((block.drop (8 * i)).take 8)
  let w := (shaSchedule 64 w0.reverse).reverse
  let x := (shaK.zip w).foldl shaRound v
  ⟨v.a + x.a, v.b + x.b, v.c + x.c, v.d + x.d, v.e + x.e, v.f + x.f, v.g + x.g, v.h + x.h⟩

def shaBlocks : Nat → ShaVars → List Byte → ShaVars
  | 0, v, _ => v
  | n + 1, v, bs => shaBlocks n (shaBlock v (bs.take 128)) (bs.drop 128)

def shaInit : ShaVars :=
  ⟨shaH 0, shaH 1, shaH 2, shaH 3, shaH 4, shaH 5, shaH 6, shaH 7⟩

def sha512 (bs : List Byte) : List Byte :=
  let n := bs.length
  let padded := bs ++ [0x80] ++ List.replicate ((239 - n % 128) % 128) 0 ++ beBytes 16 (8 * n)
  let v := shaBlocks (padded.length / 128) shaInit padded
  [v.a, v.b, v.c, v.d, v.e, v.f, v.g, v.h].flatMap fun x => beBytes 8 x.toNat

/-! ### Ed25519 (RFC 8032) -/

def edP : Nat := 2 ^ 255 - 19

/-- The group's order. -/
def edL : Nat := 2 ^ 252 + 27742317777372353535851937790883648493

/-- Powers modulo p, the exponent's lowest `k` bits. -/
def powP : Nat → Nat → Nat → Nat
  | 0, _, _ => 1
  | k + 1, b, e => (if e % 2 = 1 then b else 1) * powP k (b * b % edP) (e / 2) % edP

def invP (x : Nat) : Nat := powP 255 x (edP - 2)
def edD : Nat := (edP - 121665) * invP 121666 % edP
def subP (a b : Nat) : Nat := (a + edP - b % edP) % edP

/-- A point of the curve: x = X/Z, y = Y/Z, xy = T/Z. -/
structure EdPoint where
  x : Nat
  y : Nat
  z : Nat
  t : Nat
  deriving DecidableEq, Repr

def EdPoint.zero : EdPoint := ⟨0, 1, 1, 0⟩

def EdPoint.add (p q : EdPoint) : EdPoint :=
  let a := subP p.y p.x * subP q.y q.x % edP
  let b := (p.y + p.x) * (q.y + q.x) % edP
  let c := p.t * 2 * edD % edP * q.t % edP
  let d := p.z * 2 * q.z % edP
  let e := subP b a
  let f := subP d c
  let g := (d + c) % edP
  let h := (b + a) % edP
  ⟨e * f % edP, g * h % edP, f * g % edP, e * h % edP⟩

/-- Multiples by the lowest `k` bits of a number. -/
def EdPoint.mul : Nat → EdPoint → Nat → EdPoint
  | 0, _, _ => EdPoint.zero
  | k + 1, p, n => (if n % 2 = 1 then p else EdPoint.zero).add (EdPoint.mul k (p.add p) (n / 2))

def EdPoint.same (p q : EdPoint) : Bool :=
  decide (p.x * q.z % edP = q.x * p.z % edP) && decide (p.y * q.z % edP = q.y * p.z % edP)

/-- The x coordinate of a y, with its parity; none where y is on no point. -/
def edX (y sign : Nat) : Option Nat :=
  let u := subP (y * y) 1
  let v := (edD * (y * y % edP) + 1) % edP
  let v3 := v * v % edP * v % edP
  let c := u * v3 % edP * powP 255 (u * v3 % edP * v3 % edP * v % edP) ((edP - 5) / 8) % edP
  let vx := v * (c * c % edP) % edP
  let x := if vx = u then some c
    else if vx = subP 0 u then some (c * powP 255 2 ((edP - 1) / 4) % edP) else none
  match x with
  | none => none
  | some x => if x = 0 ∧ sign = 1 then none else some (if x % 2 = sign then x else edP - x)

/-- Decode 32 bytes. -/
def edDecode (bs : List Byte) : Option EdPoint :=
  let n := leNat bs
  let y := n % 2 ^ 255
  if y ≥ edP then none
  else (edX y (n / 2 ^ 255)).map fun x => ⟨x, y, 1, x * y % edP⟩

/-- The base point: y = 4/5 with x even. -/
def edBase : EdPoint :=
  let y := 4 * invP 5 % edP
  let x := (edX y 0).getD 0
  ⟨x, y, 1, x * y % edP⟩

/-- PureEd25519: does a signature verify? -/
def edVerify (key msg sig : List Byte) : Bool :=
  let s := leNat (sig.drop 32)
  match edDecode key, edDecode (sig.take 32) with
  | some a, some r =>
    let k := leNat (sha512 (sig.take 32 ++ key ++ msg)) % edL
    decide (s < edL) &&
      (EdPoint.mul 4 (EdPoint.mul 253 edBase s) 8).same (EdPoint.mul 4 (r.add (EdPoint.mul 253 a k)) 8)
  | _, _ => false

/-! ### Image check (R714 to R718) -/

/-- A little-endian field of a manifest. -/
def manField (m : List Byte) (at_ n : Nat) : Nat := leNat ((m.drop at_).take n)

/-- The fields of R714. -/
def manifestOk (m : List Byte) : Bool :=
  let kind := manField m 6 1
  let ten := manField m 7 1
  let blocks := manField m 0x10 4
  let len := manField m 0x14 4
  let load := manField m 0x18 4
  decide (manField m 0 4 = 0x4D495A47) && decide (manField m 4 2 = 1) && decide (1 ≤ kind ∧ kind ≤ 3) &&
    decide (if kind = 3 then 1 ≤ ten ∧ ten ≤ 15 else ten = 0) && decide (manField m 0xC 1 ≠ 0) &&
    decide (manField m 0xD 3 = 0) &&
    decide (1 ≤ blocks ∧ blocks ≤ (if kind = 2 then 383 else 896)) && decide (kind ≠ 1 ∨ blocks = 8) &&
    decide (4096 * (blocks - 1) + 1 ≤ len ∧ len ≤ 4096 * blocks) &&
    decide (load % 64 = 0 ∧ load < 0x1000000) && decide (manField m 0x1C 4 % 4 = 0)

/-- The hash in key slot `k`. -/
def State.keySlot (s : State) (k : Nat) : List Byte :=
  (List.range 32).map fun i => tabGet (fun _ => (0 : Byte)) s.nvm.slots (32 * k + i)

def State.slotState (s : State) (k : Nat) : Nat := tabGet (fun _ => 0) s.nvm.slotSt k

/-- UPD_KEY_STATE as it reads. -/
def State.keyState (s : State) : Word :=
  BitVec.ofNat 32 (s.slotState 0 + 4 * s.slotState 1 + 16 * s.slotState 2 + 64 * s.slotState 3)

/-- UPD_TKEY of a tenant. -/
def State.tenKey (s : State) (t : Nat) : List Byte :=
  ([0, 1, 2, 3, 4, 5, 6, 7] : List Nat).flatMap fun j => leBytes 4 (s.reg .UPD_TKEY (t - 1) j).toNat

/-- A usable key (R716): none, a tenant's key, or the slot that matches. -/
def State.keyUsable (s : State) (m : List Byte) (keysrc : Bool) : Option (Option Nat) :=
  let h := (sha512 ((m.drop 0x80).take 32)).take 32
  let t := manField m 7 1
  if manField m 6 1 = 3 ∧ keysrc then
    if s.tenKey t = h ∧ h ≠ List.replicate 32 0 then some none else none
  else (([0, 1, 2, 3] : List Nat).find? fun k => decide (s.slotState k = 1) && decide (s.keySlot k = h)).map some

/-- Steps 1 to 3 of R715 on a manifest: the result so far, and the slot that matched. -/
def State.manResult (s : State) (m : List Byte) (keysrc : Bool) : Nat × Option Nat :=
  if !(manifestOk m) then (1, none)
  else
    match s.keyUsable m keysrc with
    | none => (2, none)
    | some slot =>
      (if edVerify ((m.drop 0x80).take 32) (m.take 0x100) ((m.drop 0x100).take 64) then 0 else 3, slot)

/-- Step 4 of R715: the payload's hash. -/
def payloadGood (m payload : List Byte) : Bool := decide (sha512 payload = (m.drop 0x40).take 64)

/-- The result of a check, with the state after its reads. -/
def State.imageResult (s : State) (man pay : Nat) (keysrc : Bool) : State × Nat × Option Nat :=
  match s.nvFetch man 0x140 with
  | (s1, none) => (s1, 5, none)
  | (s1, some m) =>
    match s1.manResult m keysrc with
    | (0, slot) =>
      match s1.nvFetch pay (manField m 0x14 4) with
      | (s2, none) => (s2, 5, slot)
      | (s2, some bs) => (s2, if payloadGood m bs then 0 else 4, slot)
    | (r, slot) => (s1, r, slot)

/-- A write of UPD_CMD. GO while a check runs starts nothing. -/
def State.updCmd (s : State) (v : Word) : State :=
  let s1 := s.setF F.UPD_CMD_KEYSRC (fieldOf v 0 1)
  if v.getLsbD 31 && s.nvm.check.isNone then
    { s1.setF F.UPD_STATUS_BUSY 1 with
      nvm := { s1.nvm with check := some (s.f F.UPD_MAN_ADDR, s.f F.UPD_PAY_ADDR, v.getLsbD 0) } }
  else s1

/-- UPD_DONE: the check completes (R717). It reads pond memory in the controller's schedule entries. -/
def State.updDone (s : State) : State :=
  match s.nvm.check with
  | none => s
  | some (man, pay, keysrc) =>
    if !s.divRun then s
    else
      let (s1, r, slot) := s.imageResult man pay keysrc
      let s2 := (({ s1 with nvm := { s1.nvm with check := none } }.setF F.UPD_STATUS_BUSY 0).setF
        F.UPD_STATUS_RESULT r)
      (match slot with
        | some k => s2.setF F.UPD_STATUS_SLOT k
        | none => s2).raise 826

/-! ### Key fuses (R719 to R722) -/

/-- A fuse operation is refused. -/
def State.keyErr (s : State) : State := (s.setF F.UPD_STATUS_KEY_ERR 1).raise 828

/-- A write of UPD_KEYPROG. -/
def State.keyProg (s : State) (v : Word) : State :=
  let k := fieldOf v 0 2
  if !(v.getLsbD 31) then s
  else if s.slotState k ≠ 0 ∨ s.nvm.fuse.isSome then s.keyErr
  else
    let h := ([0, 1, 2, 3, 4, 5, 6, 7] : List Nat).flatMap fun j => leBytes 4 (s.reg .UPD_KEY_DATA j).toNat
    { s with nvm := { s.nvm with fuse := some (k, h) } }

/-- A write of UPD_REVOKE; without the key it does nothing. -/
def State.keyRevoke (s : State) (v : Word) : State :=
  let k := fieldOf v 0 2
  if !(v.getLsbD 31) ∨ fieldOf v 8 16 ≠ 0x5E7A then s
  else if s.slotState k ≠ 1 ∨ s.nvm.fuse.isSome ∨
      !(([0, 1, 2, 3] : List Nat).any fun j => decide (j ≠ k) && decide (s.slotState j = 1)) then s.keyErr
  else { s with nvm := { s.nvm with fuse := some (k, []) } }

/-- The fuse operation completes. -/
def State.keyDone (s : State) : State :=
  match s.nvm.fuse with
  | none => s
  | some (k, h) =>
    if !s.divRun then s
    else
      let slots := (h.zipIdx).foldl (fun t e => tabPut (fun _ => (0 : Byte)) t (32 * k + e.2) e.1) s.nvm.slots
      let st := if h = [] then 3 else 1
      { s with nvm := { s.nvm with
          fuse := none, slots := slots, slotSt := tabPut (fun _ => 0) s.nvm.slotSt k st } }.raise 828

end Sys2Proof.Machine
end

