-- ==== Sys2Proof/Machine/Power.lean ====
section
/-!
DEFINITION. Machine/Power.lean: the device states and wake (spec/17 R653 to R689): entry to and wake from Torpor and
Brumation, comparators, the RTC alarm, budgets. What the device does after every command (R654, R655, R659, R660) is in
Machine/Ops.lean.
-/
namespace Sys2Proof.Machine

/-- STATE takes a value, with its event (R689). -/
def State.setDev (s : State) (st : Nat) : State := (s.setF F.PWR_STATUS_STATE st).raise 789

/-- A wake: its causes and the RTC are recorded (R671, R684). -/
def State.recordWake (s : State) (causes : Word) : State :=
  let s1 := s.setReg .PWR_WAKE_CAUSE (s.reg .PWR_WAKE_CAUSE ||| causes)
  let s2 := (s1.setReg .PWR_WAKE_RTC_LO (s.rtc.setWidth 32)).setReg .PWR_WAKE_RTC_HI ((s.rtc >>> 32).setWidth 32)
  { s2 with pwr := { s2.pwr with deferred := 0 } }

/-! ### Torpor (R663 to R667) -/

/-- A raised event would reach some core (R519, R663). -/
def State.eventWaits (s : State) : Bool :=
  s.raised.any fun r => coreNums.any fun n =>
    (match r.tenant with
      | some t => decide (s.coreOwner n = t)
      | none => true) && s.unmasked n r.num

/-- R663: the device is in Doze and nothing waits at the router. -/
def State.quiet (s : State) : Bool := s.fabUp && decide (s.dev = 1) && !s.eventWaits

def State.coresOff (s : State) : State := coreNums.foldl State.coreLose s

/-- TORPOR_ENTRY. -/
def State.torporEntry (s : State) : State :=
  if s.quiet && decide (2 ≤ s.f F.PWR_STATUS_GOAL) then
    let s1 := coreNums.foldl (fun s n => s.setCore n { s.core n with wasRun := decide ((s.core n).st = .wait) }) s
    let s2 := s1.setDev 2
    let s3 := s2.banksSet fun b => some (levelIn (s2.reg .POND_BANK_TORPOR) b)
    (((s3.setF F.PWR_DOM_STATUS_EFT_PG 0).setF F.PWR_DOM_STATUS_NEWT_PG 0).coresOff).eftToFrc
  else s

/-- An event waits for the eft or for a newt that waited at entry (R665). -/
def State.wakeEvent (s : State) : Bool :=
  coreNums.any fun n => (decide (n = 16) || (s.core n).wasRun) && !(s.pendList n).isEmpty

/-- The causes of a wake from Torpor (R662, R665, R683). -/
def State.torporCauses (s : State) : BitVec 14 :=
  s.pwr.deferred ||| (if s.wakeEvent then 0x400 else 0) ||| (if s.f F.PWR_STATUS_ALLOWED < 2 then 0x800 else 0)

/-- TORPOR_WAKE: the first of several causes starts the wake, and later ones are recorded. -/
def State.torporWake (s : State) : State :=
  let c := s.torporCauses
  if decide (s.dev = 2) && decide (c ≠ 0) then
    if s.pwr.waking then
      let s1 := s.setReg .PWR_WAKE_CAUSE (s.reg .PWR_WAKE_CAUSE ||| c.setWidth 32)
      { s1 with pwr := { s1.pwr with deferred := 0 } }
    else
      let s1 := s.recordWake (c.setWidth 32)
      let s2 := { s1 with pwr := { s1.pwr with waking := true } }
      s2.banksTo (levelIn s2.runWord)
  else s

/-- Every bank whose level is on has become on (R666). -/
def State.banksOn (s : State) : Bool := bankNums.all fun b => decide (s.bankLevel b ≠ 2) || decide (s.bankSt b = 2)

/-- A newt as the wake leaves it: one that waited starts if its tenant runs; the others stay as they were. A restart
that was held acts after this (R856). -/
def State.torporNewt (s : State) (n : Nat) : State :=
  if (s.core n).restart then s
  else if (s.core n).wasRun then
    if (s.ten (s.coreOwner n)).st = .run then s.coreStart n
    else if (s.core n).st = .off then s else s.coreHold n
  else s

/-- TORPOR_CORE_START: the eft starts, or is held while T0 is shed (R857), and so do the newts that waited. -/
def State.torporCores (s : State) : State :=
  if decide (s.dev = 2) && s.pwr.waking && s.banksOn then
    let s1 := (s.setF F.PWR_DOM_STATUS_EFT_PG 1).setF F.PWR_DOM_STATUS_NEWT_PG 1
    let s2 := { s1 with pwr := { s1.pwr with waking := false } }.setDev 0
    let s3 := if (s2.core 16).restart then s2 else if (s2.ten 0).st = .run then s2.coreStart 16 else s2.coreHold 16
    (((List.range 16).foldl State.torporNewt s3).heldRestarts (List.range 16)).heldRestarts [16]
  else s

/-! ### Brumation (R668 to R673) -/

/-- R669 step 2: the clocks stop at the strobe. -/
def State.brumClocks (s : State) : State :=
  let keep := s.b F.CLK_ROOT_CTL_OSC_KEEP
  let s1 := ((s.eftToFrc.stopClocks true).stopPll.setF F.CLK_ROOT_CTL_PLL_EN 0)
  let s2 := if keep then s1 else s1.setF F.CLK_ROOT_STATUS_OSC_OK 0
  { s2 with clk := { s2.clk with oscEn := keep, kept := keep } }

/-- A newt of T0 that loses its power while it is not OFF starts when power returns (R456). -/
def State.startsAgain (s : State) (n : Nat) : Bool :=
  decide (n ≠ 16) && decide (s.coreOwner n = 0) && decide ((s.core n).st ≠ .off)

/-- R669 steps 5 and 6: every domain but AON is off. Every newt is T0's then; those that were before start again with
their power, and held restarts lapse (R456, R856). -/
def State.brumDomains (s : State) : State :=
  let s1 := coreNums.foldl (fun s n => (s.coreLose n).setCore n { Core.init with wasRun := s.startsAgain n }) s
  let s2 := ((s1.fabricLose.setReg .PWR_DOM_STATUS 0).setReg .PWR_DOM_CTL 0).setReg .PWR_RUN 0
  let s3 := (s2.setAct .PWR_RUN 0).setChange (RegKind.PWR_RUN.addr 0 0) .clean
  { s3 with
    pwr := { s3.pwr with running := 0, waking := false, brumWake := false }
    rst := { s3.rst with coreEn := false } }

/-- BRUMATION_ENTRY. A tail shed due at this boundary comes first (R533). -/
def State.brumEntry (s : State) : State :=
  if s.quiet && decide (s.f F.PWR_STATUS_GOAL = 3) && !s.nvBusyWriting then
    let s1 := s.tailShed.rejectAll.brumClocks
    let s2 := s1.latchPads ((List.range 20).filter (fun g => s.domPg (padDomain g)) ++ [20, 21, 22, 23])
    let s3 := s2.banksSet fun b => some (levelIn (s2.reg .POND_BANK_BRUM) b)
    s3.brumDomains.setDev 3
  else s

/-- A wake source of Brumation occurs, if PWR_WAKE_EN enables it (R670). -/
def State.wakeSource (s : State) (bit : Nat) : State :=
  if s.dev = 3 ∧ (s.reg .PWR_WAKE_EN).getLsbD bit then s.defer bit else s

/-- BRUMATION_WAKE from a source that has occurred (R671, R673). -/
def State.brumWake (s : State) (src : Nat) : State :=
  if decide (s.dev = 3) && s.pwr.deferred.getLsbD src then
    let s1 := (s.recordWake (s.pwr.deferred.setWidth 32)).setF F.PWR_DOM_STATUS_EFT_PG 1
    let s2 := { s1 with pwr := { s1.pwr with brumWake := true } }
    (s2.coreStart 16).setDev 0
  else s

/-! ### Wake sources (R677 to R681) -/

/-- The comparator's raw output for an input, with hysteresis (R677). -/
def State.cmpRaw (s : State) (k mv : Nat) : Bool :=
  let th := 10 * min 150 (s.f F.PWR_CMP_THRESH k)
  if s.pwr.cmpRaw.getLsbD k then decide (th ≤ mv + 10 * s.f F.PWR_CMP_HYST k) else decide (th < mv)

/-- The input has stood at `mv` for `cycles` of the 32.768 kHz clock (R678). -/
def State.cmpInput (s : State) (k mv cycles : Nat) : State :=
  if s.b F.PWR_CMP_EN k then
    let raw := s.cmpRaw k mv
    let bit : BitVec 4 := BitVec.ofNat 4 (2 ^ k)
    let s1 := { s with pwr := { s.pwr with
      cmpRaw := if raw then s.pwr.cmpRaw ||| bit else s.pwr.cmpRaw &&& ~~~bit } }
    let out := (s.reg .PWR_CMP_STATUS).getLsbD k
    if raw ≠ out ∧ max 1 (s.f F.PWR_CMP_FILTER k) ≤ cycles then
      let w := s1.reg .PWR_CMP_STATUS
      let m : Word := BitVec.ofNat 32 (2 ^ k)
      let s2 := (s1.setReg .PWR_CMP_STATUS (if raw then w ||| m else w &&& ~~~m)).raise (784 + k)
      if s.b F.PWR_CMP_DIR k = raw then s2.wakeSource k else s2
    else s1
  else s

/-- A write of PWR_CMP; EN = 0 holds OUT at 0 (R679). -/
def State.writeCmp (s : State) (k : Nat) (v : Word) : State :=
  let s1 := s.setReg .PWR_CMP (v &&& 0xFF97FF) k
  if v.getLsbD 15 then s1
  else
    let s2 := s1.setReg .PWR_CMP_STATUS (s1.reg .PWR_CMP_STATUS &&& ~~~(BitVec.ofNat 32 (2 ^ k)))
    { s2 with pwr := { s2.pwr with cmpRaw := s2.pwr.cmpRaw &&& ~~~(BitVec.ofNat 4 (2 ^ k)) } }

/-- The alarm's low half is held until the high half is written: one hold, since only T0 writes it. The alarm itself
keeps its low half in an unshadowed latch of T0. -/
def alarmLoKey : Nat := RegKind.PWR_RTC_ALARM_LO.addr 0 0

def State.alarmLo (s : State) : Word := tabGet (fun _ => (0 : Word)) s.latches alarmLoKey

/-- A write of PWR_RTC_ALARM_HI loads both halves (R680). -/
def State.alarmHi (s : State) (v : Word) : State :=
  let s1 := s.setReg .PWR_RTC_ALARM_HI (v &&& 0x8000FFFF)
  { s1 with latches := tabPut (fun _ => (0 : Word)) s1.latches alarmLoKey (s1.reg .PWR_RTC_ALARM_LO) }

/-- PWR_RTC_ALARM: the RTC equals the enabled alarm. -/
def State.rtcAlarm (s : State) : State :=
  let alarm := s.f F.PWR_RTC_ALARM_HI_ALARM_HI * 0x100000000 + s.alarmLo.toNat
  if s.b F.PWR_RTC_ALARM_HI_EN ∧ s.rtc.toNat = alarm then (s.raise 788).wakeSource 4 else s

/-- LINK_ACTIVITY: an edge on HL_IFR[k] (R681), which only a supplied bank shows (R817). -/
def State.linkActivity (s : State) (k : Nat) : State :=
  if s.bankIn 5 then
    let s1 := if s.fabPg then { s with raised := s.raised ++ [⟨725 + 8 * k, none, s.frame⟩] } else s
    s1.wakeSource (5 + k)
  else s

/-- A write of PWR_BUDGET (R657, R661). The Bool is an access error. -/
def State.writeBudget (s : State) (t : Nat) (v : Word) : State × Bool :=
  if fieldOf v 0 4 > 3 ∨ fieldOf v 4 4 > 3 ∨ fieldOf v 8 4 > 3 ∨ fieldOf v 12 4 > 3 then (s, true)
  else (s.setReg .PWR_BUDGET (v &&& 0x1FFFF) t, false)

end Sys2Proof.Machine
end

