-- ==== Sys2Proof/Machine/Reset.lean ====
section
/-!
DEFINITION. Machine/Reset.lean: resets, straps, the watchdog and the boot sequencer (spec/18 R690 to R709), thermal
shutdown (spec/21 R788, R789). While `rst.held` the device is as `State.dead` gives it and nothing runs.
-/
namespace Sys2Proof.Machine

/-! ### Asserting a reset -/

/-- A flash operation cut off by a power-on reset leaves its page or sector in an unknown state (R751). -/
def State.nvCutOff (s : State) : State :=
  match s.nvm.job with
  | none => s
  | some j =>
    if opWrites j.op && decide (j.err = 0) then
      if opKind j.op = 3 then s.flashFree (isXf j.op) j.addr j.len else s.flashFree (isXf j.op) j.addr 4096
    else s

/-- What no reset changes: the flashes, the fuses, the commands that wait. -/
def State.deadOf (s : State) : State :=
  { State.dead with
    nvm := { s.nvm with job := none, check := none, fuse := none, xfMbit := 0, xfPage := 256, xfTable := [] }
    ticks := s.ticks, nextId := s.nextId, freeCtr := s.freeCtr, pending := s.pending }

/-- POR (R691, R694). -/
def State.por (s : State) : State :=
  let s1 := s.nvCutOff.deadOf
  { s1 with rst := { Rst.init with sources := 1, held := true } }

/-- A device reset by sources given as bits of RST_CAUSE (R692, R694). While the device holds reset, the source
joins. -/
def State.deviceReset (s : State) (src : BitVec 5) : State :=
  let cause := s.reg .RST_CAUSE ||| src.setWidth 32
  let s1 := { s.nvCutOff.deadOf with
    rtc := s.rtc
    aon := s.aon.filter fun e => decide (0x00FF8000 ≤ e.1)
    th := { Thermal.init with
      die := s.th.die, warn := s.th.warn, shut := s.th.shut, abort := s.th.abort, cool := s.th.cool }
    rst := { Rst.init with sources := s.rst.sources ||| src, held := true } }
  let s2 := s1.setReg .STRAP_STATUS (s.reg .STRAP_STATUS &&& 7)
  ((s2.setReg .RST_CAUSE cause).setReg .TH_DIE (s.reg .TH_DIE)).setB F.TH_STATUS_WARN s.th.warn

/-- A source of a device reset asserts; it waits while the NVM controller programs or erases (R705). -/
def State.assertReset (s : State) (src : BitVec 5) : State :=
  if s.nvBusyWriting then { s with rst := { s.rst with waiting := s.rst.waiting ||| src } } else s.deviceReset src

/-- A reset that waited for the flash takes effect. -/
def State.waitedReset (s : State) : State :=
  if s.rst.waiting ≠ 0 ∧ !s.nvBusyWriting then s.deviceReset s.rst.waiting else s

/-- PIN: RESET_N low for at least 16 FRC cycles. -/
def State.pinReset (s : State) (cycles : Nat) : State := if 16 ≤ cycles then s.assertReset 2 else s

/-- A write of RST_CTL (R690). -/
def State.rstCtl (s : State) (v : Word) : State :=
  if fieldOf v 16 16 = 0xB007 ∧ v.getLsbD 0 then s.assertReset 8 else s

/-- No flash operation keeps the shutdown waiting `waited` µs after it was declared: external flash does so for at most
5 ms (R746, R747, R750). -/
def State.shutFree (s : State) (waited : Nat) : Bool :=
  match s.nvm.job with
  | some j => !(opWrites j.op) || (isXf j.op && decide (5000 ≤ waited))
  | none => true

/-- THERMAL: after shutdown once no flash operation keeps it waiting, after abort at once (R788). -/
def State.thermalReset (s : State) (waited : Nat) : State :=
  if s.rst.sources.getLsbD 4 then s
  else if s.th.abort then s.nvAbort.deviceReset 16
  else if s.th.shut && s.shutFree waited then s.deviceReset 16
  else s

/-- THERMAL_RELEASE (R789). -/
def State.thermalRelease (s : State) : State :=
  if s.rst.sources.getLsbD 4 && decide (1024 ≤ s.th.cool) then
    { s with
      rst := { s.rst with sources := s.rst.sources &&& 0xF }
      th := { s.th with shut := false, abort := false } }
  else s

/-! ### The watchdog (R695, R696) -/

/-- The watchdog counts. -/
def State.wdtRuns (s : State) : Bool := s.b F.WDT_CTL_EN && s.corePg 16 && decide ((s.core 16).st ≠ .dbg)

def State.wdtHalf (s : State) : Nat := max 1 (s.f F.WDT_CTL_TIMEOUT) / 2

def State.wdtKick (s : State) (v : Word) : State :=
  if v = 0xA5C3 then { s with rst := { s.rst with wdt := max 1 (s.f F.WDT_CTL_TIMEOUT) } } else s

/-- The count reaches half of TIMEOUT. -/
def State.wdtHalves (s : State) : State :=
  if s.wdtHalf < s.rst.wdt then { s with rst := { s.rst with wdt := s.wdtHalf } }.raise 1008 else s

/-- WDT_WARN: the `units` of 16,384 FRC cycles that the watchdog has counted bring it to half of TIMEOUT. -/
def State.wdtWarn (s : State) (units : Nat) : State :=
  if s.wdtRuns && decide (s.rst.wdt = s.wdtHalf + units) then s.wdtHalves else s

/-- WDT: the units counted bring it to 0, by way of its half. -/
def State.wdtExpire (s : State) (units : Nat) : State :=
  if s.wdtRuns && decide (s.rst.wdt = units) then
    let s1 := s.wdtHalves
    { s1 with rst := { s1.rst with wdt := 0 } }.assertReset 4
  else s

/-! ### Release and the boot sequencer (R693, R697 to R702) -/

/-- The first block of a froglet copy whose CRC-32C fails. -/
def State.badBlock (s : State) (copy : Nat) : Option Nat :=
  (List.range 8).find? fun i =>
    decide ((crc32c (s.flashBytes false (copy * 0x10000 + 4096 * i) 4096)).toNat ≠
      leNat (s.flashBytes false (copy * 0x10000 + 0x8000 + 4 * i) 4))

/-- Copy a froglet copy into AON RAM. -/
def State.loadFroglet (s : State) (copy : Nat) : State :=
  let aon := (s.flashBytes false (copy * 0x10000) 0x8000).zipIdx.foldl
    (fun t e => tabPut (fun _ => (0 : Byte)) t (0x00FF0000 + e.2) e.1) (s.aon.filter fun e => decide (0x00FF8000 ≤ e.1))
  { s with aon := aon }

/-- A copy passed: the segment table is written and the eft starts (R702). -/
def State.bootStart (s : State) (copy : Nat) : State :=
  let s1 := (s.loadFroglet copy).setF F.BOOT_STATUS_COPY copy
  ({ s1 with regs := bootSegRegs s1.regs }.setF F.PWR_DOM_STATUS_EFT_PG 1).coreStart 16

/-- The boot sequencer (R699 to R701). -/
def State.bootPath (s : State) : State :=
  match s.badBlock 0 with
  | none => s.bootStart 0
  | some i =>
    let s1 := (s.setF F.BOOT_STATUS_COPY0_ERR 1).setF F.BOOT_STATUS_BLOCK0 i
    match s1.badBlock 1 with
    | none => s1.bootStart 1
    | some j =>
      let s2 := (s1.setF F.BOOT_STATUS_COPY1_ERR 1).setF F.BOOT_STATUS_BLOCK1 j
      (s2.loadFroglet 1).setF F.BOOT_STATUS_FAIL 1

/-- The AON supply has been in range long enough, if it was outside it: `cycles` of the FRC (R690). -/
def State.porDone (s : State) (cycles : Nat) : Bool := !(s.rst.sources.getLsbD 0) || decide (16000 ≤ cycles)

/-- RESET_RELEASE: no source is asserted any more, with the AON supply in range for `cycles` of the FRC. -/
def State.resetRelease (s : State) (i2cA : Nat) (bootHold testMode : Bool) (cycles : Nat) : State :=
  if s.rst.held && !(s.rst.sources.getLsbD 4) && s.porDone cycles then
    let s1 := if s.rst.sources.getLsbD 0 then s.setF F.STRAP_STATUS_I2C_A i2cA else s
    let s2 := (s1.setB F.STRAP_STATUS_BOOT_HOLD bootHold).setB F.STRAP_STATUS_TEST_MODE testMode
    let s3 := { s2 with rst := { s2.rst with sources := 0, held := false } }
    if testMode then s3 else s3.bootPath
  else s

/-- A conversion of the on-die sensor, with the abort of R748. -/
def State.dieSample (s : State) (code : Nat) : State := (s.dieConversion code).nvAbort

end Sys2Proof.Machine
end

