-- ==== Sys2Proof/Machine/RegWrite.lean ====
section
/-!
DEFINITION. Machine/RegWrite.lean: a read and a write of control space (spec/00 R3 to R14, R847, R848; spec/23 R837 to
R841): width and alignment, what can be reached, rights, reserved bits and undefined codes, and what each register does.
-/
namespace Sys2Proof.Machine

/-! ### Fields -/

/-- The bits of a register with an access code. -/
def RegInfo.maskOf (r : RegInfo) (a : Acc) : Word :=
  r.flds.foldl (fun m f => if f.acc = a then m ||| BitVec.ofNat 32 ((2 ^ f.w - 1) <<< f.lo) else m) 0

/-- A word written over the old one: RW fields take it, 1s clear W1C fields, reserved bits are dropped (R8, R847). -/
def RegInfo.merge (r : RegInfo) (old v : Word) : Word :=
  let rw := r.maskOf .rw
  (old &&& ~~~rw &&& ~~~(r.maskOf .w1c &&& v)) ||| (v &&& rw)

/-- Codes that a register's table leaves undefined, and values that its chapter declares out of range (R13). -/
def codesBad (k : RegKind) (v : Word) : Bool :=
  match k with
  | .REF_CAND_CFG => decide (fieldOf v 1 3 > 4) || (decide (fieldOf v 1 3 = 1) && decide (fieldOf v 4 7 > 3))
  | .DPLL_HOLD_CTL => !(holdCtlOk v)
  | .LINE_CTL => decide (fieldOf v 3 2 = 3 ∨ fieldOf v 7 2 = 3)
  | .TRK_CTL => decide (fieldOf v 2 2 = 3)
  | .AUD_CFG => decide (fieldOf v 0 2 = 3 ∨ fieldOf v 2 2 = 3)
  | .AUD_CHMAP => decide (fieldOf v 0 2 = 3)
  | .POND_BANK_RUN | .POND_BANK_TORPOR => levelsBad false v
  | .POND_BANK_BRUM => levelsBad true v
  | .HL_CFG => decide (fieldOf v 1 2 = 3)
  | .HDLC_CH_LIMITS => decide (fieldOf v 0 12 > 2048)
  | .NVM_CMD => !(opDefined (fieldOf v 0 4))
  | _ => false

/-! ### What a write does -/

/-- The register takes the word, and nothing else happens. -/
def State.plainWrite (s : State) (r : RegRef) (v : Word) : State :=
  s.setReg r.k (r.k.info.merge (s.reg r.k r.i r.j) v) r.i r.j

/-- The word with only the bits that can be written. -/
def RegRef.wordIn (r : RegRef) (v : Word) : Word :=
  v &&& (r.k.info.maskOf .rw ||| r.k.info.maskOf .wo ||| r.k.info.maskOf .w1c)

def noErr (s : State) : State × Bool := (s, false)

/-- A write of REF_CAND_WTR (R111). -/
def State.writeWtr (s : State) (n : Nat) (v : Word) : State :=
  let s1 := s.plainWrite ⟨.REF_CAND_WTR, n, 0, false⟩ v
  if v.getLsbD 31 && (s.cand n).wtr.isSome then
    ((s1.setCand n { s1.cand n with wtr := some 0 }).setF F.REF_CAND_STATUS_WTR_RUN 0 n).setF F.REF_CAND_STATUS_WTR_LEFT 0 n
  else s1

/-- A write of CORE_ICACHE_CTL: INV_ALL, which leaves PIN unchanged, or PIN first and then INV (R428). -/
def State.icacheCtl (s : State) (n : Nat) (v : Word) : State :=
  if v.getLsbD 2 then s.icacheInv n true
  else
    let s1 := s.setB F.CORE_ICACHE_CTL_PIN (v.getLsbD 0) n
    if v.getLsbD 1 then s1.icacheInv n false else s1

/-- Clocks, time, reference selector and DPLL. -/
def State.writeClk (s : State) (r : RegRef) (v : Word) : State × Bool :=
  match r.k with
  | .CLK_ROOT_CTL => noErr (s.rootCtl v)
  | .CLK_EFT_SRC => noErr (s.eftSrc v)
  | .RTC_LO => noErr (s.rtcLoWrite v)
  | .RTC_HI => noErr (s.rtcHiWrite v)
  | .REF_CAND_CFG => noErr (s.candCfgWrite r.i (r.wordIn v))
  | .REF_CAND_WTR => noErr (s.writeWtr r.i v)
  | .DPLL_LOOP => noErr (s.loopWrite (r.wordIn v))
  | .DPLL_HOLD_CTL =>
    let s1 := s.plainWrite r v
    noErr (if v.getLsbD 31 then s1.histClear else s1)
  | _ => noErr (s.plainWrite r v)

/-- The fabric. -/
def State.writeFab (s : State) (m : Master) (r : RegRef) (v : Word) : State × Bool :=
  let t := s.tenantOf m
  match r.k with
  | .FAB_CONN => s.writeConn t r.i v
  | .FAB_SEL => s.writeSel t r.i v
  | .FAB_COMMIT_SCOPE => noErr (s.setLatch m (RegKind.FAB_COMMIT_SCOPE.addr 0 0) (v &&& 0x3F))
  | .FAB_COMMIT_FRAME =>
    noErr (s.issueCommit t v ((s.latch m (RegKind.FAB_COMMIT_SCOPE.addr 0 0)).setWidth 6))
  | .FAB_DISCARD => noErr (s.discardDirty t (v.getLsbD 0) (v.getLsbD 1))
  | .FAB_PAR_INJECT => noErr (s.parInject v)
  | .FAB_CAPTURE_CTL => noErr (s.captureWrite v)
  | _ => noErr (s.plainWrite r v)

/-- Ports, channels and queues. -/
def State.writePort (s : State) (m : Master) (r : RegRef) (v : Word) : State × Bool :=
  match r.k with
  | .AUD_FRAME => s.audFrame r.i (r.wordIn v)
  | .HDLC_CH_CFG | .HDLC_CH_LIMITS | .HDLC_CH_QUEUE =>
    if s.hdlcWriteBad r.k r.i v then (s, true) else noErr ((s.plainWrite r v).hdlcCleared r v)
  | .Q_BASE => s.writeQBase r.i v
  | .Q_CFG => s.writeQCfg r.i (r.wordIn v)
  | .Q_WM => noErr (s.setQueue r.i { s.queue r.i with wm := v.setWidth 17 })
  | .Q_DROP => noErr (s.writeQDrop r.i v)
  | .QSUM => noErr (s.clearQsum (s.tenantOf m) r.i r.j v)
  | _ => noErr (s.plainWrite r v)

/-- Tenant control and the event router. -/
def State.writeTen (s : State) (m : Master) (r : RegRef) (v : Word) : State × Bool :=
  match r.k with
  | .TEN_EVT_MASK => noErr (s.writeMask r.i r.j v)
  | .CORE_EVT_EN => noErr (s.writeEvtEn r.i r.j v)
  | .TEN_CTL => s.tenCtl (s.tenantOf m) r.i (r.wordIn v)
  | .TEN_CORES => s.writeCores r.i (r.wordIn v)
  | .TEN_QRANGE => s.writeQrange r.i (r.wordIn v)
  | .TEN_SEL_OWN | .TEN_SLOT_OWN => s.writeOwn r.k r.i r.j v
  | .TEN_LINKS => noErr (s.writeTenLinks r.i v)
  | .TEN_MBX_DOOR => s.mbxDoor m r.i v
  | _ => noErr (s.plainWrite r v)

/-- Core control and performance counters. -/
def State.writeCore (s : State) (m : Master) (r : RegRef) (v : Word) : State × Bool :=
  match r.k with
  | .CORE_CTL => noErr (if v.getLsbD 0 then s.restartWrite r.i else s)
  | .CORE_IRQ_SRC => noErr (((s.plainWrite r v).levels r.i).wevFinish r.i)
  | .CORE_ICACHE_CTL => noErr (s.icacheCtl r.i v)
  | .CORE_ICACHE_LOAD => noErr (s.icacheLoad r.i v)
  | .PERF_CTL => s.writePerfCtl r.i r.j v
  | .FPERF_CTL => s.writePerfCtl 17 r.i v
  | .PERF_CNT_LO => noErr (s.writeCntLo m r.i r.j v)
  | .FPERF_CNT_LO => noErr (s.writeCntLo m 17 r.i v)
  | .PERF_CNT_HI => noErr (s.writeCntHi m r.i r.j v)
  | .FPERF_CNT_HI => noErr (s.writeCntHi m 17 r.i v)
  | .PERF_SBUF_CFG => noErr (s.writeSbufCfg r.i v)
  | _ => noErr (s.plainWrite r v)

/-- Power, pond, reset, NVM and update. -/
def State.writeAon (s : State) (r : RegRef) (v : Word) : State × Bool :=
  match r.k with
  | .PWR_DOM_CTL => s.domCtl v
  | .PWR_PAD_REL => s.padRelease v
  | .PWR_CMP => noErr (s.writeCmp r.i v)
  | .PWR_RTC_ALARM_HI => noErr (s.alarmHi v)
  | .PWR_BUDGET => s.writeBudget r.i v
  | .POND_ECC_INJECT => s.eccInject v
  | .RST_CTL => noErr (s.rstCtl v)
  | .WDT_KICK => noErr (s.wdtKick v)
  | .NVM_CTL => noErr (s.nvCtl v)
  | .NVM_CMD => noErr (s.nvCmd v)
  | .XF_CTL => noErr (s.xfCtl v)
  | .UPD_CMD => noErr (s.updCmd v)
  | .UPD_KEYPROG => noErr (s.keyProg v)
  | .UPD_REVOKE => noErr (s.keyRevoke v)
  | _ => noErr (s.plainWrite r v)

/-- Panel, temperature and fans, host links. -/
def State.writeApf (s : State) (r : RegRef) (v : Word) : State × Bool :=
  match r.k with
  | .PNL_CTL => noErr (s.pnlCtl v)
  | .PNL_GEOM | .PNL_TIMING => if s.pnlHeld then (s, true) else noErr (s.plainWrite r v)
  | .PNL_DESC_CTL => s.pnlSubmit r.i v
  | .FAN_MODE => noErr (s.fanMode r.i v)
  | .FAN_AGE_CTL => s.ageStart r.i v
  | .FAN_AGE_REF | .FAN_AGE_LIM => noErr ((s.plainWrite r v).ageEval r.i)
  | .HL_CTL => noErr (if v.getLsbD 0 then s.linkReset r.i else s)
  | _ => noErr (s.plainWrite r v)

/-- A write that passed every check. -/
def State.writeReg (s : State) (m : Master) (r : RegRef) (v : Word) : State × Bool :=
  if r.k.info.scope.isSome then
    let wo := r.k.info.maskOf .wo
    s.shadowWrite (s.tenantOf m) r ((r.k.info.merge (s.reg r.k r.i r.j) v &&& ~~~wo) ||| (v &&& wo))
  else
    match r.k.info.base / 0x10000 with
    | 0x100 | 0x102 | 0x103 => s.writeFab m r v
    | 0x110 | 0x112 | 0x113 | 0x114 | 0x118 => s.writePort m r v
    | 0x11C => if r.k = .QSUM then s.writePort m r v else s.writeTen m r v
    | 0x11D => s.writeTen m r v
    | 0x11E => s.writeCore m r v
    | 0x11F => s.writeClk r v
    | 0x121 | 0x122 | 0x123 => s.writeApf r v
    | _ => s.writeAon r v

/-! ### Manufacturing test (R841) -/

/-- Offsets 0x800 to 0xFFFF of the identity and test block, which respond while TEST_MODE is high. -/
def inTestWindow (a : Nat) : Bool := decide (0x01250800 ≤ a ∧ a < 0x01260000)

def State.testMode (s : State) : Bool := s.b F.STRAP_STATUS_TEST_MODE

/-- A write there: the manual says only that fuses may be blown in this mode, so which are is a free number. -/
def State.testWrite (s : State) : State :=
  let (n, s1) := s.free
  { s1 with nvm := { s1.nvm with
      dbgLock := s1.nvm.dbgLock ||| BitVec.ofNat 16 n
      csaLock := s1.nvm.csaLock || decide (n / 65536 % 2 = 1) } }

/-- A read there gives a free word. -/
def State.testRead (s : State) : State × Word :=
  ({ s with freeCtr := s.freeCtr + 1 }, Config.freeWord s.freeCtr)

/-! ### Accesses -/

/-- A write of a word to control space. The Bool is an access error. -/
def State.ctlWord (s : State) (m : Master) (a : Nat) (v : Word) : State × Bool :=
  match regAt a with
  | none => if inTestWindow a && s.testMode && decide (s.tenantOf m = 0) then (s.testWrite, false) else (s, true)
  | some r =>
    if !(s.reach r) || r.act || decide (r.k.info.wr = .active) || !(s.mayWrite m r) || codesBad r.k v then (s, true)
    else s.writeReg m r v

/-- A write to control space (R4 to R6). -/
def State.ctlWrite (s : State) (m : Master) (size : AccessSize) (a : Nat) (v : Word) : State × Bool :=
  if size ≠ .word ∨ a % 4 ≠ 0 then (s, true) else s.ctlWord m a v

/-- CORE_STATUS.STATE codes (R459). -/
def CoreSt.code : CoreSt → Nat
  | .off => 0
  | .stopped => 1
  | .run => 2
  | .wait => 3
  | .dbg => 4
  | .faultStop => 5

def TenSt.code : TenSt → Nat
  | .off => 0
  | .run => 1
  | .shedding => 2
  | .shed => 3

/-- CORE_STATUS as it reads. -/
def State.coreStatus (s : State) (n : Nat) : Word :=
  let c := s.core n
  BitVec.ofNat 32 (c.st.code + (if c.inHandler then 8 else 0) + s.coreOwner n * 256)

/-- A connection entry or selector as a view shows it (R158). -/
def State.connView (s : State) (n : Nat) : Word := (s.conn n).shadow (s.change (connAddr n))
def State.selView (s : State) (n : Nat) : Word := (s.sel n).shadow (s.change (selAddr n))

/-- What a register reads as. -/
def State.regValue (s : State) (m : Master) (r : RegRef) : Word :=
  if r.act then s.act r.k r.i r.j
  else
    match r.k with
    | .FRAME_COUNT => s.frame
    | .SYS_TIME_HI => s.latch m sysHiAddr
    | .RTC_HI => s.latch m rtcHiAddr
    | .FAB_CONN => s.connView r.i
    | .FAB_CONN_ACT => (s.conn r.i).active
    | .FAB_SEL => s.selView r.i
    | .FAB_SEL_ACT => (s.sel r.i).active
    | .FAB_COMMIT_SCOPE => s.latch m (RegKind.FAB_COMMIT_SCOPE.addr 0 0)
    | .FAB_GATE_STATUS => BitVec.ofNat 32 s.fab.rowsDown.length
    | .FAB_CMT_APPLIED_INFO => s.reg r.k r.i ||| BitVec.ofNat 32 ((s.pendingOf r.i).length * 65536)
    | .LINE_CNT_SEC | .LINE_CNT_FAS_CRC | .LINE_CNT_EBIT_CV | .LINE_CNT_SLIP_RAI | .LINE_CNT_LOS_LOF
    | .LINE_CNT_AIS_SAT => s.readLineCnt m r.k r.i
    | .TRK_CNT_SEC | .TRK_CNT_BIP | .TRK_CNT_REI | .TRK_CNT_FAW_SD | .TRK_CNT_LOS_LOF | .TRK_CNT_LOMF_SLIP
    | .TRK_CNT_SAT => s.readTrunkCnt m r.k r.i
    | .Q_BASE | .Q_CFG | .Q_WM | .Q_HEAD | .Q_TAIL | .Q_FILL | .Q_DROP | .Q_STAT => s.readQ r.k r.i
    | .CORE_EVT_PEND => s.pendWord r.i r.j
    | .QSUM => s.readQsum (s.tenantOf m) r.i r.j
    | .TEN_STATUS => (s.reg r.k r.i &&& 0xFFFF0000) ||| BitVec.ofNat 32 (s.ten r.i).st.code
    | .TEN_CORES | .TEN_QRANGE | .TEN_SEL_OWN | .TEN_SLOT_OWN => s.readOwn r.k r.i r.j
    | .CORE_STATUS => s.coreStatus r.i
    | .HL_SEQ => s.readHlSeq r.i
    | .HL_STATUS => s.readHlStatus r.i
    | .I2C_CFG => (s.reg r.k &&& 1) ||| BitVec.ofNat 32 ((0x30 + s.f F.STRAP_STATUS_I2C_A) * 256)
    | .UPD_KEY_STATE => s.keyState
    | .ID_FUSE => BitVec.ofNat 32 (s.nvm.dbgLock.toNat + if s.nvm.csaLock then 65536 else 0)
    | .ID_UNIQUE => (s.nvm.uid >>> (32 * r.i)).setWidth 32
    | .AUD_CTL => s.reg .AUD_CTL r.i &&& ~~~(RegKind.AUD_CTL.info.maskOf .wo)
    | k => s.reg k r.i r.j

/-- A read clears RC fields (R9). -/
def State.clearRc (s : State) (r : RegRef) : State :=
  let rc := r.k.info.maskOf .rc
  match r.k with
  | .Q_DROP => s.clearQDrop r.i
  | .TEN_MBX => s.mbxRead r.i
  | k => if rc = 0 then s else s.setReg k (s.reg k r.i r.j &&& ~~~rc) r.i r.j

/-- A read that passed every check. -/
def State.readReg (s : State) (m : Master) (r : RegRef) : State × Word :=
  match r.k with
  | .SYS_TIME_LO => s.sysTimeLo m
  | .RTC_LO => s.rtcLoRead m
  | .PERF_CNT_LO => s.readCntLo m r.i r.j
  | .FPERF_CNT_LO => s.readCntLo m 17 r.i
  | .PERF_CNT_HI => s.readCntHi m r.i r.j
  | .FPERF_CNT_HI => s.readCntHi m 17 r.i
  | .LINE_CNT_SEC => (s.selLineBank m r.i, s.regValue m r)
  | .TRK_CNT_SEC => (s.selTrunkBank m r.i, s.regValue m r)
  | _ => (if r.act then s else s.clearRc r, s.regValue m r)

/-- A read of a word of control space: none is an access error. -/
def State.ctlWordRead (s : State) (m : Master) (a : Nat) : State × Option Word :=
  match regAt a with
  | none =>
    if inTestWindow a && s.testMode && decide (s.tenantOf m = 0) then (s.testRead.1, some s.testRead.2) else (s, none)
  | some r =>
    if !(s.reach r) || !(s.mayRead m r) then (s, none) else ((s.readReg m r).1, some (s.readReg m r).2)

/-- A read of control space (R4 to R6). -/
def State.ctlRead (s : State) (m : Master) (size : AccessSize) (a : Nat) : State × Option Word :=
  if size ≠ .word ∨ a % 4 ≠ 0 then (s, none) else s.ctlWordRead m a

/-! ### Register rows of the opcode table -/

/-- Can this master issue an access now (R448, R624, R635, R637)? -/
def State.masterLive (s : State) (m : Master) : Bool :=
  !s.rst.held &&
    match m with
    | .core n => s.corePg n.val && (decide (n.val = 16) || s.divRun)
    | .link _ _ => s.fabUp
    | .jtag => !s.nvm.csaLock
    | .i2c => s.b F.I2C_CFG_EN

/-- What a master sees of an access. -/
def State.seen (s : State) (m : Master) (v : Word) (err : Bool) : State := { s with last := ⟨m.id, v, err⟩ }

/-- A write command. -/
def State.busWrite (s : State) (m : Master) (size : AccessSize) (a : Nat) (v : Word) : State :=
  if s.masterLive m then
    let r := s.ctlWrite m size a v
    r.1.seen m 0 r.2
  else s

/-- A read command: the value is 0 where the access is refused. -/
def State.busRead (s : State) (m : Master) (a : Nat) : State :=
  if s.masterLive m then
    match s.ctlRead m .word a with
    | (s1, some v) => s1.seen m v false
    | (s1, none) => s1.seen m 0 true
  else s

/-- A write of a word to a named register. -/
def State.regWrite (s : State) (m : Master) (k : RegKind) (i j : Nat) (v : Word) : State :=
  s.busWrite m .word (k.addr i j) v

end Sys2Proof.Machine
end

