-- ==== Sys2Proof/Machine/Frame.lean ====
section
/-!
DEFINITION. Machine/Frame.lean: the frame boundary (R20, R37, R74, R142 to R149, R166, R441, R442): what the frame that ends
leaves, and what the frame that begins starts with; the second boundary (R75, R131, R222, R275); and their commands.
Commits and tail sheds of the boundary are commands of their own, which follow it.
-/
namespace Sys2Proof.Machine

/-- The byte that an input slot presents in the frame that ends (R142 to R145); `aud` lists the audio slots. -/
def State.inputByte (s : State) (aud : List (Nat × Byte)) (n : Nat) : Byte :=
  if n < 12160 then s.linkByte n
  else if n < 14208 then (match aud.find? fun e => e.1 = n with | some e => e.2 | none => 0xFF)
  else if n < 15232 then s.hdlcSlotByte (n - 14208)
  else tabGet (fun _ => (0xFF : Byte)) s.fab.src n

/-- The bits that an audio port samples: those of the frame that ends and the first of the next, which can be the last
of a sample (R283); low where none are given or the bank has no supply (R817). -/
def State.dinOf (s : State) (din : List (List Bool)) (p : Nat) : List Bool := if s.bankIn 6 then din.getD p [] else []

/-- Ports finish the frame that ends: they deliver, transmit and take the fabric's bytes. -/
def State.portsEnd (s : State) (din : List (List Bool)) : State :=
  let s1 := linePorts.foldl State.lineEnd s
  let s2 := [0, 1, 2, 3].foldl (fun s t => s.trunkEnd t (s.dccBytes t)) s1
  let s3 := audPorts.foldl (fun s p => s.audEnd p (s.dinOf din p)) s2
  hdlcChannels.foldl State.hdlcEnd s3

/-- The signals of the fabric's counters in the cycle of a boundary (R562): rejected commits by tenant, failing outputs,
gated rows, and the strobe. -/
def State.fabCounts (s : State) (bad : Nat) : State :=
  let s1 := s.strobePulses ([(6, 16, bad), (7, 16, s.fab.rowsDown.length)] ++ s.fab.rejected.map fun e => (4, e.1, e.2))
  { s1 with fab := { s1.fab with rejected := [] } }

/-- The frame's bytes are routed and captured (R149, R176, R185), with the outputs that failed. `aud`: the audio input
slots. -/
def State.routeFrame (s : State) (aud : List (Nat × Byte)) : State × List (Nat × Bool) :=
  let r := s.walk (s.inputByte aud)
  let s1 := s.captureFrame
  ({ s1 with fab := { s1.fab with out := s1.fab.routed, routed := r.1 } }, r.2)

/-- The cycles of a core's clock in the frame that ends that its commands did not take pass. The eft on the FRC has 1940
to 2060 of them, a free number (R71). What a core has used beyond the frame counts in the next. -/
def State.restOfFrame (s : State) (n : Nat) : State :=
  if s.corePg n then
    let r := if n = 16 ∧ !(s.b F.CLK_EFT_SRC_CUR) then (1940 + s.free.1 % 121, s.free.2) else (12288, s)
    let s1 := (r.2.spend n 0 (r.1 - (r.2.core n).fcyc) []).wrapBlock n
    s1.setCore n { s1.core n with fcyc := (s1.core n).fcyc - r.1 }
  else s

/-- Frame number and time (R74); the counts of frames that follow it. -/
def State.timeOn (s : State) : State :=
  { s with frame := s.frame + 1, sys := s.sys + 3072, ticks := s.ticks + 1, secDone := false
           clk := { s.clk with into := 0 }
           th := { s.th with tickDone := false } }

/-- Domains that a boundary starts, power-good too late for their commit (R650). -/
def State.lateRun (s : State) : State :=
  let old := s.pwr.running
  let s1 := s.runUpdate
  if (s1.pwr.running &&& ~~~old) ≠ 0 then (s1.setF F.PWR_STATUS_LATE_RUN 1).raise 790 else s1

/-- ECC counters that grew raise their events once in a frame (R495). -/
def State.eccEvents (s : State) : State :=
  let s1 := if s.ceGrown then { s with ceGrown := false }.raise 1004 else s
  if s1.ueNew then { s1 with ueNew := false }.raise 1005 else s1

/-- Everything that begins a frame; `bad`: the outputs that failed in the walk of the one before. -/
def State.frameBegin (s : State) (bad : List (Nat × Bool)) : State :=
  let s1 := (s.timeOn.walkFound bad).fabCounts bad.length
  let s2 := (List.range 16).foldl State.mailboxIn { s1 with fab := { s1.fab with src := s1.sources } }
  let s3 := s2.eccEvents.tenantsFrame
  let s4 := linePorts.foldl State.lineBegin s3.hdlcsBegin
  let s5 := audPorts.foldl State.audBegin s4.trunksBegin
  (linkNums.foldl State.linkFrame (s5.refFrame).pnlFrame).lateRun

/-- FRAME_BOUNDARY, while the derived clocks run. -/
def State.frameBoundary (s : State) (din : List (List Bool)) : State :=
  if s.fabUp && !s.rst.held then
    let aud := audPorts.flatMap fun p => s.audIn p (s.dinOf din p)
    let r := (s.portsEnd din).routeFrame aud
    let s1 := (r.1.fperf 8192 []).wrapBlock 17
    (coreNums.foldl State.restOfFrame s1).frameBegin r.2
  else s

def execFrameBoundary (din : List (List Bool)) (s : State) : Out := run (fun s => s.frameBoundary din) s

/-- SECOND_BOUNDARY: SYS_TIME is a multiple of 24,576,000. The second that ends closes the history entry and the banks
(R131, R222, R275); its number is the new second's less one. A holdover entered at this boundary takes the history as
it stands before the ended second's entry: an update that is due runs first (log entry 96). -/
def State.secondBoundary (s : State) : State :=
  let t := s.sys.toNat
  if s.fabUp && !s.rst.held && decide (t % 24576000 = 0 ∧ 0 < t) && !s.secDone then
    let sec : Word := BitVec.ofNat 32 (t / 24576000 - 1)
    let s1 := s.dpllUpdate.histSecond
    let s2 := linePorts.foldl (fun s p => s.lineSecond sec p) s1
    let s3 := [0, 1, 2, 3].foldl (fun s t => s.trunkSecond sec t) s2
    { s3 with secDone := true }
  else s

def execSecondBoundary (s : State) : Out := run (fun s => s.secondBoundary) s

/-- COMMIT_APPLY at the boundary of its target frame. -/
def execCommitApply (s : State) : Out := run (fun s => if s.fabUp && !s.rst.held then s.commitApply else s) s

/-- TAIL_SHED at the boundary after the request. -/
def execTailShed (s : State) : Out := run (fun s => if s.rst.held then s else s.tailShed) s

/-- EVENT_DELIVERY: a delivery window. -/
def execEventDelivery (s : State) : Out := run (fun s => if s.rst.held then s else s.eventDelivery) s

/-- AON_EVENT_RELEASE. -/
def execAonEventRelease (s : State) : Out := run (fun s => if s.rst.held then s else s.releaseHeld) s

end Sys2Proof.Machine
end

