-- ==== Sys2Proof/Machine/CmdApf.lean ====
section
/-!
DEFINITION. Machine/CmdApf.lean: the panel (spec/20), temperature and fans (spec/21), as commands.
-/
namespace Sys2Proof.Machine

/-- PANEL_ENABLE (R764). -/
def execPanelEnable (m : Master) (v : Word) (s : State) : Out :=
  run (fun s => s.regWrite m .PNL_CTL 0 0 (v ||| 1)) s

/-- PANEL_DISABLE (R764). -/
def execPanelDisable (m : Master) (v : Word) (s : State) : Out :=
  run (fun s => s.regWrite m .PNL_CTL 0 0 (v &&& 0xFFFFFFFE)) s

/-- PANEL_SCAN_START (R764). -/
def execPanelScanStart (s : State) : Out :=
  run (fun s => s.pnlStart) s

/-- PANEL_ROW_PERIOD (R758, R759). -/
def execPanelRowPeriod (s : State) (cycles : Nat := 0) : Out :=
  run (fun s => s.pnlNext cycles) s

/-- PNL_DESC_SUBMIT (R767). -/
def execPnlDescSubmit (m : Master) (k : Fin 4) (v : Word) (s : State) : Out :=
  run (fun s => s.regWrite m .PNL_DESC_CTL k.val 0 (v ||| 0x80000000)) s

/-- PNL_DESC_START (R769). -/
def execPnlDescStart (k : Fin 4) (s : State) : Out :=
  run (fun s => s.pnlDescStart k.val) s

/-- PANEL_ENGINE_ACCESS (R771). -/
def execPanelEngineAccess (s : State) : Out :=
  run (fun s => s.pnlEngine) s

/-- CONTROL_TICK (R781, R792). -/
def execControlTick (s : State) : Out :=
  run (fun s => s.controlTick) s

/-- TH_CONVERSION (R783). -/
def execThConversion (n : Fin 8) (raw : BitVec 12) (s : State) : Out :=
  run (fun s => s.thConversion n.val raw.toNat) s

/-- DIE_CONVERSION (R787, R748). -/
def execDieConversion (code : BitVec 12) (s : State) : Out :=
  run (fun s => s.dieSample code.toNat) s

/-- THERMAL_RELEASE (R789). -/
def execThermalRelease (s : State) : Out :=
  run (fun s => s.thermalRelease) s

/-- FAN_MODE_WRITE (R790). -/
def execFanModeWrite (m : Master) (k : Fin 4) (v : Word) (s : State) : Out :=
  run (fun s => s.regWrite m .FAN_MODE k.val 0 v) s

/-- ALIGN_END (R796). -/
def execAlignEnd (k : Fin 4) (s : State) : Out :=
  run (fun s => s.alignEnd k.val) s

/-- RAMP_TIMEOUT (R796). -/
def execRampTimeout (k : Fin 4) (s : State) : Out :=
  run (fun s => s.rampTimeout k.val) s

/-- RAMP_PAUSE_END (R796). -/
def execRampPauseEnd (k : Fin 4) (s : State) : Out :=
  run (fun s => s.rampPauseEnd k.val) s

/-- BEMF_ZERO_CROSSING (R796). -/
def execBemfZeroCrossing (k : Fin 4) (interval : Nat) (at_ : Nat) (s : State) : Out :=
  run (fun s => s.bemf k.val interval at_) s

/-- COMMUTATION_TIMEOUT (R796). -/
def execCommutationTimeout (k : Fin 4) (s : State) (quiet : Nat := 0) : Out :=
  run (fun s => s.commTimeout k.val quiet) s

/-- STALL_RETRY (R796). -/
def execStallRetry (k : Fin 4) (s : State) : Out :=
  run (fun s => s.stallRetry k.val) s

/-- KICK_END (R798). -/
def execKickEnd (k : Fin 4) (s : State) : Out :=
  run (fun s => s.kickEnd k.val) s

/-- TACH_EDGE (R799). -/
def execTachEdge (k : Fin 4) (period : Nat) (s : State) : Out :=
  run (fun s => if s.bankIn 7 then s.tachEdge k.val period else s) s

/-- TACH_TIMEOUT (R800). -/
def execTachTimeout (k : Fin 4) (s : State) : Out :=
  run (fun s => s.tachTimeout k.val) s

/-- AGE_START (R801). -/
def execAgeStart (m : Master) (k : Fin 4) (v : Word) (s : State) : Out :=
  run (fun s => s.regWrite m .FAN_AGE_CTL k.val 0 (v ||| 0x80000000)) s

/-- AGE_DONE (R801). -/
def execAgeDone (k : Fin 4) (s : State) : Out :=
  run (fun s => s.ageDone k.val) s

/-- AGE_TIMEOUT (R802). -/
def execAgeTimeout (k : Fin 4) (s : State) : Out :=
  run (fun s => s.ageTimeout k.val) s

end Sys2Proof.Machine
end

