-- ==== Sys2Proof/Machine/CmdClock.lean ====
section
/-!
DEFINITION. Machine/CmdClock.lean: register accesses without a row of their own (spec/00), the clock root and device time (spec/02), and the
reference selector and DPLL (spec/03), as commands.
-/
namespace Sys2Proof.Machine

/-- REGISTER_WRITE (R3 to R14, R847). -/
def execRegisterWrite (m : Master) (size : AccessSize) (addr v : Word) (s : State) : Out :=
  run (fun s => s.busWrite m size addr.toNat v) s

/-- RC_FIELD_READ (R9). -/
def execRcFieldRead (m : Master) (addr : Word) (s : State) : Out :=
  run (fun s => s.busRead m addr.toNat) s

/-- PLL_EN_SET: a write of CLK_ROOT_CTL with PLL_EN = 1 (R79). -/
def execPllEnSet (m : Master) (v : Word) (s : State) : Out :=
  run (fun s => s.regWrite m .CLK_ROOT_CTL 0 0 (v ||| 1)) s

/-- PLL_EN_CLEAR (R83). -/
def execPllEnClear (m : Master) (v : Word) (s : State) : Out :=
  run (fun s => s.regWrite m .CLK_ROOT_CTL 0 0 (v &&& 0xFFFFFFFE)) s

/-- OSC_SETTLE_END (R79). -/
def execOscSettleEnd (s : State) (cycles : Nat := 8000) : Out :=
  run (fun s => s.settleEnd cycles) s

/-- PLL_LOCK_RISE (R69, R603). -/
def execPllLockRise (s : State) : Out :=
  run (fun s => s.pllLock.linksReturn) s

/-- CLK_EFT_SRC_WRITE (R80, R81). -/
def execClkEftSrcWrite (m : Master) (v : Word) (s : State) : Out :=
  run (fun s => s.regWrite m .CLK_EFT_SRC 0 0 v) s

/-- CLK_OSC_FAIL (R85, R86). -/
def execClkOscFail (s : State) (quiet : Nat := 16) (edges : Nat := 0) : Out :=
  run (fun s => s.oscFail quiet edges) s

/-- LOCK_LOST (R87). -/
def execLockLost (s : State) : Out :=
  run (fun s => s.lockLost) s

/-- FRC_MEASURE (R72). -/
def execFrcMeasure (hz : BitVec 25) (s : State) : Out :=
  run (fun s => s.frcMeasure hz.toNat) s

/-- SYS_TIME_LO_READ (R75). -/
def execSysTimeLoRead (m : Master) (s : State) : Out :=
  run (fun s => s.busRead m (RegKind.SYS_TIME_LO.addr 0 0)) s

/-- RTC_LO_READ (R77). -/
def execRtcLoRead (m : Master) (s : State) : Out :=
  run (fun s => s.busRead m (RegKind.RTC_LO.addr 0 0)) s

/-- RTC_LO_WRITE (R77). -/
def execRtcLoWrite (m : Master) (v : Word) (s : State) : Out :=
  run (fun s => s.regWrite m .RTC_LO 0 0 v) s

/-- RTC_HI_WRITE (R77). -/
def execRtcHiWrite (m : Master) (v : Word) (s : State) : Out :=
  run (fun s => s.regWrite m .RTC_HI 0 0 v) s

/-- DPLL_LOOP_WRITE (R126). -/
def execDpllLoopWrite (m : Master) (v : Word) (s : State) : Out :=
  run (fun s => s.regWrite m .DPLL_LOOP 0 0 v) s

/-- DPLL_UPDATE (R118, R122 to R130). -/
def execDpllUpdate (s : State) : Out :=
  run (fun s => s.dpllUpdate) s

/-- LOCKING to LOCKED (R121). -/
def State.lockDeclare (s : State) : State :=
  if s.fabUp && decide (s.f F.DPLL_STATUS_STATE = 1) && decide (1000 ≤ s.dpll.inLock) then
    { s.setDpll 2 with dpll := { s.dpll with outLock := 0 } }
  else s

/-- LOCKED to LOCKING without realignment (R121). -/
def State.lockLoss (s : State) : State :=
  if s.fabUp && decide (s.f F.DPLL_STATUS_STATE = 2) && decide (16 ≤ s.dpll.outLock) then
    { s.setDpll 1 with dpll := { s.dpll with inLock := 0, outLock := 0 } }
  else s

def execDpllLockDeclare (s : State) : Out :=
  run (fun s => s.lockDeclare) s

def execDpllLockLoss (s : State) : Out :=
  run (fun s => s.lockLoss) s

/-- The marker of candidate `n` has been absent for 2 frames, or 1.1 s for PPS_IN (R100). -/
def State.markerGone (s : State) (n : Nat) : State :=
  let most := if s.rf F.REF_CAND_CFG_TYPE n = 4 then 8800 else 2
  if s.fabUp && s.rb F.REF_CAND_CFG_EN n && decide (most ≤ (s.cand n).age) then
    (s.setF F.REF_CAND_STATUS_FAIL_ACT 1 n).candEval n
  else s

/-- A 1 s window of candidate `n` ends with an offset in units of 0.01 ppm (R102). -/
def State.freqWindow (s : State) (n : Nat) (offset : BitVec 16) : State :=
  if s.fabUp && s.rb F.REF_CAND_CFG_EN n then
    let lim := s.rf F.REF_CAND_CFG_FREQ_LIM n
    let s1 := (s.setF F.REF_CAND_FREQ_OFFSET offset.toNat n).setF F.REF_CAND_FREQ_VALID 1 n
    let bad := decide (lim ≠ 0) && decide (lim * 100 < offset.toInt.natAbs)
    (s1.setCand n { s1.cand n with freqBad := bad }).candEval n
  else s

/-- The wait-to-restore timer of candidate `n` stands at 0 (R109): it was cleared since the boundary, or its full value
is 0. A boundary that counts it down to 0 qualifies the candidate itself. -/
def State.wtrEnd (s : State) (n : Nat) : State := if s.fabUp then s.wtrDone n else s

/-- A REFIN or PPS_IN candidate sees a mark of its phase, with the comparison in VCO cycles (R98, R99): the 256th rising
edge in CLOCK mode, the start of a frame in DATA mode, or the edge of PPS_IN that PPS_EDGE selects. -/
def State.phaseMark (s : State) (n : Nat) (mark : RefMark) (err : Int) : State :=
  if s.fabUp && s.rb F.REF_CAND_CFG_EN n then
    let typ := s.rf F.REF_CAND_CFG_TYPE n
    let refin := typ = 2 ∨ typ = 3
    let data := s.rb (if typ = 2 then F.REF_INPUT_CTL_REFIN0_MODE else F.REF_INPUT_CTL_REFIN1_MODE)
    match mark with
    | .edges k =>
      if refin ∧ !data then
        let m := (s.cand n).edges + k
        let s1 := s.setCand n { s.cand n with edges := m % 256 }
        if 256 ≤ m then s1.candMarker n err else s1
      else s
    | .frame => if refin ∧ data then s.candMarker n err else s
    | .pps rising => if typ = 4 ∧ rising ≠ s.rb F.REF_INPUT_CTL_PPS_EDGE then s.candMarker n err else s
  else s

/-- What a REFIN in DATA mode has received declares or clears its defects (R101): LOS after 32 consecutive 0s,
cleared as R192 clears it with that count; loss of alignment at three consecutive incorrect FAS words, found again as
in R194. -/
def State.refinDefect (s : State) (n : Nat) (bits : RefinBits) (fas : RefinFas) : State :=
  let typ := s.rf F.REF_CAND_CFG_TYPE n
  let data := s.rb (if typ = 2 then F.REF_INPUT_CTL_REFIN0_MODE else F.REF_INPUT_CTL_REFIN1_MODE)
  if s.fabUp && s.rb F.REF_CAND_CFG_EN n && decide (typ = 2 ∨ typ = 3) && data then
    let c := s.cand n
    let word : BitVec 7 := 0x1B
    let los := match bits with
      | .nothing => c.losDef
      | .zeros k => c.losDef || decide (32 ≤ k)
      | .window w => c.losDef && !clearWindow 32 w
    let lof := match fas with
      | .nothing => c.lofDef
      | .fas3 w0 w1 w2 => c.lofDef || decide (w0 ≠ word ∧ w1 ≠ word ∧ w2 ≠ word)
      | .search w0 bit2 w1 => c.lofDef && !(decide (w0 = word) && bit2 && decide (w1 = word))
    (s.setCand n { c with losDef := los, lofDef := lof }).candEval n
  else s

def execMarkerTimeout (n : Fin 8) (s : State) : Out :=
  run (fun s => s.markerGone n.val) s

def execFreqWindowEnd (n : Fin 8) (offset : BitVec 16) (s : State) : Out :=
  run (fun s => s.freqWindow n.val offset) s

def execWtrExpire (n : Fin 8) (s : State) : Out :=
  run (fun s => s.wtrEnd n.val) s

/-- WTR_CLEAR (R111). -/
def execWtrClear (m : Master) (n : Fin 8) (v : Word) (s : State) : Out :=
  run (fun s => s.regWrite m .REF_CAND_WTR n.val 0 (v ||| 0x80000000)) s

/-- REF_CAND_CFG_WRITE (R136). -/
def execRefCandCfgWrite (m : Master) (n : Fin 8) (v : Word) (s : State) : Out :=
  run (fun s => s.regWrite m .REF_CAND_CFG n.val 0 v) s

/-- HIST_CLR (R135). -/
def execHistClr (m : Master) (v : Word) (s : State) : Out :=
  run (fun s => s.regWrite m .DPLL_HOLD_CTL 0 0 (v ||| 0x80000000)) s

def execPhaseMarker (n : Fin 8) (mark : RefMark) (s : State) (err : BitVec 17 := 0) : Out :=
  run (fun s => s.phaseMark n.val mark err.toInt) s

def execRefinDefect (n : Fin 8) (bits : RefinBits) (fas : RefinFas) (s : State) : Out :=
  run (fun s => s.refinDefect n.val bits fas) s

end Sys2Proof.Machine
end

