-- ==== Sys2Proof/Machine/CmdFabric.lean ====
section
/-!
DEFINITION. Machine/CmdFabric.lean: the cross-connect fabric and commits (spec/01, spec/04), as commands.
-/
namespace Sys2Proof.Machine

/-- FAB_COMMIT_FRAME_WRITE (R35, R165). -/
def execFabCommitFrameWrite (m : Master) (v : Word) (s : State) : Out :=
  run (fun s => s.regWrite m .FAB_COMMIT_FRAME 0 0 v) s

/-- FAB_CONN_WRITE (R151 to R153, R159). -/
def execFabConnWrite (m : Master) (slot : BitVec 14) (v : Word) (s : State) : Out :=
  run (fun s => s.regWrite m .FAB_CONN slot.toNat 0 v) s

/-- FAB_SEL_WRITE (R155, R159). -/
def execFabSelWrite (m : Master) (k : BitVec 10) (v : Word) (s : State) : Out :=
  run (fun s => s.regWrite m .FAB_SEL k.toNat 0 v) s

/-- FAB_DISCARD (R164). -/
def execFabDiscard (m : Master) (v : Word) (s : State) : Out :=
  run (fun s => s.regWrite m .FAB_DISCARD 0 0 v) s

/-- The data memory row of an output slot powers down (R171). -/
def State.rowPowerDown (s : State) (n : Nat) : State :=
  if s.fabUp && s.rowMayDrop n then s.rowDown n else s

/-- The eighth frame of a capture has ended (R185). -/
def State.captureDone (s : State) : State :=
  if s.fabUp && decide (s.fab.capRun = some 8) then
    (({ s with fab := { s.fab with capRun := none } }).setF F.FAB_CAPTURE_CTL_ARM 0).raise 644
  else s

def execRowPowerDown (slot : BitVec 14) (s : State) : Out :=
  run (fun s => s.rowPowerDown slot.toNat) s

/-- FAB_PAR_INJECT (R179). -/
def execFabParInject (m : Master) (v : Word) (s : State) : Out :=
  run (fun s => s.regWrite m .FAB_PAR_INJECT 0 0 (v ||| 0x80000000)) s

/-- CAPTURE_ARM (R185). -/
def execCaptureArm (m : Master) (v : Word) (s : State) : Out :=
  run (fun s => s.regWrite m .FAB_CAPTURE_CTL 0 0 v) s

def execFabCaptureDone (s : State) : Out :=
  run (fun s => s.captureDone) s

end Sys2Proof.Machine
end

