-- ==== Sys2Proof/Machine/CmdPort.lean ====
section
/-!
DEFINITION. Machine/CmdPort.lean: lines, trunks, audio ports and HDLC channels (spec/05 to spec/08), as commands.
-/
namespace Sys2Proof.Machine

/-- The receive pins of a line port are read (R811, R817). -/
def State.lineRead (s : State) (p : Nat) (f : State → State) : State := if s.bankIn (p / 32) then f s else s

/-- LOS_DECLARE: without a supply no bits are read, and no clock. -/
def execLosDeclare (p : Fin 128) (zeros : Nat) (noClock : Bool) (s : State) : Out :=
  run (fun s => if noClock then s.losDeclare p.val zeros true else s.lineRead p.val fun s => s.losDeclare p.val zeros false) s

/-- LOS_CLEAR. -/
def execLosClear (p : Fin 128) (clock : Bool) (window : BitVec 32) (s : State) : Out :=
  run (fun s => s.lineRead p.val fun s => s.losClear p.val clock window) s

/-- AIS_PERIOD_END. -/
def execAisPeriodEnd (p : Fin 128) (zeros : BitVec 10) (s : State) : Out :=
  run (fun s => s.lineRead p.val fun s => s.aisPeriod p.val zeros.toNat) s

/-- LINE_FRAME_RECEIVED. -/
def execLineFrameReceived (p : Fin 128) (pos neg : BitVec 256) (phase : BitVec 17) (s : State) : Out :=
  run (fun s => s.lineRead p.val fun s => s.lineReceive p.val pos neg phase.toInt) s

/-- MULTIFRAME_SEARCH_TIMEOUT. -/
def execMultiframeSearchTimeout (p : Fin 128) (s : State) : Out :=
  run (fun s => s.mfTimeout p.val) s

/-- NOCRC4. -/
def execNocrc4 (p : Fin 128) (s : State) : Out :=
  run (fun s => s.noCrc4 p.val) s

/-- LINE_CNT_SEC_READ (R225). -/
def execLineCntSecRead (m : Master) (p : Fin 128) (s : State) : Out :=
  run (fun s => s.busRead m (RegKind.LINE_CNT_SEC.addr p.val 0)) s

/-- TRUNK_FRAME_RECEIVED. -/
def execTrunkFrameReceived (t : Fin 4) (bits : BitVec 16384) (phase : BitVec 17) (s : State) : Out :=
  run (fun s => s.trunkReceive t.val (if s.bankIn 4 then bits else 0) phase.toInt) s

/-- TRUNK_LOS_DECLARE. -/
def execTrunkLosDeclare (t : Fin 4) (quiet : Nat) (ppm : BitVec 16) (s : State) : Out :=
  run (fun s => s.trunkLosDeclare t.val quiet ppm.toInt) s

/-- TRUNK_LOS_CLEAR. -/
def execTrunkLosClear (t : Fin 4) (ppm : BitVec 16) (quiet : Nat) (s : State) : Out :=
  run (fun s => if s.bankIn 4 then s.trunkLosClear t.val ppm.toInt quiet else s) s

/-- TRK_CNT_SEC_READ (R275). -/
def execTrkCntSecRead (m : Master) (t : Fin 4) (s : State) : Out :=
  run (fun s => s.busRead m (RegKind.TRK_CNT_SEC.addr t.val 0)) s

/-- AUD_FRAME_WRITE (R285, R286). -/
def execAudFrameWrite (m : Master) (p : Fin 8) (v : Word) (s : State) : Out :=
  run (fun s => s.regWrite m .AUD_FRAME p.val 0 v) s

/-- The audio ports work. -/
def State.whileAud (s : State) (f : State → State) : State := if s.domRun 17 then f s else s

/-- The HDLC engine works. -/
def State.whileFab (s : State) (f : State → State) : State := if s.fabUp then f s else s

def execAudioUnderrun (p : Fin 8) (s : State) : Out :=
  run (fun s => s.whileAud fun s => s.audUnderrun p.val) s

def execAudioOverrun (p : Fin 8) (s : State) : Out :=
  run (fun s => s.whileAud fun s => s.audOverrun p.val) s

def execAudioRxBlock (p : Fin 8) (s : State) : Out :=
  run (fun s => s.whileAud fun s => s.audRxBlock p.val) s

def execAudioTxBlockStart (p : Fin 8) (s : State) : Out :=
  run (fun s => s.whileAud fun s => s.audTxStart p.val) s

def execHdlcFrameReceived (c : BitVec 8) (s : State) : Out :=
  run (fun s => s.whileFab fun s => s.hdlcReceive c.toNat) s

def execHdlcFrameTransmit (c : BitVec 8) (s : State) : Out :=
  run (fun s => s.whileFab fun s => s.hdlcTransmit c.toNat) s

/-- HDLC_ENABLE: a write of HDLC_CH_CFG with EN = 1 (R335, R337). -/
def execHdlcEnable (m : Master) (c : BitVec 8) (v : Word) (s : State) : Out :=
  run (fun s => s.regWrite m .HDLC_CH_CFG c.toNat 0 (v ||| 1)) s

/-- HDLC_DISABLE (R336). -/
def execHdlcDisable (m : Master) (c : BitVec 8) (v : Word) (s : State) : Out :=
  run (fun s => s.regWrite m .HDLC_CH_CFG c.toNat 0 (v &&& 0xFFFFFFFE)) s

end Sys2Proof.Machine
end

