-- ==== Sys2Proof/Machine/CmdPower.lean ====
section
/-!
DEFINITION. Machine/CmdPower.lean: power, wake, reset, NVM and update (spec/17 to spec/19), as commands.
-/
namespace Sys2Proof.Machine

/-- DOMAIN_POWER_UP (R648). -/
def execDomainPowerUp (m : Master) (v : Word) (s : State) : Out :=
  run (fun s => s.regWrite m .PWR_DOM_CTL 0 0 v) s

/-- DOMAIN_POWER_DOWN (R651). -/
def execDomainPowerDown (m : Master) (v : Word) (s : State) : Out :=
  run (fun s => s.regWrite m .PWR_DOM_CTL 0 0 v) s

/-- DOMAIN_POWER_GOOD (R648, R650). -/
def execDomainPowerGood (d : Fin 18) (s : State) : Out :=
  run (fun s => s.domGood d.val) s

/-- PAD_RELEASE (R675). -/
def execPadRelease (m : Master) (v : Word) (s : State) : Out :=
  run (fun s => s.regWrite m .PWR_PAD_REL 0 0 v) s

/-- PWR_BUDGET_WRITE (R657, R661). -/
def execPwrBudgetWrite (m : Master) (t : Fin 16) (v : Word) (s : State) : Out :=
  run (fun s => s.regWrite m .PWR_BUDGET t.val 0 v) s

/-- TORPOR_ENTRY (R664). -/
def execTorporEntry (s : State) : Out :=
  run (fun s => s.torporEntry) s

/-- TORPOR_WAKE (R665, R666). -/
def execTorporWake (s : State) : Out :=
  run (fun s => s.torporWake) s

/-- TORPOR_CORE_START (R666, R667). -/
def execTorporCoreStart (s : State) : Out :=
  run (fun s => s.torporCores) s

/-- BRUMATION_ENTRY (R669). -/
def execBrumationEntry (s : State) : Out :=
  run (fun s => s.brumEntry) s

/-- BRUMATION_WAKE (R671). -/
def execBrumationWake (src : Fin 10) (s : State) : Out :=
  run (fun s => s.brumWake src.val) s

/-- PWR_CMP (R677, R678). -/
def execPwrCmp (k : Fin 4) (mv : Nat) (cycles : Nat) (s : State) : Out :=
  run (fun s => s.cmpInput k.val mv cycles) s

/-- PWR_RTC_ALARM (R680). -/
def execPwrRtcAlarm (s : State) : Out :=
  run (fun s => s.rtcAlarm) s

/-- PWR_RTC_ALARM_LO_WRITE (R680). -/
def execPwrRtcAlarmLoWrite (m : Master) (v : Word) (s : State) : Out :=
  run (fun s => s.regWrite m .PWR_RTC_ALARM_LO 0 0 v) s

/-- PWR_RTC_ALARM_HI_WRITE (R680). -/
def execPwrRtcAlarmHiWrite (m : Master) (v : Word) (s : State) : Out :=
  run (fun s => s.regWrite m .PWR_RTC_ALARM_HI 0 0 v) s

/-- LINK_ACTIVITY (R681). -/
def execLinkActivity (k : Fin 4) (s : State) : Out :=
  run (fun s => s.linkActivity k.val) s

/-- POR (R691). -/
def execPor (s : State) : Out :=
  run (fun s => s.por) s

/-- PIN_RESET (R692). -/
def execPinReset (cycles : Nat) (s : State) : Out :=
  run (fun s => s.pinReset cycles) s

/-- SOFT_RESET: a write of RST_CTL (R690). -/
def execSoftReset (m : Master) (v : Word) (s : State) : Out :=
  run (fun s => s.regWrite m .RST_CTL 0 0 v) s

/-- THERMAL_RESET (R788). -/
def execThermalReset (s : State) (waited : Nat := 0) : Out :=
  run (fun s => s.thermalReset waited) s

/-- RESET_RELEASE (R693, R697 to R702). -/
def execResetRelease (i2cA : BitVec 3) (bootHold testMode : Bool) (s : State) (cycles : Nat := 16000) : Out :=
  run (fun s => s.resetRelease i2cA.toNat bootHold testMode cycles) s

/-- WDT_KICK (R695). -/
def execWdtKick (m : Master) (v : Word) (s : State) : Out :=
  run (fun s => s.regWrite m .WDT_KICK 0 0 v) s

/-- WDT_WARN (R696). -/
def execWdtWarn (s : State) (units : Nat := 4000) : Out :=
  run (fun s => s.wdtWarn units) s

/-- WDT (R696). -/
def execWdt (s : State) (units : Nat := 8000) : Out :=
  run (fun s => s.wdtExpire units) s

/-- A write of NVM_CMD with GO and an operation (R723, R724). -/
def State.nvGo (s : State) (m : Master) (op : Word) : State := s.regWrite m .NVM_CMD 0 0 (op ||| 0x80000000)

/-- NV_READ (R724). -/
def execNvRead (m : Master) (s : State) : Out :=
  run (fun s => s.nvGo m 1) s

/-- NV_BLOCK (R724). -/
def execNvBlock (m : Master) (s : State) : Out :=
  run (fun s => s.nvGo m 2) s

/-- NV_PAGE (R724). -/
def execNvPage (m : Master) (s : State) : Out :=
  run (fun s => s.nvGo m 3) s

/-- NV_ERASE (R724). -/
def execNvErase (m : Master) (s : State) : Out :=
  run (fun s => s.nvGo m 4) s

/-- NV_MARGIN (R724). -/
def execNvMargin (m : Master) (s : State) : Out :=
  run (fun s => s.nvGo m 5) s

/-- XF_READ (R724). -/
def execXfRead (m : Master) (s : State) : Out :=
  run (fun s => s.nvGo m 9) s

/-- XF_BLOCK (R724). -/
def execXfBlock (m : Master) (s : State) : Out :=
  run (fun s => s.nvGo m 10) s

/-- XF_PAGE (R724). -/
def execXfPage (m : Master) (s : State) : Out :=
  run (fun s => s.nvGo m 11) s

/-- XF_ERASE (R724). -/
def execXfErase (m : Master) (s : State) : Out :=
  run (fun s => s.nvGo m 12) s

/-- NVM_DONE (R723); a device reset that waited for the flash acts (R705). -/
def execNvmDone (fault : Option (BitVec 4)) (s : State) : Out :=
  run (fun s => (s.nvDone ((fault.map (·.toNat)).getD 0)).waitedReset) s

/-- XF_DISCOVERY (R727, R728). -/
def execXfDiscovery (sfdp : List Byte) (s : State) : Out :=
  run (fun s => s.xfDiscover sfdp) s

/-- IMAGE_CHECK (R715). -/
def execImageCheck (m : Master) (v : Word) (s : State) : Out :=
  run (fun s => s.regWrite m .UPD_CMD 0 0 (v ||| 0x80000000)) s

/-- UPD_DONE (R715 to R717). -/
def execUpdDone (s : State) : Out :=
  run (fun s => s.updDone) s

/-- UPD_KEYPROG (R720). -/
def execUpdKeyprog (m : Master) (v : Word) (s : State) : Out :=
  run (fun s => s.regWrite m .UPD_KEYPROG 0 0 (v ||| 0x80000000)) s

/-- UPD_REVOKE (R721). -/
def execUpdRevoke (m : Master) (v : Word) (s : State) : Out :=
  run (fun s => s.regWrite m .UPD_REVOKE 0 0 (v ||| 0x80000000)) s

/-- KEY_DONE (R722). -/
def execKeyDone (s : State) : Out :=
  run (fun s => s.keyDone) s

end Sys2Proof.Machine
end

