-- ==== Sys2Proof/Machine/CmdTenant.lean ====
section
/-!
DEFINITION. Machine/CmdTenant.lean: pond memory (spec/12), tenants and queues (spec/13), and performance counters (spec/15), as commands.
-/
namespace Sys2Proof.Machine

/-- SCRUB_LINE (R480). -/
def execScrubLine (s : State) : Out :=
  run (fun s => s.scrubLine) s

/-- BANK_READY (R485, R486). -/
def execBankReady (b : BitVec 4) (s : State) : Out :=
  run (fun s => s.bankReady b.toNat) s

/-- POND_ECC_INJECT (R858). -/
def execPondEccInject (m : Master) (v : Word) (s : State) : Out :=
  run (fun s => s.regWrite m .POND_ECC_INJECT 0 0 (v ||| 0x80000000)) s

/-- ECC_INJECT_FLIP (R858). -/
def execEccInjectFlip (s : State) : Out :=
  run (fun s => s.eccFlip) s

/-- A word for TEN_CTL with one command bit. -/
def tenCmd (v : Word) (bit : Word) : Word := (v &&& 0xFFFFFFF0) ||| bit

/-- TENANT_START (R504). -/
def execTenantStart (m : Master) (t : Fin 16) (v : Word) (s : State) : Out :=
  run (fun s => s.regWrite m .TEN_CTL t.val 0 (tenCmd v 1)) s

/-- TAIL_SHED_REQUEST (R527, R528). -/
def execTailShedRequest (m : Master) (t : Fin 16) (v : Word) (s : State) : Out :=
  run (fun s => s.regWrite m .TEN_CTL t.val 0 (tenCmd v 2)) s

/-- TENANT_RETURN (R531). -/
def execTenantReturn (m : Master) (t : Fin 16) (v : Word) (s : State) : Out :=
  run (fun s => s.regWrite m .TEN_CTL t.val 0 (tenCmd v 4)) s

/-- TENANT_STOP (R504). -/
def execTenantStop (m : Master) (t : Fin 16) (v : Word) (s : State) : Out :=
  run (fun s => s.regWrite m .TEN_CTL t.val 0 (tenCmd v 8)) s

/-- Q_ENABLE (R509). -/
def execQEnable (m : Master) (q : BitVec 14) (v : Word) (s : State) : Out :=
  run (fun s => s.regWrite m .Q_CFG q.toNat 0 (v ||| 1)) s

/-- Q_DISABLE (R511). -/
def execQDisable (m : Master) (q : BitVec 14) (v : Word) (s : State) : Out :=
  run (fun s => s.regWrite m .Q_CFG q.toNat 0 (v &&& 0xFFFFFFFE)) s

/-- QSUM_CLEAR (R516). -/
def execQsumClear (m : Master) (g : BitVec 6) (w : BitVec 3) (v : Word) (s : State) : Out :=
  run (fun s => s.regWrite m .QSUM g.toNat w.toNat v) s

/-- TEN_MBX_DOOR (R525). -/
def execTenMbxDoor (m : Master) (t : Fin 16) (v : Word) (s : State) : Out :=
  run (fun s => s.regWrite m .TEN_MBX_DOOR t.val 0 v) s

/-- A register of a performance counter, for a core's block or the fabric's. -/
def ctrAddr (c : PerfCtr) (core fab : RegKind) : Nat :=
  match c with
  | .core n k => core.addr n.val k.val
  | .fab k => fab.addr k.val 0

/-- COUNTER_OVERFLOW (R566, R569): counters past their largest value wrap. -/
def execCounterOverflow (c : PerfCtr) (s : State) : Out :=
  run (fun s => s.wrapBlock (ctrOf c).1) s

/-- OVERFLOW_HOLD_END: 64 cycles of a hold have passed (R565). -/
def execOverflowHoldEnd (c : PerfCtr) (s : State) : Out :=
  run (fun s => s.holdTimeout (ctrOf c).1 (ctrOf c).2) s

/-- PERF_CNT_LO_READ (R564, R565). -/
def execPerfCntLoRead (m : Master) (c : PerfCtr) (s : State) : Out :=
  run (fun s => s.busRead m (ctrAddr c .PERF_CNT_LO .FPERF_CNT_LO)) s

/-- PERF_CNT_LO_WRITE (R567). -/
def execPerfCntLoWrite (m : Master) (c : PerfCtr) (v : Word) (s : State) : Out :=
  run (fun s => s.busWrite m .word (ctrAddr c .PERF_CNT_LO .FPERF_CNT_LO) v) s

/-- PERF_CNT_HI_WRITE (R567). -/
def execPerfCntHiWrite (m : Master) (c : PerfCtr) (v : Word) (s : State) : Out :=
  run (fun s => s.busWrite m .word (ctrAddr c .PERF_CNT_HI .FPERF_CNT_HI) v) s

/-- PERF_CTL_WRITE (R560, R563, R568). -/
def execPerfCtlWrite (m : Master) (c : PerfCtr) (v : Word) (s : State) : Out :=
  run (fun s => s.busWrite m .word (ctrAddr c .PERF_CTL .FPERF_CTL) v) s

/-- PC_SAMPLE_CAPTURE (R570 to R572). -/
def execPcSampleCapture (n : Fin 17) (k : Fin 4) (s : State) : Out :=
  run (fun s => s.capture n.val k.val) s

/-- SAMPLE_WRITE (R573 to R575). -/
def execSampleWrite (s : State) : Out :=
  run (fun s => s.sampleWrite) s

/-- SBUF_ENABLE (R576). -/
def execSbufEnable (m : Master) (n : Fin 17) (v : Word) (s : State) : Out :=
  run (fun s => s.regWrite m .PERF_SBUF_CFG n.val 0 (v ||| 1)) s

end Sys2Proof.Machine
end

