-- ==== Sys2Proof/Machine/Flags.lean ====
section
/-!
DEFINITION. Machine/Flags.lean: the flags C, Z, N, V, IE of a core (bits 0 to 4 of F, R346) and how the classes of
instructions compute them (R390, R413), with the results they go with. Sums are taken exactly and compared with what
32 bits hold.
-/
namespace Sys2Proof.Machine

/-- F with its CTX bit, as an instruction reads it (R346). -/
def fWord (f : BitVec 5) (handler : Bool) : Word := f.setWidth 32 ||| (if handler then 0x20 else 0)

def flC (f : BitVec 5) : Bool := f.getLsbD 0
def flZ (f : BitVec 5) : Bool := f.getLsbD 1
def flN (f : BitVec 5) : Bool := f.getLsbD 2
def flV (f : BitVec 5) : Bool := f.getLsbD 3

def putC (f : BitVec 5) (c : Bool) : BitVec 5 := (f &&& 0b11110) ||| (if c then 0b00001 else 0)
def putV (f : BitVec 5) (v : Bool) : BitVec 5 := (f &&& 0b10111) ||| (if v then 0b01000 else 0)

/-- Z and N given. -/
def putZN (f : BitVec 5) (z n : Bool) : BitVec 5 :=
  (f &&& 0b11001) ||| (if z then 0b00010 else 0) ||| (if n then 0b00100 else 0)

/-- Z and N of a 32-bit result. -/
def znOf (f : BitVec 5) (r : Word) : BitVec 5 := putZN f (decide (r = 0)) r.msb

/-- A result and the flags after it. -/
structure Alu where
  res : Word
  fl : BitVec 5
  deriving DecidableEq, Repr

/-- The add class: a + b + carry in. -/
def aluAdd (f : BitVec 5) (a b : Word) (cin : Bool) : Alu :=
  let r : Word := a + b + (if cin then 1 else 0)
  let sum := a.toNat + b.toNat + (if cin then 1 else 0)
  let exact := a.toInt + b.toInt + (if cin then 1 else 0)
  ⟨r, putV (putC (znOf f r) (decide (2 ^ 32 ≤ sum))) (decide (exact ≠ r.toInt))⟩

/-- The subtract class: a − b − borrow in. C is the borrow. -/
def aluSub (f : BitVec 5) (a b : Word) (bin : Bool) : Alu :=
  let r : Word := a - b - (if bin then 1 else 0)
  let exact := a.toInt - b.toInt - (if bin then 1 else 0)
  ⟨r, putV (putC (znOf f r) (decide (a.toNat < b.toNat + (if bin then 1 else 0)))) (decide (exact ≠ r.toInt))⟩

/-- Logic, loads into A and transfers into A. -/
def aluLogic (f : BitVec 5) (r : Word) : Alu := ⟨r, znOf f r⟩

/-- Shifts by 0 to 31 (R395, R413). -/
def aluShl (f : BitVec 5) (a : Word) (n : Nat) : Alu :=
  let r := a <<< n
  ⟨r, if n = 0 then znOf f r else putC (znOf f r) (a.getLsbD (32 - n))⟩

def aluShr (f : BitVec 5) (a : Word) (n : Nat) : Alu :=
  let r := a >>> n
  ⟨r, if n = 0 then znOf f r else putC (znOf f r) (a.getLsbD (n - 1))⟩

def aluSar (f : BitVec 5) (a : Word) (n : Nat) : Alu :=
  let r := a.sshiftRight n
  ⟨r, if n = 0 then znOf f r else putC (znOf f r) (a.getLsbD (n - 1))⟩

def aluRol (f : BitVec 5) (a : Word) (n : Nat) : Alu :=
  let r := a.rotateLeft n
  ⟨r, if n = 0 then znOf f r else putC (znOf f r) (r.getLsbD 0)⟩

/-- A 64-bit product (R399): C = V = 0, Z of all 64 bits, N of bit 63. -/
def mulFlags (f : BitVec 5) (p : BitVec 64) : BitVec 5 := putV (putC (putZN f (decide (p = 0)) p.msb) false) false

/-- Conditions of a long branch (R392); 15 is undefined. -/
def condHolds (cc : Nat) (f : BitVec 5) : Bool :=
  match cc with
  | 0 => true
  | 1 => flZ f
  | 2 => !(flZ f)
  | 3 => flC f
  | 4 => !(flC f)
  | 5 => flN f
  | 6 => !(flN f)
  | 7 => flV f
  | 8 => !(flV f)
  | 9 => !(flC f) && !(flZ f)
  | 10 => flC f || flZ f
  | 11 => flN f != flV f
  | 12 => flN f == flV f
  | 13 => !(flZ f) && (flN f == flV f)
  | 14 => flZ f || (flN f != flV f)
  | _ => false

end Sys2Proof.Machine
end

