-- ==== Sys2Proof/Machine/Operands.lean ====
section
/-!
DEFINITION. Machine/Operands.lean: what every core instruction is built from (spec/09, spec/10, spec/11): the memory
operand and its access check (R358 to R368), access terms (R388, R448), data and stack accesses, and the frame of one
instruction: fetch, halt, count, effect, fault (R366, R370, R414, R438, R449).
-/
namespace Sys2Proof.Machine

/-- A fault raised by an instruction: code, address, and where in a pair (R369, R437, R459). -/
structure Trap where
  code : Nat
  addr : Nat
  half : Bool
  pair : Bool
  deriving DecidableEq, Repr

/-- A fault of an instruction that is no pair. -/
def trap (code addr : Nat) : Option Trap := some ⟨code, addr, false, false⟩

/-- A core as the master of an access. -/
def coreMaster (n : Nat) : Master := .core ⟨n % 17, Nat.mod_lt _ (by decide)⟩

def State.ctx (s : State) (n : Nat) : Ctx := (s.core n).ctx
def State.putCtx (s : State) (n : Nat) (c : Ctx) : State := s.setCore n ((s.core n).setCtx c)

def Ctx.segAt (c : Ctx) (k : Nat) : BitVec 64 := c.seg.getD k 0
def Ctx.putSeg (c : Ctx) (k : Nat) (d : BitVec 64) : Ctx := { c with seg := c.seg.setIfInBounds k d }

/-! ### Registers -/

def Ctx.alu (c : Ctx) (r : Alu) : Ctx := { c with a := r.res, f := r.fl }
/-- A compare keeps its flags only. -/
def Ctx.aluCmp (c : Ctx) (r : Alu) : Ctx := { c with f := r.fl }
def Ctx.setA (c : Ctx) (v : Word) : Ctx := c.alu (aluLogic c.f v)
def Ctx.setX (c : Ctx) (v : Word) : Ctx := { c with x := v }
def Ctx.setY (c : Ctx) (v : Word) : Ctx := { c with y := v }
def Ctx.setFlags (c : Ctx) (v : Word) : Ctx := { c with f := v.setWidth 5 }
/-- The PC moves past the instruction word. -/
def Ctx.next (c : Ctx) : Ctx := { c with pc := c.pc + 4 }
def Ctx.jump (c : Ctx) (pc : BitVec 24) : Ctx := { c with pc := pc }

/-! ### Memory operands -/

inductive Right where
  | r | w | x | fw
  deriving DecidableEq, Repr

def Right.on (r : Right) (d : BitVec 64) : Bool :=
  match r with
  | .r => segR d
  | .w => segW d
  | .x => segXR d
  | .fw => segFW d

/-- EO of R358: the descriptor's mode adds X, Y or S. -/
def Ctx.eo (c : Ctx) (d : BitVec 64) (off : Nat) : Nat :=
  let i := match segMode d with
    | 1 => c.x.toNat
    | 2 => c.y.toNat
    | 3 => c.s.toNat
    | _ => 0
  (off + i) % 2 ^ 32

/-- BASE + EO. -/
def addrOf (d : BitVec 64) (eo : Nat) : Nat := (segBase d + eo) % 2 ^ 32

/-- Steps 1 to 4 of R365: the code of the first that fails. -/
def checkSeg (d : BitVec 64) (right : Right) (eo size align : Nat) : Option Nat :=
  if !(segValid d) then some 3
  else if !(right.on d) then some 4
  else if eo % align ≠ 0 then some 5
  else if eo + size > segLimit d then some 6
  else none

/-- The eft runs on the FRC (R444). -/
def State.onFrc (s : State) : Bool := !(s.b F.CLK_EFT_SRC_CUR)

/-- Registers that the eft reaches in 2 FRC cycles (R448). -/
def nearReg (a : Nat) : Bool :=
  decide ((0x01200000 ≤ a ∧ a < 0x01201000) ∨ (0x01240000 ≤ a ∧ a < 0x01240400) ∨ (0x01250000 ≤ a ∧ a < 0x01260000) ∨
    (0x011F0000 ≤ a ∧ a < 0x011F0400) ∨ (0x01230400 ≤ a ∧ a < 0x01230408) ∨ (0x011E4000 ≤ a ∧ a < 0x011E4400)) ||
  (decide (0x011E0000 ≤ a ∧ a < 0x011E4000) && (decide (a % 0x400 = 0) || decide (a % 0x400 = 8)))

/-- The access term T (R388, R448): by the region that the segment's BASE lies in, and for the eft on the FRC by the
address. -/
def State.term (s : State) (n : Nat) (d : BitVec 64) (a : Nat) : Nat :=
  let base := segBase d
  if inAon n base then 2
  else if n = 16 ∧ s.onFrc then (if nearReg a then 2 else 6)
  else if base < 0x1000000 then 10 else 18

/-! ### Accesses -/

/-- Master code and port of a core's data accesses (R468, R496). -/
def dataCode (n : Nat) : Nat := if n = 16 then 0x11 else n
def dataPort (n : Nat) : Nat := if n = 16 then 1 else 0

/-- AON RAM bytes. -/
def State.aonByte (s : State) (a : Nat) : Byte := tabGet (fun _ => (0 : Byte)) s.aon a
def State.setAonBytes (s : State) (a : Nat) : List Byte → State
  | [] => s
  | v :: t => ({ s with aon := tabPut (fun _ => (0 : Byte)) s.aon a v } : State).setAonBytes (a + 1) t

def sizeOf : Nat → AccessSize
  | 1 => .byte
  | 2 => .half
  | _ => .word

/-- Step 5 of R365 for a load: the value, or a fault code. -/
def State.dataRead (s : State) (n a size : Nat) : State × Except Nat Nat :=
  if inAon n a then (s.perf n [(8, 1)], .ok (leNat ((List.range size).map fun i => s.aonByte (a + i))))
  else if a < 0x1000000 then
    let s1 := s.perf n [(8, 1)]
    if !(s1.pondOn a size) then (s1, .error 7)
    else
      match s1.pondRead (dataCode n) (dataPort n) a size with
      | (s2, some bs) => (s2, .ok (leNat bs))
      | (s2, none) => (s2, .error 8)
  else
    match (s.perf n [(9, 1)]).ctlRead (coreMaster n) (sizeOf size) a with
    | (s1, some v) => (s1, .ok v.toNat)
    | (s1, none) => (s1, .error 7)

/-- Step 5 for a store: a fault code if the target refuses. -/
def State.dataWrite (s : State) (n a size v : Nat) : State × Option Nat :=
  if inAon n a then ((s.perf n [(8, 1)]).setAonBytes a (leBytes size v), none)
  else if a < 0x1000000 then
    let s1 := s.perf n [(8, 1)]
    if !(s1.pondOn a size) then (s1, some 7)
    else
      match s1.pondWrite (dataCode n) (dataPort n) a (leBytes size v) with
      | (s2, true) => (s2, none)
      | (s2, false) => (s2, some 8)
  else
    let r := (s.perf n [(9, 1)]).ctlWrite (coreMaster n) (sizeOf size) a (BitVec.ofNat 32 v)
    (r.1, if r.2 then some 7 else none)

/-! ### One instruction -/

/-- A core executes: it runs with power and a clock, and no interrupt is to be accepted first. -/
def State.canRun (s : State) (n : Nat) : Bool :=
  !s.rst.held && decide ((s.core n).st = .run) && s.clocked n && !(s.irqDue n)

/-- The fetch of R367 at the PC. -/
def State.fetch (s : State) (n : Nat) : State × Fetch :=
  let c := s.ctx n
  let d := c.segAt 15
  match checkSeg d .x c.pc.toNat 4 4 with
  | some code => (s, .fault code 0)
  | none => s.fetchLine n (addrOf d c.pc.toNat)

/-- What completes with the instruction whatever it does: the marks of boundaries (R433, R570), and the place kept. -/
def State.boundary (s : State) (n : Nat) : State :=
  let c := s.core n
  s.setCore n { c with doneIn := c.inHandler, bpSkip := false, afterReti := false, part := 0 }

/-- Cycles of its count that an instruction has left: all, or, where the clock stopped inside it (R854), what had not
passed, and for one that may access pond memory, whose counts begin at 12, at least a free number up to 16 for the
next entry of the schedule. -/
def State.countLeft (s : State) (n cost : Nat) : Nat × State :=
  let p := (s.core n).part
  if p = 0 ∨ cost = 0 then (cost, s)
  else if cost < 12 then (max 1 (cost - p), s)
  else (max (1 + s.free.1 % 16) (cost - p), s.free.2)

/-- A fault taken after its cycles. -/
def State.takeTrap (s : State) (n : Nat) (t : Trap) : State := s.takeFault n t.code t.addr t.half t.pair

/-- The effect of an instruction whose word has been fetched with a stall: `cost` cycles pass, then `body` acts or
faults. A body's control-space write is the last thing it does, so that the write acts after the instruction. A `wev`
that begins to wait, of cost 0, completes no instruction. -/
def State.perform (s : State) (n stall cost : Nat) (pulses : List (Nat × Nat)) (body : State → State × Option Trap) :
    State :=
  let d := (s.ctx n).segAt 15
  let s1 := (s.spend n stall 0 []).prefetch n (addrOf d (s.ctx n).pc.toNat) (segBase d + segLimit d)
  let k := s1.countLeft n cost
  let s2 := (k.2.spend n 0 k.1 pulses).boundary n
  match body s2 with
  | (s3, none) => (if cost = 0 then s3 else s3.perfBoundary n).wrapBlock n
  | (s3, some t) => ((s3.perfBoundary n).takeTrap n t).wrapBlock n

/-- The instruction at the PC of core `n`: no effect unless the core executes; a halt request or a breakpoint stops the
core instead (R449), but not inside an instruction; a fetch that fails raises its fault after 2 cycles (R438). -/
def State.instr (s : State) (n cost : Nat) (pulses : List (Nat × Nat)) (body : State → State × Option Trap) : State :=
  let c := s.core n
  if !(s.canRun n) then s
  else if decide (c.part = 0) && (c.haltReq || (c.breaks && !c.bpSkip)) then s.debugHalt n
  else
    match s.fetch n with
    | (s1, .ok stall) => s1.perform n stall cost pulses body
    | (s1, .fault code stall) =>
      let a := addrOf (c.ctx.segAt 15) c.ctx.pc.toNat
      ((((s1.spend n stall 2 [(6, 1)]).boundary n).perfBoundary n).takeTrap n ⟨code, a, false, false⟩).wrapBlock n

/-- The pulse of an instruction (R559). -/
def instrPulse : List (Nat × Nat) := [(6, 1)]

/-- An instruction of fixed count that touches registers of its own context only, if its unused fields are 0
(R351). -/
def State.regInstr (s : State) (n cost : Nat) (legal : Bool) (f : Ctx → Ctx) : State :=
  s.instr n cost instrPulse fun s =>
    if legal then (s.putCtx n (f (s.ctx n)), none) else (s, trap 1 0)

/-- A load through segment `k` at an offset: steps 1 to 5, then `f` on the value. -/
def State.loadBody (s : State) (n k off size : Nat) (f : Ctx → Word → Ctx) : State × Option Trap :=
  let c := s.ctx n
  let d := c.segAt k
  let eo := c.eo d off
  match checkSeg d .r eo size size with
  | some code => (s, trap code (addrOf d eo))
  | none =>
    match s.dataRead n (addrOf d eo) size with
    | (s1, .ok v) => (s1.putCtx n (f c (BitVec.ofNat 32 v)), none)
    | (s1, .error code) => (s1, trap code (addrOf d eo))

/-- A store of `v` at a checked address; the context `c` is in place before a control-space write acts. -/
def State.storeAt (s : State) (n a size v : Nat) (c : Ctx) : State × Option Trap :=
  match (s.putCtx n c).dataWrite n a size v with
  | (s1, none) => (s1, none)
  | (s1, some code) => (s1.putCtx n (s.ctx n), trap code a)

def State.storeBody (s : State) (n k off size : Nat) (right : Right) (v : Nat) (c : Ctx) : State × Option Trap :=
  let o := s.ctx n
  let d := o.segAt k
  let eo := o.eo d off
  match checkSeg d right eo size size with
  | some code => (s, trap code (addrOf d eo))
  | none => s.storeAt n (addrOf d eo) size v c

/-- The term of a long memory form. -/
def State.termOf (s : State) (n k off : Nat) : Nat :=
  let c := s.ctx n
  let d := c.segAt k
  s.term n d (addrOf d (c.eo d off))

/-- A long load: `extra` cycles beside T. -/
def State.loadInstr (s : State) (n : Nat) (sm : BitVec 4) (operand : BitVec 21) (size extra : Nat)
    (f : Ctx → Word → Ctx) : State :=
  s.instr n (extra + s.termOf n sm.toNat operand.toNat) instrPulse fun s =>
    s.loadBody n sm.toNat operand.toNat size fun c v => (f c v).next

/-- A long store of what `f` reads from the context. -/
def State.storeInstr (s : State) (n : Nat) (sm : BitVec 4) (operand : BitVec 21) (size : Nat) (f : Ctx → Word) : State :=
  s.instr n (2 + s.termOf n sm.toNat operand.toNat) instrPulse fun s =>
    s.storeBody n sm.toNat operand.toNat size .w (f (s.ctx n)).toNat (s.ctx n).next

/-! ### Stack (R381, R389) -/

/-- T of SEG14 at a stack offset. -/
def State.stackTerm (s : State) (n : Nat) (sp : BitVec 24) : Nat :=
  let d := (s.ctx n).segAt 14
  s.term n d (addrOf d sp.toNat)

/-- Push `v` and leave the context as `f` makes it from the one with the new S. -/
def State.pushBody (s : State) (n : Nat) (v : Word) (f : Ctx → Ctx) : State × Option Trap :=
  let c := s.ctx n
  let d := c.segAt 14
  let sp := c.s - 4
  match checkSeg d .w sp.toNat 4 4 with
  | some code => (s, trap code (addrOf d sp.toNat))
  | none => s.storeAt n (addrOf d sp.toNat) 4 v.toNat (f { c with s := sp })

/-- Pop a word; `f` gives the context after it, or a fault. -/
def State.popBody (s : State) (n : Nat) (f : Ctx → Word → Except Trap Ctx) : State × Option Trap :=
  let c := s.ctx n
  let d := c.segAt 14
  match checkSeg d .r c.s.toNat 4 4 with
  | some code => (s, trap code (addrOf d c.s.toNat))
  | none =>
    match s.dataRead n (addrOf d c.s.toNat) 4 with
    | (s1, .error code) => (s1, trap code (addrOf d c.s.toNat))
    | (s1, .ok v) =>
      match f { c with s := c.s + 4 } (BitVec.ofNat 32 v) with
      | .ok c' => (s1.putCtx n c', none)
      | .error t => (s1, some t)

end Sys2Proof.Machine
end

