-- ==== Sys2Proof/Machine/CoreAlu.lean ====
section
/-!
DEFINITION. Machine/CoreAlu.lean: immediates and shifts (R395) and the register group (R399, R400), as effects and as
commands.
-/
namespace Sys2Proof.Machine

/-- The sign-extended immediate of a long form. -/
def immOf (operand : BitVec 21) : Word := operand.signExtend 32

/-- An immediate form: SM must be 0 (R395). -/
def State.immInstr (s : State) (n : Nat) (sm : BitVec 4) (f : Ctx → Ctx) : State :=
  s.regInstr n 2 (decide (sm = 0)) fun c => (f c).next

/-- A shift by OPERAND bits 4:0; the other bits and SM must be 0. -/
def State.shiftInstr (s : State) (n : Nat) (sm : BitVec 4) (operand : BitVec 21) (f : Ctx → Nat → Alu) : State :=
  s.regInstr n 3 (decide (sm = 0 ∧ operand.toNat < 32)) fun c => (c.alu (f c operand.toNat)).next

/-- A register group function: SM and OPERAND bits 20:6 must be 0. -/
def State.groupInstr (s : State) (n cost : Nat) (sm : BitVec 4) (hi : BitVec 15) (f : Ctx → Ctx) : State :=
  s.regInstr n cost (decide (sm = 0 ∧ hi = 0)) fun c => (f c).next

/-- A divide: DIV_ZERO while X is 0 (R400). -/
def State.divInstr (s : State) (n : Nat) (sm : BitVec 4) (hi : BitVec 15) (f : Ctx → Ctx) : State :=
  s.instr n 32 instrPulse fun s =>
    let c := s.ctx n
    if ¬(sm = 0 ∧ hi = 0) then (s, trap 1 0)
    else if c.x = 0 then (s, trap 9 0)
    else (s.putCtx n (f c).next, none)

def Ctx.mulu (c : Ctx) : Ctx :=
  let p : BitVec 64 := c.a.setWidth 64 * c.x.setWidth 64
  { c with a := p.setWidth 32, x := (p >>> 32).setWidth 32, f := mulFlags c.f p }

def Ctx.muls (c : Ctx) : Ctx :=
  let p : BitVec 64 := c.a.signExtend 64 * c.x.signExtend 64
  { c with a := p.setWidth 32, x := (p >>> 32).setWidth 32, f := mulFlags c.f p }

def Ctx.divu (c : Ctx) : Ctx :=
  let q := c.a / c.x
  { c with a := q, x := c.a % c.x, f := putV (putC (znOf c.f q) false) false }

/-- The quotient truncates toward zero and the remainder has the dividend's sign; only 0x80000000 by −1 overflows. -/
def Ctx.divs (c : Ctx) : Ctx :=
  let q := c.a.sdiv c.x
  { c with a := q, x := c.a.srem c.x,
           f := putV (putC (znOf c.f q) false) (decide (c.a = 0x80000000 ∧ c.x = 0xFFFFFFFF)) }

/-- A ← imm. -/
def State.iSeta (s : State) (n : Nat) (sm : BitVec 4) (operand : BitVec 21) : State :=
  s.immInstr n sm fun c => c.setA (immOf operand)

/-- A[31:11] ← OPERAND. -/
def State.iSetah (s : State) (n : Nat) (sm : BitVec 4) (operand : BitVec 21) : State :=
  s.immInstr n sm fun c => c.setA ((c.a &&& 0x7FF) ||| (operand.setWidth 32 <<< 11))

/-- X ← imm. -/
def State.iSetx (s : State) (n : Nat) (sm : BitVec 4) (operand : BitVec 21) : State :=
  s.immInstr n sm fun c => c.setX (immOf operand)

/-- Y ← imm. -/
def State.iSety (s : State) (n : Nat) (sm : BitVec 4) (operand : BitVec 21) : State :=
  s.immInstr n sm fun c => c.setY (immOf operand)

/-- A + imm. -/
def State.iAddi (s : State) (n : Nat) (sm : BitVec 4) (operand : BitVec 21) : State :=
  s.immInstr n sm fun c => c.alu (aluAdd c.f c.a (immOf operand) false)

/-- A AND imm. -/
def State.iAndi (s : State) (n : Nat) (sm : BitVec 4) (operand : BitVec 21) : State :=
  s.immInstr n sm fun c => c.setA (c.a &&& immOf operand)

/-- A OR imm. -/
def State.iOri (s : State) (n : Nat) (sm : BitVec 4) (operand : BitVec 21) : State :=
  s.immInstr n sm fun c => c.setA (c.a ||| immOf operand)

/-- A XOR imm. -/
def State.iXori (s : State) (n : Nat) (sm : BitVec 4) (operand : BitVec 21) : State :=
  s.immInstr n sm fun c => c.setA (c.a ^^^ immOf operand)

/-- Compare A with imm. -/
def State.iCmpi (s : State) (n : Nat) (sm : BitVec 4) (operand : BitVec 21) : State :=
  s.immInstr n sm fun c => c.aluCmp (aluSub c.f c.a (immOf operand) false)

/-- Shift left. -/
def State.iShl (s : State) (n : Nat) (sm : BitVec 4) (operand : BitVec 21) : State :=
  s.shiftInstr n sm operand fun c k => aluShl c.f c.a k

/-- Shift right, zeros in. -/
def State.iShr (s : State) (n : Nat) (sm : BitVec 4) (operand : BitVec 21) : State :=
  s.shiftInstr n sm operand fun c k => aluShr c.f c.a k

/-- Shift right, bit 31 copied in. -/
def State.iSar (s : State) (n : Nat) (sm : BitVec 4) (operand : BitVec 21) : State :=
  s.shiftInstr n sm operand fun c k => aluSar c.f c.a k

/-- Rotate left. -/
def State.iRol (s : State) (n : Nat) (sm : BitVec 4) (operand : BitVec 21) : State :=
  s.shiftInstr n sm operand fun c k => aluRol c.f c.a k

/-- Nothing. -/
def State.iNop (s : State) (n : Nat) (sm : BitVec 4) (hi : BitVec 15) : State :=
  s.groupInstr n 2 sm hi fun c => c

/-- X ← A. -/
def State.iMvxa (s : State) (n : Nat) (sm : BitVec 4) (hi : BitVec 15) : State :=
  s.groupInstr n 2 sm hi fun c => c.setX c.a

/-- Y ← A. -/
def State.iMvya (s : State) (n : Nat) (sm : BitVec 4) (hi : BitVec 15) : State :=
  s.groupInstr n 2 sm hi fun c => c.setY c.a

/-- A ← X. -/
def State.iMvax (s : State) (n : Nat) (sm : BitVec 4) (hi : BitVec 15) : State :=
  s.groupInstr n 2 sm hi fun c => c.setA c.x

/-- A ← Y. -/
def State.iMvay (s : State) (n : Nat) (sm : BitVec 4) (hi : BitVec 15) : State :=
  s.groupInstr n 2 sm hi fun c => c.setA c.y

/-- Y ← X. -/
def State.iMvyx (s : State) (n : Nat) (sm : BitVec 4) (hi : BitVec 15) : State :=
  s.groupInstr n 2 sm hi fun c => c.setY c.x

/-- X ← Y. -/
def State.iMvxy (s : State) (n : Nat) (sm : BitVec 4) (hi : BitVec 15) : State :=
  s.groupInstr n 2 sm hi fun c => c.setX c.y

/-- A ← S. -/
def State.iMvas (s : State) (n : Nat) (sm : BitVec 4) (hi : BitVec 15) : State :=
  s.groupInstr n 2 sm hi fun c => c.setA (c.s.setWidth 32)

/-- S ← A[23:0]. -/
def State.iMvsa (s : State) (n : Nat) (sm : BitVec 4) (hi : BitVec 15) : State :=
  s.groupInstr n 2 sm hi fun c => { c with s := c.a.setWidth 24 }

/-- C, Z, N, V, IE ← A. -/
def State.iMvfa (s : State) (n : Nat) (sm : BitVec 4) (hi : BitVec 15) : State :=
  s.groupInstr n 2 sm hi fun c => c.setFlags c.a

/-- 0 − A. -/
def State.iNeg (s : State) (n : Nat) (sm : BitVec 4) (hi : BitVec 15) : State :=
  s.groupInstr n 2 sm hi fun c => c.alu (aluSub c.f 0 c.a false)

/-- NOT A. -/
def State.iNot (s : State) (n : Nat) (sm : BitVec 4) (hi : BitVec 15) : State :=
  s.groupInstr n 2 sm hi fun c => c.setA (~~~c.a)

/-- C ← 0. -/
def State.iClrc (s : State) (n : Nat) (sm : BitVec 4) (hi : BitVec 15) : State :=
  s.groupInstr n 2 sm hi fun c => { c with f := putC c.f false }

/-- C ← 1. -/
def State.iSetc (s : State) (n : Nat) (sm : BitVec 4) (hi : BitVec 15) : State :=
  s.groupInstr n 2 sm hi fun c => { c with f := putC c.f true }

/-- IE ← 1. -/
def State.iEi (s : State) (n : Nat) (sm : BitVec 4) (hi : BitVec 15) : State :=
  s.groupInstr n 2 sm hi fun c => { c with f := c.f ||| 0b10000 }

/-- IE ← 0. -/
def State.iDi (s : State) (n : Nat) (sm : BitVec 4) (hi : BitVec 15) : State :=
  s.groupInstr n 2 sm hi fun c => { c with f := c.f &&& 0b01111 }

/-- X:A ← A × X, unsigned. -/
def State.iMulu (s : State) (n : Nat) (sm : BitVec 4) (hi : BitVec 15) : State :=
  s.groupInstr n 6 sm hi fun c => c.mulu

/-- X:A ← A × X, signed. -/
def State.iMuls (s : State) (n : Nat) (sm : BitVec 4) (hi : BitVec 15) : State :=
  s.groupInstr n 6 sm hi fun c => c.muls

/-- A ← F; no flag changes. -/
def State.iMvaf (s : State) (n : Nat) (sm : BitVec 4) (hi : BitVec 15) : State :=
  let h := (s.core n).inHandler
  s.groupInstr n 2 sm hi fun c => { c with a := fWord c.f h }

/-- Unsigned quotient and remainder. -/
def State.iDivu (s : State) (n : Nat) (sm : BitVec 4) (hi : BitVec 15) : State :=
  s.divInstr n sm hi Ctx.divu

/-- Signed quotient and remainder. -/
def State.iDivs (s : State) (n : Nat) (sm : BitVec 4) (hi : BitVec 15) : State :=
  s.divInstr n sm hi Ctx.divs

def execSeta (n : Fin 17) (sm : BitVec 4) (operand : BitVec 21) (s : State) : Out :=
  run (fun s => s.iSeta n.val sm operand) s

def execSetah (n : Fin 17) (sm : BitVec 4) (operand : BitVec 21) (s : State) : Out :=
  run (fun s => s.iSetah n.val sm operand) s

def execSetx (n : Fin 17) (sm : BitVec 4) (operand : BitVec 21) (s : State) : Out :=
  run (fun s => s.iSetx n.val sm operand) s

def execSety (n : Fin 17) (sm : BitVec 4) (operand : BitVec 21) (s : State) : Out :=
  run (fun s => s.iSety n.val sm operand) s

def execAddi (n : Fin 17) (sm : BitVec 4) (operand : BitVec 21) (s : State) : Out :=
  run (fun s => s.iAddi n.val sm operand) s

def execAndi (n : Fin 17) (sm : BitVec 4) (operand : BitVec 21) (s : State) : Out :=
  run (fun s => s.iAndi n.val sm operand) s

def execOri (n : Fin 17) (sm : BitVec 4) (operand : BitVec 21) (s : State) : Out :=
  run (fun s => s.iOri n.val sm operand) s

def execXori (n : Fin 17) (sm : BitVec 4) (operand : BitVec 21) (s : State) : Out :=
  run (fun s => s.iXori n.val sm operand) s

def execCmpi (n : Fin 17) (sm : BitVec 4) (operand : BitVec 21) (s : State) : Out :=
  run (fun s => s.iCmpi n.val sm operand) s

def execShl (n : Fin 17) (sm : BitVec 4) (operand : BitVec 21) (s : State) : Out :=
  run (fun s => s.iShl n.val sm operand) s

def execShr (n : Fin 17) (sm : BitVec 4) (operand : BitVec 21) (s : State) : Out :=
  run (fun s => s.iShr n.val sm operand) s

def execSar (n : Fin 17) (sm : BitVec 4) (operand : BitVec 21) (s : State) : Out :=
  run (fun s => s.iSar n.val sm operand) s

def execRol (n : Fin 17) (sm : BitVec 4) (operand : BitVec 21) (s : State) : Out :=
  run (fun s => s.iRol n.val sm operand) s

def execNop (n : Fin 17) (sm : BitVec 4) (hi : BitVec 15) (s : State) : Out :=
  run (fun s => s.iNop n.val sm hi) s

def execMvxa (n : Fin 17) (sm : BitVec 4) (hi : BitVec 15) (s : State) : Out :=
  run (fun s => s.iMvxa n.val sm hi) s

def execMvya (n : Fin 17) (sm : BitVec 4) (hi : BitVec 15) (s : State) : Out :=
  run (fun s => s.iMvya n.val sm hi) s

def execMvax (n : Fin 17) (sm : BitVec 4) (hi : BitVec 15) (s : State) : Out :=
  run (fun s => s.iMvax n.val sm hi) s

def execMvay (n : Fin 17) (sm : BitVec 4) (hi : BitVec 15) (s : State) : Out :=
  run (fun s => s.iMvay n.val sm hi) s

def execMvyx (n : Fin 17) (sm : BitVec 4) (hi : BitVec 15) (s : State) : Out :=
  run (fun s => s.iMvyx n.val sm hi) s

def execMvxy (n : Fin 17) (sm : BitVec 4) (hi : BitVec 15) (s : State) : Out :=
  run (fun s => s.iMvxy n.val sm hi) s

def execMvas (n : Fin 17) (sm : BitVec 4) (hi : BitVec 15) (s : State) : Out :=
  run (fun s => s.iMvas n.val sm hi) s

def execMvsa (n : Fin 17) (sm : BitVec 4) (hi : BitVec 15) (s : State) : Out :=
  run (fun s => s.iMvsa n.val sm hi) s

def execMvaf (n : Fin 17) (sm : BitVec 4) (hi : BitVec 15) (s : State) : Out :=
  run (fun s => s.iMvaf n.val sm hi) s

def execMvfa (n : Fin 17) (sm : BitVec 4) (hi : BitVec 15) (s : State) : Out :=
  run (fun s => s.iMvfa n.val sm hi) s

def execNeg (n : Fin 17) (sm : BitVec 4) (hi : BitVec 15) (s : State) : Out :=
  run (fun s => s.iNeg n.val sm hi) s

def execNot (n : Fin 17) (sm : BitVec 4) (hi : BitVec 15) (s : State) : Out :=
  run (fun s => s.iNot n.val sm hi) s

def execClrc (n : Fin 17) (sm : BitVec 4) (hi : BitVec 15) (s : State) : Out :=
  run (fun s => s.iClrc n.val sm hi) s

def execSetc (n : Fin 17) (sm : BitVec 4) (hi : BitVec 15) (s : State) : Out :=
  run (fun s => s.iSetc n.val sm hi) s

def execEi (n : Fin 17) (sm : BitVec 4) (hi : BitVec 15) (s : State) : Out :=
  run (fun s => s.iEi n.val sm hi) s

def execDi (n : Fin 17) (sm : BitVec 4) (hi : BitVec 15) (s : State) : Out :=
  run (fun s => s.iDi n.val sm hi) s

def execMulu (n : Fin 17) (sm : BitVec 4) (hi : BitVec 15) (s : State) : Out :=
  run (fun s => s.iMulu n.val sm hi) s

def execMuls (n : Fin 17) (sm : BitVec 4) (hi : BitVec 15) (s : State) : Out :=
  run (fun s => s.iMuls n.val sm hi) s

def execDivu (n : Fin 17) (sm : BitVec 4) (hi : BitVec 15) (s : State) : Out :=
  run (fun s => s.iDivu n.val sm hi) s

def execDivs (n : Fin 17) (sm : BitVec 4) (hi : BitVec 15) (s : State) : Out :=
  run (fun s => s.iDivs n.val sm hi) s

end Sys2Proof.Machine
end

