-- ==== Sys2Proof/Machine/CoreCtl.lean ====
section
/-!
DEFINITION. Machine/CoreCtl.lean: control transfer and the stack (R396 to R398), `jmpa`, `calla`, `reti` (R399), `mrd` and
`mwr` (R372, R384, R401), as effects and as commands.
-/
namespace Sys2Proof.Machine

/-- 4 × OPERAND as a PC. -/
def wordPc (operand : BitVec 21) : BitVec 24 := operand.setWidth 24 <<< 2

/-- The fault of a transfer to an offset that is no multiple of 4 (R398, R437). -/
def Ctx.alignTrap (c : Ctx) (pc : BitVec 24) : Trap := ⟨5, addrOf (c.segAt 15) pc.toNat, false, false⟩

/-- Jump by word index. -/
def State.iJmp (s : State) (n : Nat) (sm : BitVec 4) (operand : BitVec 21) : State :=
  s.regInstr n 3 (decide (sm = 0)) fun c => c.jump (wordPc operand)

/-- Push the offset of the next word and jump. -/
def State.iCall (s : State) (n : Nat) (sm : BitVec 4) (operand : BitVec 21) : State :=
  s.instr n (3 + s.stackTerm n ((s.ctx n).s - 4)) instrPulse fun s =>
    if sm ≠ 0 then (s, trap 1 0)
    else s.pushBody n ((s.ctx n).pc + 4).toNat fun c => c.jump (wordPc operand)

/-- Jump if a condition holds (R392, R397). -/
def State.iBCc (s : State) (n : Nat) (cc : BitVec 4) (operand : BitVec 21) : State :=
  s.regInstr n 3 (decide (cc ≠ 15)) fun c => if condHolds cc.toNat c.f then c.jump (wordPc operand) else c.next

/-- Pop into the PC (R396, R398). -/
def State.iRet (s : State) (n : Nat) (sm : BitVec 4) (operand : BitVec 21) : State :=
  s.instr n (3 + s.stackTerm n (s.ctx n).s) instrPulse fun s =>
    if ¬(sm = 0 ∧ operand = 0) then (s, trap 1 0)
    else s.popBody n fun c v =>
      let pc : BitVec 24 := v.setWidth 24
      if pc.toNat % 4 ≠ 0 then .error ((s.ctx n).alignTrap pc) else .ok (c.jump pc)

/-- The register that push names. -/
def Ctx.pushed (c : Ctx) (handler : Bool) (r : Nat) : Word :=
  match r with
  | 0 => c.a
  | 1 => c.x
  | 2 => c.y
  | _ => fWord c.f handler

/-- The register that pop names takes a word; no other flag changes. -/
def Ctx.popped (c : Ctx) (r : Nat) (v : Word) : Ctx :=
  match r with
  | 0 => { c with a := v }
  | 1 => c.setX v
  | 2 => c.setY v
  | _ => c.setFlags v

/-- Push A, X, Y or F. -/
def State.iPush (s : State) (n : Nat) (sm : BitVec 4) (operand : BitVec 21) : State :=
  s.instr n (2 + s.stackTerm n ((s.ctx n).s - 4)) instrPulse fun s =>
    if ¬(sm = 0 ∧ operand.toNat < 4) then (s, trap 1 0)
    else s.pushBody n ((s.ctx n).pushed (s.core n).inHandler operand.toNat) Ctx.next

/-- Pop A, X, Y or F. -/
def State.iPop (s : State) (n : Nat) (sm : BitVec 4) (operand : BitVec 21) : State :=
  s.instr n (2 + s.stackTerm n (s.ctx n).s) instrPulse fun s =>
    if ¬(sm = 0 ∧ operand.toNat < 4) then (s, trap 1 0)
    else s.popBody n fun c v => .ok (c.popped operand.toNat v).next

/-- Jump to A[23:0]. -/
def State.iJmpa (s : State) (n : Nat) (sm : BitVec 4) (hi : BitVec 15) : State :=
  s.instr n 3 instrPulse fun s =>
    let c := s.ctx n
    let pc : BitVec 24 := c.a.setWidth 24
    if ¬(sm = 0 ∧ hi = 0) then (s, trap 1 0)
    else if pc.toNat % 4 ≠ 0 then (s, some (c.alignTrap pc))
    else (s.putCtx n (c.jump pc), none)

/-- Push the offset of the next word and jump to A[23:0]; the offset is checked before the push (R398). -/
def State.iCalla (s : State) (n : Nat) (sm : BitVec 4) (hi : BitVec 15) : State :=
  s.instr n (3 + s.stackTerm n ((s.ctx n).s - 4)) instrPulse fun s =>
    let c := s.ctx n
    let pc : BitVec 24 := c.a.setWidth 24
    if ¬(sm = 0 ∧ hi = 0) then (s, trap 1 0)
    else if pc.toNat % 4 ≠ 0 then (s, some (c.alignTrap pc))
    else s.pushBody n (c.pc + 4).toNat fun c => c.jump pc

/-- Leave HANDLER for MAIN at its saved PC (R371, R433). -/
def State.iReti (s : State) (n : Nat) (sm : BitVec 4) (hi : BitVec 15) : State :=
  s.instr n 6 instrPulse fun s =>
    let c := s.core n
    if ¬(sm = 0 ∧ hi = 0 ∧ c.inHandler) then (s, trap 1 0)
    else (s.setCore n { c with inHandler := false, afterReti := true, hand := c.hand.next }, none)

/-- A register of MAIN by number: A, X, Y, S, F, PC. -/
def Ctx.byNum (c : Ctx) (r : Nat) : Word :=
  match r with
  | 0 => c.a
  | 1 => c.x
  | 2 => c.y
  | 3 => c.s.setWidth 32
  | 4 => fWord c.f false
  | _ => c.pc.setWidth 32

/-- The same written (R384). -/
def Ctx.putNum (c : Ctx) (r : Nat) (v : Word) : Ctx :=
  match r with
  | 0 => { c with a := v }
  | 1 => c.setX v
  | 2 => c.setY v
  | 3 => { c with s := v.setWidth 24 }
  | 4 => c.setFlags v
  | _ => { c with pc := (v &&& 0xFFFFFC).setWidth 24 }

/-- `mrd` and `mwr` are legal in HANDLER with r up to 5. -/
def mainLegal (sm : BitVec 4) (operand : BitVec 21) (handler : Bool) : Bool :=
  decide (sm = 0 ∧ operand.toNat < 6) && handler

/-- A ← MAIN's r; no flag changes. -/
def State.iMrd (s : State) (n : Nat) (sm : BitVec 4) (operand : BitVec 21) : State :=
  s.instr n 3 instrPulse fun s =>
    let c := s.core n
    if !(mainLegal sm operand c.inHandler) then (s, trap 1 0)
    else (s.setCore n { c with hand := { c.hand with a := c.main.byNum operand.toNat }.next }, none)

/-- MAIN's r ← A. -/
def State.iMwr (s : State) (n : Nat) (sm : BitVec 4) (operand : BitVec 21) : State :=
  s.instr n 3 instrPulse fun s =>
    let c := s.core n
    if !(mainLegal sm operand c.inHandler) then (s, trap 1 0)
    else (s.setCore n { c with main := c.main.putNum operand.toNat c.hand.a, hand := c.hand.next }, none)

def execJmp (n : Fin 17) (sm : BitVec 4) (operand : BitVec 21) (s : State) : Out :=
  run (fun s => s.iJmp n.val sm operand) s

def execCall (n : Fin 17) (sm : BitVec 4) (operand : BitVec 21) (s : State) : Out :=
  run (fun s => s.iCall n.val sm operand) s

def execBCc (n : Fin 17) (cc : BitVec 4) (operand : BitVec 21) (s : State) : Out :=
  run (fun s => s.iBCc n.val cc operand) s

def execRet (n : Fin 17) (sm : BitVec 4) (operand : BitVec 21) (s : State) : Out :=
  run (fun s => s.iRet n.val sm operand) s

def execPush (n : Fin 17) (sm : BitVec 4) (operand : BitVec 21) (s : State) : Out :=
  run (fun s => s.iPush n.val sm operand) s

def execPop (n : Fin 17) (sm : BitVec 4) (operand : BitVec 21) (s : State) : Out :=
  run (fun s => s.iPop n.val sm operand) s

def execMrd (n : Fin 17) (sm : BitVec 4) (operand : BitVec 21) (s : State) : Out :=
  run (fun s => s.iMrd n.val sm operand) s

def execMwr (n : Fin 17) (sm : BitVec 4) (operand : BitVec 21) (s : State) : Out :=
  run (fun s => s.iMwr n.val sm operand) s

def execJmpa (n : Fin 17) (sm : BitVec 4) (hi : BitVec 15) (s : State) : Out :=
  run (fun s => s.iJmpa n.val sm hi) s

def execCalla (n : Fin 17) (sm : BitVec 4) (hi : BitVec 15) (s : State) : Out :=
  run (fun s => s.iCalla n.val sm hi) s

def execReti (n : Fin 17) (sm : BitVec 4) (hi : BitVec 15) (s : State) : Out :=
  run (fun s => s.iReti n.val sm hi) s

end Sys2Proof.Machine
end

