-- ==== Sys2Proof/Machine/CoreDev.lean ====
section
/-!
DEFINITION. Machine/CoreDev.lean: the device-specific instructions (R362, R363, R373 to R379, R401 to R405, R535), as
effects and as commands.
-/
namespace Sys2Proof.Machine

/-- `wce` and `wsel`: a store of A through a segment with FW whose address lies in the view `lo` to `hi`. Their count
holds the term of control space, whatever the descriptor names (R370, R401, R448). -/
def State.viewInstr (s : State) (n : Nat) (sm : BitVec 4) (operand : BitVec 21) (lo hi : Nat) : State :=
  s.instr n (if n = 16 ∧ s.onFrc then 8 else 20) instrPulse fun s =>
    let c := s.ctx n
    let d := c.segAt sm.toNat
    let eo := c.eo d operand.toNat
    let a := addrOf d eo
    match checkSeg d .fw eo 4 4 with
    | some code => (s, trap code a)
    | none => if lo ≤ a ∧ a ≤ hi then s.storeAt n a 4 c.a.toNat c.next else (s, trap 7 a)

def State.iWce (s : State) (n : Nat) (sm : BitVec 4) (operand : BitVec 21) : State :=
  s.viewInstr n sm operand 0x01000000 0x0100FFFF

def State.iWsel (s : State) (n : Nat) (sm : BitVec 4) (operand : BitVec 21) : State :=
  s.viewInstr n sm operand 0x01020000 0x01020FFF

/-- Master code of a core's queue moves (R496). -/
def queueCode (n : Nat) : Nat := if n = 16 then 0x10 else n

/-- A queue instruction ends with C as given. -/
def State.qDone (s : State) (n : Nat) (cflag : Bool) : State × Option Trap :=
  let c := s.ctx n
  ((s.putCtx n { c with f := putC c.f cflag }.next).perf n ([(17, 1)] ++ if cflag then [(18, 1)] else []), none)

/-- The checks of R376, R402 and R471 for queue `q` and its operand; `move` acts on the operand's address. -/
def State.queueInstr (s : State) (n : Nat) (sm : BitVec 4) (operand : BitVec 21) (right : Right)
    (move : State → Nat → Nat → State × Option Trap) : State :=
  s.instr n 28 instrPulse fun s =>
    let c := s.ctx n
    let d := c.segAt sm.toNat
    let eo := c.eo d operand.toNat
    let a := addrOf d eo
    let q := c.x.toNat % 16384
    let size := qEsize (s.queue q)
    if s.queueOwner q ≠ s.coreOwner n then (s, trap 7 a)
    else if !(qEn (s.queue q)) then s.qDone n true
    else
      match checkSeg d right eo size 8 with
      | some code => (s, trap code a)
      | none =>
        if inAon n a ∨ 0x1000000 ≤ a ∨ a / 0x100000 ≠ (a + size - 1) / 0x100000 then (s, trap 7 a)
        else move s q a

/-- One entry of a queue to memory. -/
def State.qgetMove (s : State) (n q a : Nat) : State × Option Trap :=
  if s.qNothing q then s.qDone n true
  else if !(s.pondOn a (qEsize (s.queue q))) then (s, trap 7 a)
  else
    match s.qRead (queueCode n) q (s.queue q).head with
    | (s1, none) => (s1, trap 8 a)
    | (s1, some bs) => (((s1.pondWrite (queueCode n) 2 a bs).1).qAdvance q).qDone n false

/-- One entry of memory to a queue; a full queue under the drop policy counts it (R377, R512). -/
def State.qputMove (s : State) (n q a : Nat) : State × Option Trap :=
  if s.qNoRoom q then (if qDrops (s.queue q) then s.qDrop q else s).qDone n true
  else if !(s.pondOn a (qEsize (s.queue q))) then (s, trap 7 a)
  else
    match s.pondRead (queueCode n) 2 a (qEsize (s.queue q)) with
    | (s1, none) => (s1, trap 8 a)
    | (s1, some bs) => (s1.qPut (queueCode n) q bs).1.qDone n false

def State.iQget (s : State) (n : Nat) (sm : BitVec 4) (operand : BitVec 21) : State :=
  s.queueInstr n sm operand .w fun s q a => s.qgetMove n q a

def State.iQput (s : State) (n : Nat) (sm : BitVec 4) (operand : BitVec 21) : State :=
  s.queueInstr n sm operand .r fun s q a => s.qputMove n q a

/-- The descriptor that `sld` stores: rights cleared, the mode replaced (R362). -/
def narrow (d : BitVec 64) (operand : BitVec 21) : BitVec 64 :=
  let drop := (operand.toNat >>> 8) % 16
  let d1 := d &&& ~~~(BitVec.ofNat 64 drop)
  if operand.getLsbD 14 then (d1 &&& ~~~(0x30 : BitVec 64)) ||| BitVec.ofNat 64 ((operand.toNat >>> 12) % 4 * 16) else d1

/-- The encoding and context that `sld` requires (R363, R372, R401). -/
def sldLegal (sm : BitVec 4) (operand : BitVec 21) (handler : Bool) : Bool :=
  decide (sm ≠ 15 ∧ (operand.toNat >>> 6) % 4 = 0 ∧ operand.toNat >>> 16 = 0) && (handler || !(operand.getLsbD 15))

def State.iSld (s : State) (n : Nat) (sm : BitVec 4) (operand : BitVec 21) : State :=
  s.instr n 6 instrPulse fun s =>
    let c := s.core n
    let d := s.segEntry (s.coreOwner n) (operand.toNat % 64)
    if !(sldLegal sm operand c.inHandler) then (s, trap 1 0)
    else if !(segValid d) || !(segWellFormed (decide (n = 16)) d) then (s, trap 3 0)
    else if operand.getLsbD 15 then
      (s.setCore n { c with main := c.main.putSeg sm.toNat (narrow d operand), hand := c.hand.next }, none)
    else (s.putCtx n (c.ctx.putSeg sm.toNat (narrow d operand)).next, none)

/-- `cmt` (R374, R405, R411): the commit unit is reached while the fabric runs. -/
def State.iCmt (s : State) (n : Nat) (sm : BitVec 4) (operand : BitVec 21) : State :=
  s.instr n 6 instrPulse fun s =>
    let c := s.ctx n
    if ¬(sm = 0 ∧ operand.toNat < 64) then (s, trap 1 0)
    else
      let s1 := (s.putCtx n c.next).perf n [(19, 1)]
      (if s1.fabUp then s1.issueCommit (s1.coreOwner n) c.a (operand.setWidth 6) else s1, none)

/-- A `wev` that takes an event or, polling, finds none. -/
def State.wevBody (s : State) (n : Nat) (sm : BitVec 4) (operand : BitVec 21) : State × Option Trap :=
  let c := s.ctx n
  if ¬(sm = 0 ∧ operand.toNat < 2) then (s, trap 1 0)
  else
    match s.waitEvent n with
    | some e => (((s.dropPend n e.1).putCtx n (c.takeEvent e)).perf n [(16, 1)], none)
    | none => (s.putCtx n { c with f := putC c.f true }.next, none)

/-- A `wev` that finds no event waits at its own PC, and its count begins with the delivery (R378). -/
def State.wevWait (s : State) (n : Nat) : State × Option Trap :=
  ((s.setCore n { s.core n with st := .wait }).levels n, none)

def State.iWev (s : State) (n : Nat) (sm : BitVec 4) (operand : BitVec 21) : State :=
  if sm = 0 ∧ operand = 0 ∧ s.waitEvent n = none then s.instr n 0 [] fun s => s.wevWait n
  else s.instr n 6 instrPulse fun s => s.wevBody n sm operand

def execWce (n : Fin 17) (sm : BitVec 4) (operand : BitVec 21) (s : State) : Out :=
  run (fun s => s.iWce n.val sm operand) s

def execWsel (n : Fin 17) (sm : BitVec 4) (operand : BitVec 21) (s : State) : Out :=
  run (fun s => s.iWsel n.val sm operand) s

def execQget (n : Fin 17) (sm : BitVec 4) (operand : BitVec 21) (s : State) : Out :=
  run (fun s => s.iQget n.val sm operand) s

def execQput (n : Fin 17) (sm : BitVec 4) (operand : BitVec 21) (s : State) : Out :=
  run (fun s => s.iQput n.val sm operand) s

def execSld (n : Fin 17) (sm : BitVec 4) (operand : BitVec 21) (s : State) : Out :=
  run (fun s => s.iSld n.val sm operand) s

def execCmt (n : Fin 17) (sm : BitVec 4) (operand : BitVec 21) (s : State) : Out :=
  run (fun s => s.iCmt n.val sm operand) s

def execWev (n : Fin 17) (sm : BitVec 4) (operand : BitVec 21) (s : State) : Out :=
  run (fun s => s.iWev n.val sm operand) s

end Sys2Proof.Machine
end

