-- ==== Sys2Proof/Machine/CoreMem.lean ====
section
/-!
DEFINITION. Machine/CoreMem.lean: the long memory instructions (R394). Each has its effect on a core (`State.i…`, which
a debug step runs too) and its meaning as a command.
-/
namespace Sys2Proof.Machine

/-- A takes a word. -/
def State.iGaw (s : State) (n : Nat) (sm : BitVec 4) (operand : BitVec 21) : State :=
  s.loadInstr n sm operand 4 2 fun c v => c.setA v

/-- A takes a byte, zero-extended. -/
def State.iGab (s : State) (n : Nat) (sm : BitVec 4) (operand : BitVec 21) : State :=
  s.loadInstr n sm operand 1 2 fun c v => c.setA v

/-- A takes a halfword, zero-extended. -/
def State.iGah (s : State) (n : Nat) (sm : BitVec 4) (operand : BitVec 21) : State :=
  s.loadInstr n sm operand 2 2 fun c v => c.setA v

/-- X takes a word. -/
def State.iGxw (s : State) (n : Nat) (sm : BitVec 4) (operand : BitVec 21) : State :=
  s.loadInstr n sm operand 4 2 fun c v => c.setX v

/-- Y takes a word. -/
def State.iGyw (s : State) (n : Nat) (sm : BitVec 4) (operand : BitVec 21) : State :=
  s.loadInstr n sm operand 4 2 fun c v => c.setY v

/-- A to a word of memory. -/
def State.iPaw (s : State) (n : Nat) (sm : BitVec 4) (operand : BitVec 21) : State :=
  s.storeInstr n sm operand 4 fun c => c.a

/-- A[7:0] to a byte of memory. -/
def State.iPab (s : State) (n : Nat) (sm : BitVec 4) (operand : BitVec 21) : State :=
  s.storeInstr n sm operand 1 fun c => c.a

/-- A[15:0] to a halfword of memory. -/
def State.iPah (s : State) (n : Nat) (sm : BitVec 4) (operand : BitVec 21) : State :=
  s.storeInstr n sm operand 2 fun c => c.a

/-- X to a word of memory. -/
def State.iPxw (s : State) (n : Nat) (sm : BitVec 4) (operand : BitVec 21) : State :=
  s.storeInstr n sm operand 4 fun c => c.x

/-- Y to a word of memory. -/
def State.iPyw (s : State) (n : Nat) (sm : BitVec 4) (operand : BitVec 21) : State :=
  s.storeInstr n sm operand 4 fun c => c.y

/-- A + memory. -/
def State.iAdd (s : State) (n : Nat) (sm : BitVec 4) (operand : BitVec 21) : State :=
  s.loadInstr n sm operand 4 3 fun c v => c.alu (aluAdd c.f c.a v false)

/-- A + memory + C. -/
def State.iAdc (s : State) (n : Nat) (sm : BitVec 4) (operand : BitVec 21) : State :=
  s.loadInstr n sm operand 4 3 fun c v => c.alu (aluAdd c.f c.a v (flC c.f))

/-- A − memory. -/
def State.iSub (s : State) (n : Nat) (sm : BitVec 4) (operand : BitVec 21) : State :=
  s.loadInstr n sm operand 4 3 fun c v => c.alu (aluSub c.f c.a v false)

/-- A − memory − C. -/
def State.iSbc (s : State) (n : Nat) (sm : BitVec 4) (operand : BitVec 21) : State :=
  s.loadInstr n sm operand 4 3 fun c v => c.alu (aluSub c.f c.a v (flC c.f))

/-- A AND memory. -/
def State.iAnd (s : State) (n : Nat) (sm : BitVec 4) (operand : BitVec 21) : State :=
  s.loadInstr n sm operand 4 3 fun c v => c.setA (c.a &&& v)

/-- A OR memory. -/
def State.iOr (s : State) (n : Nat) (sm : BitVec 4) (operand : BitVec 21) : State :=
  s.loadInstr n sm operand 4 3 fun c v => c.setA (c.a ||| v)

/-- A XOR memory. -/
def State.iXor (s : State) (n : Nat) (sm : BitVec 4) (operand : BitVec 21) : State :=
  s.loadInstr n sm operand 4 3 fun c v => c.setA (c.a ^^^ v)

/-- Compare A with memory. -/
def State.iCmp (s : State) (n : Nat) (sm : BitVec 4) (operand : BitVec 21) : State :=
  s.loadInstr n sm operand 4 3 fun c v => c.aluCmp (aluSub c.f c.a v false)

def execGaw (n : Fin 17) (sm : BitVec 4) (operand : BitVec 21) (s : State) : Out :=
  run (fun s => s.iGaw n.val sm operand) s

def execGab (n : Fin 17) (sm : BitVec 4) (operand : BitVec 21) (s : State) : Out :=
  run (fun s => s.iGab n.val sm operand) s

def execGah (n : Fin 17) (sm : BitVec 4) (operand : BitVec 21) (s : State) : Out :=
  run (fun s => s.iGah n.val sm operand) s

def execGxw (n : Fin 17) (sm : BitVec 4) (operand : BitVec 21) (s : State) : Out :=
  run (fun s => s.iGxw n.val sm operand) s

def execGyw (n : Fin 17) (sm : BitVec 4) (operand : BitVec 21) (s : State) : Out :=
  run (fun s => s.iGyw n.val sm operand) s

def execPaw (n : Fin 17) (sm : BitVec 4) (operand : BitVec 21) (s : State) : Out :=
  run (fun s => s.iPaw n.val sm operand) s

def execPab (n : Fin 17) (sm : BitVec 4) (operand : BitVec 21) (s : State) : Out :=
  run (fun s => s.iPab n.val sm operand) s

def execPah (n : Fin 17) (sm : BitVec 4) (operand : BitVec 21) (s : State) : Out :=
  run (fun s => s.iPah n.val sm operand) s

def execPxw (n : Fin 17) (sm : BitVec 4) (operand : BitVec 21) (s : State) : Out :=
  run (fun s => s.iPxw n.val sm operand) s

def execPyw (n : Fin 17) (sm : BitVec 4) (operand : BitVec 21) (s : State) : Out :=
  run (fun s => s.iPyw n.val sm operand) s

def execAdd (n : Fin 17) (sm : BitVec 4) (operand : BitVec 21) (s : State) : Out :=
  run (fun s => s.iAdd n.val sm operand) s

def execAdc (n : Fin 17) (sm : BitVec 4) (operand : BitVec 21) (s : State) : Out :=
  run (fun s => s.iAdc n.val sm operand) s

def execSub (n : Fin 17) (sm : BitVec 4) (operand : BitVec 21) (s : State) : Out :=
  run (fun s => s.iSub n.val sm operand) s

def execSbc (n : Fin 17) (sm : BitVec 4) (operand : BitVec 21) (s : State) : Out :=
  run (fun s => s.iSbc n.val sm operand) s

def execAnd (n : Fin 17) (sm : BitVec 4) (operand : BitVec 21) (s : State) : Out :=
  run (fun s => s.iAnd n.val sm operand) s

def execOr (n : Fin 17) (sm : BitVec 4) (operand : BitVec 21) (s : State) : Out :=
  run (fun s => s.iOr n.val sm operand) s

def execXor (n : Fin 17) (sm : BitVec 4) (operand : BitVec 21) (s : State) : Out :=
  run (fun s => s.iXor n.val sm operand) s

def execCmp (n : Fin 17) (sm : BitVec 4) (operand : BitVec 21) (s : State) : Out :=
  run (fun s => s.iCmp n.val sm operand) s

end Sys2Proof.Machine
end

