-- ==== Sys2Proof/Machine/CorePair.lean ====
section
/-!
DEFINITION. Machine/CorePair.lean: pairs of short operations (R349 to R357, R382, R406, R407, R410), the opcode map of whole
words (R351, R393, R399), illegal words, interrupt acceptance (R431 to R434), debug halt, step and resume (R449 to R453) and
the cache commands (R418, R424, R428).
-/
namespace Sys2Proof.Machine

/-! ### Short operations -/

/-- A short operation: opcode and operand. -/
structure Short where
  op : Nat
  arg : BitVec 10
  deriving DecidableEq, Repr

def Short.of (h : BitVec 15) : Short := ⟨h.toNat / 1024, h.setWidth 10⟩

def Short.loads (o : Short) : Bool :=
  decide (o.op = 1 ∨ (3 ≤ o.op ∧ o.op ≤ 9) ∨ o.op = 0x1A)
def Short.stores (o : Short) : Bool := decide (o.op = 2 ∨ o.op = 0xA ∨ o.op = 0xB)
def Short.mem (o : Short) : Bool := o.loads || o.stores
def Short.branches (o : Short) : Bool := decide (0x1B ≤ o.op)
def Short.seg (o : Short) : Nat := o.arg.toNat / 64
def Short.off (o : Short) : Nat := o.arg.toNat % 64 * 4
def Short.imm (o : Short) : Word := o.arg.signExtend 32

/-- R350, R407: implied operands are 0, and a count has five bits. -/
def Short.legal (o : Short) : Bool :=
  if o.op = 0 ∨ (0x14 ≤ o.op ∧ o.op ≤ 0x17) then decide (o.arg = 0)
  else if o.op = 0x18 ∨ o.op = 0x19 then decide (o.arg.toNat < 32)
  else true

/-- Things that a short operation reads or writes (R353): A, X, Y, S, C, Z, N, V, PC, memory. -/
inductive Thing where
  | a | x | y | s | c | z | n | v | pc | mem
  deriving DecidableEq, Repr

/-- The index register that a descriptor's mode adds (R354). -/
def indexOf (d : BitVec 64) : List Thing :=
  match segMode d with
  | 1 => [.x]
  | 2 => [.y]
  | 3 => [.s]
  | _ => []

/-- The read set of R406, with the index register of a memory operand. -/
def Short.reads (o : Short) (d : BitVec 64) : List Thing :=
  match o.op with
  | 0x01 | 0x08 | 0x09 => .mem :: indexOf d
  | 0x02 => .a :: indexOf d
  | 0x03 | 0x04 | 0x05 | 0x06 | 0x07 | 0x1A => .a :: .mem :: indexOf d
  | 0x0A => .x :: indexOf d
  | 0x0B => .y :: indexOf d
  | 0x0D | 0x11 | 0x14 | 0x16 | 0x18 | 0x19 => [.a]
  | 0x0E | 0x15 => [.x]
  | 0x0F | 0x17 => [.y]
  | 0x10 => [.s]
  | 0x1C | 0x1D => [.z]
  | 0x1E | 0x1F => [.c]
  | _ => []

/-- The write set of R406. -/
def Short.writes (o : Short) : List Thing :=
  match o.op with
  | 0x01 | 0x05 | 0x06 | 0x0C | 0x15 | 0x17 | 0x1A => [.a, .z, .n]
  | 0x02 | 0x0A | 0x0B => [.mem]
  | 0x03 | 0x04 | 0x0D => [.a, .c, .z, .n, .v]
  | 0x07 | 0x11 => [.c, .z, .n, .v]
  | 0x08 | 0x0E | 0x12 | 0x14 => [.x]
  | 0x09 | 0x0F | 0x13 | 0x16 => [.y]
  | 0x10 => [.s]
  | 0x18 | 0x19 => [.a, .c, .z, .n]
  | 0x1B | 0x1C | 0x1D | 0x1E | 0x1F => [.pc]
  | _ => []

def meets (p q : List Thing) : Bool := p.any fun x => q.contains x

/-- R355, with the descriptors of the halves' segments. -/
def dependent (o1 o2 : Short) (d1 d2 : BitVec 64) : Bool :=
  meets o1.writes (o2.reads d2) || meets o1.writes o2.writes || meets o2.writes (o1.reads d1) ||
    (o1.mem && o2.mem) || o1.branches

/-- The result of a half in a context whose PC is already past the pair; `v` is its memory operand. -/
def Short.run (o : Short) (c : Ctx) (v : Word) : Ctx :=
  let take := fun (b : Bool) => if b then c.jump (c.pc + (o.arg.signExtend 24 <<< 2)) else c
  match o.op with
  | 0x01 => c.setA v
  | 0x03 => c.alu (aluAdd c.f c.a v false)
  | 0x04 => c.alu (aluSub c.f c.a v false)
  | 0x05 => c.setA (c.a &&& v)
  | 0x06 => c.setA (c.a ||| v)
  | 0x07 => c.aluCmp (aluSub c.f c.a v false)
  | 0x08 => c.setX v
  | 0x09 => c.setY v
  | 0x0C => c.setA o.imm
  | 0x0D => c.alu (aluAdd c.f c.a o.imm false)
  | 0x0E => c.setX (c.x + o.imm)
  | 0x0F => c.setY (c.y + o.imm)
  | 0x10 => { c with s := c.s + (o.arg.signExtend 24 <<< 2) }
  | 0x11 => c.aluCmp (aluSub c.f c.a o.imm false)
  | 0x12 => c.setX o.imm
  | 0x13 => c.setY o.imm
  | 0x14 => c.setX c.a
  | 0x15 => c.setA c.x
  | 0x16 => c.setY c.a
  | 0x17 => c.setA c.y
  | 0x18 => c.alu (aluShl c.f c.a o.arg.toNat)
  | 0x19 => c.alu (aluShr c.f c.a o.arg.toNat)
  | 0x1A => c.setA (c.a ^^^ v)
  | 0x1B => take true
  | 0x1C => take (flZ c.f)
  | 0x1D => take (!(flZ c.f))
  | 0x1E => take (flC c.f)
  | 0x1F => take (!(flC c.f))
  | _ => c

/-- What a store half stores. -/
def Short.stored (o : Short) (c : Ctx) : Word := if o.op = 0x0A then c.x else if o.op = 0x0B then c.y else c.a

/-- The documented count of a half (R406). -/
def State.shortCost (s : State) (n : Nat) (o : Short) : Nat :=
  if o.mem then
    (if decide (3 ≤ o.op ∧ o.op ≤ 7) || decide (o.op = 0x1A) then 3 else 2) + s.termOf n o.seg o.off
  else if o.op = 0x18 ∨ o.op = 0x19 then 3 else 2

/-- The memory half `o` of a pair of halves `o1` and `o2`; the independent halves run one after the other. -/
def State.pairMem (s : State) (n : Nat) (o1 o2 o : Short) (half : Bool) : State × Option Trap :=
  let c := s.ctx n
  let both := fun (v : Word) => o2.run (o1.run c.next v) v
  let r := if o.loads then s.loadBody n o.seg o.off 4 fun _ v => both v
    else s.storeBody n o.seg o.off 4 .w (o.stored c).toNat (both 0)
  (r.1, r.2.map fun t => { t with half := half, pair := true })

/-- The body of a pair (R356): encodings, dependence, then the halves. `mid` is the reserved bit 15. -/
def State.pairBody (s : State) (n : Nat) (o1 o2 : Short) (mid : Bool) : State × Option Trap :=
  let c := s.ctx n
  if mid || !o1.legal then (s, some ⟨1, 0, false, true⟩)
  else if !o2.legal then (s, some ⟨1, 0, true, true⟩)
  else if dependent o1 o2 (c.segAt o1.seg) (c.segAt o2.seg) then (s, some ⟨2, 0, false, true⟩)
  else if o1.mem then s.pairMem n o1 o2 o1 false
  else if o2.mem then s.pairMem n o1 o2 o2 true
  else (s.putCtx n (o2.run (o1.run c.next 0) 0), none)

/-- A pair: the larger count plus one cycle (R352). -/
def State.iPair (s : State) (n : Nat) (w : BitVec 31) : State :=
  let o1 := Short.of ((w >>> 16).setWidth 15)
  let o2 := Short.of (w.setWidth 15)
  s.instr n (max (s.shortCost n o1) (s.shortCost n o2) + 1) [(6, 1), (7, 1)] fun s => s.pairBody n o1 o2 (w.getLsbD 15)

def execPair (n : Fin 17) (w : BitVec 31) (s : State) : Out := run (fun s => s.iPair n.val w) s

/-! ### Whole words -/

/-- An undefined word: ILLEGAL_OP after 2 cycles (R351, R370). -/
def State.iUndefined (s : State) (n : Nat) : State := s.instr n 2 instrPulse fun s => (s, trap 1 0)

/-- The register group by FN (R399). -/
def State.iGroup (s : State) (n : Nat) (sm : BitVec 4) (hi : BitVec 15) (fn : Nat) : State :=
  match fn with
  | 0x00 => s.iNop n sm hi
  | 0x01 => s.iMvxa n sm hi
  | 0x02 => s.iMvya n sm hi
  | 0x03 => s.iMvax n sm hi
  | 0x04 => s.iMvay n sm hi
  | 0x05 => s.iMvyx n sm hi
  | 0x06 => s.iMvxy n sm hi
  | 0x07 => s.iMvas n sm hi
  | 0x08 => s.iMvsa n sm hi
  | 0x09 => s.iMvaf n sm hi
  | 0x0A => s.iMvfa n sm hi
  | 0x0B => s.iNeg n sm hi
  | 0x0C => s.iNot n sm hi
  | 0x0D => s.iClrc n sm hi
  | 0x0E => s.iSetc n sm hi
  | 0x0F => s.iEi n sm hi
  | 0x10 => s.iDi n sm hi
  | 0x11 => s.iMulu n sm hi
  | 0x12 => s.iMuls n sm hi
  | 0x13 => s.iDivu n sm hi
  | 0x14 => s.iDivs n sm hi
  | 0x15 => s.iJmpa n sm hi
  | 0x16 => s.iCalla n sm hi
  | 0x17 => s.iReti n sm hi
  | _ => s.iUndefined n

/-- The long opcode map (R393). -/
def State.iLong (s : State) (n op : Nat) (sm : BitVec 4) (x : BitVec 21) : State :=
  match op with
  | 0x01 => s.iGaw n sm x
  | 0x02 => s.iGab n sm x
  | 0x03 => s.iGah n sm x
  | 0x04 => s.iGxw n sm x
  | 0x05 => s.iGyw n sm x
  | 0x06 => s.iPaw n sm x
  | 0x07 => s.iPab n sm x
  | 0x08 => s.iPah n sm x
  | 0x09 => s.iPxw n sm x
  | 0x0A => s.iPyw n sm x
  | 0x0B => s.iAdd n sm x
  | 0x0C => s.iAdc n sm x
  | 0x0D => s.iSub n sm x
  | 0x0E => s.iSbc n sm x
  | 0x0F => s.iAnd n sm x
  | 0x10 => s.iOr n sm x
  | 0x11 => s.iXor n sm x
  | 0x12 => s.iCmp n sm x
  | 0x13 => s.iWce n sm x
  | 0x14 => s.iWsel n sm x
  | 0x15 => s.iQget n sm x
  | 0x16 => s.iQput n sm x
  | 0x18 => s.iSeta n sm x
  | 0x19 => s.iSetah n sm x
  | 0x1A => s.iSetx n sm x
  | 0x1B => s.iSety n sm x
  | 0x1C => s.iAddi n sm x
  | 0x1D => s.iAndi n sm x
  | 0x1E => s.iOri n sm x
  | 0x1F => s.iXori n sm x
  | 0x20 => s.iCmpi n sm x
  | 0x21 => s.iShl n sm x
  | 0x22 => s.iShr n sm x
  | 0x23 => s.iSar n sm x
  | 0x24 => s.iRol n sm x
  | 0x25 => s.iJmp n sm x
  | 0x26 => s.iCall n sm x
  | 0x27 => s.iBCc n sm x
  | 0x28 => s.iRet n sm x
  | 0x29 => s.iPush n sm x
  | 0x2A => s.iPop n sm x
  | 0x2B => s.iGroup n sm ((x >>> 6).setWidth 15) (x.toNat % 64)
  | 0x2C => s.iSld n sm x
  | 0x2D => s.iCmt n sm x
  | 0x2E => s.iWev n sm x
  | 0x2F => s.iMrd n sm x
  | 0x30 => s.iMwr n sm x
  | _ => s.iUndefined n

/-- A whole word (R348, R349). -/
def State.iWord (s : State) (n : Nat) (w : Word) : State :=
  if w.msb then s.iPair n (w.setWidth 31)
  else s.iLong n (w.toNat / 0x2000000) ((w >>> 21).setWidth 4) (w.setWidth 21)

/-- No long OP, and no FN of the register group, has this word's code (R351, R393, R399). -/
def undefinedWord (w : Word) : Bool :=
  let op := w.toNat / 0x2000000
  !w.msb && (decide (op = 0 ∨ op = 0x17 ∨ 0x30 < op) || (decide (op = 0x2B) && decide (0x17 < w.toNat % 64)))

/-- ILLEGAL_OP: an undefined word; a word of the map is no such command and has no effect. -/
def State.illegal (s : State) (n : Nat) (w : Word) : State := if undefinedWord w then s.iUndefined n else s

def execIllegalOp (n : Fin 17) (w : Word) (s : State) : Out := run (fun s => s.illegal n.val w) s

/-! ### Interrupts -/

/-- R431 to R434: HANDLER starts at 0 with the event's number and stamp, after 10 cycles, and one more out of `wev`. -/
def State.acceptInterrupt (s : State) (n : Nat) : State :=
  let c := s.core n
  if s.rst.held || !(s.corePg n) || !(decide (n = 16) || s.divRun) || !(s.irqDue n) ||
      !(decide (c.st = .run) || decide (c.st = .wait)) then s
  else
    match s.irqEvent n with
    | none => s
    | some e =>
      let w := if c.st = .wait then 1 else 0
      let h := { c.hand with a := BitVec.ofNat 32 e.1, y := e.2, pc := 0 }
      let s1 := (s.levels n).perfStand n
      let s2 := (s1.spend n 0 w []).dropPend n e.1
      ((s2.setCore n { s2.core n with st := .run, inHandler := true, hand := h, bpSkip := false }).spend n 0 10
        [(14, 1)]).wrapBlock n

def execInterruptAccept (n : Fin 17) (s : State) : Out := run (fun s => s.acceptInterrupt n.val) s

/-! ### Debug -/

/-- The fuse refuses the debug unit (R452). -/
def State.dbgLocked (s : State) (n : Nat) : Bool := s.nvm.dbgLock.getLsbD (s.coreOwner n)

/-- The debug unit of a core can be used. -/
def State.dbgOpen (s : State) (n : Nat) : Bool := !s.rst.held && s.corePg n && !(s.dbgLocked n)

/-- DEBUG_HALT: the core stops at its boundary, a wait in `wev` included (R449). -/
def State.haltNow (s : State) (n : Nat) : State :=
  let c := s.core n
  if s.dbgOpen n && ((decide (c.st = .run) && decide (c.part = 0)) || decide (c.st = .wait)) then s.debugHalt n else s

def execDebugHalt (n : Fin 17) (s : State) : Out := run (fun s => s.haltNow n.val) s

/-- R450: a halted core executes one word and halts again. A `wev` that waits is a step that still runs: no interrupt is
accepted, and the core halts when it ends. -/
def State.stepWord (s : State) (n : Nat) (w : Word) : State :=
  if s.dbgOpen n && decide ((s.core n).st = .dbg) then
    let s1 := (s.setCore n { s.core n with st := .run, bpSkip := true, haltReq := false, stepping := true }).iWord n w
    match (s1.core n).st with
    | .run => s1.debugHalt n
    | .wait | .dbg => s1
    | _ => s1.setCore n { s1.core n with stepping := false }
  else s

def execDebugStep (n : Fin 17) (w : Word) (s : State) : Out := run (fun s => s.stepWord n.val w) s

/-- RESUME: the core goes on at its PC, past a breakpoint there. -/
def State.resume (s : State) (n : Nat) : State :=
  if s.dbgOpen n && decide ((s.core n).st = .dbg) then
    (s.setCore n { s.core n with st := .run, bpSkip := true, haltReq := false }).levels n
  else s

def execDebugResume (n : Fin 17) (s : State) : Out := run (fun s => s.resume n.val) s

/-! ### The cache -/

/-- PREFETCH_COMPLETE: the cycles that a running prefetch has left have passed (R418). -/
def State.prefetchDone (s : State) (n : Nat) : State :=
  match (s.core n).lb with
  | some b => if s.corePg n && decide (b.left ≠ 0) then s.lbDone n b.line else s
  | none => s

def execPrefetchComplete (n : Fin 17) (s : State) : Out := run (fun s => s.prefetchDone n.val) s

/-- ICACHE_LOAD_DONE: the cycles of a running load have passed (R424). -/
def State.loadDone (s : State) (n : Nat) : State :=
  if s.clocked n then (s.endLoad n).1 else s

def execIcacheLoadDone (n : Fin 17) (s : State) : Out := run (fun s => s.loadDone n.val) s

/-- ICACHE_LOAD: a write of GO. -/
def execIcacheLoad (m : Master) (n : Fin 17) (v : Word) (s : State) : Out :=
  run (fun s => s.regWrite m .CORE_ICACHE_LOAD n.val 0 (v ||| 0x80000000)) s

/-- ICACHE_INV: a write of INV or INV_ALL; a word with neither sets INV. -/
def execIcacheInv (m : Master) (n : Fin 17) (v : Word) (s : State) : Out :=
  run (fun s => s.regWrite m .CORE_ICACHE_CTL n.val 0 (if v &&& 6 = 0 then v ||| 2 else v)) s

/-- CORE_RESTART: a write of RESTART. -/
def execCoreRestart (m : Master) (n : Fin 17) (v : Word) (s : State) : Out :=
  run (fun s => s.regWrite m .CORE_CTL n.val 0 (v ||| 1)) s

end Sys2Proof.Machine
end

