-- ==== Sys2Proof/Machine/Link.lean ====
section
/-!
DEFINITION. Machine/Link.lean: packets that host links receive and the link layer's own actions (spec/16 R592 to R626, R640
to R646), as commands.
-/
namespace Sys2Proof.Machine

/-- The link logic works. -/
def State.linkUp (s : State) : Bool := s.fabUp && !s.rst.held

/-- The link logic works and its pins are read (R817). -/
def State.linkIn (s : State) : Bool := s.linkUp && s.bankIn 5

/-- Answer a request with a STATUS, while the link still works. -/
def State.answer (s : State) (k : Nat) (h : PktHdr) (code detail : Nat) : State :=
  if s.linkUp then s.sendStatus k h.tenant.val h.seq code detail else s

/-- STATUS OK if the request asks for it (R608). -/
def State.answerOk (s : State) (k : Nat) (h : PktHdr) : State := if h.rspq then s.answer k h 0 0 else s

/-- A packet with good checks arrives: the idle time ends and its ACK is taken (R599, R619). -/
def State.heard (s : State) (k : Nat) (ack : BitVec 12) : State :=
  (s.setLink k { s.link k with idle := 0 }).takeAck k ack

/-- The answers of a request still fit the 64 packets that may stand unacknowledged: one, and with RSPQ a STATUS too
(R597). -/
def Link.roomFor (l : Link) (rspq : Bool) : Bool := decide (l.replay.length + (if rspq then 2 else 1) ≤ 64)

/-- R597, R598: a sequenced packet. One whose answers might not fit is left unaccepted (log entry 39). -/
def State.receive (s : State) (k : Nat) (h : PktHdr) (act : State → State) : State :=
  if !s.linkIn then s
  else
    let s1 := s.heard k h.ack
    let l := s1.link k
    let d := (h.seq - l.exp).toNat
    if d = 0 then
      if l.roomFor h.rspq then act (s1.setLink k { l with exp := l.exp + 1, ackDue := true }) else s1
    else if d ≤ 2047 then (s1.linkCount k F.HL_CNT_FRM_GAP_GAP).sendNull k true
    else (s1.linkCount k F.HL_CNT_DUP_BOUND_DUP).sendNull k false

/-- The link serves the tenant (R605). -/
def State.bound (s : State) (k t : Nat) : Bool :=
  if t = 0 then s.b F.HL_CFG_T0_OK k else (s.reg .TEN_LINKS t).getLsbD k

/-- A request whose length fits its format, from a tenant that the link serves. -/
def State.request (s : State) (k : Nat) (h : PktHdr) (payload : List Byte) (fits : Bool) (act : State → State) : State :=
  s.receive k h fun s =>
    if !fits then s.answer k h 6 payload.length
    else if !(s.bound k h.tenant.val) then (s.linkCount k F.HL_CNT_DUP_BOUND_NOT_BOUND).answer k h 2 0
    else act s

/-- NULL: its ACK, and with NAK a replay (R601). -/
def State.nullPkt (s : State) (k : Nat) (h : PktHdr) : State :=
  if !s.linkIn then s
  else
    let s1 := s.heard k h.ack
    if h.nak then s1.replayAll k else s1

def execNull (k : Fin 4) (h : PktHdr) (s : State) : Out := run (fun s => s.nullPkt k.val h) s

/-! ### Queue puts (R610 to R613) -/

/-- Master code of a link (R496). -/
def linkCode (k : Nat) : Nat := 0x20 + k

/-- A field of a payload, little-endian. -/
def leField (p : List Byte) (at_ n : Nat) : Nat := leNat ((p.drop at_).take n)

def State.qfull (s : State) (k : Nat) (h : PktHdr) (q : Nat) : State := (s.answer k h 3 q).raise (724 + 8 * k)

/-- The entry of a QPUT: its stamp, its data, zeros (R610). -/
def qputEntry (frame : Word) (esize : Nat) (data : List Byte) : List Byte := fit esize (leBytes 4 frame.toNat ++ data)

def State.qputAct (s : State) (k : Nat) (h : PktHdr) (payload : List Byte) : State :=
  let q := leField payload 0 2 % 16384
  let data := payload.drop 4
  let e := qEsize (s.queue q)
  let l := s.link k
  if s.queueOwner q ≠ h.tenant.val then s.answer k h 8 q
  else if data.length + 4 > e then s.answer k h 6 payload.length
  else if l.holds.any fun x => decide (x.queue = q) then s.qfull k h q
  else if !(s.qNoRoom q) then ((s.qPut (linkCode k) q (qputEntry s.frame e data)).1).answerOk k h
  else if qDrops (s.queue q) then (s.qDrop q).qfull k h q
  else if 4 ≤ l.holds.length then s.qfull k h q
  else
    (s.setLink k { l with
      holds := l.holds ++ [⟨q, qputEntry s.frame e data, h.rspq, h.seq, h.tenant.val⟩] }).raise (724 + 8 * k)

def State.qputPkt (s : State) (k : Nat) (h : PktHdr) (payload : List Byte) : State :=
  s.request k h payload (decide (4 ≤ payload.length)) fun s => s.qputAct k h payload

def execQputPacket (k : Fin 4) (h : PktHdr) (payload : List Byte) (s : State) : Out :=
  run (fun s => s.qputPkt k.val h payload) s

/-- HELD_ENTRY_PUT: the oldest held entry whose queue has room (R612), and whose STATUS fits (R597). -/
def State.heldPut (s : State) (k : Nat) : State :=
  let l := s.link k
  let ready := fun x : Hold => !(s.qNoRoom x.queue) && (!x.rspq || l.roomFor false)
  match (if s.linkUp then l.holds.find? ready else none) with
  | none => s
  | some x =>
    let s1 := (s.qPut (linkCode k) x.queue (fit (qEsize (s.queue x.queue)) x.entry)).1
    let s2 := s1.setLink k { s1.link k with holds := l.holds.filter fun y => decide (y ≠ x) }
    if x.rspq then s2.sendStatus k x.tenant x.seq 0 0 else s2

def execHeldEntryPut (k : Fin 4) (s : State) : Out := run (fun s => s.heldPut k.val) s

/-! ### Paged queue reads (R614 to R618) -/

/-- Some link has an unacknowledged page of the queue (R616). -/
def State.pageOut (s : State) (q : Nat) : Bool :=
  linkNums.any fun k => (s.link k).pages.any fun p => decide (p.queue = q) && !p.dead

/-- Addresses of the `n` bytes of a queue's stream from SENT onward. -/
def streamAddrs (q : Queue) (n : Nat) : List Nat :=
  let off := (q.sent - BitVec.ofNat 32 (qHeadPos q)).toNat
  (List.range n).map fun i => qAddr q (q.head + BitVec.ofNat 17 ((off + i) / qEsize q)) + (off + i) % qEsize q

/-- Bytes of published entries from SENT onward (R615); none while the queue is as empty (R511, R514). -/
def State.streamLeft (s : State) (n : Nat) : Nat :=
  let q := s.queue n
  if s.qLive n q then qFill q * qEsize q - (q.sent - BitVec.ofNat 32 (qHeadPos q)).toNat else 0

def qdata (q result : Nat) (pos : Word) (data : List Byte) : List Byte :=
  leBytes 2 q ++ [BitVec.ofNat 8 result, 0] ++ leBytes 4 pos.toNat ++ data

/-- Send one page of a queue and keep it. -/
def State.sendPage (s : State) (k : Nat) (h : PktHdr) (n : Nat) (addrs : List Nat) : State :=
  let q := s.queue n
  let fin := q.sent + BitVec.ofNat 32 addrs.length
  let s1 := s.setQueue n { q with sent := fin }
  let page : Page := ⟨(s.link k).txNext, n, fin, false⟩
  let s2 := s1.sendSeq k 8 h.tenant.val (qdata n 0 q.sent (addrs.map s.byte))
  s2.setLink k { s2.link k with pages := (s2.link k).pages ++ [page] }

/-- Consecutive words in runs of at most 32, each one access of port M (R464). -/
def wordRuns : List Nat → List (List Nat)
  | [] => []
  | w :: t =>
    match wordRuns t with
    | [] => [[w]]
    | r :: rs => if r.head? = some (w + 1) ∧ r.length < 32 then (w :: r) :: rs else [w] :: r :: rs

/-- Read runs of words, an access each, up to the first that meets an uncorrectable word, which is the answer. -/
def State.eccRuns (s : State) (master port : Nat) : List (List Nat) → State × Option Nat
  | [] => (s, none)
  | r :: rs =>
    match s.eccRead master port r with
    | (s1, true) => s1.eccRuns master port rs
    | (s1, false) => (s1, r.find? fun w => (s.eccOf w).ue)

def State.qreadAct (s : State) (k : Nat) (h : PktHdr) (payload : List Byte) : State :=
  let n := leField payload 0 2 % 16384
  let most := leField payload 2 2
  if s.queueOwner n ≠ h.tenant.val then s.answer k h 8 n
  else if s.pageOut n then s.answer k h 4 n
  else
    let left := min most (s.streamLeft n)
    if left = 0 then (s.sendSeq k 8 h.tenant.val (qdata n 1 (s.queue n).sent [])).answerOk k h
    else
      let addrs := streamAddrs (s.queue n) left
      match s.eccRuns (linkCode k) 2 (wordRuns (addrs.map (· / 8)).eraseDups) with
      | (s1, none) => (s1.sendPage k h n addrs).answerOk k h
      | (s1, some w) => s1.answer k h 7 (w * 8)

def State.qreadPkt (s : State) (k : Nat) (h : PktHdr) (payload : List Byte) : State :=
  let most := leField payload 2 2
  s.request k h payload (decide (payload.length = 4 ∧ 1 ≤ most ∧ most ≤ 504)) fun s => s.qreadAct k h payload

def execQread (k : Fin 4) (h : PktHdr) (payload : List Byte) (s : State) : Out :=
  run (fun s => s.qreadPkt k.val h payload) s

/-! ### Direct control access (R622 to R626) -/

/-- What a word access of a link ends with: served, an access error, or a pond error. -/
inductive WordEnd where
  | ok (v : Word)
  | refused
  | memErr
  deriving DecidableEq, Repr

/-- May the tenant reach pond memory at an address (R607)? T0 any; others what their segment table covers. -/
def State.pondMay (s : State) (t a : Nat) (write : Bool) : Bool :=
  decide (t = 0) || (List.range 64).any fun e =>
    let d := s.segEntry t e
    segValid d && segWellFormed false d && (if write then segW d else segR d) &&
      decide (segBase d ≤ a ∧ a + 4 ≤ segBase d + segLimit d)

/-- Read one word for a packet. -/
def State.pktRead (s : State) (k : Fin 4) (t : Fin 16) (a : Nat) : State × WordEnd :=
  if 0x1000000 ≤ a then
    match s.ctlRead (.link k t) .word a with
    | (s1, some v) => (s1, .ok v)
    | (s1, none) => (s1, .refused)
  else if a % 4 ≠ 0 ∨ !(s.pondMay t.val a false) then (s, .refused)
  else if !(s.pondOn a 4) then (s, .memErr)
  else
    match s.pondRead (linkCode k.val) 1 a 4 with
    | (s1, some bs) => (s1, .ok (BitVec.ofNat 32 (leNat bs)))
    | (s1, none) => (s1, .memErr)

/-- Write one word for a packet. -/
def State.pktWrite (s : State) (k : Fin 4) (t : Fin 16) (a : Nat) (v : Word) : State × WordEnd :=
  if 0x1000000 ≤ a then
    let r := s.ctlWrite (.link k t) .word a v
    (r.1, if r.2 then .refused else .ok 0)
  else if a % 4 ≠ 0 ∨ !(s.pondMay t.val a true) then (s, .refused)
  else if !(s.pondOn a 4) then (s, .memErr)
  else
    match s.pondWrite (linkCode k.val) 1 a (leBytes 4 v.toNat) with
    | (s1, true) => (s1, .ok 0)
    | (s1, false) => (s1, .memErr)

/-- Read `n` consecutive words: the words, or where and how the reading ended. -/
def State.pktReads (s : State) (k : Fin 4) (t : Fin 16) (a : Nat) : Nat → List Word → State × Except (Nat × WordEnd) (List Word)
  | 0, acc => (s, .ok acc.reverse)
  | n + 1, acc =>
    match s.pktRead k t a with
    | (s1, .ok v) => s1.pktReads k t (a + 4) n (v :: acc)
    | (s1, e) => (s1, .error (a, e))

/-- Write consecutive words up to the first that fails (R623). -/
def State.pktWrites (s : State) (k : Fin 4) (t : Fin 16) (a : Nat) : List Word → State × Option (Nat × WordEnd)
  | [] => (s, none)
  | v :: r =>
    match s.pktWrite k t a v with
    | (s1, .ok _) => s1.pktWrites k t (a + 4) r
    | (s1, e) => (s1, some (a, e))

/-- R626: the request, whose words from `a` on reached pond memory up to `x`, has no effect. What its accesses corrected
is counted, and the uncorrectable word is recorded all the same (R474, R477). -/
def State.memErr (s : State) (k : Fin 4) (h : PktHdr) (a x : Nat) : State :=
  ((List.range ((x - a) / 4 + 1)).foldl (fun s i =>
    if s.pondOn (a + 4 * i) 4 then (s.eccRead (linkCode k.val) 1 [(a + 4 * i) / 8]).1 else s) s).answer k.val h 7 x

def wordsOfBytes : List Byte → List Word
  | b0 :: b1 :: b2 :: b3 :: r => BitVec.ofNat 32 (leNat [b0, b1, b2, b3]) :: wordsOfBytes r
  | _ => []

def State.ctlRdAct (s : State) (k : Fin 4) (h : PktHdr) (payload : List Byte) : State :=
  let a := leField payload 0 4
  if !(s.b F.HL_CFG_DIAG_EN k.val) then s.answer k.val h 9 0
  else
    match s.pktReads k h.tenant a (leField payload 4 2) [] with
    | (s1, .ok ws) =>
      if s1.linkUp then
        (s1.sendSeq k.val 9 h.tenant.val (leBytes 4 a ++ ws.flatMap fun w => leBytes 4 w.toNat)).answerOk k.val h
      else s1
    | (_, .error (x, .memErr)) => s.memErr k h a x
    | (s1, .error (x, _)) => s1.answer k.val h 1 x

def State.ctlRdPkt (s : State) (k : Fin 4) (h : PktHdr) (payload : List Byte) : State :=
  let n := leField payload 4 2
  s.request k.val h payload (decide (payload.length = 6 ∧ 1 ≤ n ∧ n ≤ 127)) fun s => s.ctlRdAct k h payload

def execCtlRd (k : Fin 4) (h : PktHdr) (payload : List Byte) (s : State) : Out :=
  run (fun s => s.ctlRdPkt k h payload) s

def State.ctlWrAct (s : State) (k : Fin 4) (h : PktHdr) (payload : List Byte) : State :=
  let a := leField payload 0 4
  if !(s.b F.HL_CFG_DIAG_EN k.val) then s.answer k.val h 9 0
  else
    match s.pktWrites k h.tenant a (wordsOfBytes (payload.drop 4)) with
    | (s1, none) => s1.answerOk k.val h
    | (_, some (x, .memErr)) => s.memErr k h a x
    | (s1, some (x, _)) => s1.answer k.val h 1 x

def State.ctlWrPkt (s : State) (k : Fin 4) (h : PktHdr) (payload : List Byte) : State :=
  let n := payload.length
  s.request k.val h payload (decide (8 ≤ n ∧ n ≤ 512 ∧ n % 4 = 0)) fun s => s.ctlWrAct k h payload

def execCtlWr (k : Fin 4) (h : PktHdr) (payload : List Byte) (s : State) : Out :=
  run (fun s => s.ctlWrPkt k h payload) s

/-- MBX (R625). -/
def State.mbxPkt (s : State) (k : Fin 4) (h : PktHdr) (payload : List Byte) : State :=
  s.request k.val h payload (decide (payload.length = 4)) fun s =>
    ((s.mbxDoor (.link k h.tenant) h.tenant.val (BitVec.ofNat 32 (leNat payload))).1).answerOk k.val h

def execMbx (k : Fin 4) (h : PktHdr) (payload : List Byte) (s : State) : Out := run (fun s => s.mbxPkt k h payload) s

/-! ### The link layer -/

/-- LINK_RESET received (R603, R604). -/
def State.resetPkt (s : State) (k : Nat) (h : PktHdr) : State :=
  if s.linkIn then (s.heard k h.ack).linkReset k else s

def execLinkReset (k : Fin 4) (h : PktHdr) (s : State) : Out := run (fun s => s.resetPkt k.val h) s

/-- A header candidate that fails (R592). -/
def hdrBad (hdr : BitVec 64) : Bool :=
  decide (crc8 (leBytes 7 hdr.toNat) ≠ (hdr >>> 56).setWidth 8) || decide ((hdr.toNat >>> 40) % 1024 > 512) ||
    decide ((hdr.toNat >>> 14) % 4 ≠ 0) || decide ((hdr.toNat >>> 50) % 64 ≠ 0)

def hdrMark (hdr : BitVec 64) : Bool := decide ((hdr.toNat >>> 4) % 16 = 0xA)

/-- The header that starts a list of bytes. -/
def hdrAt (bytes : List Byte) : BitVec 64 := BitVec.ofNat 64 (leField bytes 0 8)

/-- The candidates that fail in a search through received bytes, which goes on at the byte after a failing candidate's
first and ends at a good header (R592). -/
def hdrFails : List Byte → Nat
  | [] => 0
  | b :: t =>
    if hdrMark (hdrAt (b :: t)) ∧ 7 ≤ t.length then (if hdrBad (hdrAt (b :: t)) then 1 + hdrFails t else 0)
    else hdrFails t

def State.hdrErr (s : State) (k : Nat) (bytes : List Byte) : State :=
  if s.linkIn then s.linkErrors k F.HL_CNT_HDR_CRC_HDR_ERR (hdrFails bytes) else s

def execHdrErr (k : Fin 4) (bytes : List Byte) (s : State) : Out := run (fun s => s.hdrErr k.val bytes) s

/-- A packet of good header whose frame line or trailer fails (R593). -/
def State.crcErr (s : State) (k : Nat) (bytes : List Byte) (frameLen : Nat) : State :=
  let hdr := hdrAt bytes
  let len := (hdr.toNat >>> 40) % 1024
  if !s.linkIn || !(hdrMark hdr) || hdrBad hdr then s
  else if !(s.link k).spi && decide (frameLen ≠ 12 + len) then
    (s.linkError k F.HL_CNT_FRM_GAP_FRAMING).sendNull k true
  else if crc32c (bytes.take (8 + len)) ≠ BitVec.ofNat 32 (leField bytes (8 + len) 4) then
    (s.linkError k F.HL_CNT_HDR_CRC_CRC_ERR).sendNull k true
  else s

def execCrcErr (k : Fin 4) (bytes : List Byte) (frameLen : Nat) (s : State) : Out :=
  run (fun s => s.crcErr k.val bytes frameLen) s

/-- A reserved or device-only type (R595). -/
def State.badType (s : State) (k : Nat) (h : PktHdr) (typ : Nat) : State :=
  if 6 ≤ typ ∧ typ ≤ 14 then s.receive k h fun s => s.answer k h 5 typ else s

def execBadtype (k : Fin 4) (h : PktHdr) (typ : BitVec 4) (s : State) : Out :=
  run (fun s => s.badType k.val h typ.toNat) s

/-- ACK_TIMEOUT (R600): `quiet` ns since a packet was accepted, with nothing sent. -/
def State.ackTimeout (s : State) (k quiet : Nat) : State :=
  if s.linkUp && (s.link k).ackDue && decide (10000 ≤ quiet) then s.sendNull k false else s

def execAckTimeout (k : Fin 4) (s : State) (quiet : Nat := 10000) : Out := run (fun s => s.ackTimeout k.val quiet) s

/-- REPLAY_TIMEOUT (R601). -/
def State.replayTimeout (s : State) (k : Nat) : State :=
  let l := s.link k
  if s.linkUp && decide (l.replay ≠ [] ∧ max 1 (s.f F.HL_CFG_REPLAY_FR k) ≤ l.noAck) then s.replayAll k else s

def execReplayTimeout (k : Fin 4) (s : State) : Out := run (fun s => s.replayTimeout k.val) s

/-- PAGE_PARTIAL (R619). -/
def State.pagePartial (s : State) (k : Nat) : State :=
  if s.linkUp && decide (max 1 (s.f F.HL_CFG_IDLE_FR k) ≤ (s.link k).idle) then s.partialPages k fun _ => true else s

def execPagePartial (k : Fin 4) (s : State) : Out := run (fun s => s.pagePartial k.val) s

/-- CS_N rises in SPI mode (R602): `received`, the bytes after the last whole packet that the device received; `sent`,
the bytes of waiting packets that the host has clocked out. A packet cut short stays in front for the next
transaction. -/
def State.csRise (s : State) (k : Nat) (received : List Byte) (sent : Nat) : State :=
  if s.linkIn && (s.link k).spi then
    let s1 := if skipFill received = [] then s else s.linkError k F.HL_CNT_FRM_GAP_FRAMING
    s1.setLink k ((s1.link k).sent (clockOut (s1.link k).wait sent))
  else s

def execCsNRise (k : Fin 4) (received : List Byte) (sent : Nat) (s : State) : Out :=
  run (fun s => s.csRise k.val received sent) s

def execHlCtlReset (m : Master) (k : Fin 4) (v : Word) (s : State) : Out :=
  run (fun s => s.regWrite m .HL_CTL k.val 0 (v ||| 1)) s

end Sys2Proof.Machine
end

