-- ==== Sys2Proof/Machine/Maint.lean ====
section
/-!
DEFINITION. Machine/Maint.lean: the I²C target (R627 to R635) and the JTAG port's ways into control space and core debug
(R449 to R453, R460, R637 to R639), as commands.
-/
namespace Sys2Proof.Machine

/-- Master code of the maintenance ports (R496). -/
def maintCode : Nat := 0x36

/-- A word read or written as T0 by a maintenance port, in control space or pond memory. -/
def State.maintRead (s : State) (m : Master) (a : Nat) : State × Option Word :=
  if 0x1000000 ≤ a then s.ctlRead m .word a
  else if a % 4 ≠ 0 ∨ !(s.pondOn a 4) then (s, none)
  else
    let r := s.pondRead maintCode 1 a 4
    (r.1, r.2.map fun bs => BitVec.ofNat 32 (leNat bs))

def State.maintWrite (s : State) (m : Master) (a : Nat) (v : Word) : State × Bool :=
  if 0x1000000 ≤ a then s.ctlWrite m .word a v
  else if a % 4 ≠ 0 ∨ !(s.pondOn a 4) then (s, true)
  else
    let r := s.pondWrite maintCode 1 a (leBytes 4 v.toNat)
    (r.1, !r.2)

/-! ### The I²C target -/

/-- The address byte with R or W (R627). -/
def State.i2cByte (s : State) (read : Bool) : Byte :=
  BitVec.ofNat 8 ((0x30 + s.f F.STRAP_STATUS_I2C_A) * 2 + if read then 1 else 0)

def State.setStat (s : State) (bits : BitVec 3) : State := { s with maint := { s.maint with stat := s.maint.stat ||| bits } }

/-- An access error of an I²C access (R633, R645, R646). -/
def State.i2cError (s : State) : State := (s.bump F.I2C_STATUS_ACC_ERR 1 none).raise 753

/-- A rejected write (R630). -/
def State.i2cReject (s : State) : State := ((s.bump F.I2C_STATUS_REJECTS 1 none).setStat 0b010).raise 752

/-- The PEC of a write: over the address byte and the eight bytes after it (R629, R630). -/
def State.i2cPec (s : State) (bytes : List Byte) : Byte := crc8 (s.i2cByte false :: bytes.take 8)

/-- What the target acknowledges of a write: its address, bytes 1 to 8, a ninth that is a correct PEC, and no more
(R628, R631). -/
def State.i2cAcks (s : State) (bytes : List Byte) : List Bool :=
  let live := s.masterLive .i2c
  live :: (List.range bytes.length).map fun i =>
    live && (decide (i < 8) || (decide (i = 8) && decide (bytes.getD 8 0 = s.i2cPec bytes)))

/-- I2C_WRITE: the bytes after the address with W, at P or Sr. -/
def State.i2cWrite (s : State) (bytes : List Byte) : State :=
  if !(s.masterLive .i2c) then s
  else if bytes.length ≠ 9 ∨ s.i2cPec bytes ≠ (bytes.getD 8 0) then s.i2cReject
  else
    let a := leField bytes 0 4
    let r := s.maintWrite .i2c a (BitVec.ofNat 32 (leField bytes 4 4))
    let s1 := r.1.seen .i2c 0 r.2
    if r.2 then (s1.setStat 0b100).i2cError else s1

def execI2cWrite (bytes : List Byte) (s : State) : Out := run (fun s => s.i2cWrite bytes) s

/-- I2C_READ (R632, R633). -/
def State.i2cRead (s : State) (addr : Word) : State :=
  if !(s.masterLive .i2c) then s
  else
    let r := s.maintRead .i2c addr.toNat
    let v := r.2.getD 0
    let err := r.2.isNone
    let stat : Byte := s.maint.stat.setWidth 8 ||| (if err then 1 else 0)
    let body := stat :: leBytes 4 v.toNat
    let pec := crc8 (s.i2cByte false :: leBytes 4 addr.toNat ++ s.i2cByte true :: body)
    let s1 := r.1.seen .i2c v err
    let s2 : State := { s1 with maint := { s1.maint with stat := 0, resp := body ++ [pec] } }
    if err then s2.i2cError else s2

def execI2cRead (addr : Word) (s : State) : Out := run (fun s => s.i2cRead addr) s

/-- I2C_ADDRESS_MATCH (R646, R679). -/
def State.i2cMatch (s : State) (addr : BitVec 7) : State :=
  if s.masterLive .i2c && decide (addr.toNat = 0x30 + s.f F.STRAP_STATUS_I2C_A) then (s.raise 754).wakeSource 9 else s

def execI2cAddressMatch (addr : BitVec 7) (s : State) : Out := run (fun s => s.i2cMatch addr) s

/-! ### JTAG data registers (R636, R639) -/

inductive JtagReg
  | boundary
  | idcode
  | bypass
  | csaAddr
  | csaData
  | dbgAddr
  | dbgData
  deriving DecidableEq, Repr

/-- The data register that an instruction selects. -/
def State.jtagSelect (s : State) (code : BitVec 5) : JtagReg :=
  match code.toNat with
  | 0 | 1 => .boundary
  | 2 => .idcode
  | 16 => if s.nvm.csaLock then .bypass else .csaAddr
  | 17 => if s.nvm.csaLock then .bypass else .csaData
  | 18 => .dbgAddr
  | 19 => .dbgData
  | _ => .bypass

/-- What a Capture-DR of CSA_DATA loads: the read data, BUSY and ERR. An access has ended with its command, so BUSY is
0. -/
def State.csaCapture (s : State) : BitVec 34 :=
  s.maint.csaData.setWidth 34 ||| (if s.maint.csaErr then 0x200000000 else 0)

/-- What a Capture-DR of IDCODE loads. -/
def State.idCapture (s : State) : Word := s.reg .ID_JTAG

/-! ### JTAG into control space -/

/-- CSA_ADDR at Update-DR: with WRITE = 0 a read (R637, R639). -/
def State.csaSelect (s : State) (dr : BitVec 33) : State :=
  if !(s.masterLive .jtag) then s
  else
    let a : Word := dr.setWidth 32
    if dr.getLsbD 32 then { s with maint := { s.maint with csaAddr := a, csaWrite := true } }
    else
      let r := s.maintRead .jtag a.toNat
      let v := r.2.getD 0
      let s1 := r.1.seen .jtag v r.2.isNone
      { s1 with maint := { s1.maint with csaAddr := a, csaWrite := false, csaData := v, csaErr := r.2.isNone } }

def execCsaAddr (dr : BitVec 33) (s : State) : Out := run (fun s => s.csaSelect dr) s

/-- CSA_DATA at Update-DR after a write address. -/
def State.csaPut (s : State) (v : Word) : State :=
  if s.masterLive .jtag && s.maint.csaWrite then
    let r := s.maintWrite .jtag s.maint.csaAddr.toNat v
    let s1 := r.1.seen .jtag 0 r.2
    { s1 with maint := { s1.maint with csaErr := r.2 } }
  else s

def execCsaData (v : Word) (s : State) : Out := run (fun s => s.csaPut v) s

/-! ### JTAG into a core -/

/-- The context that CORE_DBG_REG_SEL names. -/
def Core.dbgCtx (c : Core) : Ctx := if c.regSel.getLsbD 5 then c.hand else c.main
def Core.setDbgCtx (c : Core) (x : Ctx) : Core := if c.regSel.getLsbD 5 then { c with hand := x } else { c with main := x }

/-- A register as CORE_DBG_REG_DATA shows it while halted (R460). -/
def Core.dbgReg (c : Core) : Word :=
  let r := fieldOf c.regSel 0 5
  let x := c.dbgCtx
  if r = 4 then fWord x.f (c.regSel.getLsbD 5)
  else if r < 6 then x.byNum r
  else if r < 22 then (x.segAt (r - 6)).setWidth 32 else 0

def Core.dbgHigh (c : Core) : Word :=
  let r := fieldOf c.regSel 0 5
  if 6 ≤ r ∧ r < 22 then ((c.dbgCtx.segAt (r - 6)) >>> 32).setWidth 32 else 0

def Core.putDbgReg (c : Core) (v : Word) : Core :=
  let r := fieldOf c.regSel 0 5
  let x := c.dbgCtx
  if r < 6 then c.setDbgCtx (x.putNum r v)
  else if r < 22 then c.setDbgCtx (x.putSeg (r - 6) (((x.segAt (r - 6)) >>> 32).setWidth 32 ++ v)) else c

def Core.putDbgHigh (c : Core) (v : Word) : Core :=
  let r := fieldOf c.regSel 0 5
  let x := c.dbgCtx
  if 6 ≤ r ∧ r < 22 then c.setDbgCtx (x.putSeg (r - 6) (v ++ (x.segAt (r - 6)).setWidth 32)) else c

/-- The word that a fetch at the PC of a core finds: AON RAM's, a copy that the cache or the line buffer holds, or the
pond's (R409, R422). -/
def State.wordAtPc (s : State) (n : Nat) : Word :=
  let c := s.ctx n
  let a := addrOf (c.segAt 15) c.pc.toNat
  BitVec.ofNat 32 (leNat (
    if inAon n a then (List.range 4).map fun i => s.aonByte (a + i)
    else
      match (s.core n).copyOf n (a / 32) with
      | some bs => (bs.drop (a % 32)).take 4
      | none => s.bytes a 4))

/-- A write of CORE_DBG_CTL: HALT, STEP and RESUME, in that order. -/
def State.dbgCtl (s : State) (n : Nat) (v : Word) : State :=
  let s1 := if v.getLsbD 0 then
      (if (s.core n).st = .run then s.setCore n { s.core n with haltReq := true } else s.haltNow n)
    else s
  let s2 := if v.getLsbD 1 then s1.stepWord n (s1.wordAtPc n) else s1
  if v.getLsbD 2 then s2.resume n else s2

/-- A debug register read (R452, R460, R638): locked, only LOCKED shows. -/
def State.dbgRead (s : State) (n reg : Nat) : Word :=
  let c := s.core n
  if s.dbgLocked n then (if reg = 0 then 8 else 0)
  else if !(s.dbgOpen n) then 0
  else
    match reg with
    | 0 => if c.haltReq then 1 else 0
    | 5 => c.regSel
    | 6 => if c.st = .dbg then c.dbgReg else 0
    | 7 => if c.st = .dbg then c.dbgHigh else 0
    | r => if r ≤ 4 then tabGet (fun _ => (0 : Word)) c.bps (r - 1) else 0

/-- A debug register written. -/
def State.dbgWrite (s : State) (n reg : Nat) (v : Word) : State :=
  let c := s.core n
  if !(s.dbgOpen n) then s
  else
    match reg with
    | 0 => s.dbgCtl n v
    | 5 => s.setCore n { c with regSel := v &&& 0x3F }
    | 6 => if c.st = .dbg then s.setCore n (c.putDbgReg v) else s
    | 7 => if c.st = .dbg then s.setCore n (c.putDbgHigh v) else s
    | r => if r ≤ 4 then s.setCore n { c with bps := tabPut (fun _ => (0 : Word)) c.bps (r - 1) (v &&& 0xC0FFFFFC) } else s

/-- DBG_DATA: a read at Capture-DR or a write at Update-DR of the register that DBG_ADDR selects. -/
def State.dbgData (s : State) (n reg : Nat) (write : Option Word) : State :=
  if s.rst.held then s
  else
    match write with
    | some v => s.dbgWrite n reg v
    | none => { s with maint := { s.maint with dbgOut := s.dbgRead n reg } }

def execDbgData (n : Fin 17) (reg : BitVec 5) (write : Option Word) (s : State) : Out :=
  run (fun s => s.dbgData n.val reg.toNat write) s

end Sys2Proof.Machine
end

