-- ==== Sys2Proof/Machine/Dispatch.lean ====
section
/-! DEFINITION. Machine/Dispatch.lean: one arm per command, each one call of its meaning. -/
namespace Sys2Proof.Machine

def exec (i : Instr) (s : State) : Host.Outcome State Fault Refusal :=
  match i with
  | .registerWrite m size addr v => Sys2Proof.Machine.execRegisterWrite m size addr v s
  | .rcFieldRead m addr => Sys2Proof.Machine.execRcFieldRead m addr s
  | .frameBoundary din => Sys2Proof.Machine.execFrameBoundary din s
  | .secondBoundary => Sys2Proof.Machine.execSecondBoundary s
  | .commitApply => Sys2Proof.Machine.execCommitApply s
  | .fabCommitFrameWrite m v => Sys2Proof.Machine.execFabCommitFrameWrite m v s
  | .fabConnWrite m slot v => Sys2Proof.Machine.execFabConnWrite m slot v s
  | .fabSelWrite m k v => Sys2Proof.Machine.execFabSelWrite m k v s
  | .fabDiscard m v => Sys2Proof.Machine.execFabDiscard m v s
  | .rowPowerDown slot => Sys2Proof.Machine.execRowPowerDown slot s
  | .fabParInject m v => Sys2Proof.Machine.execFabParInject m v s
  | .captureArm m v => Sys2Proof.Machine.execCaptureArm m v s
  | .fabCaptureDone => Sys2Proof.Machine.execFabCaptureDone s
  | .dpllLoopWrite m v => Sys2Proof.Machine.execDpllLoopWrite m v s
  | .pllEnSet m v => Sys2Proof.Machine.execPllEnSet m v s
  | .oscSettleEnd cycles => Sys2Proof.Machine.execOscSettleEnd s cycles
  | .pllLockRise => Sys2Proof.Machine.execPllLockRise s
  | .pllEnClear m v => Sys2Proof.Machine.execPllEnClear m v s
  | .clkEftSrcWrite m v => Sys2Proof.Machine.execClkEftSrcWrite m v s
  | .clkOscFail quiet edges => Sys2Proof.Machine.execClkOscFail s quiet edges
  | .lockLost => Sys2Proof.Machine.execLockLost s
  | .frcMeasure hz => Sys2Proof.Machine.execFrcMeasure hz s
  | .sysTimeLoRead m => Sys2Proof.Machine.execSysTimeLoRead m s
  | .rtcLoRead m => Sys2Proof.Machine.execRtcLoRead m s
  | .rtcLoWrite m v => Sys2Proof.Machine.execRtcLoWrite m v s
  | .rtcHiWrite m v => Sys2Proof.Machine.execRtcHiWrite m v s
  | .dpllUpdate => Sys2Proof.Machine.execDpllUpdate s
  | .dpllLockDeclare => Sys2Proof.Machine.execDpllLockDeclare s
  | .dpllLockLoss => Sys2Proof.Machine.execDpllLockLoss s
  | .markerTimeout n => Sys2Proof.Machine.execMarkerTimeout n s
  | .freqWindowEnd n offset => Sys2Proof.Machine.execFreqWindowEnd n offset s
  | .wtrExpire n => Sys2Proof.Machine.execWtrExpire n s
  | .wtrClear m n v => Sys2Proof.Machine.execWtrClear m n v s
  | .refCandCfgWrite m n v => Sys2Proof.Machine.execRefCandCfgWrite m n v s
  | .histClr m v => Sys2Proof.Machine.execHistClr m v s
  | .losDeclare p zeros noClock => Sys2Proof.Machine.execLosDeclare p zeros noClock s
  | .losClear p clock window => Sys2Proof.Machine.execLosClear p clock window s
  | .aisPeriodEnd p zeros => Sys2Proof.Machine.execAisPeriodEnd p zeros s
  | .lineFrameReceived p pos neg phase => Sys2Proof.Machine.execLineFrameReceived p pos neg phase s
  | .multiframeSearchTimeout p => Sys2Proof.Machine.execMultiframeSearchTimeout p s
  | .nocrc4 p => Sys2Proof.Machine.execNocrc4 p s
  | .lineCntSecRead m p => Sys2Proof.Machine.execLineCntSecRead m p s
  | .trunkFrameReceived t bits phase => Sys2Proof.Machine.execTrunkFrameReceived t bits phase s
  | .trunkLosDeclare t quiet ppm => Sys2Proof.Machine.execTrunkLosDeclare t quiet ppm s
  | .trkCntSecRead m t => Sys2Proof.Machine.execTrkCntSecRead m t s
  | .audFrameWrite m p v => Sys2Proof.Machine.execAudFrameWrite m p v s
  | .audioUnderrun p => Sys2Proof.Machine.execAudioUnderrun p s
  | .audioOverrun p => Sys2Proof.Machine.execAudioOverrun p s
  | .audioRxBlock p => Sys2Proof.Machine.execAudioRxBlock p s
  | .audioTxBlockStart p => Sys2Proof.Machine.execAudioTxBlockStart p s
  | .hdlcFrameReceived c => Sys2Proof.Machine.execHdlcFrameReceived c s
  | .hdlcFrameTransmit c => Sys2Proof.Machine.execHdlcFrameTransmit c s
  | .hdlcEnable m c v => Sys2Proof.Machine.execHdlcEnable m c v s
  | .hdlcDisable m c v => Sys2Proof.Machine.execHdlcDisable m c v s
  | .pair n w => Sys2Proof.Machine.execPair n w s
  | .gaw n sm operand => Sys2Proof.Machine.execGaw n sm operand s
  | .gab n sm operand => Sys2Proof.Machine.execGab n sm operand s
  | .gah n sm operand => Sys2Proof.Machine.execGah n sm operand s
  | .gxw n sm operand => Sys2Proof.Machine.execGxw n sm operand s
  | .gyw n sm operand => Sys2Proof.Machine.execGyw n sm operand s
  | .paw n sm operand => Sys2Proof.Machine.execPaw n sm operand s
  | .pab n sm operand => Sys2Proof.Machine.execPab n sm operand s
  | .pah n sm operand => Sys2Proof.Machine.execPah n sm operand s
  | .pxw n sm operand => Sys2Proof.Machine.execPxw n sm operand s
  | .pyw n sm operand => Sys2Proof.Machine.execPyw n sm operand s
  | .add n sm operand => Sys2Proof.Machine.execAdd n sm operand s
  | .adc n sm operand => Sys2Proof.Machine.execAdc n sm operand s
  | .sub n sm operand => Sys2Proof.Machine.execSub n sm operand s
  | .sbc n sm operand => Sys2Proof.Machine.execSbc n sm operand s
  | .and n sm operand => Sys2Proof.Machine.execAnd n sm operand s
  | .or n sm operand => Sys2Proof.Machine.execOr n sm operand s
  | .xor n sm operand => Sys2Proof.Machine.execXor n sm operand s
  | .cmp n sm operand => Sys2Proof.Machine.execCmp n sm operand s
  | .seta n sm operand => Sys2Proof.Machine.execSeta n sm operand s
  | .setah n sm operand => Sys2Proof.Machine.execSetah n sm operand s
  | .setx n sm operand => Sys2Proof.Machine.execSetx n sm operand s
  | .sety n sm operand => Sys2Proof.Machine.execSety n sm operand s
  | .addi n sm operand => Sys2Proof.Machine.execAddi n sm operand s
  | .andi n sm operand => Sys2Proof.Machine.execAndi n sm operand s
  | .ori n sm operand => Sys2Proof.Machine.execOri n sm operand s
  | .xori n sm operand => Sys2Proof.Machine.execXori n sm operand s
  | .cmpi n sm operand => Sys2Proof.Machine.execCmpi n sm operand s
  | .shl n sm operand => Sys2Proof.Machine.execShl n sm operand s
  | .shr n sm operand => Sys2Proof.Machine.execShr n sm operand s
  | .sar n sm operand => Sys2Proof.Machine.execSar n sm operand s
  | .rol n sm operand => Sys2Proof.Machine.execRol n sm operand s
  | .jmp n sm operand => Sys2Proof.Machine.execJmp n sm operand s
  | .call n sm operand => Sys2Proof.Machine.execCall n sm operand s
  | .bCc n cc operand => Sys2Proof.Machine.execBCc n cc operand s
  | .ret n sm operand => Sys2Proof.Machine.execRet n sm operand s
  | .push n sm operand => Sys2Proof.Machine.execPush n sm operand s
  | .pop n sm operand => Sys2Proof.Machine.execPop n sm operand s
  | .nop n sm hi => Sys2Proof.Machine.execNop n sm hi s
  | .mvxa n sm hi => Sys2Proof.Machine.execMvxa n sm hi s
  | .mvya n sm hi => Sys2Proof.Machine.execMvya n sm hi s
  | .mvax n sm hi => Sys2Proof.Machine.execMvax n sm hi s
  | .mvay n sm hi => Sys2Proof.Machine.execMvay n sm hi s
  | .mvyx n sm hi => Sys2Proof.Machine.execMvyx n sm hi s
  | .mvxy n sm hi => Sys2Proof.Machine.execMvxy n sm hi s
  | .mvas n sm hi => Sys2Proof.Machine.execMvas n sm hi s
  | .mvsa n sm hi => Sys2Proof.Machine.execMvsa n sm hi s
  | .mvaf n sm hi => Sys2Proof.Machine.execMvaf n sm hi s
  | .mvfa n sm hi => Sys2Proof.Machine.execMvfa n sm hi s
  | .neg n sm hi => Sys2Proof.Machine.execNeg n sm hi s
  | .not n sm hi => Sys2Proof.Machine.execNot n sm hi s
  | .clrc n sm hi => Sys2Proof.Machine.execClrc n sm hi s
  | .setc n sm hi => Sys2Proof.Machine.execSetc n sm hi s
  | .ei n sm hi => Sys2Proof.Machine.execEi n sm hi s
  | .di n sm hi => Sys2Proof.Machine.execDi n sm hi s
  | .mulu n sm hi => Sys2Proof.Machine.execMulu n sm hi s
  | .muls n sm hi => Sys2Proof.Machine.execMuls n sm hi s
  | .divu n sm hi => Sys2Proof.Machine.execDivu n sm hi s
  | .divs n sm hi => Sys2Proof.Machine.execDivs n sm hi s
  | .jmpa n sm hi => Sys2Proof.Machine.execJmpa n sm hi s
  | .calla n sm hi => Sys2Proof.Machine.execCalla n sm hi s
  | .reti n sm hi => Sys2Proof.Machine.execReti n sm hi s
  | .wce n sm operand => Sys2Proof.Machine.execWce n sm operand s
  | .wsel n sm operand => Sys2Proof.Machine.execWsel n sm operand s
  | .qget n sm operand => Sys2Proof.Machine.execQget n sm operand s
  | .qput n sm operand => Sys2Proof.Machine.execQput n sm operand s
  | .sld n sm operand => Sys2Proof.Machine.execSld n sm operand s
  | .cmt n sm operand => Sys2Proof.Machine.execCmt n sm operand s
  | .wev n sm operand => Sys2Proof.Machine.execWev n sm operand s
  | .mrd n sm operand => Sys2Proof.Machine.execMrd n sm operand s
  | .mwr n sm operand => Sys2Proof.Machine.execMwr n sm operand s
  | .interruptAccept n => Sys2Proof.Machine.execInterruptAccept n s
  | .prefetchComplete n => Sys2Proof.Machine.execPrefetchComplete n s
  | .icacheLoad m n v => Sys2Proof.Machine.execIcacheLoad m n v s
  | .icacheLoadDone n => Sys2Proof.Machine.execIcacheLoadDone n s
  | .icacheInv m n v => Sys2Proof.Machine.execIcacheInv m n v s
  | .coreRestart m n v => Sys2Proof.Machine.execCoreRestart m n v s
  | .debugHalt n => Sys2Proof.Machine.execDebugHalt n s
  | .debugStep n w => Sys2Proof.Machine.execDebugStep n w s
  | .debugResume n => Sys2Proof.Machine.execDebugResume n s
  | .eventDelivery => Sys2Proof.Machine.execEventDelivery s
  | .aonEventRelease => Sys2Proof.Machine.execAonEventRelease s
  | .scrubLine => Sys2Proof.Machine.execScrubLine s
  | .bankReady b => Sys2Proof.Machine.execBankReady b s
  | .pondEccInject m v => Sys2Proof.Machine.execPondEccInject m v s
  | .eccInjectFlip => Sys2Proof.Machine.execEccInjectFlip s
  | .tenantStart m t v => Sys2Proof.Machine.execTenantStart m t v s
  | .tailShedRequest m t v => Sys2Proof.Machine.execTailShedRequest m t v s
  | .tailShed => Sys2Proof.Machine.execTailShed s
  | .tenantReturn m t v => Sys2Proof.Machine.execTenantReturn m t v s
  | .tenantStop m t v => Sys2Proof.Machine.execTenantStop m t v s
  | .qEnable m q v => Sys2Proof.Machine.execQEnable m q v s
  | .qDisable m q v => Sys2Proof.Machine.execQDisable m q v s
  | .qsumClear m g w v => Sys2Proof.Machine.execQsumClear m g w v s
  | .tenMbxDoor m t v => Sys2Proof.Machine.execTenMbxDoor m t v s
  | .counterOverflow c => Sys2Proof.Machine.execCounterOverflow c s
  | .overflowHoldEnd c => Sys2Proof.Machine.execOverflowHoldEnd c s
  | .perfCntLoRead m c => Sys2Proof.Machine.execPerfCntLoRead m c s
  | .perfCntLoWrite m c v => Sys2Proof.Machine.execPerfCntLoWrite m c v s
  | .perfCntHiWrite m c v => Sys2Proof.Machine.execPerfCntHiWrite m c v s
  | .perfCtlWrite m c v => Sys2Proof.Machine.execPerfCtlWrite m c v s
  | .pcSampleCapture n k => Sys2Proof.Machine.execPcSampleCapture n k s
  | .sampleWrite => Sys2Proof.Machine.execSampleWrite s
  | .sbufEnable m n v => Sys2Proof.Machine.execSbufEnable m n v s
  | .null k h => Sys2Proof.Machine.execNull k h s
  | .qputPacket k h payload => Sys2Proof.Machine.execQputPacket k h payload s
  | .qread k h payload => Sys2Proof.Machine.execQread k h payload s
  | .ctlRd k h payload => Sys2Proof.Machine.execCtlRd k h payload s
  | .ctlWr k h payload => Sys2Proof.Machine.execCtlWr k h payload s
  | .mbx k h payload => Sys2Proof.Machine.execMbx k h payload s
  | .linkReset k h => Sys2Proof.Machine.execLinkReset k h s
  | .hdrErr k bytes => Sys2Proof.Machine.execHdrErr k bytes s
  | .crcErr k bytes frameLen => Sys2Proof.Machine.execCrcErr k bytes frameLen s
  | .badtype k h typ => Sys2Proof.Machine.execBadtype k h typ s
  | .ackTimeout k quiet => Sys2Proof.Machine.execAckTimeout k s quiet
  | .replayTimeout k => Sys2Proof.Machine.execReplayTimeout k s
  | .pagePartial k => Sys2Proof.Machine.execPagePartial k s
  | .heldEntryPut k => Sys2Proof.Machine.execHeldEntryPut k s
  | .csNRise k received sent => Sys2Proof.Machine.execCsNRise k received sent s
  | .hlCtlReset m k v => Sys2Proof.Machine.execHlCtlReset m k v s
  | .i2cWrite bytes => Sys2Proof.Machine.execI2cWrite bytes s
  | .i2cRead addr => Sys2Proof.Machine.execI2cRead addr s
  | .csaAddr dr => Sys2Proof.Machine.execCsaAddr dr s
  | .csaData v => Sys2Proof.Machine.execCsaData v s
  | .dbgData n reg write => Sys2Proof.Machine.execDbgData n reg write s
  | .domainPowerUp m v => Sys2Proof.Machine.execDomainPowerUp m v s
  | .domainPowerGood d => Sys2Proof.Machine.execDomainPowerGood d s
  | .padRelease m v => Sys2Proof.Machine.execPadRelease m v s
  | .pwrBudgetWrite m t v => Sys2Proof.Machine.execPwrBudgetWrite m t v s
  | .torporEntry => Sys2Proof.Machine.execTorporEntry s
  | .torporWake => Sys2Proof.Machine.execTorporWake s
  | .torporCoreStart => Sys2Proof.Machine.execTorporCoreStart s
  | .brumationEntry => Sys2Proof.Machine.execBrumationEntry s
  | .brumationWake src => Sys2Proof.Machine.execBrumationWake src s
  | .pwrCmp k mv cycles => Sys2Proof.Machine.execPwrCmp k mv cycles s
  | .pwrRtcAlarm => Sys2Proof.Machine.execPwrRtcAlarm s
  | .pwrRtcAlarmLoWrite m v => Sys2Proof.Machine.execPwrRtcAlarmLoWrite m v s
  | .pwrRtcAlarmHiWrite m v => Sys2Proof.Machine.execPwrRtcAlarmHiWrite m v s
  | .linkActivity k => Sys2Proof.Machine.execLinkActivity k s
  | .i2cAddressMatch addr => Sys2Proof.Machine.execI2cAddressMatch addr s
  | .por => Sys2Proof.Machine.execPor s
  | .pinReset cycles => Sys2Proof.Machine.execPinReset cycles s
  | .softReset m v => Sys2Proof.Machine.execSoftReset m v s
  | .thermalReset waited => Sys2Proof.Machine.execThermalReset s waited
  | .resetRelease i2cA bootHold testMode cycles => Sys2Proof.Machine.execResetRelease i2cA bootHold testMode s cycles
  | .wdtKick m v => Sys2Proof.Machine.execWdtKick m v s
  | .wdtWarn units => Sys2Proof.Machine.execWdtWarn s units
  | .wdt units => Sys2Proof.Machine.execWdt s units
  | .nvRead m => Sys2Proof.Machine.execNvRead m s
  | .nvBlock m => Sys2Proof.Machine.execNvBlock m s
  | .nvPage m => Sys2Proof.Machine.execNvPage m s
  | .nvErase m => Sys2Proof.Machine.execNvErase m s
  | .nvMargin m => Sys2Proof.Machine.execNvMargin m s
  | .xfRead m => Sys2Proof.Machine.execXfRead m s
  | .xfBlock m => Sys2Proof.Machine.execXfBlock m s
  | .xfPage m => Sys2Proof.Machine.execXfPage m s
  | .xfErase m => Sys2Proof.Machine.execXfErase m s
  | .nvmDone fault => Sys2Proof.Machine.execNvmDone fault s
  | .xfDiscovery sfdp => Sys2Proof.Machine.execXfDiscovery sfdp s
  | .imageCheck m v => Sys2Proof.Machine.execImageCheck m v s
  | .updDone => Sys2Proof.Machine.execUpdDone s
  | .updKeyprog m v => Sys2Proof.Machine.execUpdKeyprog m v s
  | .updRevoke m v => Sys2Proof.Machine.execUpdRevoke m v s
  | .keyDone => Sys2Proof.Machine.execKeyDone s
  | .panelEnable m v => Sys2Proof.Machine.execPanelEnable m v s
  | .panelDisable m v => Sys2Proof.Machine.execPanelDisable m v s
  | .panelScanStart => Sys2Proof.Machine.execPanelScanStart s
  | .panelRowPeriod cycles => Sys2Proof.Machine.execPanelRowPeriod s cycles
  | .pnlDescSubmit m k v => Sys2Proof.Machine.execPnlDescSubmit m k v s
  | .pnlDescStart k => Sys2Proof.Machine.execPnlDescStart k s
  | .panelEngineAccess => Sys2Proof.Machine.execPanelEngineAccess s
  | .controlTick => Sys2Proof.Machine.execControlTick s
  | .thConversion n raw => Sys2Proof.Machine.execThConversion n raw s
  | .dieConversion code => Sys2Proof.Machine.execDieConversion code s
  | .thermalRelease => Sys2Proof.Machine.execThermalRelease s
  | .fanModeWrite m k v => Sys2Proof.Machine.execFanModeWrite m k v s
  | .alignEnd k => Sys2Proof.Machine.execAlignEnd k s
  | .rampTimeout k => Sys2Proof.Machine.execRampTimeout k s
  | .rampPauseEnd k => Sys2Proof.Machine.execRampPauseEnd k s
  | .bemfZeroCrossing k interval at_ => Sys2Proof.Machine.execBemfZeroCrossing k interval at_ s
  | .commutationTimeout k quiet => Sys2Proof.Machine.execCommutationTimeout k s quiet
  | .stallRetry k => Sys2Proof.Machine.execStallRetry k s
  | .kickEnd k => Sys2Proof.Machine.execKickEnd k s
  | .tachEdge k period => Sys2Proof.Machine.execTachEdge k period s
  | .tachTimeout k => Sys2Proof.Machine.execTachTimeout k s
  | .ageStart m k v => Sys2Proof.Machine.execAgeStart m k v s
  | .ageDone k => Sys2Proof.Machine.execAgeDone k s
  | .ageTimeout k => Sys2Proof.Machine.execAgeTimeout k s
  | .trunkLosClear t ppm quiet => Sys2Proof.Machine.execTrunkLosClear t ppm quiet s
  | .phaseMarker n mark err => Sys2Proof.Machine.execPhaseMarker n mark s err
  | .refinDefect n bits fas => Sys2Proof.Machine.execRefinDefect n bits fas s
  | .domainPowerDown m v => Sys2Proof.Machine.execDomainPowerDown m v s
  | .illegalOp n w => Sys2Proof.Machine.execIllegalOp n w s

end Sys2Proof.Machine
end

