-- ==== Sys2Proof/Machine/Step.lean ====
section
/-!
DEFINITION. Machine/Step.lean: one step takes the command at the front of the queue; on an empty queue one period of
the 32.768 kHz clock passes (log entry 4).
-/
namespace Sys2Proof.Machine

/-- While the derived clocks stand still the eft's counters go on with the cycles of its clock that its instructions did
not take (R557): 473 to 503 FRC cycles in a period, a free number (R71). -/
def State.eftPeriod (s : State) : State :=
  if s.corePg 16 ∧ s.divRun = false ∧ s.rst.held = false then
    let r := s.free
    let n := 473 + r.1 % 31
    let s1 := (r.2.spend 16 0 (n - (r.2.core 16).fcyc) []).wrapBlock 16
    s1.setCore 16 { s1.core 16 with fcyc := (s1.core 16).fcyc - n }
  else s

/-- One period of the 32.768 kHz clock with no command: RTC advances (R76). -/
def State.tick (s : State) : State := { s.eftPeriod with rtc := s.rtc + 1 }

def step (s : State) : Host.Outcome State Fault Refusal :=
  match s.pending with
  | [] => .next s.tick
  | c :: rest => exec c { s with pending := rest }

/-- No word spells a command, so nothing is put in front of the queue. -/
def State.withFetchWord (s : State) (nbits w : Nat) : State :=
  match decodeTableWord nbits w with
  | some c => { s with pending := c :: s.pending }
  | none => s

end Sys2Proof.Machine
end

