-- ==== Sys2Proof/WellFormed.lean ====
section
/-!
DEFINITION. WellFormed.lean: the operands that a command can have. Types bound most of them; what is left are
lengths of received packets and frames (R589, R592), packet types (R595), a crossing's place in its step (R796) and
the faults that a flash can report (R724). A meaning does not rely on it: every command has its effect on any operand.
-/
namespace Sys2Proof

/-- A packet's payload has at most 512 bytes (R589). -/
def payloadOk (p : List Byte) : Bool := decide (p.length ≤ 512)

/-- The check, command by command. -/
def Instr.wellFormed (i : Instr) : Bool :=
  match i with
  | .registerWrite .. | .rcFieldRead .. => true
  | .frameBoundary din => decide (din.length ≤ 8)
  | .secondBoundary | .commitApply | .fabCommitFrameWrite .. | .fabConnWrite .. | .fabSelWrite ..
  | .fabDiscard .. | .rowPowerDown .. | .fabParInject .. | .captureArm .. | .fabCaptureDone
  | .dpllLoopWrite .. | .pllEnSet .. | .oscSettleEnd .. | .pllLockRise | .pllEnClear .. | .clkEftSrcWrite ..
  | .clkOscFail .. | .lockLost | .frcMeasure .. | .sysTimeLoRead .. | .rtcLoRead .. | .rtcLoWrite ..
  | .rtcHiWrite .. | .dpllUpdate | .dpllLockDeclare | .dpllLockLoss | .markerTimeout ..
  | .freqWindowEnd .. | .wtrExpire .. | .wtrClear .. | .refCandCfgWrite .. | .histClr .. | .losDeclare ..
  | .losClear .. | .aisPeriodEnd .. | .lineFrameReceived .. | .multiframeSearchTimeout .. | .nocrc4 ..
  | .lineCntSecRead .. | .trunkFrameReceived .. | .trunkLosDeclare .. | .trkCntSecRead .. | .audFrameWrite ..
  | .audioUnderrun .. | .audioOverrun .. | .audioRxBlock .. | .audioTxBlockStart .. | .hdlcFrameReceived ..
  | .hdlcFrameTransmit .. | .hdlcEnable .. | .hdlcDisable .. | .pair .. | .gaw .. | .gab .. | .gah .. | .gxw ..
  | .gyw .. | .paw .. | .pab .. | .pah .. | .pxw .. | .pyw .. | .add .. | .adc .. | .sub .. | .sbc .. | .and ..
  | .or .. | .xor .. | .cmp .. | .seta .. | .setah .. | .setx .. | .sety .. | .addi .. | .andi .. | .ori ..
  | .xori .. | .cmpi .. | .shl .. | .shr .. | .sar .. | .rol .. | .jmp .. | .call .. | .bCc .. | .ret ..
  | .push .. | .pop .. | .nop .. | .mvxa .. | .mvya .. | .mvax .. | .mvay .. | .mvyx .. | .mvxy .. | .mvas ..
  | .mvsa .. | .mvaf .. | .mvfa .. | .neg .. | .not .. | .clrc .. | .setc .. | .ei .. | .di .. | .mulu ..
  | .muls .. | .divu .. | .divs .. | .jmpa .. | .calla .. | .reti .. | .wce .. | .wsel .. | .qget .. | .qput ..
  | .sld .. | .cmt .. | .wev .. | .mrd .. | .mwr .. | .interruptAccept .. | .prefetchComplete ..
  | .icacheLoad .. | .icacheLoadDone .. | .icacheInv .. | .coreRestart .. | .debugHalt .. | .debugStep ..
  | .debugResume .. | .eventDelivery | .aonEventRelease | .scrubLine | .bankReady ..
  | .pondEccInject .. | .eccInjectFlip | .tenantStart .. | .tailShedRequest .. | .tailShed
  | .tenantReturn .. | .tenantStop .. | .qEnable .. | .qDisable .. | .qsumClear .. | .tenMbxDoor ..
  | .counterOverflow .. | .overflowHoldEnd .. | .perfCntLoRead .. | .perfCntLoWrite .. | .perfCntHiWrite ..
  | .perfCtlWrite .. | .pcSampleCapture .. | .sampleWrite | .sbufEnable .. | .null .. => true
  | .qputPacket _ _ p => payloadOk p
  | .qread _ _ p => payloadOk p
  | .ctlRd _ _ p => payloadOk p
  | .ctlWr _ _ p => payloadOk p
  | .mbx _ _ p => payloadOk p
  | .linkReset .. => true
  | .hdrErr _ bytes => decide (8 ≤ bytes.length ∧ bytes.length ≤ 524 ∧ (bytes.getD 0 0).toNat / 16 = 0xA)
  | .crcErr _ bytes _ => decide (bytes.length ≤ 524)
  | .badtype _ _ typ => decide (6 ≤ typ.toNat ∧ typ.toNat ≤ 14)
  | .ackTimeout .. | .replayTimeout .. | .pagePartial .. | .heldEntryPut .. | .csNRise .. | .hlCtlReset ..
  | .i2cWrite .. | .i2cRead .. | .csaAddr .. | .csaData .. | .dbgData .. | .domainPowerUp ..
  | .domainPowerGood .. | .padRelease .. | .pwrBudgetWrite .. | .torporEntry | .torporWake
  | .torporCoreStart | .brumationEntry | .brumationWake .. | .pwrCmp .. | .pwrRtcAlarm
  | .pwrRtcAlarmLoWrite .. | .pwrRtcAlarmHiWrite .. | .linkActivity .. | .i2cAddressMatch .. | .por
  | .pinReset .. | .softReset .. | .thermalReset .. | .resetRelease .. | .wdtKick .. | .wdtWarn .. | .wdt ..
  | .nvRead .. | .nvBlock .. | .nvPage .. | .nvErase .. | .nvMargin .. | .xfRead .. | .xfBlock .. | .xfPage ..
  | .xfErase .. => true
  | .nvmDone fault => decide (fault = none ∨ fault = some 6 ∨ fault = some 8)
  | .xfDiscovery .. | .imageCheck .. | .updDone | .updKeyprog .. | .updRevoke .. | .keyDone
  | .panelEnable .. | .panelDisable .. | .panelScanStart | .panelRowPeriod .. | .pnlDescSubmit ..
  | .pnlDescStart .. | .panelEngineAccess | .controlTick | .thConversion .. | .dieConversion ..
  | .thermalRelease | .fanModeWrite .. | .alignEnd .. | .rampTimeout .. | .rampPauseEnd .. => true
  | .bemfZeroCrossing _ interval at_ => decide (at_ ≤ interval)
  | .commutationTimeout .. | .stallRetry .. | .kickEnd .. | .tachEdge .. | .tachTimeout .. | .ageStart ..
  | .ageDone .. | .ageTimeout .. | .trunkLosClear .. | .phaseMarker .. | .refinDefect .. | .domainPowerDown ..
  | .illegalOp .. => true

end Sys2Proof
end

