-- ==== Sys2Proof/Safety.lean ====
section
/-!
DEFINITION. Safety.lean: the terms in which claims speak of commands: how a command ends, which parts of the machine
and which registers it leaves as they were, when an access or an instruction is served, and what holds after every
command (R515, R655, R659, R660).
-/
namespace Sys2Proof.Machine

/-- The command `c` ends in a next state, and that state has `P`. -/
def Ends (c : Instr) (s : State) (P : State → Prop) : Prop := ∃ t, exec c s = .next t ∧ P t

/-! ### What a command leaves as it was -/

/-- The parts of the machine. -/
inductive Part where
  | time | rtc | regs | latches | changes | commits | fabric | clocks | ref | lines | trunks | audio | hdlc | cores
  | tenants | queues | events | pend | counters | links | maint | power | reset | nvm | panel | thermal | mem | aon
  | ecc | scrub | last | free
  deriving DecidableEq, Repr

/-- A part of `t` is as it was in `s`. -/
def Part.same (p : Part) (s t : State) : Prop :=
  match p with
  | .time => t.frame = s.frame ∧ t.sys = s.sys ∧ t.ticks = s.ticks ∧ t.secDone = s.secDone
  | .rtc => t.rtc = s.rtc
  | .regs => t.regs = s.regs
  | .latches => t.latches = s.latches
  | .changes => t.chg = s.chg
  | .commits => t.commits = s.commits ∧ t.nextId = s.nextId
  | .fabric => t.fab = s.fab
  | .clocks => t.clk = s.clk
  | .ref => t.cands = s.cands ∧ t.dpll = s.dpll
  | .lines => t.lines = s.lines
  | .trunks => t.trunks = s.trunks ∧ t.pairs = s.pairs
  | .audio => t.audio = s.audio
  | .hdlc => t.hdlc = s.hdlc
  | .cores => t.cores = s.cores
  | .tenants => t.tenants = s.tenants
  | .queues => t.queues = s.queues
  | .events => t.raised = s.raised ∧ t.held = s.held
  | .pend => t.pend = s.pend
  | .counters => t.pctrs = s.pctrs
  | .links => t.links = s.links
  | .maint => t.maint = s.maint
  | .power => t.pwr = s.pwr
  | .reset => t.rst = s.rst
  | .nvm => t.nvm = s.nvm
  | .panel => t.pnl = s.pnl
  | .thermal => t.th = s.th
  | .mem => t.mem = s.mem
  | .aon => t.aon = s.aon
  | .ecc => t.ecc = s.ecc ∧ t.eccJobs = s.eccJobs ∧ t.ceGrown = s.ceGrown ∧ t.ueNew = s.ueNew
  | .scrub => t.scrub = s.scrub
  | .last => t.last = s.last
  | .free => t.freeCtr = s.freeCtr

/-- Every part but those listed is as it was. -/
def Kept (but : List Part) (s t : State) : Prop := ∀ p : Part, p ∉ but → p.same s t

/-- PWR_STATUS and QSUM, which the logic that follows every command drives (R515, R655, R660). -/
abbrev settles (a : Nat) : Prop := a = 0x01200004 ∨ (0x011C4000 ≤ a ∧ a < 0x011C4800)

/-- Every register but those at the addresses listed, PWR_STATUS and QSUM reads as it did. -/
def RegsKept (but : List Nat) (s t : State) : Prop :=
  ∀ (d : Nat → Word) (a : Nat), a ∉ but → ¬settles a → tabGet d t.regs a = tabGet d s.regs a

/-- Events that the logic after every command may raise: STATE, BRUM_CAPPED and ALLOWED change (R655, R659), and queue
summaries (R515). -/
abbrev settleEvent (n : Nat) : Prop := n = 789 ∨ n = 791 ∨ n = 792 ∨ (908 ≤ n ∧ n < 972)

/-- Just these events are raised, in this order, beside those of the logic after every command; and no other is held
for the router. -/
def NewEvents (es : List Raised) (s t : State) : Prop :=
  (∃ l, (∀ e ∈ l, settleEvent e.num) ∧ t.raised = s.raised ++ es ++ l) ∧ ∀ n ∈ t.held, n ∈ s.held ∨ settleEvent n

/-- A command changes the parts and the registers listed, raises the events listed, and does nothing else. -/
structure Only (but : List Part) (regs : List Nat) (es : List Raised) (s t : State) : Prop where
  kept : Kept (but ++ [.regs, .events]) s t
  regs : RegsKept regs s t
  events : NewEvents es s t

/-- An event that is raised in this frame for no tenant by name. -/
def State.ev (s : State) (n : Nat) : Raised := ⟨n, none, s.frame⟩

/-! ### Register accesses -/

/-- A register has an instance with these numbers. -/
abbrev RegKind.has (k : RegKind) (i j : Nat) : Prop := i < k.info.n1 ∧ j < k.info.n2

/-- A write of a register by a master is served: the master can issue it (R448, R624, R635, R637), the register's
domain is powered and clocked (R838), and the tenant it acts for has the right (R503). -/
abbrev CanWrite (m : Master) (k : RegKind) (i j : Nat) (s : State) : Prop :=
  s.masterLive m = true ∧ s.reach ⟨k, i, j, false⟩ = true ∧ s.mayWrite m ⟨k, i, j, false⟩ = true

/-- A read of a register by a master is served. -/
abbrev CanRead (m : Master) (k : RegKind) (i j : Nat) (s : State) : Prop :=
  s.masterLive m = true ∧ s.reach ⟨k, i, j, false⟩ = true ∧ s.mayRead m ⟨k, i, j, false⟩ = true

/-- The answer that the last access gave: the value read (0 for a write) and whether it was an access error (R5, R6). -/
abbrev Answered (m : Master) (v : Word) (err : Bool) (t : State) : Prop := t.last = ⟨m.id, v, err⟩

/-- The addresses of all instances of registers. -/
def regsOf (ks : List RegKind) : List Nat :=
  ks.flatMap fun k => (List.range k.info.n1).flatMap fun i => (List.range k.info.n2).map fun j => k.addr i j

/-- Registers of which a write changes the register and nothing else (R847): those that the rules give no action. -/
def plainRegs : List RegKind :=
  [.CLK_ROOT_STATUS, .REF_SEL_CTL, .REF_INPUT_CTL, .DPLL_LOCK_CTL, .DPLL_FREERUN_CAL, .REF_TABLE_PRIO, .REF_TABLE_CTL,
    .FAB_PAR_STATUS, .FAB_TONE_CTL, .FAB_PAT_CTL, .FAB_TONE_RAM, .LINE_RX_CFG, .LINE_STATUS, .TRK_RX_CFG, .TRK_STATUS,
    .TRK_OWNER, .TRK_EXP_TRACE, .AUD_STATUS, .AUD_OWNER, .HDLC_CH_STATUS, .HDLC_CH_OWNER, .TEN_MBX_INFO,
    .TEN_MBX_ALLOW, .TEN_SEG_W0, .TEN_SEG_W1, .CORE_START, .CORE_FAULT_INFO, .CORE_ICACHE_LOAD_BASE, .CORE_MBX_TX,
    .PERF_GLOBAL, .PERF_STATUS, .PERF_SBUF_BASE, .PERF_SBUF_RD, .PERF_SBUF_LOST, .FPERF_GLOBAL, .FPERF_STATUS, .PWR_CTL,
    .PWR_WAKE_EN, .PWR_WAKE_CAUSE, .PWR_RTC_ALARM_LO, .POND_BANK_TORPOR, .POND_BANK_BRUM, .POND_SCRUB_CTL,
    .POND_ECC_UE_INFO, .PNL_DRIVE, .PNL_STATUS, .PNL_DESC_SRC, .PNL_DESC_RECT, .PNL_OD, .PNL_RAM, .HL_CFG, .HL_STATUS,
    .I2C_CFG, .NVM_ADDR, .NVM_POND, .NVM_LEN, .NVM_CRC_IN, .NVM_JNEXT, .NVM_JSEQ, .UPD_MAN, .UPD_PAY, .UPD_STATUS,
    .UPD_REPORT, .UPD_KEY_DATA, .UPD_TKEY, .RST_CAUSE, .WDT_CTL]

/-- Registers with RC fields of which a read does no more than R9 says. -/
def rcRegs : List RegKind :=
  [.FAB_PAR_COUNT, .FAB_PAT_ERR, .AUD_UNDER_CNT, .AUD_OVER_CNT, .HDLC_CNT_RX_FRAMES, .HDLC_CNT_TX_FRAMES,
    .HDLC_CNT_FCS_ABORT, .HDLC_CNT_SHORT_LONG, .HDLC_CNT_ALIGN_NOBUF, .HDLC_CNT_TXERR, .EVR_MERGED, .CORE_FAULT_INFO,
    .PERF_SBUF_LOST, .POND_ECC_CE_COUNT, .POND_ECC_UE_COUNT, .FAN_STALLS, .HL_CNT_HDR_CRC, .HL_CNT_FRM_GAP,
    .HL_CNT_DUP_BOUND, .HL_CNT_PARTIAL, .I2C_STATUS]

/-- The registers in which reads of pond memory count and record errors (R477, R495). -/
def eccRegs : List Nat :=
  [RegKind.POND_ECC_CE_COUNT.addr 0 0, RegKind.POND_ECC_UE_COUNT.addr 0 0, RegKind.POND_ECC_UE_ADDR.addr 0 0,
    RegKind.POND_ECC_UE_INFO.addr 0 0]

/-- A saturating count of a field goes up by one. -/
def Counted (f : FieldRef) (i : Nat) (s t : State) : Prop := t.f f i = min (s.f f i + 1) (2 ^ f.w - 1)

/-- The bytes listed stand at an address, and every other byte of pond memory is as it was. -/
def Placed (a : Nat) (bs : List Byte) (s t : State) : Prop :=
  ∀ b, t.byte b = if a ≤ b ∧ b < a + bs.length then bs.getD (b - a) 0 else s.byte b

/-- No word that a range touches is uncorrectable. -/
abbrev NoUe (a len : Nat) (s : State) : Prop := ∀ w ∈ wordsOf a len, (s.eccOf w).ue = false

/-! ### Instructions of a core -/

/-- Registers that the cycles of core `n` may change beside what its instructions do: the counts of corrected and
uncorrectable words (R477, R495), the state of its cache load (R424) and its counters' overflow bits (R566). -/
def bookRegs (n : Nat) : List Nat :=
  [RegKind.POND_ECC_CE_COUNT.addr 0 0, RegKind.POND_ECC_UE_COUNT.addr 0 0, RegKind.POND_ECC_UE_ADDR.addr 0 0,
    RegKind.POND_ECC_UE_INFO.addr 0 0, RegKind.CORE_ICACHE_LOAD.addr n 0, RegKind.PERF_STATUS.addr n 0]

/-- A core executes the instruction at its PC next, and the fetch of it succeeds: it runs, no interrupt comes first, no
debugger stops it, or it goes on inside an instruction that a clock stop interrupted (R431, R449, R854, R367, R415). -/
def Executes (n : Nat) (s : State) : Prop :=
  s.canRun n = true ∧
    ((s.core n).part ≠ 0 ∨ (s.core n).haltReq = false ∧ ((s.core n).breaks = false ∨ (s.core n).bpSkip = true)) ∧
    ∃ u k, s.fetch n = (u, .ok k)

/-- The context that a core does not execute in. -/
def Core.otherCtx (c : Core) : Ctx := if c.inHandler then c.main else c.hand

/-- What of core `n` no instruction of its own changes but those that name it: whether it runs, its context register,
the other context and the debugger's registers. -/
def CoreKept (n : Nat) (s t : State) : Prop :=
  (t.core n).st = (s.core n).st ∧ (t.core n).inHandler = (s.core n).inHandler ∧
    (t.core n).otherCtx = (s.core n).otherCtx ∧ (t.core n).haltReq = (s.core n).haltReq ∧
    (t.core n).bps = (s.core n).bps ∧ (t.core n).regSel = (s.core n).regSel ∧ (t.core n).restart = (s.core n).restart ∧
    (t.core n).startAt = (s.core n).startAt ∧ (t.core n).wasRun = (s.core n).wasRun ∧ (t.core n).seq = (s.core n).seq

/-- Every part but the registers, events, cores, counters, check bits, the count of free values (an interrupted
instruction takes one, R854) and the parts listed is as it was; every register but those of `bookRegs`, PWR_STATUS and
QSUM; and every other core. -/
structure Around (but : List Part) (n : Nat) (s t : State) : Prop where
  kept : Kept (but ++ [.regs, .events, .cores, .counters, .ecc, .free]) s t
  regs : RegsKept (bookRegs n) s t
  others : ∀ m, m ≠ n → t.core m = s.core m

/-- An instruction of core `n` completes with its context `c`, and leaves all else but the parts listed. -/
structure Completes (but : List Part) (n : Nat) (s t : State) (c : Ctx) : Prop where
  around : Around but n s t
  core : CoreKept n s t
  ctx : t.ctx n = c

/-! ### Flags and memory, as claims speak of them -/

/-- C, Z, N and V as given, and IE as it was (R346). -/
def flagsOf (f : BitVec 5) (c z n v : Bool) : BitVec 5 :=
  BitVec.ofBool (f.getLsbD 4) ++ (BitVec.ofBool v ++ (BitVec.ofBool n ++ (BitVec.ofBool z ++ BitVec.ofBool c)))

/-- Z and N of a result, C and V as they were (R390). -/
def flagsZN (f : BitVec 5) (r : Word) : BitVec 5 := flagsOf f (f.getLsbD 0) (decide (r = 0)) r.msb (f.getLsbD 3)

/-- The add class (R390): C is the carry out of bit 31, V says that operands of one sign gave the other sign. -/
def flagsAdd (f : BitVec 5) (a b : Word) (cin : Bool) : BitVec 5 :=
  let k : Nat := if cin then 1 else 0
  let r := a + b + BitVec.ofNat 32 k
  flagsOf f (decide (2 ^ 32 ≤ a.toNat + b.toNat + k)) (decide (r = 0)) r.msb (a.msb == b.msb && r.msb != a.msb)

/-- The subtract class (R390): C is the borrow, V says that operands of two signs gave the subtrahend's sign. -/
def flagsSub (f : BitVec 5) (a b : Word) (bin : Bool) : BitVec 5 :=
  let k : Nat := if bin then 1 else 0
  let r := a - b - BitVec.ofNat 32 k
  flagsOf f (decide (a.toNat < b.toNat + k)) (decide (r = 0)) r.msb (a.msb != b.msb && r.msb != a.msb)

/-- Steps 1 to 4 of R365 pass for an access of `size` bytes at the offset `eo` of a segment. -/
abbrev Admits (d : BitVec 64) (right : Right) (eo size align : Nat) : Prop :=
  segValid d = true ∧ right.on d = true ∧ eo % align = 0 ∧ eo + size ≤ segLimit d

/-- Step 5 passes: the range lies in AON RAM as the eft sees it, or in pond memory that is on and holds no
uncorrectable word there. -/
abbrev MemOk (n a size : Nat) (s : State) : Prop :=
  inAon n a = true ∨ (a < 0x1000000 ∧ s.pondOn a size = true ∧ ∀ w ∈ wordsOf a size, (s.eccOf w).ue = false)

/-- A byte as core `n` sees it by an access to the address `a`. -/
def State.seenByte (s : State) (n a b : Nat) : Byte := if inAon n a then s.aonByte b else s.byte b

/-- The little-endian value at an address. -/
def State.memWord (s : State) (n a size : Nat) : Word :=
  BitVec.ofNat 32 (leNat ((List.range size).map fun i => s.seenByte n a (a + i)))

/-- The bytes of a store hold the value, and every other byte of both memories is as it was. -/
def Stored (n a size : Nat) (v : Word) (s t : State) : Prop :=
  let byte := fun b (old : Byte) => if a ≤ b ∧ b < a + size then BitVec.ofNat 8 (v.toNat / 256 ^ (b - a)) else old
  (∀ b, t.aonByte b = if inAon n a then byte b (s.aonByte b) else s.aonByte b) ∧
    ∀ b, t.byte b = if inAon n a then s.byte b else byte b (s.byte b)

/-- The address of a memory operand, and its offset (R358). -/
def State.operandEo (s : State) (n k off : Nat) : Nat := (s.ctx n).eo ((s.ctx n).segAt k) off
def State.operandAt (s : State) (n k off : Nat) : Nat := addrOf ((s.ctx n).segAt k) (s.operandEo n k off)

/-- A load through segment `k` at an offset is served from memory with the value `v`. -/
abbrev LoadsMem (n k off size : Nat) (v : Word) (s : State) : Prop :=
  Admits ((s.ctx n).segAt k) .r (s.operandEo n k off) size size ∧ MemOk n (s.operandAt n k off) size s ∧
    v = s.memWord n (s.operandAt n k off) size

/-! ### Faults -/

/-- The registers that a fault of core `n` writes (R436, R459). -/
def faultRegs (n : Nat) : List Nat :=
  [RegKind.CORE_FAULT_INFO.addr n 0, RegKind.CORE_FAULT_PC.addr n 0, RegKind.CORE_FAULT_ADDR.addr n 0,
    RegKind.CORE_FAULT_FRAME.addr n 0]

/-- An instruction of core `n` faults (R436 to R439): the record is written and counted; from MAIN, HANDLER starts at
0x004 with the code, the address and the frame, and MAIN is as before the instruction; from HANDLER the core stops in
FAULT_STOP; the event is raised for the owner. -/
structure Trapped (n code addr : Nat) (half pair : Bool) (s t : State) : Prop where
  entry : (s.core n).inHandler = false → (t.core n).st = .run ∧ (t.core n).inHandler = true ∧
    (t.core n).main = (s.core n).main ∧
    (t.core n).hand = { (s.core n).hand with a := BitVec.ofNat 32 code, x := BitVec.ofNat 32 addr, y := s.frame, pc := 4 }
  stop : (s.core n).inHandler = true → (t.core n).st = .faultStop ∧ (t.core n).main = (s.core n).main ∧
    (t.core n).hand = (s.core n).hand ∧ t.f F.CORE_FAULT_INFO_DOUBLE n = 1
  record : t.f F.CORE_FAULT_INFO_CODE n = code ∧
    t.f F.CORE_FAULT_INFO_CTX n = (if (s.core n).inHandler then 1 else 0) ∧
    t.f F.CORE_FAULT_INFO_HALF n = (if half then 1 else 0) ∧ t.f F.CORE_FAULT_INFO_PAIR n = (if pair then 1 else 0) ∧
    t.f F.CORE_FAULT_INFO_COUNT n = min (s.f F.CORE_FAULT_INFO_COUNT n + 1) 0xFFFF ∧
    t.reg .CORE_FAULT_PC n = (s.ctx n).pc.setWidth 32 ∧ t.reg .CORE_FAULT_ADDR n = BitVec.ofNat 32 addr ∧
    t.reg .CORE_FAULT_FRAME n = s.frame
  event : s.fabUp = true →
    ⟨840 + 4 * n + (if (s.core n).inHandler then 1 else 0), some (s.coreOwner n), s.frame⟩ ∈ t.raised
  others : ((s.core n).inHandler = true → s.b F.TEN_CTL_SHED_ON_DOUBLE (s.coreOwner n) = false) →
    Kept [.regs, .events, .cores, .counters, .ecc, .free] s t ∧ RegsKept (bookRegs n ++ faultRegs n) s t ∧
      ∀ m, m ≠ n → t.core m = s.core m

/-! ### Host links -/

/-- The link after it accepts a request (R598, R619). -/
def Link.took (l : Link) : Link := { l with idle := 0, exp := l.exp + 1, ackDue := true }

/-- The link after it sends a packet: in SPI mode the packet waits for the host, and otherwise it goes out (R587,
R600). -/
def Link.puts (l : Link) (p : Pkt) : Link :=
  if l.cfg.getLsbD 0 then { l with wait := l.wait ++ [p], ackDue := false }
  else { l with out := p :: l.out, ackDue := false }

/-- The link after it sends one unsequenced packet of a type (R594). -/
def Link.sendsPlain (l : Link) (typ : Nat) (nak : Bool) : Link := l.puts ⟨typ, 0, nak, 0, l.exp - 1, []⟩

/-- The link after it sends one sequenced packet with the next number, kept until it is acknowledged (R596, R600). -/
def Link.sends (l : Link) (typ tenant : Nat) (payload : List Byte) : Link :=
  let p : Pkt := ⟨typ, tenant, false, l.txNext, l.exp - 1, payload⟩
  { l with
    txNext := l.txNext + 1, replay := l.replay ++ [p], noAck := if l.replay = [] then 0 else l.noAck }.puts p

/-- The link after it replays its unacknowledged packets with the current ACK (R600, R601): in SPI mode they stand once,
in their order, behind what waits without a number. -/
def Link.again (l : Link) : Link :=
  let ps := l.replay.map fun p => { p with ack := l.exp - 1 }
  let plain := l.wait.filter fun p => decide (p.typ < 8 ∨ 10 < p.typ)
  if l.cfg.getLsbD 0 then { l with noAck := 0, ackDue := false, wait := plain ++ ps }
  else { l with noAck := 0, ackDue := false, wait := plain, out := ps.reverse ++ l.out }

/-- The link after the oldest `n` waiting packets have gone out, with the ACK of now (R587, R600). -/
def Link.clocked (l : Link) (n : Nat) : Link :=
  { l with out := ((l.wait.take n).map fun p => { p with ack := l.exp - 1 }).reverse ++ l.out, wait := l.wait.drop n }

/-- The link after the ACK of a packet received, with no page to release (R599): packets up to the one that it names are
no longer kept, and those of them that waited have been clocked out. -/
def Link.acked (l : Link) (ack : BitVec 12) : Link :=
  let a := (ack - l.last).toNat
  if 1 ≤ a ∧ a ≤ l.replay.length then
    { l.clocked (clockedBy ((l.replay.take a).map (·.seq)) l.wait).1.length with
      replay := l.replay.drop a, last := ack, noAck := 0 }
  else l

/-- The link after it sends a STATUS (R594, R608). -/
def Link.status (l : Link) (h : PktHdr) (code detail : Nat) : Link :=
  l.sends 10 h.tenant.val (leBytes 2 h.seq.toNat ++ [BitVec.ofNat 8 code, 0] ++ leBytes 4 detail)

/-- The link after it sends the STATUS OK of a request that asks for one (R608). -/
def Link.okd (l : Link) (h : PktHdr) : Link := if h.rspq then l.status h 0 0 else l

/-! ### What holds after every command -/

/-- The level-sensitive logic has nothing to do: ALLOWED is what the budgets and wake sources allow (R659), GOAL is the
smaller of TARGET and ALLOWED (R660), STATE follows the cores outside Torpor and Brumation (R655), and while the fabric
runs every queue at its high mark shows in QSUM (R515). -/
structure Settled (s : State) : Prop where
  allowed : s.f F.PWR_STATUS_ALLOWED = s.allowed
  goal : s.f F.PWR_STATUS_GOAL = min (s.f F.PWR_CTL_TARGET) (s.f F.PWR_STATUS_ALLOWED)
  state : s.dev < 2 → s.dev = if s.dozeNow then 1 else 0
  qsum : s.fabUp = true → ∀ e ∈ s.queues, e.1 < 16384 → qAbove e.2 = true → s.qsumBit e.1 = true

end Sys2Proof.Machine
end

