-- ==== Sys2Proof/Certificates/Slice0/Obligations.lean ====
section
/-!
DEFINITION. Certificates/Slice0/Obligations.lean: the statements for the provers. A statement of what a command does has
the form `Ends c s fun t => …`: the command is answered by the next state `t`, of which the rest holds.
-/
open Sys2Proof Sys2Proof.Machine

/-- O1. A step of a state whose queue begins with a command is that command's effect on the state with the rest of the
queue, and a command never touches the queue: every command is answered by a next state with the same queue. -/
def Obligations.StepTakesFrontCommand : Prop :=
  (∀ (c : Instr) (rest : List Instr) (s : State), s.pending = c :: rest → step s = exec c { s with pending := rest }) ∧
  ∀ (c : Instr) (s : State), ∃ t, exec c s = .next t ∧ t.pending = s.pending

/-- O2. A step on an empty queue advances the RTC by 1. It changes nothing else, but that the eft's cycles pass (its
counters, prefetch and cache load go on; its context and whether it runs stay) while it has power, no reset holds the
machine and the derived clocks, whose boundaries count them otherwise, stand still. That a step stands for one period
of the 32.768 kHz clock is the model's choice (log entry 4); that the RTC counts those periods is the manual's. -/
def Obligations.IdleStepIsOneClockPeriod : Prop :=
  ∀ s : State, s.pending = [] → ∃ t, step s = .next t ∧ t.rtc = s.rtc + 1 ∧ t.pending = [] ∧
    Completes [.rtc] 16 s t (s.ctx 16) ∧
    (s.divRun = true ∨ s.corePg 16 = false ∨ s.rst.held = true → t = { s with rtc := s.rtc + 1 })

/-- O3. In the reset state every register other than T0's segment table and PWR_DOM_STATUS, in its shadow view and its
active copy, holds the value of its Reset column (with TEN_EVT_MASK of T0 under R537 and POND_SCHED under R468); the
segment table holds what the boot sequencer wrote (R702), and of PWR_DOM_STATUS only EFT_PG is set. -/
def Obligations.ResetLeavesResetColumn : Prop :=
  (∀ (k : RegKind) (i j : Nat), k.has i j → k ≠ .TEN_SEG_W0 → k ≠ .TEN_SEG_W1 → k ≠ .PWR_DOM_STATUS →
    State.reset.reg k i j = k.resetAt i ∧ State.reset.act k i j = k.resetAt i) ∧
  (∀ e ∈ bootSegs, State.reset.reg .TEN_SEG_W0 0 e.1 = e.2.1 ∧ State.reset.reg .TEN_SEG_W1 0 e.1 = e.2.2) ∧
  State.reset.reg .PWR_DOM_STATUS = 0x00100000

/-- O4. In the reset state the eft runs in MAIN at PC 0 with the boot table's descriptors 0 to 15 (and 16 to 31 in
HANDLER) and S at the limit of SEG14; every newt is OFF; T0 is RUN and every other tenant OFF; no commit, queue,
event or command waits; frame number, SYS_TIME and RTC are 0; and the machine is settled. -/
def Obligations.ResetStartsEftAlone : Prop :=
  (State.reset.core 16).st = .run ∧ (State.reset.core 16).inHandler = false ∧
  State.reset.ctx 16 = { Ctx.init with pc := 0, s := 0x1000, seg := Vector.ofFn fun i : Fin 16 => bootSeg i.val } ∧
  (State.reset.core 16).hand.seg = (Vector.ofFn fun i : Fin 16 => bootSeg (16 + i.val)) ∧
  (∀ n < 16, (State.reset.core n).st = .off) ∧ (State.reset.ten 0).st = .run ∧
  (∀ t, t ≠ 0 → (State.reset.ten t).st = .off) ∧ State.reset.commits = [] ∧ State.reset.queues = [] ∧
  State.reset.raised = [] ∧ State.reset.pend = [] ∧ State.reset.pending = [] ∧ State.reset.frame = 0 ∧
  State.reset.sys = 0 ∧ State.reset.rtc = 0 ∧ Settled State.reset

/-- O5. If the machine is held in reset or settled, then after any step it is held in reset or settled. Settled: ALLOWED
is what the tenants' budgets and the wake sources allow (R659), GOAL is the smaller of TARGET and ALLOWED (R660),
STATE is Doze just when the cores have come to rest (R655, outside Torpor and Brumation), and while the fabric runs
every enabled queue at its high mark shows in QSUM (R515). -/
def Obligations.StepLeavesMachineSettled : Prop :=
  ∀ s t : State, (s.rst.held = true ∨ Settled s) → step s = .next t → t.rst.held = true ∨ Settled t

/-- O6. A write of any other width or alignment changes nothing but the answer, which is an access error; a read of any
other width or alignment returns nothing (0 to its master, with an access error) and changes nothing. The same holds
of a write or a read of a word at an aligned address that no register is assigned to (and that is not in the
manufacturing test window while TEST_MODE is high). -/
def Obligations.MisshapenOrUnassignedAccessRefused : Prop :=
  (∀ (m : Master) (size : AccessSize) (a v : Word) (s : State), s.masterLive m = true →
    (size ≠ .word ∨ a.toNat % 4 ≠ 0) →
    Ends (.registerWrite m size a v) s fun t => Answered m 0 true t ∧ Only [.last] [] [] s t) ∧
  (∀ (m : Master) (a : Word) (s : State), s.masterLive m = true → a.toNat % 4 ≠ 0 →
    Ends (.rcFieldRead m a) s fun t => Answered m 0 true t ∧ Only [.last] [] [] s t) ∧
  (∀ (m : Master) (size : AccessSize) (a : Nat) (v : Word) (s : State), size ≠ .word ∨ a % 4 ≠ 0 →
    s.ctlRead m size a = (s, none) ∧ s.ctlWrite m size a v = (s, true)) ∧
  ∀ (m : Master) (a v : Word) (s : State), s.masterLive m = true → a.toNat % 4 = 0 → regAt a.toNat = none →
    (inTestWindow a.toNat && s.testMode) = false →
    (Ends (.registerWrite m .word a v) s fun t => Answered m 0 true t ∧ Only [.last] [] [] s t) ∧
    (Ends (.rcFieldRead m a) s fun t => Answered m 0 true t ∧ Only [.last] [] [] s t)

/-- O7. A write or a read of a register whose domain cannot be reached reads 0, changes nothing else and is an access
error; and an access to pond memory in a bank that is not on, or while the schedule does not run, faults a core's
load and store with ACCESS_ERROR (code 7) and leaves memory alone. -/
def Obligations.UnreachableDomainRefused : Prop :=
  (∀ (m : Master) (k : RegKind) (i j : Nat) (v : Word) (s : State), s.masterLive m = true → k.has i j →
    s.reach ⟨k, i, j, false⟩ = false →
    (Ends (.registerWrite m .word (BitVec.ofNat 32 (k.addr i j)) v) s fun t =>
      Answered m 0 true t ∧ Only [.last] [] [] s t) ∧
    (Ends (.rcFieldRead m (BitVec.ofNat 32 (k.addr i j))) s fun t =>
      Answered m 0 true t ∧ Only [.last] [] [] s t)) ∧
  ∀ (s : State) (n a size v : Nat), a < 0x1000000 → inAon n a = false → s.pondOn a size = false →
    (s.dataRead n a size).2 = .error 7 ∧ (s.dataWrite n a size v).2 = some 7 ∧
      (s.dataWrite n a size v).1.mem = s.mem ∧ (s.dataRead n a size).1.mem = s.mem

/-- O8. For every register to which the rules give no further action (the list plainRegs), a served write of a word with
no undefined code makes each bit of an RW field the bit written, clears each bit of a W1C field at which a 1 is
written, leaves every other bit (RO, RC and reserved bits among them), reports no error, and changes nothing else. -/
def Obligations.WriteChangesWritableFieldsOnly : Prop :=
  ∀ (m : Master) (k : RegKind) (i j : Nat) (v : Word) (s : State), k ∈ plainRegs → k.has i j → CanWrite m k i j s →
    codesBad k v = false →
    Ends (.registerWrite m .word (BitVec.ofNat 32 (k.addr i j)) v) s fun t =>
      (∀ b < 32, (t.reg k i j).getLsbD b =
        if (k.info.maskOf .rw).getLsbD b then v.getLsbD b
        else (s.reg k i j).getLsbD b && !((k.info.maskOf .w1c).getLsbD b && v.getLsbD b)) ∧
      Answered m 0 false t ∧ Only [.last] [k.addr i j] [] s t

/-- O9. A served write of a shadowed register writes its shadow view, a WO bit for the commit to apply, and marks the
change as the tenant's, with the active copy as it was; where a pending commit holds the change, the write is discarded
and an access error (for a register, a connection entry and a selector); and a write to the active view of any register,
connection entry or selector is discarded and an access error, whatever the master and the value. -/
def Obligations.ShadowWriteHeldUntilCommit : Prop :=
  (∀ (m : Master) (k : RegKind) (i j : Nat) (v : Word) (s : State), k.info.scope.isSome = true → k.has i j →
    CanWrite m k i j s → codesBad k v = false → (s.change (k.addr i j)).isPending = false →
    Ends (.registerWrite m .word (BitVec.ofNat 32 (k.addr i j)) v) s fun t =>
      t.reg k i j = (k.info.merge (s.reg k i j) v &&& ~~~(k.info.maskOf .wo)) ||| (v &&& k.info.maskOf .wo) ∧
      t.act k i j = s.act k i j ∧
      t.change (k.addr i j) = .dirty (s.tenantOf m) ∧ (∀ a, a ≠ k.addr i j → t.change a = s.change a) ∧
      Answered m 0 false t ∧ Only [.last, .changes] [k.addr i j] [] s t) ∧
  (∀ (m : Master) (k : RegKind) (i j : Nat) (v : Word) (s : State),
    (k.info.scope.isSome = true ∨ k = .FAB_CONN ∨ k = .FAB_SEL) → k.has i j → s.masterLive m = true →
    (s.change (k.addr i j)).isPending = true →
    Ends (.registerWrite m .word (BitVec.ofNat 32 (k.addr i j)) v) s fun t =>
      Answered m 0 true t ∧ Only [.last] [] [] s t) ∧
  ∀ (m : Master) (a v : Word) (s : State), s.masterLive m = true →
    (∃ r, regAt a.toNat = some r ∧ (r.act = true ∨ r.k.info.wr = .active)) →
    Ends (.registerWrite m .word a v) s fun t => Answered m 0 true t ∧ Only [.last] [] [] s t

/-- O10. For every register of rcRegs (those with RC fields beside Q_DROP, TEN_MBX and TEN_STATUS), a served read by any
master returns the register, clears the bits of its RC fields, leaves its other bits, and changes nothing else. A read
of Q_DROP returns and clears its count and returns DROP_SAT, one of TEN_MBX returns and clears the mailbox, and one of
TEN_STATUS returns it with the tenant's state and clears its count of sheds. A served read of any register at all
completes with an answer. -/
def Obligations.ReadClearsReadClearFields : Prop :=
  (∀ (m : Master) (k : RegKind) (i j : Nat) (s : State), k ∈ rcRegs → k.has i j → CanRead m k i j s →
    Ends (.rcFieldRead m (BitVec.ofNat 32 (k.addr i j))) s fun t =>
      Answered m (s.reg k i j) false t ∧
      (∀ b < 32, (t.reg k i j).getLsbD b =
        ((s.reg k i j).getLsbD b && !(k.info.maskOf .rc).getLsbD b)) ∧
      Only [.last] [k.addr i j] [] s t) ∧
  (∀ (m : Master) (q : Nat) (s : State), q < 16384 → CanRead m .Q_DROP q 0 s →
    Ends (.rcFieldRead m (BitVec.ofNat 32 (RegKind.Q_DROP.addr q 0))) s fun t =>
      Answered m ((s.queue q).drop.setWidth 32 ||| if (s.queue q).dropSat then 0x10000 else 0) false t ∧
      t.queue q = { s.queue q with drop := 0 } ∧ (∀ p, p ≠ q → t.queue p = s.queue p) ∧
      Only [.last, .queues] [] [] s t) ∧
  (∀ (m : Master) (n : Nat) (s : State), n < 16 → CanRead m .TEN_MBX n 0 s →
    Ends (.rcFieldRead m (BitVec.ofNat 32 (RegKind.TEN_MBX.addr n 0))) s fun t =>
      Answered m (s.reg .TEN_MBX n) false t ∧ t.reg .TEN_MBX n = 0 ∧
      t.ten n = { s.ten n with mbxFull := false } ∧ (∀ k, k ≠ n → t.ten k = s.ten k) ∧
      Only [.last, .tenants] [RegKind.TEN_MBX.addr n 0] [] s t) ∧
  (∀ (m : Master) (n : Nat) (s : State), n < 16 → CanRead m .TEN_STATUS n 0 s →
    Ends (.rcFieldRead m (BitVec.ofNat 32 (RegKind.TEN_STATUS.addr n 0))) s fun t =>
      Answered m ((s.reg .TEN_STATUS n &&& 0xFFFF0000) ||| BitVec.ofNat 32 (s.ten n).st.code) false t ∧
      t.reg .TEN_STATUS n = s.reg .TEN_STATUS n &&& 0xFFFF ∧
      Only [.last] [RegKind.TEN_STATUS.addr n 0] [] s t) ∧
  ∀ (m : Master) (k : RegKind) (i j : Nat) (s : State), k.has i j → CanRead m k i j s →
    Ends (.rcFieldRead m (BitVec.ofNat 32 (k.addr i j))) s fun t => ∃ v, Answered m v false t

/-- O11. PLL_EN_SET from 0 drives OSC_EN high, starts the settle count (or enables the PLL at once where OSC_EN stayed
high) and powers the fabric and newt domains outside Brumation; OSC_SETTLE_END, with OSC_SETTLE cycles or more passed,
sets OSC_OK and enables the PLL, and before that does nothing; PLL_LOCK_RISE sets PLL_LOCK and DIV_RUN, begins the frame
of R89 to R91 with SYS_TIME at FRAME_COUNT × 3,072, latches the resume registers and puts the DPLL into FREERUN. Each
leaves every part and register not named as it was. That OSC_OK rises at these moments is the model's choice (log entry
13). -/
def Obligations.RootClockStartsInThreeSteps : Prop :=
  (∀ (m : Master) (v : Word) (s : State), CanWrite m .CLK_ROOT_CTL 0 0 s → s.b F.CLK_ROOT_CTL_PLL_EN = false →
    Ends (.pllEnSet m v) s fun t =>
      t.reg .CLK_ROOT_CTL = (v ||| 1) &&& 0xFFFF0003 ∧ t.clk.oscEn = true ∧ t.clk.pllOn = s.clk.kept ∧
      t.clk.settling = !s.clk.kept ∧
      (s.dev ≠ 3 → t.b F.PWR_DOM_STATUS_FAB_PG = true) ∧
      (s.dev ≠ 3 → s.fabPg = false → t.b F.PWR_DOM_STATUS_NEWT_PG = true ∧ t.rst.coreEn = true) ∧
      Answered m 0 false t ∧
      Kept [.regs, .events, .clocks, .last, .reset, .power, .cores, .pend, .tenants] s t ∧
      RegsKept (regsOf [.CLK_ROOT_CTL, .CLK_ROOT_STATUS, .PWR_DOM_STATUS, .CORE_ICACHE_CTL, .CORE_ICACHE_LOAD]) s t) ∧
  (∀ (cycles : Nat) (s : State), s.clk.settling = true →
    (s.f F.CLK_ROOT_CTL_OSC_SETTLE ≤ cycles → Ends (.oscSettleEnd cycles) s fun t =>
      t.b F.CLK_ROOT_STATUS_OSC_OK = true ∧ t.clk = { s.clk with settling := false, pllOn := true } ∧
      Only [.clocks] [RegKind.CLK_ROOT_STATUS.addr 0 0] [] s t) ∧
    (cycles < s.f F.CLK_ROOT_CTL_OSC_SETTLE → Ends (.oscSettleEnd cycles) s (Only [] [] [] s))) ∧
  ∀ s : State, s.clk.pllOn = true → s.b F.CLK_ROOT_STATUS_PLL_LOCK = false →
    Ends .pllLockRise s fun t =>
      t.b F.CLK_ROOT_STATUS_PLL_LOCK = true ∧ t.b F.CLK_ROOT_STATUS_DIV_RUN = true ∧
      t.frame = (if s.clk.midFrame then s.frame + 1 else s.frame) ∧ t.sys = BitVec.ofNat 64 (t.frame.toNat * 3072) ∧
      t.reg .TIME_RESUME_FRAME = t.frame ∧ t.reg .TIME_RESUME_RTC_LO = s.rtc.setWidth 32 ∧
      t.reg .TIME_RESUME_RTC_HI = (s.rtc >>> 32).setWidth 32 ∧ t.f F.DPLL_STATUS_STATE = 0 ∧
      t.pwr = { s.pwr with isolated := false } ∧
      Kept [.regs, .events, .time, .clocks, .ref, .lines, .trunks, .audio, .cores, .fabric, .scrub, .power, .links,
        .queues, .counters] s t

/-- O12. PLL_EN_CLEAR, CLK_OSC_FAIL (which also clears PLL_EN and sets OSC_FAIL) and LOCK_LOST (which sets LOCK_LOST)
clear SRC and CUR, DIV_RUN and PLL_LOCK; the first two turn the PLL off and leave pin OSC_EN as it was (log entry
13), and CLK_OSC_FAIL, which acts while OSC_EN is high and 16 FRC cycles pass without an edge or the count of edges is
not 11,059 to 13,517, clears OSC_OK; frame number and RTC hold, and memory, tenants, queues, commits and everything else
not named is as it was. A write of SRC = 1 while PLL_LOCK is 0 leaves SRC and CUR, sets SW_ERR and raises event 658; any
other write sets SRC and CUR to the value written, clears SW_ERR where a 1 is written to it, and keeps everything but
the eft's cycles. -/
def Obligations.EftClockSourceFollowsTheLock : Prop :=
  (∀ (m : Master) (v : Word) (s : State), CanWrite m .CLK_ROOT_CTL 0 0 s → s.b F.CLK_ROOT_CTL_PLL_EN = true →
    Ends (.pllEnClear m v) s fun t =>
      t.b F.CLK_ROOT_CTL_PLL_EN = false ∧ t.reg .CLK_EFT_SRC = s.reg .CLK_EFT_SRC &&& 0xFFFFFFFC ∧
      t.b F.CLK_ROOT_STATUS_DIV_RUN = false ∧ t.b F.CLK_ROOT_STATUS_PLL_LOCK = false ∧
      t.b F.CLK_ROOT_STATUS_OSC_OK = s.b F.CLK_ROOT_STATUS_OSC_OK ∧ t.clk.oscEn = s.clk.oscEn ∧ t.clk.pllOn = false ∧
      Answered m 0 false t ∧
      Kept [.regs, .events, .clocks, .last, .cores, .audio, .panel, .counters, .ecc, .free] s t) ∧
  (∀ (quiet edges : Nat) (s : State), ¬(s.clk.oscEn = true ∧ (16 ≤ quiet ∨ edges < 11059 ∨ 13517 < edges)) →
    Ends (.clkOscFail quiet edges) s (Only [] [] [] s)) ∧
  (∀ (quiet edges : Nat) (s : State), s.clk.oscEn = true → (16 ≤ quiet ∨ edges < 11059 ∨ 13517 < edges) →
    Ends (.clkOscFail quiet edges) s fun t =>
      t.b F.CLK_ROOT_CTL_PLL_EN = false ∧ t.reg .CLK_EFT_SRC = s.reg .CLK_EFT_SRC &&& 0xFFFFFFFC ∧
      t.b F.CLK_ROOT_STATUS_DIV_RUN = false ∧ t.b F.CLK_ROOT_STATUS_PLL_LOCK = false ∧
      t.b F.CLK_ROOT_STATUS_OSC_FAIL = true ∧ t.b F.CLK_ROOT_STATUS_OSC_OK = false ∧ t.clk.oscEn = s.clk.oscEn ∧
      t.clk.pllOn = false ∧
      Kept [.regs, .events, .clocks, .cores, .audio, .panel, .power, .counters, .ecc, .free] s t) ∧
  (∀ s : State, s.clk.pllOn = true → s.b F.CLK_ROOT_STATUS_PLL_LOCK = true →
    Ends .lockLost s fun t =>
      t.reg .CLK_EFT_SRC = s.reg .CLK_EFT_SRC &&& 0xFFFFFFFC ∧ t.b F.CLK_ROOT_STATUS_DIV_RUN = false ∧
      t.b F.CLK_ROOT_STATUS_PLL_LOCK = false ∧ t.b F.CLK_ROOT_STATUS_LOCK_LOST = true ∧ t.clk.oscEn = s.clk.oscEn ∧
      t.reg .CLK_ROOT_CTL = s.reg .CLK_ROOT_CTL ∧
      Kept [.regs, .events, .clocks, .cores, .audio, .panel, .counters, .ecc, .free] s t) ∧
  (∀ (m : Master) (v : Word) (s : State), CanWrite m .CLK_EFT_SRC 0 0 s → v.getLsbD 0 = true →
    s.b F.CLK_ROOT_STATUS_PLL_LOCK = false → s.fabUp = true →
    Ends (.clkEftSrcWrite m v) s fun t =>
      t.reg .CLK_EFT_SRC = s.reg .CLK_EFT_SRC ||| 4 ∧ Answered m 0 false t ∧
      Only [.last] [RegKind.CLK_EFT_SRC.addr 0 0] [s.ev 658] s t) ∧
  (∀ (m : Master) (v : Word) (s : State), CanWrite m .CLK_EFT_SRC 0 0 s → v.getLsbD 0 = true →
    s.b F.CLK_ROOT_STATUS_PLL_LOCK = false → s.fabUp = false →
    Ends (.clkEftSrcWrite m v) s fun t =>
      t.reg .CLK_EFT_SRC = s.reg .CLK_EFT_SRC ||| 4 ∧ 658 ∈ t.held) ∧
  ∀ (m : Master) (v : Word) (s : State), CanWrite m .CLK_EFT_SRC 0 0 s →
    (v.getLsbD 0 = true → s.b F.CLK_ROOT_STATUS_PLL_LOCK = true) →
    Ends (.clkEftSrcWrite m v) s fun t =>
      t.b F.CLK_EFT_SRC_SRC = v.getLsbD 0 ∧ t.b F.CLK_EFT_SRC_CUR = v.getLsbD 0 ∧
      t.b F.CLK_EFT_SRC_SW_ERR = (s.b F.CLK_EFT_SRC_SW_ERR && !v.getLsbD 2) ∧ Answered m 0 false t ∧
      (∀ n, n ≠ 16 → t.core n = s.core n) ∧
      Kept [.regs, .events, .last, .cores, .free, .ecc, .counters] s t ∧
      RegsKept (RegKind.CLK_EFT_SRC.addr 0 0 :: bookRegs 16) s t

/-- O13. A read of RTC_LO returns RTC bits 31:0 and latches bits 47:32 for that master, whose next read of RTC_HI
returns them; a write of RTC_LO leaves the RTC, and a write of RTC_HI then loads both halves. A read of SYS_TIME_LO
returns bits 31:0 of the time and latches its upper half for its master: the strobe's time and the cycles of the frame
that have passed, which are the count held while the derived clocks are stopped, and while they run no fewer than a read
saw before, and fewer than 3,072 (how many is a free value of the model). CLK_FRC_MEAS takes the measurement while the
clocks run (R72). -/
def Obligations.TimeRegistersLatchAndLoad : Prop :=
  (∀ (m : Master) (s : State), CanRead m .RTC_LO 0 0 s →
    Ends (.rtcLoRead m) s fun t =>
      Answered m (s.rtc.setWidth 32) false t ∧ t.latch m rtcHiAddr = (s.rtc >>> 32).setWidth 32 ∧
      (∀ m', t.regValue m' ⟨.RTC_HI, 0, 0, false⟩ = t.latch m' rtcHiAddr) ∧
      (∀ a, a ≠ latchKey m rtcHiAddr → tabGet (fun _ => (0 : Word)) t.latches a = tabGet (fun _ => 0) s.latches a) ∧
      Only [.last, .latches] [] [] s t) ∧
  (∀ (m : Master) (v : Word) (s : State), CanWrite m .RTC_LO 0 0 s →
    Ends (.rtcLoWrite m v) s fun t =>
      t.rtc = s.rtc ∧ t.reg .RTC_LO = v ∧ Answered m 0 false t ∧ Only [.last] [RegKind.RTC_LO.addr 0 0] [] s t) ∧
  (∀ (m : Master) (v : Word) (s : State), CanWrite m .RTC_HI 0 0 s →
    Ends (.rtcHiWrite m v) s fun t =>
      t.rtc = v.setWidth 16 ++ s.reg .RTC_LO ∧ Answered m 0 false t ∧ Only [.last, .rtc] [] [] s t) ∧
  (∀ (m : Master) (s : State), CanRead m .SYS_TIME_LO 0 0 s →
    Ends (.sysTimeLoRead m) s fun t =>
      (∃ d : Nat, let x := s.sys + BitVec.ofNat 64 d
        Answered m (x.setWidth 32) false t ∧ t.latch m sysHiAddr = (x >>> 32).setWidth 32 ∧
        (s.divRun = false → d = s.clk.into) ∧ s.clk.into ≤ d ∧ (s.clk.into < 3072 → d < 3072) ∧
        t.clk = { s.clk with into := d }) ∧
      Only [.last, .latches, .free, .clocks] [] [] s t) ∧
  ∀ (hz : BitVec 25) (s : State), s.divRun = true →
    Ends (.frcMeasure hz) s fun t =>
      t.f F.CLK_FRC_MEAS_FRC_HZ = hz.toNat ∧ Only [] [RegKind.CLK_FRC_MEAS.addr 0 0] [] s t

/-- O14. The register takes the value written either way. With BW 0: KP 18 to 20 and KI 30 to 32; BW 1: 15 to 17, 23 to
25; BW 2: 13 to 15, 20 to 22; BW 3: 11 to 13, 16 to 18, the pair acts, BW_USED is the BW written and MISMATCH is
clear; otherwise the pair in use stays, MISMATCH is set and event 661 is raised. I is kept. -/
def Obligations.DpllLoopTakesConsistentPairsOnly : Prop :=
  ∀ (m : Master) (v : Word) (s : State), CanWrite m .DPLL_LOOP 0 0 s → s.fabUp = true →
    let bw := fieldOf v 0 2
    let kp := fieldOf v 4 5
    let ki := fieldOf v 12 6
    let ok := (bw = 0 ∧ 18 ≤ kp ∧ kp ≤ 20 ∧ 30 ≤ ki ∧ ki ≤ 32) ∨ (bw = 1 ∧ 15 ≤ kp ∧ kp ≤ 17 ∧ 23 ≤ ki ∧ ki ≤ 25) ∨
      (bw = 2 ∧ 13 ≤ kp ∧ kp ≤ 15 ∧ 20 ≤ ki ∧ ki ≤ 22) ∨ (bw = 3 ∧ 11 ≤ kp ∧ kp ≤ 13 ∧ 16 ≤ ki ∧ ki ≤ 18)
    (ok → Ends (.dpllLoopWrite m v) s fun t =>
      t.reg .DPLL_LOOP = v &&& RegKind.DPLL_LOOP.info.maskOf .rw ∧ t.dpll = { s.dpll with kp := kp, ki := ki } ∧
      t.f F.DPLL_STATUS_BW_USED = bw ∧ t.f F.DPLL_STATUS_MISMATCH = 0 ∧
      t.f F.DPLL_STATUS_STATE = s.f F.DPLL_STATUS_STATE ∧ Answered m 0 false t ∧
      Only [.last, .ref] [RegKind.DPLL_LOOP.addr 0 0, RegKind.DPLL_STATUS.addr 0 0] [] s t ∧ t.cands = s.cands) ∧
    (¬ok → Ends (.dpllLoopWrite m v) s fun t =>
      t.reg .DPLL_LOOP = v &&& RegKind.DPLL_LOOP.info.maskOf .rw ∧ t.f F.DPLL_STATUS_MISMATCH = 1 ∧
      t.f F.DPLL_STATUS_BW_USED = s.f F.DPLL_STATUS_BW_USED ∧ Answered m 0 false t ∧
      Only [.last] [RegKind.DPLL_LOOP.addr 0 0, RegKind.DPLL_STATUS.addr 0 0] [s.ev 661] s t)

/-- O15. At an update interval boundary, with the selection evaluated before it (log entry 96): a candidate newly wanted
is selected with realignment, in LOCKING, with k = (−e) mod 384 in LAST_PAUSE; the candidate in use is filtered (I and
the steering word by R124 from the phase error e, which is 0 if the candidate has failed; while the proportional path is
held, out = I); with no candidate, MODE 3 gives FREERUN, and LOCKING or LOCKED give HOLDOVER. Nothing outside the
reference block changes. -/
def Obligations.DpllUpdateFiltersAndSelects : Prop :=
  ∀ s : State, s.fabUp = true → s.dpll.due = true →
    Ends .dpllUpdate s fun t =>
      t.dpll.due = false ∧ t.dpll.errZero = false ∧ (∀ n < 8, (t.cand n).sum = 0 ∧ (t.cand n).num = 0) ∧
      (∀ n < 8, s.dpll.take = some n →
        (s.selected ≠ some n ∨ (s.f F.DPLL_STATUS_STATE ≠ 1 ∧ s.f F.DPLL_STATUS_STATE ≠ 2)) →
        t.selected = some n ∧ t.f F.DPLL_STATUS_STATE = 1 ∧ t.dpll.held = 2 ∧ t.b F.DPLL_STATUS_P_HELD = true ∧
        t.f F.REF_SEL_STATUS_LAST_PAUSE = ((-(s.cand n).err) % 384).toNat ∧ (t.cand n).align = (t.cand n).err ∧
        (s.f F.DPLL_STATUS_STATE = 0 → t.dpll.integ = clampSteer s.freeCal) ∧
        (s.f F.DPLL_STATUS_STATE = 3 → t.dpll.integ = clampSteer s.holdValue)) ∧
      (∀ n < 8, s.dpll.take = some n → s.selected = some n →
        (s.f F.DPLL_STATUS_STATE = 1 ∨ s.f F.DPLL_STATUS_STATE = 2) →
        t.selected = some n ∧ t.f F.DPLL_STATUS_STATE = s.f F.DPLL_STATUS_STATE ∧
        (s.dpll.held = 0 → ∃ e : Int, t.f F.DPLL_PHASE_ERR = unsignedOf 17 e ∧
          (s.dpll.errZero = true ∨ (s.cand n).failed = true → e = 0) ∧
          t.dpll.integ = (pi s.dpll.kp s.dpll.ki s.dpll.integ e).1 ∧
          t.f F.CLK_STEER_STEER = unsignedOf 24 (clampSteer (pi s.dpll.kp s.dpll.ki s.dpll.integ e).2)) ∧
        (0 < s.dpll.held → t.dpll.held = s.dpll.held - 1 ∧ t.dpll.integ = s.dpll.integ ∧
          t.f F.CLK_STEER_STEER = unsignedOf 24 (clampSteer s.dpll.integ))) ∧
      (s.dpll.take = none → t.selected = none ∧
        (s.dpll.takeFree = true → t.f F.DPLL_STATUS_STATE = 0) ∧
        (s.dpll.takeFree = false → (s.f F.DPLL_STATUS_STATE = 1 ∨ s.f F.DPLL_STATUS_STATE = 2) →
          t.f F.DPLL_STATUS_STATE = 3)) ∧
      Kept [.regs, .events, .ref] s t ∧
      RegsKept (regsOf [.CLK_STEER, .DPLL_HIST_HEAD, .DPLL_HOLD_VALUE, .DPLL_PHASE, .DPLL_STATUS, .REF_SEL_STATUS]) s t

/-- O16. DPLL_LOCK_DECLARE moves LOCKING to LOCKED when 1,000 successive intervals were within LOCK_NS, DPLL_LOCK_LOSS
moves LOCKED to LOCKING when 16 successive ones were beyond 4 × LOCK_NS, each with event 659, and before that
neither changes anything; HIST_CLR empties the history ring. All else is as it was. -/
def Obligations.DpllLockFollowsPhaseError : Prop :=
  (∀ s : State, s.fabUp = true → s.f F.DPLL_STATUS_STATE = 1 → 1000 ≤ s.dpll.inLock →
    Ends .dpllLockDeclare s fun t => t.f F.DPLL_STATUS_STATE = 2 ∧
      Only [.ref] [RegKind.DPLL_STATUS.addr 0 0] [s.ev 659] s t ∧ t.cands = s.cands ∧
      t.dpll = { s.dpll with outLock := 0 }) ∧
  (∀ s : State, s.f F.DPLL_STATUS_STATE ≠ 1 ∨ s.dpll.inLock < 1000 →
    Ends .dpllLockDeclare s fun t => Only [] [] [] s t) ∧
  (∀ s : State, s.fabUp = true → s.f F.DPLL_STATUS_STATE = 2 → 16 ≤ s.dpll.outLock →
    Ends .dpllLockLoss s fun t => t.f F.DPLL_STATUS_STATE = 1 ∧
      Only [.ref] [RegKind.DPLL_STATUS.addr 0 0] [s.ev 659] s t ∧ t.cands = s.cands ∧
      t.dpll = { s.dpll with inLock := 0, outLock := 0 }) ∧
  (∀ s : State, s.f F.DPLL_STATUS_STATE ≠ 2 ∨ s.dpll.outLock < 16 →
    Ends .dpllLockLoss s fun t => Only [] [] [] s t) ∧
  ∀ (m : Master) (v : Word) (s : State), CanWrite m .DPLL_HOLD_CTL 0 0 s → holdCtlOk v = true →
    Ends (.histClr m v) s fun t =>
      (∀ i < 128, t.reg .DPLL_HIST i = 0) ∧ t.f F.DPLL_HIST_HEAD_HEAD = 0 ∧ t.f F.DPLL_HIST_HEAD_COUNT = 0 ∧
      t.f F.DPLL_HOLD_CTL_WINDOW = fieldOf v 0 7 ∧ t.f F.DPLL_HOLD_CTL_GUARD = fieldOf v 8 6 ∧ Answered m 0 false t ∧
      Only [.last] (regsOf [.DPLL_HOLD_CTL, .DPLL_HIST, .DPLL_HIST_HEAD]) [] s t

/-- O17. For a candidate enabled in the configuration that acts, while the fabric runs: a marker gone for 2 frames
(8,800 for PPS_IN) sets FAIL_ACT and fails it; a frequency window that ends beyond FREQ_LIM (if not 0) sets FAIL_FREQ,
one within clears it, and OFFSET is reported; a REFIN in DATA mode declares LOS at 32 zeros and LOF at three bad FAS
words, and each clears by its own criterion; a mark that the input's mode makes its phase marker resets its age and adds
its comparison, taken within half a frame of 0 less the alignment (log entry 96); a wait-to-restore timer that has
reached 0 qualifies it; WTR_CLEAR sets a running timer to 0; and a write that changes its source fields makes it failed
at the next boundary. Other candidates' monitors and everything outside the reference block are as they were. -/
def Obligations.CandidateFailuresAndTimers : Prop :=
  let status := regsOf [.REF_CAND_STATUS, .REF_SEL_STATUS]
  (∀ (n : Fin 8) (s : State), s.fabUp = true → s.rb F.REF_CAND_CFG_EN n.val = true →
    (if s.rf F.REF_CAND_CFG_TYPE n.val = 4 then 8800 else 2) ≤ (s.cand n.val).age →
    Ends (.markerTimeout n) s fun t => t.b F.REF_CAND_STATUS_FAIL_ACT n.val = true ∧ (t.cand n.val).failed = true ∧
      t.b F.REF_CAND_STATUS_QUAL n.val = false ∧ (∀ k, k ≠ n.val → t.cand k = s.cand k) ∧
      Kept [.regs, .events, .ref] s t ∧ RegsKept status s t) ∧
  (∀ (n : Fin 8) (o : BitVec 16) (s : State), s.fabUp = true → s.rb F.REF_CAND_CFG_EN n.val = true →
    Ends (.freqWindowEnd n o) s fun t => t.f F.REF_CAND_FREQ_OFFSET n.val = o.toNat ∧
      t.f F.REF_CAND_FREQ_VALID n.val = 1 ∧
      (t.b F.REF_CAND_STATUS_FAIL_FREQ n.val = true ↔ s.rf F.REF_CAND_CFG_FREQ_LIM n.val ≠ 0 ∧
        s.rf F.REF_CAND_CFG_FREQ_LIM n.val * 100 < o.toInt.natAbs) ∧ (∀ k, k ≠ n.val → t.cand k = s.cand k) ∧
      Kept [.regs, .events, .ref] s t ∧ RegsKept (RegKind.REF_CAND_FREQ.addr n.val 0 :: status) s t) ∧
  (∀ (n : Fin 8) (bits : RefinBits) (fas : RefinFas) (s : State), s.fabUp = true → s.rb F.REF_CAND_CFG_EN n.val = true →
    (s.rf F.REF_CAND_CFG_TYPE n.val = 2 ∧ s.rb F.REF_INPUT_CTL_REFIN0_MODE = true) ∨
      (s.rf F.REF_CAND_CFG_TYPE n.val = 3 ∧ s.rb F.REF_INPUT_CTL_REFIN1_MODE = true) →
    let c := s.cand n.val
    let los := match bits with
      | .zeros k => c.losDef || decide (32 ≤ k)
      | .window w => c.losDef && !clearWindow 32 w
      | _ => c.losDef
    let lof := match fas with
      | .fas3 w0 w1 w2 => c.lofDef || (decide (w0 ≠ 0x1B) && decide (w1 ≠ 0x1B) && decide (w2 ≠ 0x1B))
      | .search w0 bit2 w1 => c.lofDef && !(decide (w0 = 0x1B) && bit2 && decide (w1 = 0x1B))
      | _ => c.lofDef
    Ends (.refinDefect n bits fas) s fun t => (t.cand n.val).losDef = los ∧ (t.cand n.val).lofDef = lof ∧
      t.b F.REF_CAND_STATUS_FAIL_DEF n.val = (los || lof) ∧ (∀ k, k ≠ n.val → t.cand k = s.cand k) ∧
      Kept [.regs, .events, .ref] s t ∧ RegsKept status s t) ∧
  (∀ (n : Fin 8) (mark : RefMark) (e : BitVec 17) (s : State), s.fabUp = true → s.rb F.REF_CAND_CFG_EN n.val = true →
    let typ := s.rf F.REF_CAND_CFG_TYPE n.val
    let refin := fun (data : Bool) => (typ = 2 ∧ s.rb F.REF_INPUT_CTL_REFIN0_MODE = data) ∨
      (typ = 3 ∧ s.rb F.REF_INPUT_CTL_REFIN1_MODE = data)
    let marked := fun (c : Cand) => { c with
      age := 0, err := e.toInt, sum := c.sum + halfFrame (e.toInt - c.align), num := c.num + 1 }
    let after := fun (c : Cand) => Ends (.phaseMarker n mark e) s fun t =>
      t.cand n.val = c ∧ (∀ k, k ≠ n.val → t.cand k = s.cand k) ∧ t.dpll = s.dpll ∧ Only [.ref] [] [] s t
    let c := s.cand n.val
    match mark with
    | .edges k => (refin false → after (if 256 ≤ c.edges + k then marked { c with edges := (c.edges + k) % 256 }
          else { c with edges := (c.edges + k) % 256 })) ∧ (¬refin false → after c)
    | .frame => (refin true → after (marked c)) ∧ (¬refin true → after c)
    | .pps rising => (typ = 4 ∧ rising ≠ s.rb F.REF_INPUT_CTL_PPS_EDGE → after (marked c)) ∧
      (¬(typ = 4 ∧ rising ≠ s.rb F.REF_INPUT_CTL_PPS_EDGE) → after c)) ∧
  (∀ (n : Fin 8) (s : State), s.fabUp = true → (s.cand n.val).failed = false → (s.cand n.val).wtr = some 0 →
    Ends (.wtrExpire n) s fun t => t.b F.REF_CAND_STATUS_QUAL n.val = true ∧ (t.cand n.val).wtr = none ∧
      (∀ k, k ≠ n.val → t.cand k = s.cand k) ∧
      Kept [.regs, .events, .ref] s t ∧ RegsKept (regsOf [.REF_CAND_STATUS]) s t) ∧
  (∀ (m : Master) (n : Fin 8) (v : Word) (s : State), CanWrite m .REF_CAND_WTR n.val 0 s →
    (s.cand n.val).wtr.isSome = true →
    Ends (.wtrClear m n v) s fun t => (t.cand n.val).wtr = some 0 ∧ t.f F.REF_CAND_STATUS_WTR_LEFT n.val = 0 ∧
      t.f F.REF_CAND_WTR_WTR_S n.val = fieldOf v 0 12 ∧ (∀ k, k ≠ n.val → t.cand k = s.cand k) ∧ Answered m 0 false t ∧
      Only [.last, .ref] [RegKind.REF_CAND_WTR.addr n.val 0, RegKind.REF_CAND_STATUS.addr n.val 0] [] s t) ∧
  ∀ (m : Master) (n : Fin 8) (v : Word) (s : State), CanWrite m .REF_CAND_CFG n.val 0 s →
    codesBad .REF_CAND_CFG v = false →
    Ends (.refCandCfgWrite m n v) s fun t =>
      t.reg .REF_CAND_CFG n.val = v &&& RegKind.REF_CAND_CFG.info.maskOf .rw ∧
      (t.cand n.val).fresh = ((s.cand n.val).fresh ||
        decide (s.reg .REF_CAND_CFG n.val &&& 0x3FFF ≠ v &&& RegKind.REF_CAND_CFG.info.maskOf .rw &&& 0x3FFF)) ∧
      (∀ k, k ≠ n.val → t.cand k = s.cand k) ∧ Answered m 0 false t ∧
      Only [.last, .ref] [RegKind.REF_CAND_CFG.addr n.val 0] [] s t

/-- O18. A served write to a CLEAN or DIRTY entry (selector) that the tenant owns, with reserved bits 0 and, for MODE 2,
a selector it owns, stores the word with its parity in the inactive copy and marks it DIRTY for that tenant, with
the active copy and every other entry as they were. A non-zero reserved bit, MODE 0 or 3 with ARG bits 25:24, an
output slot, a named selector or a selector of another tenant: the write is discarded and an access error. -/
def Obligations.ConnectionWriteMakesShadowDirty : Prop :=
  (∀ (m : Master) (slot : BitVec 14) (v : Word) (s : State), CanWrite m .FAB_CONN slot.toNat 0 s →
    (s.change (connAddr slot.toNat)).isPending = false →
    let good := fieldOf v 26 5 = 0 ∧ ((fieldOf v 14 2 = 0 ∨ fieldOf v 14 2 = 3) → fieldOf v 24 2 = 0) ∧
      s.slotOwner slot.toNat = s.tenantOf m ∧ (fieldOf v 14 2 = 2 → s.selOwner (fieldOf v 16 10) = s.tenantOf m)
    (good → Ends (.fabConnWrite m slot v) s fun t =>
      (t.conn slot.toNat).inactive = withPar v ∧ (t.conn slot.toNat).active = (s.conn slot.toNat).active ∧
      t.change (connAddr slot.toNat) = .dirty (s.tenantOf m) ∧ (∀ k, k ≠ slot.toNat → t.conn k = s.conn k) ∧
      (∀ a, a ≠ connAddr slot.toNat → t.change a = s.change a) ∧ t.fab = { s.fab with conn := t.fab.conn } ∧
      Answered m 0 false t ∧ Only [.last, .fabric, .changes] [] [] s t) ∧
    (¬good → Ends (.fabConnWrite m slot v) s fun t => Answered m 0 true t ∧ Only [.last] [] [] s t)) ∧
  ∀ (m : Master) (k : BitVec 10) (v : Word) (s : State), CanWrite m .FAB_SEL k.toNat 0 s →
    (s.change (selAddr k.toNat)).isPending = false →
    let good := fieldOf v 29 2 = 0 ∧ s.selOwner k.toNat = s.tenantOf m
    (good → Ends (.fabSelWrite m k v) s fun t =>
      (t.sel k.toNat).inactive = withPar v ∧ (t.sel k.toNat).active = (s.sel k.toNat).active ∧
      t.change (selAddr k.toNat) = .dirty (s.tenantOf m) ∧ (∀ j, j ≠ k.toNat → t.sel j = s.sel j) ∧
      (∀ a, a ≠ selAddr k.toNat → t.change a = s.change a) ∧ t.fab = { s.fab with sel := t.fab.sel } ∧
      Answered m 0 false t ∧ Only [.last, .fabric, .changes] [] [] s t) ∧
    (¬good → Ends (.fabSelWrite m k v) s fun t => Answered m 0 true t ∧ Only [.last] [] [] s t)

/-- O19. With the scope that this master wrote: a commit whose lead is 1 to 0x7FFFFFFF, with fewer than 64 pending for
the tenant (which is neither SHEDDING nor SHED) and every covered change within its rights, is queued last under a
new number, and every change it covers becomes PENDING on it, while all other changes and all copies of connection
memory stay. Otherwise it is rejected with reason LATE, FULL, DENIED or SHED recorded with its frame, event 641 is
raised, and every change stays as it was. -/
def Obligations.CommitArrivalAcceptsOrRejects : Prop :=
  ∀ (m : Master) (v : Word) (s : State), CanWrite m .FAB_COMMIT_FRAME 0 0 s → s.fabUp = true → s.tenantOf m < 16 →
    let tn := s.tenantOf m
    let scope : BitVec 6 := (s.latch m (RegKind.FAB_COMMIT_SCOPE.addr 0 0)).setWidth 6
    let lead := (v - s.frame).toNat
    let shed := (s.ten tn).st = .shedding ∨ (s.ten tn).st = .shed
    let late := lead = 0 ∨ 0x80000000 ≤ lead
    let full := 64 ≤ (s.pendingOf tn).length
    let denied := ∃ a ∈ s.covers tn scope, s.changeOk tn a = false
    (¬shed → ¬late → ¬full → ¬denied → Ends (.fabCommitFrameWrite m v) s fun t =>
      (∃ up, t.commits = s.commits ++ [⟨s.nextId, tn, v, scope, up⟩]) ∧ t.nextId = s.nextId + 1 ∧
      (∀ a ∈ s.covers tn scope, t.change a = .pending s.nextId) ∧
      (∀ a, a ∉ s.covers tn scope → t.change a = s.change a) ∧
      t.fab = { s.fab with rowsDown := t.fab.rowsDown } ∧ Answered m 0 false t ∧
      Only [.last, .fabric, .changes, .commits, .power] [RegKind.POND_BANK_STATUS.addr 0 0] [] s t) ∧
    (∀ reason, (reason = 4 ∧ shed) ∨ (reason = 1 ∧ ¬shed ∧ late) ∨ (reason = 2 ∧ ¬shed ∧ ¬late ∧ full) ∨
        (reason = 3 ∧ ¬shed ∧ ¬late ∧ ¬full ∧ denied) →
      Ends (.fabCommitFrameWrite m v) s fun t =>
        t.reg .FAB_CMT_REJ_FRAME tn = v ∧ t.reg .FAB_CMT_REJ_INFO tn = BitVec.ofNat 32 (scope.toNat + reason * 256) ∧
        t.fab = { s.fab with rejected := t.fab.rejected } ∧ Answered m 0 false t ∧
        Only [.last, .fabric] [RegKind.FAB_CMT_REJ_FRAME.addr tn 0, RegKind.FAB_CMT_REJ_INFO.addr tn 0]
          [⟨641, some tn, s.frame⟩] s t)

/-- O20. At the boundary of frame f every entry and selector pending on a commit with target f becomes active with its
inactive copy and CLEAN, but those of a tenant whose tail shed is due; one that is pending on no such commit keeps its
copies and state; every such commit leaves the queue with event 640 to its tenant, and every other commit stays. Time,
clocks, cores, tenants, links, NVM and the AON RAM are as they were. -/
def Obligations.CommitAppliesTogetherAtTargetFrame : Prop :=
  ∀ s : State, s.fabUp = true → s.rst.held = false →
    Ends .commitApply s fun t =>
      t.commits = s.commits.filter (fun c => decide (c.target ≠ s.frame) || s.shedDue c.tenant) ∧
      (∀ c ∈ s.commits, c.target = s.frame → s.shedDue c.tenant = false →
        (∀ n < 16384, s.change (connAddr n) = .pending c.id →
          (t.conn n).active = (s.conn n).inactive ∧ t.change (connAddr n) = .clean) ∧
        (∀ n < 1024, s.change (selAddr n) = .pending c.id →
          (t.sel n).active = (s.sel n).inactive ∧ t.change (selAddr n) = .clean) ∧
        ⟨640, some c.tenant, s.frame⟩ ∈ t.raised) ∧
      (∀ a, (∀ c ∈ s.commits, c.target = s.frame → s.shedDue c.tenant = false → (a, Change.pending c.id) ∉ s.chg) →
        t.change a = s.change a ∧
        (∀ n < 16384, a = connAddr n → t.conn n = s.conn n) ∧ ∀ n < 1024, a = selAddr n → t.sel n = s.sel n) ∧
      Kept [.regs, .events, .changes, .commits, .fabric, .power, .lines, .trunks, .audio, .panel, .thermal, .queues,
        .mem, .ecc, .counters, .ref] s t

/-- O21. FAB_DISCARD makes the writing tenant's DIRTY entries or selectors of the scopes asked for CLEAN and leaves
every other change; a row that AUTO lets go powers down; FAB_PAR_INJECT flips the stored parity of one active entry or
selector (of none where SLOT is above 1,023: the model's choice, log entry 94); CAPTURE_ARM starts a capture on SLOT at
the next boundary, or abandons a running one; and the end of its eighth frame clears ARM with event 644. Nothing else
changes. -/
def Obligations.FabricMaintenanceCommands : Prop :=
  (∀ (m : Master) (v : Word) (s : State), CanWrite m .FAB_DISCARD 0 0 s →
    Ends (.fabDiscard m v) s fun t =>
      t.chg = s.chg.filter (fun e => !(decide (e.2 = .dirty (s.tenantOf m)) &&
        ((v.getLsbD 0 && decide (e.1 / 0x10000 = 0x100)) || (v.getLsbD 1 && decide (e.1 / 0x10000 = 0x102))))) ∧
      Answered m 0 false t ∧ Only [.last, .changes] [] [] s t) ∧
  (∀ (slot : BitVec 14) (s : State), s.fabUp = true → s.rowMayDrop slot.toNat = true →
    Ends (.rowPowerDown slot) s fun t =>
      slot.toNat ∈ t.fab.rowsDown ∧ (∀ n, n ≠ slot.toNat → (n ∈ t.fab.rowsDown ↔ n ∈ s.fab.rowsDown)) ∧
      t.fab = { s.fab with rowsDown := t.fab.rowsDown } ∧ Only [.fabric] [] [] s t) ∧
  (∀ (m : Master) (v : Word) (s : State), CanWrite m .FAB_PAR_INJECT 0 0 s → v.getLsbD 30 = false →
    Ends (.fabParInject m v) s fun t =>
      (t.conn (fieldOf v 0 14)).active = (s.conn (fieldOf v 0 14)).active ^^^ 0x80000000 ∧
      (t.conn (fieldOf v 0 14)).inactive = (s.conn (fieldOf v 0 14)).inactive ∧
      (∀ n, n ≠ fieldOf v 0 14 → t.conn n = s.conn n) ∧ t.fab = { s.fab with conn := t.fab.conn } ∧
      Answered m 0 false t ∧ Only [.last, .fabric] [] [] s t) ∧
  (∀ (m : Master) (v : Word) (s : State), CanWrite m .FAB_PAR_INJECT 0 0 s → v.getLsbD 30 = true → fieldOf v 0 14 < 1024 →
    Ends (.fabParInject m v) s fun t =>
      (t.sel (fieldOf v 0 14)).active = (s.sel (fieldOf v 0 14)).active ^^^ 0x80000000 ∧
      (t.sel (fieldOf v 0 14)).inactive = (s.sel (fieldOf v 0 14)).inactive ∧
      (∀ n, n ≠ fieldOf v 0 14 → t.sel n = s.sel n) ∧ t.fab = { s.fab with sel := t.fab.sel } ∧
      Answered m 0 false t ∧ Only [.last, .fabric] [] [] s t) ∧
  (∀ (m : Master) (v : Word) (s : State), CanWrite m .FAB_PAR_INJECT 0 0 s → v.getLsbD 30 = true → 1024 ≤ fieldOf v 0 14 →
    Ends (.fabParInject m v) s fun t => Answered m 0 false t ∧ Only [.last] [] [] s t) ∧
  (∀ (m : Master) (v : Word) (s : State), CanWrite m .FAB_CAPTURE_CTL 0 0 s →
    Ends (.captureArm m v) s fun t =>
      t.reg .FAB_CAPTURE_CTL = v &&& 0x80003FFF ∧ t.fab.capWait = v.getLsbD 31 ∧ t.fab.capRun = none ∧
      (v.getLsbD 31 = true → t.fab.capSlot = fieldOf v 0 14) ∧ t.fab.conn = s.fab.conn ∧ t.fab.sel = s.fab.sel ∧
      Answered m 0 false t ∧ Only [.last, .fabric] [RegKind.FAB_CAPTURE_CTL.addr 0 0] [] s t) ∧
  ∀ s : State, s.fabUp = true → s.fab.capRun = some 8 →
    Ends .fabCaptureDone s fun t =>
      t.fab = { s.fab with capRun := none } ∧ t.f F.FAB_CAPTURE_CTL_ARM = 0 ∧
      t.f F.FAB_CAPTURE_CTL_SLOT = s.f F.FAB_CAPTURE_CTL_SLOT ∧
      Only [.fabric] [RegKind.FAB_CAPTURE_CTL.addr 0 0] [s.ev 644] s t

/-- O22. On a started port while the fabric runs: LOS_ZEROS zeros or a missing clock declare LOS, clear AIS and, on a
framed port, declare LOF at once; a running clock and a good 32-bit window clear LOS and recentre the store; two
successive 512-bit periods with at most two zeros declare AIS (not under LOS), two with more clear it; a CRC-4
multiframe not found in 64 frames with CRC4 = 1 declares LOF, in 3,200 frames with CRC4 = 2 declares NOCRC4 and
clears LOMF. The criteria of symbols need the supply of the port's bank (R817): without it nothing changes. Only that
port and its LINE_STATUS change, and as LOF is declared the run of SSM codes of the candidates routed from it. -/
def Obligations.LineDefectsDeclareAndClear : Prop :=
  ∀ (p : Fin 128) (s : State), (s.line p.val).on = true → s.fabUp = true →
    let fits := fun (t : State) => (∀ q, q ≠ p.val → t.line q = s.line q) ∧ t.dpll = s.dpll ∧
      Only [.lines, .ref] [RegKind.LINE_STATUS.addr p.val 0] [] s t
    let here := fun (t : State) => fits t ∧ t.cands = s.cands
    let lof := fun (t : State) => fits t ∧ (s.lineFramed p.val = false → t.cands = s.cands) ∧
      (s.lineFramed p.val = true →
        t.lineDefect p.val 2 = true ∧ t.lineDefect p.val 4 = false ∧ (t.line p.val).aligned = false ∧
        ∀ n < 8, t.cand n = if s.candFrom n 0 p.val then { s.cand n with count := 0 } else s.cand n)
    let fed := s.bankIn (p.val / 32) = true
    (s.bankIn (p.val / 32) = false → ∀ (zeros : BitVec 10) (clock : Bool) (window : BitVec 32) (k : Nat),
      Ends (.losDeclare p k false) s (Only [] [] [] s) ∧ Ends (.losClear p clock window) s (Only [] [] [] s) ∧
      Ends (.aisPeriodEnd p zeros) s (Only [] [] [] s)) ∧
    (∀ (zeros : Nat) (noClock : Bool), s.lineDefect p.val 0 = false →
      (noClock = true ∨ (fed ∧ s.losZeros p.val ≤ zeros)) →
      Ends (.losDeclare p zeros noClock) s fun t =>
        t.lineDefect p.val 0 = true ∧ t.lineDefect p.val 1 = false ∧ lof t) ∧
    (∀ window, fed → s.lineDefect p.val 0 = true → clearWindow (s.losZeros p.val) window = true →
      Ends (.losClear p true window) s fun t =>
        t.lineDefect p.val 0 = false ∧ t.line p.val = { s.line p.val with recentre := true, chg := true } ∧ here t) ∧
    (∀ zeros : BitVec 10, fed → zeros.toNat ≤ 2 → (s.line p.val).aisLow = true → s.lineDefect p.val 0 = false →
      s.lineDefect p.val 1 = false →
      Ends (.aisPeriodEnd p zeros) s fun t => t.lineDefect p.val 1 = true ∧ lof t) ∧
    (∀ zeros : BitVec 10, fed → 2 < zeros.toNat → (s.line p.val).aisHigh = true → s.lineDefect p.val 1 = true →
      Ends (.aisPeriodEnd p zeros) s fun t => t.lineDefect p.val 1 = false ∧
        t.line p.val = { s.line p.val with aisLow := false, aisHigh := true, chg := true } ∧ here t) ∧
    (∀ zeros : BitVec 10, fed → (zeros.toNat ≤ 2 → (s.line p.val).aisLow = false) →
      (2 < zeros.toNat → (s.line p.val).aisHigh = false) →
      Ends (.aisPeriodEnd p zeros) s fun t => t.reg .LINE_STATUS p.val = s.reg .LINE_STATUS p.val ∧
        t.line p.val = { s.line p.val with aisLow := decide (zeros.toNat ≤ 2), aisHigh := !decide (zeros.toNat ≤ 2) } ∧
        here t) ∧
    (s.fa F.LINE_CTL_CRC4 p.val = 1 → (s.line p.val).aligned = true → (s.line p.val).mfPos = none →
      64 ≤ (s.line p.val).alFrames → Ends (.multiframeSearchTimeout p) s lof) ∧
    (s.fa F.LINE_CTL_CRC4 p.val = 2 → (s.line p.val).aligned = true → (s.line p.val).mfPos = none →
      (s.line p.val).mfDone = false → 3200 ≤ (s.line p.val).alFrames →
      Ends (.nocrc4 p) s fun t => t.lineDefect p.val 5 = true ∧ t.lineDefect p.val 3 = false ∧
        (t.line p.val).mfDone = true ∧ here t)

/-- O23. LINE_FRAME_RECEIVED touches only its port, that port's LINE_STATUS and LINE_RX_SA, and the reference block. On
an aligned unipolar port without a multiframe whose next frame carries the FAS: with the FAS word the 32 bytes enter
the store behind the frames that wait, the run of bad words ends and no defect changes; a third bad word in a row
declares LOF; a first or second is counted and stored. The store's fill grows by a frame (the model's account of it, log
entry 78). Each candidate routed from the port gets its marker. Without the supply of the port's bank no symbol is
read. -/
def Obligations.LineFrameEntersStoreAndFramer : Prop :=
  ∀ (p : Fin 128) (pos : BitVec 256) (phase : BitVec 17) (s : State), (s.line p.val).on = true → s.fabUp = true →
    s.fa F.LINE_CTL_LOOP p.val ≠ 1 →
    (s.bankIn (p.val / 32) = false → ∀ neg, Ends (.lineFrameReceived p pos neg phase) s (Only [] [] [] s)) ∧
    (∀ neg : BitVec 256, Ends (.lineFrameReceived p pos neg phase) s fun t =>
      (∀ q, q ≠ p.val → t.line q = s.line q) ∧ Kept [.regs, .events, .lines, .ref] s t ∧
      RegsKept ([RegKind.LINE_STATUS.addr p.val 0, RegKind.LINE_RX_SA.addr p.val 0] ++
        regsOf [.REF_CAND_STATUS, .REF_SEL_STATUS]) s t) ∧
    (s.bankIn (p.val / 32) = true → s.ba F.LINE_CTL_IF_MODE p.val = true → s.lineFramed p.val = true → (s.line p.val).aligned = true →
      (s.line p.val).odd = false → (s.line p.val).mfPos = none → (s.line p.val).fb = [] →
      let bs := listOfBits pos
      let bytes := (List.range 32).map fun i => byteOf ((bs.drop (8 * i)).take 8)
      (isFas bs = true → Ends (.lineFrameReceived p pos 0 phase) s fun t =>
        (t.line p.val).frames = (s.line p.val).frames ++ [⟨bytes, none⟩] ∧ (t.line p.val).fasBad = 0 ∧
        (t.line p.val).odd = true ∧ (t.line p.val).aligned = true ∧
        (t.line p.val).phase = some phase.toInt ∧ (t.line p.val).late = 0 ∧
        ((s.line p.val).phase.isSome = true → (t.line p.val).fill = (s.line p.val).fill + 98304) ∧
        t.reg .LINE_STATUS p.val = s.reg .LINE_STATUS p.val ∧
        ∀ n < 8, s.candFrom n 0 p.val = true → (t.cand n).age = 0 ∧ (t.cand n).err = phase.toInt) ∧
      (isFas bs = false → (s.line p.val).fasBad < 2 → Ends (.lineFrameReceived p pos 0 phase) s fun t =>
        (t.line p.val).frames = (s.line p.val).frames ++ [⟨bytes, none⟩] ∧
        (t.line p.val).fasBad = (s.line p.val).fasBad + 1 ∧ (t.line p.val).cnt = bumpAt (s.line p.val).cnt 0 1 ∧
        t.reg .LINE_STATUS p.val = s.reg .LINE_STATUS p.val) ∧
      (isFas bs = false → 2 ≤ (s.line p.val).fasBad → Ends (.lineFrameReceived p pos 0 phase) s fun t =>
        t.lineDefect p.val 2 = true ∧ (t.line p.val).aligned = false ∧ (t.line p.val).cnt = bumpAt (s.line p.val).cnt 0 1))

/-- O24. TRUNK_FRAME_RECEIVED touches only its trunk, that trunk's status, overhead and trace registers, and the
reference block. On an aligned trunk a frame whose FAW position differs in at most one bit, or is no more than the
third bad one in a row, enters the buffer of 20 frames descrambled, newest first; the fourth bad position declares
LOF and LOMF. A quiet or misplaced clock declares LOS with LOF; a good one, with a transition in every 256 bits, clears
LOS and recentres. With LOF the run of QL codes of the candidates routed from the trunk ends. The bits are read while
the supply of bank 4 is there (R817). -/
def Obligations.TrunkFrameEntersBuffer : Prop :=
  ∀ (k : Fin 4) (s : State), (s.trunk k.val).on = true → s.fabUp = true →
    let regs := [RegKind.TRK_STATUS.addr k.val 0, RegKind.TRK_RX_OH.addr k.val 0, RegKind.TRK_RX_TRACE.addr k.val 0,
      RegKind.TRK_RX_TRACE.addr k.val 1, RegKind.TRK_RX_TRACE.addr k.val 2, RegKind.TRK_RX_TRACE.addr k.val 3]
    (∀ (bits : BitVec 16384) (phase : BitVec 17), Ends (.trunkFrameReceived k bits phase) s fun t =>
      (∀ q, q ≠ k.val → t.trunk q = s.trunk q) ∧ t.pairs = s.pairs ∧ Kept [.regs, .events, .trunks, .ref] s t ∧
      RegsKept (regs ++ regsOf [.REF_CAND_STATUS, .REF_SEL_STATUS]) s t) ∧
    (∀ (bits : BitVec 16384) (phase : BitVec 17), s.bankIn 4 = true → s.fa F.TRK_CTL_LOOP k.val = 0 → (s.trunk k.val).aligned = true →
      (s.trunk k.val).fb = [] →
      ((fawDiff (listOfBits bits) < 2 ∨ (s.trunk k.val).fawBad < 3) →
        Ends (.trunkFrameReceived k bits phase) s fun t =>
          (t.trunk k.val).aligned = true ∧ (t.trunk k.val).fb = [] ∧
          (t.trunk k.val).buf = (⟨(descramble (listOfBits bits)).getD 4 0, descramble (listOfBits bits)⟩ ::
            (s.trunk k.val).buf).take 20 ∧
          (t.trunk k.val).fawBad =
            if 2 ≤ fawDiff (listOfBits bits) then (s.trunk k.val).fawBad + 1 else 0) ∧
      (2 ≤ fawDiff (listOfBits bits) → (s.trunk k.val).fawBad = 3 →
        Ends (.trunkFrameReceived k bits phase) s fun t =>
          (t.trunk k.val).aligned = false ∧ t.trunkDefect k.val 1 = true ∧ t.trunkDefect k.val 2 = true ∧
          (t.trunk k.val).buf = (s.trunk k.val).buf)) ∧
    (∀ (quiet : Nat) (ppm : BitVec 16), s.trunkDefect k.val 0 = false → (256 ≤ quiet ∨ 500 < ppm.toInt.natAbs) →
      Ends (.trunkLosDeclare k quiet ppm) s fun t => t.trunkDefect k.val 0 = true ∧ t.trunkDefect k.val 1 = true ∧
        t.trunkDefect k.val 2 = true ∧ (t.trunk k.val).aligned = false ∧ (∀ q, q ≠ k.val → t.trunk q = s.trunk q) ∧
        t.pairs = s.pairs ∧ t.dpll = s.dpll ∧
        (∀ n < 8, t.cand n = if s.candFrom n 1 k.val then { s.cand n with count := 0 } else s.cand n) ∧
        Only [.trunks, .ref] [RegKind.TRK_STATUS.addr k.val 0] [] s t) ∧
    (∀ (ppm : BitVec 16) (quiet : Nat), s.bankIn 4 = true → s.trunkDefect k.val 0 = true → ppm.toInt.natAbs ≤ 500 →
      quiet < 256 →
      Ends (.trunkLosClear k ppm quiet) s fun t => t.trunkDefect k.val 0 = false ∧
        t.trunk k.val = { s.trunk k.val with recentre := true, chg := true } ∧
        (∀ q, q ≠ k.val → t.trunk q = s.trunk q) ∧
        t.pairs = s.pairs ∧ Only [.trunks] [RegKind.TRK_STATUS.addr k.val 0] [] s t)

/-- O25. The read returns the newer bank's SEC. From then on that master's reads of the port's counters come from that
same bank, whichever bank becomes the newer, until it reads the register again; every other master's selection
stays. The same holds for the trunks' TRK_CNT_SEC (R275). -/
def Obligations.SecCounterReadSelectsNewerBank : Prop :=
  (∀ (m : Master) (p : Fin 128) (s : State), CanRead m .LINE_CNT_SEC p.val 0 s →
    Ends (.lineCntSecRead m p) s fun t =>
      Answered m (if (s.line p.val).newer then (s.line p.val).bank1 else (s.line p.val).bank0).sec false t ∧
      (∀ newer b0 b1, bankOf (t.latch m (RegKind.LINE_CNT_SEC.addr p.val 0)) newer b0 b1 =
        if (s.line p.val).newer then b1 else b0) ∧
      (∀ a, a ≠ latchKey m (RegKind.LINE_CNT_SEC.addr p.val 0) →
        tabGet (fun _ => (0 : Word)) t.latches a = tabGet (fun _ => 0) s.latches a) ∧
      Only [.last, .latches] [] [] s t) ∧
  ∀ (m : Master) (k : Fin 4) (s : State), CanRead m .TRK_CNT_SEC k.val 0 s →
    Ends (.trkCntSecRead m k) s fun t =>
      Answered m (if (s.trunk k.val).newer then (s.trunk k.val).bank1 else (s.trunk k.val).bank0).sec false t ∧
      (∀ newer b0 b1, bankOf (t.latch m (RegKind.TRK_CNT_SEC.addr k.val 0)) newer b0 b1 =
        if (s.trunk k.val).newer then b1 else b0) ∧
      (∀ a, a ≠ latchKey m (RegKind.TRK_CNT_SEC.addr k.val 0) →
        tabGet (fun _ => (0 : Word)) t.latches a = tabGet (fun _ => 0) s.latches a) ∧
      Only [.last, .latches] [] [] s t

/-- O26. When SYS_TIME is a positive multiple of 24,576,000 and this boundary has not been served: every line port and
every trunk latches its accumulators, saturated at their widths with their SAT bits, into the bank that was the
older, which becomes the newer with SEC = SYS_TIME / 24,576,000 − 1; the other bank is kept, the accumulators are
zero. Only the reference block, the lines and the trunks change beside. -/
def Obligations.SecondBoundaryLatchesCounters : Prop :=
  ∀ s : State, s.fabUp = true → s.rst.held = false → s.sys.toNat % 24576000 = 0 → 0 < s.sys.toNat →
    s.secDone = false →
    Ends .secondBoundary s fun t =>
      let sec : Word := BitVec.ofNat 32 (s.sys.toNat / 24576000 - 1)
      (∀ p < 128, t.line p = if (s.line p).newer then
          { s.line p with bank0 := latchBank lineWidths sec (s.line p).cnt, newer := false, cnt := [] }
        else { s.line p with bank1 := latchBank lineWidths sec (s.line p).cnt, newer := true, cnt := [] }) ∧
      (∀ k < 4, t.trunk k = if (s.trunk k).newer then
          { s.trunk k with bank0 := latchBank trunkWidths sec (s.trunk k).cnt, newer := false, cnt := [] }
        else { s.trunk k with bank1 := latchBank trunkWidths sec (s.trunk k).cnt, newer := true, cnt := [] }) ∧
      t.secDone = true ∧ t.frame = s.frame ∧ t.sys = s.sys ∧ t.pairs = s.pairs ∧
      Kept [.regs, .events, .time, .ref, .lines, .trunks, .free] s t ∧
      RegsKept (regsOf [.CLK_STEER, .DPLL_HIST, .DPLL_HIST_HEAD, .DPLL_HOLD_VALUE, .DPLL_PHASE, .DPLL_STATUS,
        .REF_SEL_STATUS]) s t

/-- O27. On a core that executes: seta, setah, andi, ori, xori, not, mvax, mvay and mvas write A with Z and N of the
result (C, V and IE kept); setx, sety, mvxa, mvya, mvyx, mvxy, mvsa, mvaf write their register and no flag; mvfa
writes C, Z, N, V and IE from A; clrc, setc, ei and di write their one flag; nop writes nothing. The PC moves to the
next word; every other register, both memories, every other core and every other part is as it was. -/
def Obligations.RegisterInstructionsWriteTheirRegister : Prop :=
  ∀ (n : Fin 17) (x : BitVec 21) (s : State), Executes n.val s →
    let c := s.ctx n.val
    let imm : Word := x.signExtend 32
    let next : Ctx := { c with pc := c.pc + 4 }
    let toA := fun (r : Word) => ({ next with a := r, f := flagsZN c.f r } : Ctx)
    let gives := fun (i : Instr) (d : Ctx) => Ends i s fun t => Completes [] n.val s t d
    gives (.seta n 0 x) (toA imm) ∧ gives (.setah n 0 x) (toA (x ++ c.a.extractLsb' 0 11)) ∧
    gives (.setx n 0 x) { next with x := imm } ∧ gives (.sety n 0 x) { next with y := imm } ∧
    gives (.andi n 0 x) (toA (c.a &&& imm)) ∧ gives (.ori n 0 x) (toA (c.a ||| imm)) ∧
    gives (.xori n 0 x) (toA (c.a ^^^ imm)) ∧ gives (.not n 0 0) (toA (c.a ^^^ 0xFFFFFFFF)) ∧
    gives (.nop n 0 0) next ∧
    gives (.mvxa n 0 0) { next with x := c.a } ∧ gives (.mvya n 0 0) { next with y := c.a } ∧
    gives (.mvax n 0 0) (toA c.x) ∧ gives (.mvay n 0 0) (toA c.y) ∧
    gives (.mvyx n 0 0) { next with y := c.x } ∧ gives (.mvxy n 0 0) { next with x := c.y } ∧
    gives (.mvas n 0 0) (toA ((0 : BitVec 8) ++ c.s)) ∧ gives (.mvsa n 0 0) { next with s := c.a.setWidth 24 } ∧
    gives (.mvaf n 0 0) { next with a := (0 : BitVec 26) ++ (BitVec.ofBool (s.core n.val).inHandler ++ c.f) } ∧
    gives (.mvfa n 0 0) { next with f := c.a.setWidth 5 } ∧
    gives (.clrc n 0 0) { next with f := c.f &&& 0b11110 } ∧ gives (.setc n 0 0) { next with f := c.f ||| 0b00001 } ∧
    gives (.ei n 0 0) { next with f := c.f ||| 0b10000 } ∧ gives (.di n 0 0) { next with f := c.f &&& 0b01111 }

/-- O28. addi, cmpi and neg, and with a memory operand that steps 1 to 5 of R365 admit add, adc, sub, sbc and cmp: A
takes the sum or difference (cmp and cmpi keep it), C is the carry out of bit 31 or the borrow, V the signed
overflow, Z and N are of the result; and, or and xor set Z and N only. The PC moves on and nothing else changes. -/
def Obligations.SumsAndDifferencesSetFourFlags : Prop :=
  ∀ (n : Fin 17) (s : State), Executes n.val s →
    let c := s.ctx n.val
    let next : Ctx := { c with pc := c.pc + 4 }
    let carry : Word := if c.f.getLsbD 0 then 1 else 0
    let gives := fun (i : Instr) (d : Ctx) => Ends i s fun t => Completes [] n.val s t d
    (∀ x : BitVec 21, let imm : Word := x.signExtend 32
      gives (.addi n 0 x) { next with a := c.a + imm, f := flagsAdd c.f c.a imm false } ∧
      gives (.cmpi n 0 x) { next with f := flagsSub c.f c.a imm false }) ∧
    gives (.neg n 0 0) { next with a := 0 - c.a, f := flagsSub c.f 0 c.a false } ∧
    ∀ (sm : BitVec 4) (x : BitVec 21) (v : Word), LoadsMem n.val sm.toNat x.toNat 4 v s →
      gives (.add n sm x) { next with a := c.a + v, f := flagsAdd c.f c.a v false } ∧
      gives (.adc n sm x) { next with a := c.a + v + carry, f := flagsAdd c.f c.a v (c.f.getLsbD 0) } ∧
      gives (.sub n sm x) { next with a := c.a - v, f := flagsSub c.f c.a v false } ∧
      gives (.sbc n sm x) { next with a := c.a - v - carry, f := flagsSub c.f c.a v (c.f.getLsbD 0) } ∧
      gives (.cmp n sm x) { next with f := flagsSub c.f c.a v false } ∧
      gives (.and n sm x) { next with a := c.a &&& v, f := flagsZN c.f (c.a &&& v) } ∧
      gives (.or n sm x) { next with a := c.a ||| v, f := flagsZN c.f (c.a ||| v) } ∧
      gives (.xor n sm x) { next with a := c.a ^^^ v, f := flagsZN c.f (c.a ^^^ v) }

/-- O29. For counts k of 0 to 31, shl, shr, sar and rol move A by k places, with C the last bit that moved out (kept for
k = 0) and V kept. mulu and muls put the exact product into X:A with Z of 64 bits, N of bit 63, C = V = 0. divu and
divs put the quotient, truncated toward zero, into A and the remainder, with the dividend's sign, into X; C = 0, and
V = 1 only for 0x80000000 by 0xFFFFFFFF. With X = 0 they raise DIV_ZERO with fault address 0. -/
def Obligations.ShiftsProductsAndQuotients : Prop :=
  ∀ (n : Fin 17) (s : State), Executes n.val s →
    let c := s.ctx n.val
    let next : Ctx := { c with pc := c.pc + 4 }
    let gives := fun (i : Instr) (d : Ctx) => Ends i s fun t => Completes [] n.val s t d
    (∀ k < 32,
      let x := BitVec.ofNat 21 k
      let shifted := fun (r : Word) (bit : Nat) => ({ next with
        a := r, f := flagsOf c.f (if k = 0 then c.f.getLsbD 0 else c.a.getLsbD bit) (decide (r = 0)) r.msb
          (c.f.getLsbD 3) } : Ctx)
      gives (.shl n 0 x) (shifted (BitVec.ofNat 32 (c.a.toNat * 2 ^ k)) (32 - k)) ∧
      gives (.shr n 0 x) (shifted (BitVec.ofNat 32 (c.a.toNat / 2 ^ k)) (k - 1)) ∧
      gives (.sar n 0 x) (shifted (BitVec.ofInt 32 (c.a.toInt / 2 ^ k)) (k - 1)) ∧
      gives (.rol n 0 x) (shifted (BitVec.ofNat 32 (c.a.toNat * 2 ^ k + c.a.toNat / 2 ^ (32 - k))) (32 - k))) ∧
    (let p : Nat := c.a.toNat * c.x.toNat;
      gives (.mulu n 0 0) { next with
        a := BitVec.ofNat 32 p, x := BitVec.ofNat 32 (p / 2 ^ 32),
        f := flagsOf c.f false (decide (p = 0)) (decide (2 ^ 63 ≤ p)) false }) ∧
    (let p : Int := c.a.toInt * c.x.toInt;
      gives (.muls n 0 0) { next with
        a := BitVec.ofInt 32 p, x := BitVec.ofInt 32 (p / 2 ^ 32),
        f := flagsOf c.f false (decide (p = 0)) (decide (p < 0)) false }) ∧
    (c.x ≠ 0 →
      let q := BitVec.ofNat 32 (c.a.toNat / c.x.toNat)
      gives (.divu n 0 0) { next with
        a := q, x := BitVec.ofNat 32 (c.a.toNat % c.x.toNat),
        f := flagsOf c.f false (decide (q = 0)) q.msb false }) ∧
    (c.x ≠ 0 →
      let q := BitVec.ofInt 32 (c.a.toInt.tdiv c.x.toInt)
      gives (.divs n 0 0) { next with
        a := q, x := BitVec.ofInt 32 (c.a.toInt.tmod c.x.toInt),
        f := flagsOf c.f false (decide (q = 0)) q.msb (decide (c.a = 0x80000000 ∧ c.x = 0xFFFFFFFF)) }) ∧
    (c.x = 0 → Ends (.divu n 0 0) s (Trapped n.val 9 0 false false s) ∧
      Ends (.divs n 0 0) s (Trapped n.val 9 0 false false s))

/-- O30. gaw, gab and gah load 4, 1 and 2 bytes into A (zero-extended, Z and N set), gxw and gyw 4 bytes into X and Y,
from pond memory or the eft's AON RAM; gaw reads a plain register of control space; nothing else changes. For these
and add, adc, sub, sbc, and, or, xor, cmp, a descriptor not VALID, without R, an EO not a multiple of the size, one
that ends beyond LIMIT, a bank that is not on, or an uncorrectable word faults with code 3, 4, 5, 6, 7 or 8 in that
order and the address BASE + EO. -/
def Obligations.LoadsReadTheirSegment : Prop :=
  ∀ (n : Fin 17) (sm : BitVec 4) (x : BitVec 21) (s : State), Executes n.val s →
    let c := s.ctx n.val
    let next : Ctx := { c with pc := c.pc + 4 }
    let gives := fun (i : Instr) (d : Ctx) => Ends i s fun t => Completes [] n.val s t d
    let d := c.segAt sm.toNat
    let eo := s.operandEo n.val sm.toNat x.toNat
    let a := s.operandAt n.val sm.toNat x.toNat
    (∀ v, LoadsMem n.val sm.toNat x.toNat 4 v s →
      gives (.gaw n sm x) { next with a := v, f := flagsZN c.f v } ∧
      gives (.gxw n sm x) { next with x := v } ∧ gives (.gyw n sm x) { next with y := v }) ∧
    (∀ v, LoadsMem n.val sm.toNat x.toNat 1 v s → gives (.gab n sm x) { next with a := v, f := flagsZN c.f v }) ∧
    (∀ v, LoadsMem n.val sm.toNat x.toNat 2 v s → gives (.gah n sm x) { next with a := v, f := flagsZN c.f v }) ∧
    (∀ (k : RegKind) (i j : Nat), Admits d .r eo 4 4 → a = k.addr i j → k ∈ plainRegs → k.info.maskOf .rc = 0 →
      k ≠ .HL_STATUS → k ≠ .I2C_CFG → k.has i j → CanRead (coreMaster n.val) k i j s → a ∉ bookRegs n.val →
      gives (.gaw n sm x) { next with a := s.reg k i j, f := flagsZN c.f (s.reg k i j) }) ∧
    ∀ e ∈ [(Instr.gaw n sm x, 4), (.gab n sm x, 1), (.gah n sm x, 2), (.gxw n sm x, 4), (.gyw n sm x, 4),
        (.add n sm x, 4), (.adc n sm x, 4), (.sub n sm x, 4), (.sbc n sm x, 4), (.and n sm x, 4), (.or n sm x, 4),
        (.xor n sm x, 4), (.cmp n sm x, 4)],
      (segValid d = false → Ends e.1 s (Trapped n.val 3 a false false s)) ∧
      (segValid d = true → segR d = false → Ends e.1 s (Trapped n.val 4 a false false s)) ∧
      (segValid d = true → segR d = true → eo % e.2 ≠ 0 → Ends e.1 s (Trapped n.val 5 a false false s)) ∧
      (segValid d = true → segR d = true → eo % e.2 = 0 → segLimit d < eo + e.2 →
        Ends e.1 s (Trapped n.val 6 a false false s)) ∧
      (Admits d .r eo e.2 e.2 → inAon n.val a = false → a < 0x1000000 → s.pondOn a e.2 = false →
        Ends e.1 s (Trapped n.val 7 a false false s)) ∧
      (Admits d .r eo e.2 e.2 → inAon n.val a = false → a < 0x1000000 → s.pondOn a e.2 = true →
        (∃ w ∈ wordsOf a e.2, (s.eccOf w).ue = true) → Ends e.1 s (Trapped n.val 8 a false false s))

/-- O31. paw, pab, pah, pxw and pyw store 4, 1, 2, 4 and 4 low bytes of A, A, A, X and Y at BASE + EO in pond memory or
AON RAM, and every other byte of both memories is as it was; a paw to a plain register of control space writes it
under its access rules. push stores A, X, Y or F at S − 4 and moves S there; pop loads from S and adds 4 (only F's
five flags for F). A store without W, unaligned or beyond LIMIT faults with its code and changes no memory. -/
def Obligations.StoresWriteTheirBytesOnly : Prop :=
  ∀ (n : Fin 17) (s : State), Executes n.val s →
    let c := s.ctx n.val
    let next : Ctx := { c with pc := c.pc + 4 }
    (∀ (sm : BitVec 4) (x : BitVec 21),
      let d := c.segAt sm.toNat
      let eo := s.operandEo n.val sm.toNat x.toNat
      let a := s.operandAt n.val sm.toNat x.toNat
      (∀ e ∈ [(Instr.paw n sm x, 4, c.a), (.pab n sm x, 1, c.a), (.pah n sm x, 2, c.a), (.pxw n sm x, 4, c.x),
          (.pyw n sm x, 4, c.y)],
        (Admits d .w eo e.2.1 e.2.1 → MemOk n.val a e.2.1 s → Ends e.1 s fun t =>
          Completes [.mem, .aon] n.val s t next ∧ Stored n.val a e.2.1 e.2.2 s t) ∧
        (segValid d = false → Ends e.1 s (Trapped n.val 3 a false false s)) ∧
        (segValid d = true → segW d = false → Ends e.1 s (Trapped n.val 4 a false false s)) ∧
        (segValid d = true → segW d = true → eo % e.2.1 ≠ 0 → Ends e.1 s (Trapped n.val 5 a false false s)) ∧
        (segValid d = true → segW d = true → eo % e.2.1 = 0 → segLimit d < eo + e.2.1 →
          Ends e.1 s (Trapped n.val 6 a false false s))) ∧
      ∀ (k : RegKind) (i j : Nat), Admits d .w eo 4 4 → a = k.addr i j → k ∈ plainRegs → k.has i j →
        CanWrite (coreMaster n.val) k i j s → codesBad k c.a = false → a ∉ bookRegs n.val →
        Ends (.paw n sm x) s fun t =>
          (∀ b < 32, (t.reg k i j).getLsbD b =
            if (k.info.maskOf .rw).getLsbD b then c.a.getLsbD b
            else (s.reg k i j).getLsbD b && !((k.info.maskOf .w1c).getLsbD b && c.a.getLsbD b)) ∧
          t.ctx n.val = next ∧ CoreKept n.val s t ∧ (∀ m, m ≠ n.val → t.core m = s.core m) ∧
          Kept [.regs, .events, .cores, .counters, .ecc, .free] s t ∧ RegsKept (bookRegs n.val ++ [a]) s t) ∧
    let d := c.segAt 14
    (let sp := c.s - 4
      let a := addrOf d sp.toNat
      Admits d .w sp.toNat 4 4 → MemOk n.val a 4 s →
        ∀ r < 4, Ends (.push n 0 (BitVec.ofNat 21 r)) s fun t =>
          Completes [.mem, .aon] n.val s t { next with s := sp } ∧
          Stored n.val a 4 ([c.a, c.x, c.y,
            (0 : BitVec 26) ++ (BitVec.ofBool (s.core n.val).inHandler ++ c.f)].getD r 0) s t) ∧
    let a := addrOf d c.s.toNat
    let v := s.memWord n.val a 4
    Admits d .r c.s.toNat 4 4 → MemOk n.val a 4 s →
      ∀ r < 4, Ends (.pop n 0 (BitVec.ofNat 21 r)) s fun t =>
        Completes [] n.val s t ([{ next with s := c.s + 4, a := v }, { next with s := c.s + 4, x := v },
          { next with s := c.s + 4, y := v }, { next with s := c.s + 4, f := v.setWidth 5 }].getD r next)

/-- O32. jmp and call go to 4 × OPERAND, b<cc> too where its condition of R392 holds and to the next word where not (cc
15 raises ILLEGAL_OP); jmpa and calla go to A[23:0]; call and calla push the offset of the next word at S − 4; ret
pops its target. No flag changes. jmpa, calla and ret to an offset that is no multiple of 4 raise ALIGN with the
fetch address it would have made, and no memory or register of the context changes. -/
def Obligations.TransfersSetThePc : Prop :=
  ∀ (n : Fin 17) (s : State), Executes n.val s →
    let c := s.ctx n.val
    let gives := fun (i : Instr) (d : Ctx) => Ends i s fun t => Completes [] n.val s t d
    let d := c.segAt 14
    let toA : BitVec 24 := c.a.setWidth 24
    let fetchAt := fun (pc : BitVec 24) => (segBase (c.segAt 15) + pc.toNat) % 2 ^ 32
    (∀ x : BitVec 21, let target := BitVec.ofNat 24 (4 * x.toNat)
      gives (.jmp n 0 x) { c with pc := target } ∧
      (∀ cc : BitVec 4, cc ≠ 15 →
        let (fc, fz, fn, fv) := (c.f.getLsbD 0, c.f.getLsbD 1, c.f.getLsbD 2, c.f.getLsbD 3)
        let holds := [true, fz, !fz, fc, !fc, fn, !fn, fv, !fv, !fc && !fz, fc || fz, fn != fv, fn == fv,
          !fz && fn == fv, fz || fn != fv].getD cc.toNat false
        gives (.bCc n cc x) { c with pc := if holds then target else c.pc + 4 }) ∧
      Ends (.bCc n 15 x) s (Trapped n.val 1 0 false false s)) ∧
    (toA.toNat % 4 = 0 → gives (.jmpa n 0 0) { c with pc := toA }) ∧
    (toA.toNat % 4 ≠ 0 → Ends (.jmpa n 0 0) s (Trapped n.val 5 (fetchAt toA) false false s) ∧
      Ends (.calla n 0 0) s (Trapped n.val 5 (fetchAt toA) false false s)) ∧
    (let sp := c.s - 4
      let a := addrOf d sp.toNat
      Admits d .w sp.toNat 4 4 → MemOk n.val a 4 s →
        (∀ x : BitVec 21, Ends (.call n 0 x) s fun t =>
          Completes [.mem, .aon] n.val s t { c with s := sp, pc := BitVec.ofNat 24 (4 * x.toNat) } ∧
          Stored n.val a 4 ((0 : BitVec 8) ++ (c.pc + 4)) s t) ∧
        (toA.toNat % 4 = 0 → Ends (.calla n 0 0) s fun t =>
          Completes [.mem, .aon] n.val s t { c with s := sp, pc := toA } ∧
          Stored n.val a 4 ((0 : BitVec 8) ++ (c.pc + 4)) s t)) ∧
    let a := addrOf d c.s.toNat
    let pc : BitVec 24 := (s.memWord n.val a 4).setWidth 24
    Admits d .r c.s.toNat 4 4 → MemOk n.val a 4 s →
      (pc.toNat % 4 = 0 → gives (.ret n 0 0) { c with s := c.s + 4, pc := pc }) ∧
      (pc.toNat % 4 ≠ 0 → Ends (.ret n 0 0) s (Trapped n.val 5 (fetchAt pc) false false s))

/-- O33. A core in MAIN with IE = 1, between two instructions and in no debug step, takes the pending event of its
lowest selector: HANDLER runs at 0 with A the event number and Y its stamp, MAIN is kept, the event is pending no more.
An undefined word raises ILLEGAL_OP, from HANDLER a double fault. In HANDLER mrd reads MAIN's A, X, Y, S, F or PC into
A, mwr writes it (S and PC from bits 23:0, PC's bits 1:0 as 0), and reti resumes MAIN at its saved PC; in MAIN they
raise ILLEGAL_OP. -/
def Obligations.HandlerIsEnteredAndLeft : Prop :=
  ∀ (n : Fin 17) (s : State),
    (∀ (e i : Nat) (y : Word), s.rst.held = false → s.corePg n.val = true → (n.val = 16 ∨ s.divRun = true) →
      ((s.core n.val).st = .run ∨ (s.core n.val).st = .wait) → (s.core n.val).inHandler = false →
      (s.core n.val).main.f.getLsbD 4 = true → (s.core n.val).afterReti = false →
      (s.core n.val).stepping = false → (s.core n.val).part = 0 →
      (e, y) ∈ s.pendList n.val → s.irqOf n.val e = some i →
      (∀ p ∈ s.pendList n.val, p ≠ (e, y) → ∀ j, s.irqOf n.val p.1 = some j → i < j) →
      Ends (.interruptAccept n) s fun t =>
        (t.core n.val).st = .run ∧ (t.core n.val).inHandler = true ∧ (t.core n.val).main = (s.core n.val).main ∧
        (t.core n.val).hand = { (s.core n.val).hand with a := BitVec.ofNat 32 e, y := y, pc := 0 } ∧
        (∀ k, tabGet (fun _ => none) t.pend k = if k = n.val * 1024 + e then none else tabGet (fun _ => none) s.pend k) ∧
        (∀ m, m ≠ n.val → t.core m = s.core m) ∧ RegsKept (bookRegs n.val) s t ∧
        Kept [.regs, .events, .cores, .counters, .ecc, .pend] s t) ∧
    (Executes n.val s →
      let c := s.core n.val
      (∀ w, undefinedWord w = true → Ends (.illegalOp n w) s (Trapped n.val 1 0 false false s)) ∧
      (c.inHandler = false → ∀ x : BitVec 21, Ends (.mrd n 0 x) s (Trapped n.val 1 0 false false s) ∧
        Ends (.mwr n 0 x) s (Trapped n.val 1 0 false false s) ∧ Ends (.reti n 0 0) s (Trapped n.val 1 0 false false s)) ∧
      (c.inHandler = true →
        let next : Ctx := { c.hand with pc := c.hand.pc + 4 }
        (∀ r < 6, Ends (.mrd n 0 (BitVec.ofNat 21 r)) s fun t => Completes [] n.val s t { next with
          a := [c.main.a, c.main.x, c.main.y, (0 : BitVec 8) ++ c.main.s, (0 : BitVec 27) ++ c.main.f,
            (0 : BitVec 8) ++ c.main.pc].getD r 0 }) ∧
        (∀ r < 6, Ends (.mwr n 0 (BitVec.ofNat 21 r)) s fun t =>
          (t.core n.val).main = [{ c.main with a := c.hand.a }, { c.main with x := c.hand.a },
            { c.main with y := c.hand.a }, { c.main with s := c.hand.a.setWidth 24 },
            { c.main with f := c.hand.a.setWidth 5 },
            { c.main with pc := c.hand.a.setWidth 24 &&& 0xFFFFFC }].getD r c.main ∧
          (t.core n.val).hand = next ∧ (t.core n.val).inHandler = true ∧ (t.core n.val).st = .run ∧ Around [] n.val s t) ∧
        Ends (.reti n 0 0) s fun t =>
          (t.core n.val).inHandler = false ∧ (t.core n.val).main = c.main ∧ (t.core n.val).hand = next ∧
          (t.core n.val).st = .run ∧ (t.core n.val).afterReti = true ∧ Around [] n.val s t))

/-- O34. On a core that executes, every instruction whose SM must be 0 with another SM, a register-group word with
OPERAND bits 20:6 other than 0, a shift count above 31, and an operand out of the range of ret, push, pop, cmt, wev,
mrd or mwr raise ILLEGAL_OP with fault address 0: the context keeps its registers, and memory is as it was. -/
def Obligations.UndefinedFieldsAreIllegal : Prop :=
  ∀ (n : Fin 17) (sm : BitVec 4) (x : BitVec 21) (hi : BitVec 15) (s : State), Executes n.val s →
    let illegal := fun (i : Instr) => Ends i s (Trapped n.val 1 0 false false s)
    (sm ≠ 0 → ∀ i ∈ [Instr.seta n sm x, .setah n sm x, .setx n sm x, .sety n sm x, .addi n sm x, .andi n sm x,
      .ori n sm x, .xori n sm x, .cmpi n sm x, .jmp n sm x, .call n sm x], illegal i) ∧
    (sm ≠ 0 ∨ 32 ≤ x.toNat → ∀ i ∈ [Instr.shl n sm x, .shr n sm x, .sar n sm x, .rol n sm x], illegal i) ∧
    (sm ≠ 0 ∨ x ≠ 0 → illegal (.ret n sm x)) ∧
    (sm ≠ 0 ∨ 4 ≤ x.toNat → illegal (.push n sm x) ∧ illegal (.pop n sm x)) ∧
    (sm ≠ 0 ∨ 64 ≤ x.toNat → illegal (.cmt n sm x)) ∧
    (sm ≠ 0 ∨ 2 ≤ x.toNat → illegal (.wev n sm x)) ∧
    (sm ≠ 0 ∨ 6 ≤ x.toNat → illegal (.mrd n sm x) ∧ illegal (.mwr n sm x)) ∧
    (sm ≠ 0 ∨ hi ≠ 0 → ∀ i ∈ [Instr.nop n sm hi, .mvxa n sm hi, .mvya n sm hi, .mvax n sm hi, .mvay n sm hi,
      .mvyx n sm hi, .mvxy n sm hi, .mvas n sm hi, .mvsa n sm hi, .mvaf n sm hi, .mvfa n sm hi, .neg n sm hi,
      .not n sm hi, .clrc n sm hi, .setc n sm hi, .ei n sm hi, .di n sm hi, .mulu n sm hi, .muls n sm hi,
      .divu n sm hi, .divs n sm hi, .jmpa n sm hi, .calla n sm hi, .reti n sm hi], illegal i)

/-- O35. The short map gives each half the result of R406 (loads, sums, logic, moves, shifts, branches relative to the
word after the pair). A pair with bit 15 set or an undefined operand raises ILLEGAL_OP against its half, a dependent
one ILLEGAL_PAIR. Independent halves give the same result in either order; a memory half loads or stores at its
operand, with the other half's result beside it; if its segment is not VALID neither result is written and the fault
names its half. -/
def Obligations.PairsRunBothHalves : Prop :=
  (∀ (o : Short) (c : Ctx) (v : Word), o.legal = true → o.op < 32 →
    let toA := fun (r : Word) => ({ c with a := r, f := flagsZN c.f r } : Ctx)
    let k := o.arg.toNat
    let shifted := fun (r : Word) (bit : Nat) => ({ c with
      a := r, f := flagsOf c.f (if k = 0 then c.f.getLsbD 0 else c.a.getLsbD bit) (decide (r = 0)) r.msb
        (c.f.getLsbD 3) } : Ctx)
    let words : BitVec 24 := BitVec.ofInt 24 (4 * o.arg.toInt)
    let imm : Word := BitVec.ofInt 32 o.arg.toInt
    let branch := fun (b : Bool) => if b then { c with pc := c.pc + words } else c
    o.run c v = [c, toA v, c, { c with a := c.a + v, f := flagsAdd c.f c.a v false },
      { c with a := c.a - v, f := flagsSub c.f c.a v false }, toA (c.a &&& v), toA (c.a ||| v),
      { c with f := flagsSub c.f c.a v false }, { c with x := v }, { c with y := v }, c, c, toA imm,
      { c with a := c.a + imm, f := flagsAdd c.f c.a imm false }, { c with x := c.x + imm }, { c with y := c.y + imm },
      { c with s := c.s + words }, { c with f := flagsSub c.f c.a imm false }, { c with x := imm }, { c with y := imm },
      { c with x := c.a }, toA c.x, { c with y := c.a }, toA c.y, shifted (BitVec.ofNat 32 (c.a.toNat * 2 ^ k)) (32 - k),
      shifted (BitVec.ofNat 32 (c.a.toNat / 2 ^ k)) (k - 1), toA (c.a ^^^ v), branch true, branch (c.f.getLsbD 1),
      branch (!(c.f.getLsbD 1)), branch (c.f.getLsbD 0), branch (!(c.f.getLsbD 0))].getD o.op c) ∧
  ∀ (n : Fin 17) (w : BitVec 31) (s : State), Executes n.val s →
    let c := s.ctx n.val
    let o1 := Short.of ((w >>> 16).setWidth 15)
    let o2 := Short.of (w.setWidth 15)
    let next : Ctx := { c with pc := c.pc + 4 }
    let both := fun (v : Word) => o2.run (o1.run next v) v
    let dep := dependent o1 o2 (c.segAt o1.seg) (c.segAt o2.seg)
    (w.getLsbD 15 = true ∨ o1.legal = false → Ends (.pair n w) s (Trapped n.val 1 0 false true s)) ∧
    (w.getLsbD 15 = false → o1.legal = true → o2.legal = false → Ends (.pair n w) s (Trapped n.val 1 0 true true s)) ∧
    (w.getLsbD 15 = false → o1.legal = true → o2.legal = true →
      (dep = true → Ends (.pair n w) s (Trapped n.val 2 0 false true s)) ∧
      (dep = false → (∀ v, both v = o1.run (o2.run next v) v) ∧
        (o1.mem = false → o2.mem = false → Ends (.pair n w) s fun t => Completes [] n.val s t (both 0)) ∧
        ∀ e ∈ [(o1, false), (o2, true)], e.1.mem = true →
          let d := c.segAt e.1.seg
          let eo := s.operandEo n.val e.1.seg e.1.off
          let a := s.operandAt n.val e.1.seg e.1.off
          (∀ v, e.1.loads = true → LoadsMem n.val e.1.seg e.1.off 4 v s →
            Ends (.pair n w) s fun t => Completes [] n.val s t (both v)) ∧
          (e.1.stores = true → Admits d .w eo 4 4 → MemOk n.val a 4 s → Ends (.pair n w) s fun t =>
            Completes [.mem, .aon] n.val s t (both 0) ∧
            Stored n.val a 4 (if e.1.op = 2 then c.a else if e.1.op = 10 then c.x else c.y) s t) ∧
          (segValid d = false → Ends (.pair n w) s (Trapped n.val 3 a e.2 true s))))

/-- O36. wce (wsel) through a segment with FW, to the connection (selector) view, stores A with parity in the inactive
copy of that entry, DIRTY for the core's owner; where ownership, reserved bits, a pending change or the other view
forbid it, ACCESS_ERROR with the address, and without FW SEG_RIGHTS. cmt queues a commit with target A and scope
OPERAND 5:0 under R35 to R41, or records its rejection. In each case the PC moves on (or the fault is entered) and
nothing else changes. -/
def Obligations.FabricInstructionsActOnShadowState : Prop :=
  ∀ (n : Fin 17) (s : State), Executes n.val s → s.fabUp = true → s.coreOwner n.val < 16 →
    let c := s.ctx n.val
    let tn := s.coreOwner n.val
    let next : Ctx := { c with pc := c.pc + 4 }
    (∀ (sm : BitVec 4) (x : BitVec 21),
      let d := c.segAt sm.toNat
      let eo := s.operandEo n.val sm.toNat x.toNat
      let a := s.operandAt n.val sm.toNat x.toNat
      (segValid d = true → segFW d = false → Ends (.wce n sm x) s (Trapped n.val 4 a false false s) ∧
        Ends (.wsel n sm x) s (Trapped n.val 4 a false false s)) ∧
      (Admits d .fw eo 4 4 →
        (∀ slot < 16384, a = connAddr slot →
          let good := fieldOf c.a 26 5 = 0 ∧ ((fieldOf c.a 14 2 = 0 ∨ fieldOf c.a 14 2 = 3) → fieldOf c.a 24 2 = 0) ∧
            s.slotOwner slot = tn ∧ (fieldOf c.a 14 2 = 2 → s.selOwner (fieldOf c.a 16 10) = tn) ∧
            (s.change (connAddr slot)).isPending = false
          (good → Ends (.wce n sm x) s fun t =>
            (t.conn slot).inactive = withPar c.a ∧ (t.conn slot).active = (s.conn slot).active ∧
            t.change (connAddr slot) = .dirty tn ∧ (∀ k, k ≠ slot → t.conn k = s.conn k) ∧
            (∀ b, b ≠ connAddr slot → t.change b = s.change b) ∧ t.fab = { s.fab with conn := t.fab.conn } ∧
            Completes [.fabric, .changes] n.val s t next) ∧
          (¬good → Ends (.wce n sm x) s (Trapped n.val 7 a false false s))) ∧
        (∀ k < 1024, a = selAddr k →
          let good := fieldOf c.a 29 2 = 0 ∧ s.selOwner k = tn ∧ (s.change (selAddr k)).isPending = false
          (good → Ends (.wsel n sm x) s fun t =>
            (t.sel k).inactive = withPar c.a ∧ (t.sel k).active = (s.sel k).active ∧
            t.change (selAddr k) = .dirty tn ∧ (∀ j, j ≠ k → t.sel j = s.sel j) ∧
            (∀ b, b ≠ selAddr k → t.change b = s.change b) ∧ t.fab = { s.fab with sel := t.fab.sel } ∧
            Completes [.fabric, .changes] n.val s t next) ∧
          (¬good → Ends (.wsel n sm x) s (Trapped n.val 7 a false false s))) ∧
        (a < 0x01000000 ∨ 0x0100FFFF < a → Ends (.wce n sm x) s (Trapped n.val 7 a false false s)) ∧
        (a < 0x01020000 ∨ 0x01020FFF < a → Ends (.wsel n sm x) s (Trapped n.val 7 a false false s)))) ∧
    ∀ x : BitVec 21, x.toNat < 64 →
      let scope : BitVec 6 := x.setWidth 6
      let shed := (s.ten tn).st = .shedding ∨ (s.ten tn).st = .shed
      let lead := (c.a - s.frame).toNat
      let late := lead = 0 ∨ 0x80000000 ≤ lead
      let full := 64 ≤ (s.pendingOf tn).length
      let denied := ∃ a ∈ s.covers tn scope, s.changeOk tn a = false
      (¬shed → ¬late → ¬full → ¬denied → Ends (.cmt n 0 x) s fun t =>
        (∃ up, t.commits = s.commits ++ [⟨s.nextId, tn, c.a, scope, up⟩]) ∧ t.nextId = s.nextId + 1 ∧
        (∀ a ∈ s.covers tn scope, t.change a = .pending s.nextId) ∧
        (∀ a, a ∉ s.covers tn scope → t.change a = s.change a) ∧ t.fab = { s.fab with rowsDown := t.fab.rowsDown } ∧
        t.ctx n.val = next ∧ CoreKept n.val s t ∧ (∀ m, m ≠ n.val → t.core m = s.core m) ∧
        RegsKept (bookRegs n.val ++ [RegKind.POND_BANK_STATUS.addr 0 0]) s t ∧
        Kept [.regs, .events, .cores, .counters, .ecc, .free, .fabric, .changes, .commits, .power] s t) ∧
      (∀ reason, (reason = 4 ∧ shed) ∨ (reason = 1 ∧ ¬shed ∧ late) ∨ (reason = 2 ∧ ¬shed ∧ ¬late ∧ full) ∨
          (reason = 3 ∧ ¬shed ∧ ¬late ∧ ¬full ∧ denied) →
        Ends (.cmt n 0 x) s fun t =>
          t.reg .FAB_CMT_REJ_FRAME tn = c.a ∧
          t.reg .FAB_CMT_REJ_INFO tn = BitVec.ofNat 32 (scope.toNat + reason * 256) ∧
          (⟨641, some tn, s.frame⟩ : Raised) ∈ t.raised ∧ t.fab = { s.fab with rejected := t.fab.rejected } ∧
          t.ctx n.val = next ∧ CoreKept n.val s t ∧ (∀ m, m ≠ n.val → t.core m = s.core m) ∧
          RegsKept (bookRegs n.val ++ [RegKind.FAB_CMT_REJ_FRAME.addr tn 0, RegKind.FAB_CMT_REJ_INFO.addr tn 0]) s t ∧
          Kept [.regs, .events, .cores, .counters, .ecc, .free, .fabric] s t)

/-- O37. On a queue of its owner that is enabled, live and not empty (not full), qget (qput) with an operand that R365
and R402 admit copies the entry at HEAD to the operand (the operand to the entry at TAIL), advances that count and
clears C; nothing else in memory changes. Empty or full, or not enabled, it sets C and leaves memory; a full queue
under drop also counts, saturating with DROP_SAT. A queue of another tenant raises ACCESS_ERROR. -/
def Obligations.QueueInstructionsMoveOneEntry : Prop :=
  ∀ (n : Fin 17) (sm : BitVec 4) (x : BitVec 21) (s : State), Executes n.val s →
    let c := s.ctx n.val
    let q := c.x.toNat % 16384
    let e := s.queue q
    let size := qEsize e
    let d := c.segAt sm.toNat
    let eo := s.operandEo n.val sm.toNat x.toNat
    let a := s.operandAt n.val sm.toNat x.toNat
    let next := fun (b : Bool) => ({ c with
      pc := c.pc + 4, f := flagsOf c.f b (c.f.getLsbD 1) (c.f.getLsbD 2) (c.f.getLsbD 3) } : Ctx)
    let pond := inAon n.val a = false ∧ s.pondOn a size = true ∧ a / 0x100000 = (a + size - 1) / 0x100000
    let copied := fun (src dst : Nat) (t : State) =>
      ∀ b, t.byte b = if dst ≤ b ∧ b < dst + size then s.byte (src + (b - dst)) else s.byte b
    (s.queueOwner q ≠ s.coreOwner n.val → Ends (.qget n sm x) s (Trapped n.val 7 a false false s) ∧
      Ends (.qput n sm x) s (Trapped n.val 7 a false false s)) ∧
    (s.queueOwner q = s.coreOwner n.val → qEn e = false →
      Ends (.qget n sm x) s (fun t => Completes [] n.val s t (next true)) ∧
      Ends (.qput n sm x) s (fun t => Completes [] n.val s t (next true))) ∧
    (s.queueOwner q = s.coreOwner n.val → qEn e = true → pond →
      (Admits d .w eo size 8 →
        (s.qLive q e = true → qFill e ≠ 0 → qHeld e = 0 →
          (let p := e.base + e.head.toNat % qDepth e * size;
           e.base % 8 = 0 → NoUe p size s → Ends (.qget n sm x) s fun t =>
            copied p a t ∧ t.queue q = { e with
              head := e.head + 1, acked := e.acked + BitVec.ofNat 32 size, sent := e.sent + BitVec.ofNat 32 size } ∧
            (∀ k, k ≠ q → t.queue k = s.queue k) ∧ Completes [.mem, .queues] n.val s t (next false))) ∧
        (s.qLive q e = false ∨ qFill e = 0 ∨ qHeld e ≠ 0 →
          Ends (.qget n sm x) s fun t => Completes [] n.val s t (next true))) ∧
      (Admits d .r eo size 8 →
        (s.qLive q e = true → qFill e ≠ qDepth e →
          (let p := e.base + e.tail.toNat % qDepth e * size;
           e.base % 8 = 0 → NoUe a size s → Ends (.qput n sm x) s fun t =>
            copied a p t ∧ t.queue q = { e with tail := e.tail + 1 } ∧ (∀ k, k ≠ q → t.queue k = s.queue k) ∧
            Completes [.mem, .queues] n.val s t (next false))) ∧
        (s.qLive q e = false ∨ qFill e = qDepth e → s.qLive q e = false ∨ qDrops e = false →
          Ends (.qput n sm x) s fun t => Completes [] n.val s t (next true)) ∧
        (s.qLive q e = true → qFill e = qDepth e → qDrops e = true → Ends (.qput n sm x) s fun t =>
          t.queue q = (if e.drop = 0xFFFF then { e with dropSat := true } else { e with drop := e.drop + 1 }) ∧
          (∀ k, k ≠ q → t.queue k = s.queue k) ∧ Completes [.queues] n.val s t (next true))))

/-- O38. sld of a VALID, well-formed entry clears each right whose OPERAND bit 11:8 is 1, replaces MODE where bit 14
says so, and loads SEGn (bit 15, in HANDLER: MAIN's), nothing else; SEG_INVALID for another entry, ILLEGAL_OP for n
= 15. wev removes the earliest wait event and gives its number in A and its stamp in Y with C = 0; without one a
poll sets C and leaves A and Y, and a wait leaves the core in WAIT with its context as it was. -/
def Obligations.SegmentLoadsAndEventWaits : Prop :=
  ∀ (n : Fin 17) (s : State), Executes n.val s →
    let c := s.ctx n.val
    let k := s.core n.val
    let withC := fun (b : Bool) => flagsOf c.f b (c.f.getLsbD 1) (c.f.getLsbD 2) (c.f.getLsbD 3)
    (∀ (sm : BitVec 4) (x : BitVec 21), sm ≠ 15 → fieldOf (x.setWidth 32) 6 2 = 0 → x.toNat < 65536 →
      let d := s.segEntry (s.coreOwner n.val) (x.toNat % 64)
      let ok := segValid d = true ∧ segWellFormed (decide (n.val = 16)) d = true
      let narrowed := fun (r : BitVec 64) => ∀ b < 64, r.getLsbD b =
        if b < 4 then d.getLsbD b && !(x.getLsbD (8 + b))
        else if (b = 4 ∨ b = 5) ∧ x.getLsbD 14 = true then x.getLsbD (8 + b) else d.getLsbD b
      (ok → x.getLsbD 15 = false → ∃ r, narrowed r ∧ Ends (.sld n sm x) s fun t =>
        Completes [] n.val s t { c with pc := c.pc + 4, seg := c.seg.setIfInBounds sm.toNat r }) ∧
      (ok → x.getLsbD 15 = true → k.inHandler = true → ∃ r, narrowed r ∧ Ends (.sld n sm x) s fun t =>
        (t.core n.val).main = { k.main with seg := k.main.seg.setIfInBounds sm.toNat r } ∧
        (t.core n.val).hand = { k.hand with pc := k.hand.pc + 4 } ∧ (t.core n.val).inHandler = true ∧
        (t.core n.val).st = .run ∧ Around [] n.val s t) ∧
      (¬ok → (x.getLsbD 15 = true → k.inHandler = true) → Ends (.sld n sm x) s (Trapped n.val 3 0 false false s)) ∧
      (x.getLsbD 15 = true → k.inHandler = false → Ends (.sld n sm x) s (Trapped n.val 1 0 false false s)) ∧
      Ends (.sld n 15 x) s (Trapped n.val 1 0 false false s)) ∧
    (∀ (e : Nat) (y : Word), (e, y) ∈ s.pendList n.val → s.irqOf n.val e = none →
      (∀ p ∈ s.pendList n.val, p ≠ (e, y) → s.irqOf n.val p.1 = none →
        after p.2 y = true ∨ (p.2 = y ∧ e < p.1)) →
      ∀ x : BitVec 21, x.toNat < 2 → Ends (.wev n 0 x) s fun t =>
        (∀ j, tabGet (fun _ => none) t.pend j = if j = n.val * 1024 + e then none else tabGet (fun _ => none) s.pend j) ∧
        Completes [.pend] n.val s t { c with a := BitVec.ofNat 32 e, y := y, f := withC false, pc := c.pc + 4 }) ∧
    ((∀ p ∈ s.pendList n.val, (s.irqOf n.val p.1).isSome = true) →
      Ends (.wev n 0 1) s (fun t => Completes [] n.val s t { c with f := withC true, pc := c.pc + 4 }) ∧
      Ends (.wev n 0 0) s fun t => (t.core n.val).st = .wait ∧ t.ctx n.val = c ∧
        (t.core n.val).inHandler = k.inHandler ∧ (t.core n.val).otherCtx = k.otherCtx ∧ Around [] n.val s t)

/-- O39. With power and no DBG_LOCK for its owner: DEBUG_HALT stops a core that runs, between two instructions, or
waits, in DEBUG_HALT with its debug-halt event; DEBUG_RESUME lets a halted core run on past a breakpoint at its PC;
DEBUG_STEP of a halted core executes one word (here any seta, encoded by R348 and R393) and halts it again. With the
fuse for the owner blown none of them does anything. -/
def Obligations.DebugUnitHaltsStepsAndResumes : Prop :=
  ∀ (n : Fin 17) (s : State), s.rst.held = false → s.corePg n.val = true →
    let k := s.core n.val
    let event : List Raised := if s.fabUp then [⟨842 + 4 * n.val, some (s.coreOwner n.val), s.frame⟩] else []
    let others := fun (t : State) => ∀ m, m ≠ n.val → t.core m = s.core m
    (s.nvm.dbgLock.getLsbD (s.coreOwner n.val) = true →
      Ends (.debugHalt n) s (Only [] [] [] s) ∧ Ends (.debugResume n) s (Only [] [] [] s) ∧
      ∀ w, Ends (.debugStep n w) s (Only [] [] [] s)) ∧
    (s.nvm.dbgLock.getLsbD (s.coreOwner n.val) = false →
      ((k.st = .run ∧ k.part = 0) ∨ k.st = .wait → Ends (.debugHalt n) s fun t =>
        t.core n.val = { k with st := .dbg, haltReq := false, stepping := false } ∧ others t ∧
        Only [.cores, .counters] [] event s t) ∧
      (k.st = .dbg → Ends (.debugResume n) s fun t =>
        t.core n.val = { k with st := .run, bpSkip := true, haltReq := false } ∧ others t ∧
        Only [.cores, .counters] [] [] s t) ∧
      (∀ x : BitVec 21, k.st = .dbg → (n.val = 16 ∨ s.divRun = true) → (∃ u j, s.fetch n.val = (u, .ok j)) →
        Ends (.debugStep n ((0x18 : BitVec 7) ++ (0 : BitVec 4) ++ x)) s fun t =>
          let imm : Word := x.signExtend 32
          (t.core n.val).st = .dbg ∧ (t.core n.val).inHandler = k.inHandler ∧
          t.ctx n.val = { s.ctx n.val with
            a := imm, f := flagsZN (s.ctx n.val).f imm, pc := (s.ctx n.val).pc + 4 } ∧
          (∀ e ∈ event, e ∈ t.raised) ∧ Around [] n.val s t))

/-- O40. A write of RESTART to a powered core of a running tenant: MAIN at CORE_START with A = X = Y = 0, F = 0, S =
LIMIT of SEG14 and segments from the table, caches, loads, breakpoints and pending events gone; a core of a tenant
being shed or SHED is held STOPPED; an unpowered one restarts with its power. ICACHE_LOAD starts a load of legal size or
sets LOAD_ERR; ICACHE_LOAD_DONE loads a copy of each good line into way 0 and ends BUSY; INV and INV_ALL empty the ways,
INV_ALL with PIN as it was; PREFETCH_COMPLETE puts a copy of the line into the line buffer, or empties it where a word
cannot be read. -/
def Obligations.RestartAndCacheCommands : Prop :=
  ∀ (m : Master) (n : Fin 17) (v : Word) (s : State),
    let k := s.core n.val
    let ctl := RegKind.CORE_ICACHE_CTL.addr n.val 0
    let load := RegKind.CORE_ICACHE_LOAD.addr n.val 0
    let others := fun (t : State) => ∀ j, j ≠ n.val → t.core j = s.core j
    let tn := s.coreOwner n.val
    let cleared := fun (t : State) => (t.core n.val).way0 = [] ∧ (t.core n.val).way1 = [] ∧ (t.core n.val).lb = none ∧
      (t.core n.val).load = none ∧ (t.core n.val).bps = [] ∧ t.pendList n.val = [] ∧
      (∀ e, e / 1024 ≠ n.val → tabGet (fun _ => none) t.pend e = tabGet (fun _ => none) s.pend e) ∧
      t.f F.CORE_ICACHE_CTL_PIN n.val = 0 ∧ t.f F.CORE_ICACHE_LOAD_BUSY n.val = 0 ∧ others t ∧
      t.rst = { s.rst with wdt := t.rst.wdt } ∧ (∀ u, u ≠ tn → t.ten u = s.ten u) ∧
      t.ten tn = { s.ten tn with cut := (t.ten tn).cut } ∧
      Only [.cores, .pend, .last, .reset, .tenants] [ctl, load] [] s t
    (CanWrite m .CORE_CTL n.val 0 s → s.corePg n.val = true →
      ((s.ten tn).st = .run → ¬(k.st = .off ∧ tn ≠ 0) → Ends (.coreRestart m n v) s fun t =>
        let c := (t.core n.val).main
        (t.core n.val).st = .run ∧ (t.core n.val).inHandler = false ∧ (c.a, c.x, c.y, c.f) = (0, 0, 0, 0) ∧
        c.pc = BitVec.ofNat 24 (s.f F.CORE_START_MAIN_PC n.val * 4) ∧
        c.s = BitVec.ofNat 24 (segLimit (s.segEntry tn 14)) ∧ (∀ i < 16, c.segAt i = s.segEntry tn i) ∧
        (∀ i < 16, (t.core n.val).hand.segAt i = s.segEntry tn (16 + i)) ∧ (t.core n.val).hand.pc = 0 ∧ cleared t) ∧
      ((s.ten tn).st = .shed ∨ (s.ten tn).st = .shedding → Ends (.coreRestart m n v) s fun t =>
        (t.core n.val).st = .stopped ∧ cleared t)) ∧
    (CanWrite m .CORE_CTL n.val 0 s → s.corePg n.val = false → s.dev ≠ 2 → Ends (.coreRestart m n v) s fun t =>
      t.core n.val = { k with restart := true } ∧ others t ∧ Only [.cores, .last] [] [] s t) ∧
    (CanWrite m .CORE_ICACHE_LOAD n.val 0 s →
      let count := fieldOf v 0 9
      let base := s.f F.CORE_ICACHE_LOAD_BASE_BASE n.val
      let ok := 1 ≤ count ∧ count ≤ (if n.val = 16 then 128 else 256) ∧
        base * 32 + count * 32 ≤ (if n.val = 16 then 0x00FF0000 else 0x01000000) ∧ k.load = none
      (ok → Ends (.icacheLoad m n v) s fun t =>
        t.core n.val = { k with load := some ⟨base, count, 0, 0⟩ } ∧ t.f F.CORE_ICACHE_LOAD_BUSY n.val = 1 ∧
        t.f F.CORE_ICACHE_LOAD_COUNT n.val = count ∧ others t ∧ Answered m 0 false t ∧
        Only [.cores, .last] [load] [] s t) ∧
      (¬ok → Ends (.icacheLoad m n v) s fun t =>
        t.f F.CORE_ICACHE_LOAD_LOAD_ERR n.val = 1 ∧ Answered m 0 false t ∧ Only [.last] [load] [] s t)) ∧
    (∀ l : ILoad, k.load = some l → l.done < l.total → l.total ≤ cacheSets n.val → s.corePg n.val = true →
      (n.val = 16 ∨ s.divRun = true) → Ends (.icacheLoadDone n) s fun t =>
        (t.core n.val).load = none ∧ t.f F.CORE_ICACHE_LOAD_BUSY n.val = 0 ∧
        (∀ i, l.done ≤ i → i < l.total → s.pondOn ((l.base + i) * 32) 32 = true →
          NoUe ((l.base + i) * 32) 32 s →
          tabGet (fun _ => CLine.none) (t.core n.val).way0 ((l.base + i) % cacheSets n.val) =
            ⟨l.base + i + 1, s.bytes ((l.base + i) * 32) 32⟩) ∧
        others t ∧ Kept [.regs, .cores, .ecc] s t ∧ RegsKept (bookRegs n.val) s t) ∧
    (CanWrite m .CORE_ICACHE_CTL n.val 0 s → Ends (.icacheInv m n v) s fun t =>
      t.core n.val = { k with
        way0 := if v.getLsbD 2 = false ∧ v.getLsbD 0 = true then k.way0 else [], way1 := [], lb := none,
        lastLine := none } ∧
      t.f F.CORE_ICACHE_CTL_PIN n.val =
        (if v.getLsbD 2 then s.f F.CORE_ICACHE_CTL_PIN n.val else if v.getLsbD 0 then 1 else 0) ∧
      others t ∧ Answered m 0 false t ∧ Only [.cores, .last] [ctl] [] s t) ∧
    (∀ b : LBuf, s.corePg n.val = true → k.lb = some b → b.left ≠ 0 → Ends (.prefetchComplete n) s fun t =>
      (s.pondOn (b.line * 32) 32 = true → NoUe (b.line * 32) 32 s →
        t.core n.val = { k with lb := some ⟨b.line, 0, s.bytes (b.line * 32) 32⟩ }) ∧
      (¬(s.pondOn (b.line * 32) 32 = true ∧ NoUe (b.line * 32) 32 s) → t.core n.val = { k with lb := none }) ∧
      others t ∧ Only [.cores, .ecc] eccRegs [] s t) ∧
    (s.corePg n.val = false ∨ k.lb = none ∨ (∃ b : LBuf, k.lb = some b ∧ b.left = 0) →
      Ends (.prefetchComplete n) s (Only [] [] [] s))

/-- O41. The frame number goes up by 1 and SYS_TIME by 3,072. The bytes routed at the boundary before go out; an output
whose active entry has good parity is routed its ARG byte (IDLE), the byte of SRC (DIRECT), of the selected source +
SRC (SELECT), or SRC XOR ARG (TEST), here for the sources of tones, patterns and mailboxes; 0xFF where parity fails
or the entry is empty. CORE_MBX_RX takes the bytes going out on its slots, and CORE_MBX_TX presents the next frame's
inputs. Connection memory, commits and NVM stay, and of the clocks all but the cycles into the frame. -/
def Obligations.FrameBoundaryRoutesAndCounts : Prop :=
  ∀ (din : List (List Bool)) (s : State), s.fabUp = true → s.rst.held = false →
    Ends (.frameBoundary din) s fun t =>
      let byte := fun (l : Tab Byte) (n : Nat) => tabGet (fun _ => (0xFF : Byte)) l n
      let mine := fun n => 15232 ≤ n ∧ n < 16384
      t.frame = s.frame + 1 ∧ t.sys = s.sys + 3072 ∧ t.fab.out = s.fab.routed ∧ t.clk = { s.clk with into := 0 } ∧
      t.fab.conn = s.fab.conn ∧ t.fab.sel = s.fab.sel ∧
      (∀ e ∈ s.fab.conn,
        let w := (s.conn e.1).active
        let v := (s.sel (fieldOf w 16 10)).active
        let src := fieldOf w 0 14
        let arg := BitVec.ofNat 8 (fieldOf w 16 8)
        let side := (fieldOf v (if v.getLsbD 28 then 14 else 0) 14 + src) % 16384
        (parOk w = false → byte t.fab.routed e.1 = 0xFF) ∧
        (parOk w = true → fieldOf w 14 2 = 0 → byte t.fab.routed e.1 = arg) ∧
        (parOk w = true → fieldOf w 14 2 = 1 → mine src → byte t.fab.routed e.1 = byte s.fab.src src) ∧
        (parOk w = true → fieldOf w 14 2 = 2 → parOk v = true → mine side →
          byte t.fab.routed e.1 = byte s.fab.src side) ∧
        (parOk w = true → fieldOf w 14 2 = 2 → parOk v = false → byte t.fab.routed e.1 = 0xFF) ∧
        (parOk w = true → fieldOf w 14 2 = 3 → mine src → byte t.fab.routed e.1 = byte s.fab.src src ^^^ arg)) ∧
      (∀ n, (∀ e ∈ s.fab.conn, e.1 ≠ n) → byte t.fab.routed n = 0xFF) ∧
      (∀ n < 16, t.reg .CORE_MBX_FRAME n = t.frame ∧ ∀ j < 16, ∀ i < 4,
        fieldOf (t.reg .CORE_MBX_RX n j) (8 * i) 8 = (byte s.fab.routed (15360 + 64 * n + 4 * j + i)).toNat ∧
        (byte t.fab.src (15360 + 64 * n + 4 * j + i)).toNat = fieldOf (s.reg .CORE_MBX_TX n j) (8 * i) 8) ∧
      Kept [.regs, .events, .time, .clocks, .fabric, .ref, .lines, .trunks, .audio, .hdlc, .cores, .tenants, .queues,
        .counters, .links, .power, .reset, .panel, .thermal, .mem, .ecc, .free] s t

/-- O42. A completed receive block enters RXQ as R294 lays it out, or begins an overrun where RXQ has no room; the
transmit block at the head of TXQ is taken, with its TAG and SYS_TIME recorded; an underrun (overrun, begun here where a
full block meets a full queue) counts, sets its bit and raises its event, and moves the rotation only under FORMAT 2
with more than two positions. A write of
AUD_FRAME is refused while the port runs, taken when it is consistent, and otherwise sets MISMATCH with its event. -/
def Obligations.AudioPortsMoveBlocks : Prop :=
  ∀ (p : Fin 8) (s : State),
    let a := s.aud p.val
    let others := fun (t : State) => ∀ q, q ≠ p.val → t.aud q = s.aud q
    let mayTurn := s.fa F.AUD_CFG_FORMAT p.val = 2 ∧ 2 < s.audPos p.val
    (∀ (m : Master) (v : Word), CanWrite m .AUD_FRAME p.val 0 s →
      let w := fieldOf v 0 2
      let n := fieldOf v 8 5
      let ok := w ≤ 2 ∧ (s.fa F.AUD_CFG_FORMAT p.val = 2 ∨ n = 1) ∧
        audF (16 + 8 * w) (n + 1) * audRate (s.fa F.AUD_CFG_RATE p.val) ≤ 3072
      let regs := [RegKind.AUD_FRAME.addr p.val 0, RegKind.AUD_STATUS.addr p.val 0]
      (a.on = true → Ends (.audFrameWrite m p v) s fun t => Answered m 0 true t ∧ Only [.last] [] [] s t) ∧
      (a.on = false → ok → Ends (.audFrameWrite m p v) s fun t =>
        t.aud p.val = { a with width := w, count := n } ∧ others t ∧ t.reg .AUD_FRAME p.val = v &&& 0x1F03 ∧
        t.f F.AUD_STATUS_MISMATCH p.val = 0 ∧ Answered m 0 false t ∧ Only [.last, .audio] regs [] s t) ∧
      (a.on = false → ¬ok → s.fabUp = true → Ends (.audFrameWrite m p v) s fun t =>
        t.reg .AUD_FRAME p.val = v &&& 0x1F03 ∧ t.f F.AUD_STATUS_MISMATCH p.val = 1 ∧ Answered m 0 false t ∧
        Only [.last] regs [s.ev (581 + 8 * p.val)] s t)) ∧
    (s.domRun 17 = true → a.on = true → s.audPos p.val ≠ 0 → a.tx = [] → a.underNow = false → a.quiet = false →
      (a.txDry = true ∨ s.qNothing (s.fa F.AUD_QUEUE_TXQ p.val) = true) → Ends (.audioUnderrun p) s fun t =>
        t.aud p.val = { a with underNow := true, txRot := (t.aud p.val).txRot } ∧
        (¬mayTurn → (t.aud p.val).txRot = a.txRot) ∧ others t ∧ t.f F.AUD_STATUS_UNDER p.val = 1 ∧
        Counted F.AUD_UNDER_CNT_COUNT p.val s t ∧
        Only [.audio] [RegKind.AUD_UNDER_CNT.addr p.val 0, RegKind.AUD_STATUS.addr p.val 0]
          [s.ev (577 + 8 * p.val)] s t) ∧
    (let full := s.qNoRoom (s.fa F.AUD_QUEUE_RXQ p.val)
     s.domRun 17 = true → a.on = true → (a.rxDry = true ∨ (a.rxDone ≠ none ∧ full = true)) → a.overNow = false →
      a.quiet = false → Ends (.audioOverrun p) s fun t =>
        t.aud p.val = { a with overNow := true, rxDry := true, rxDone := if full then none else a.rxDone,
                               rxRot := (t.aud p.val).rxRot } ∧
        (¬mayTurn → (t.aud p.val).rxRot = a.rxRot) ∧ others t ∧ t.f F.AUD_STATUS_OVER p.val = 1 ∧
        Counted F.AUD_OVER_CNT_COUNT p.val s t ∧
        Only [.audio] [RegKind.AUD_OVER_CNT.addr p.val 0, RegKind.AUD_STATUS.addr p.val 0]
          [s.ev (578 + 8 * p.val)] s t) ∧
    (∀ b, s.domRun 17 = true → a.rxDone = some b →
      let q := s.fa F.AUD_QUEUE_RXQ p.val
      let e := s.queue q
      let at_ := e.base + e.tail.toNat % qDepth e * qEsize e
      let entry := leBytes 8 b.time.toNat ++ leBytes 4 b.frame.toNat ++ leBytes 2 b.frames ++ leBytes 2 b.tag.toNat ++
        b.samples.flatMap fun v =>
          if s.ba F.AUD_CFG_Q_FMT p.val then leBytes 4 v.toNat else leBytes 2 (v.toNat / 65536)
      (s.qLive q e = true → qFill e ≠ qDepth e → NoUe at_ entry.length s → Ends (.audioRxBlock p) s fun t =>
        Placed at_ entry s t ∧ t.queue q = { e with tail := e.tail + 1 } ∧ (∀ k, k ≠ q → t.queue k = s.queue k) ∧
        t.aud p.val = { a with rxDone := none } ∧ others t ∧ Only [.audio, .queues, .mem, .ecc] eccRegs [] s t) ∧
      (s.qLive q e = false ∨ qFill e = qDepth e → Ends (.audioRxBlock p) s fun t =>
        t.aud p.val = { a with rxDone := none, rxDry := true } ∧ others t ∧ Only [.audio] [] [] s t)) ∧
    (let q := s.fa F.AUD_QUEUE_TXQ p.val
     let e := s.queue q
     let at_ := e.base + e.head.toNat % qDepth e * qEsize e
     s.domRun 17 = true → a.on = true → s.audPos p.val ≠ 0 → a.tx = [] → a.underNow = false → a.txDry = false →
      s.qLive q e = true → qFill e ≠ 0 → qHeld e = 0 → NoUe at_ (qEsize e) s → Ends (.audioTxBlockStart p) s fun t =>
        t.queue q = { e with head := e.head + 1, acked := e.acked + BitVec.ofNat 32 (qEsize e),
                             sent := e.sent + BitVec.ofNat 32 (qEsize e) } ∧ (∀ k, k ≠ q → t.queue k = s.queue k) ∧
        t.f F.AUD_TX_LAST_TAG_TAG p.val = ((s.bytes at_ (qEsize e)).getD 14 0).toNat +
          256 * ((s.bytes at_ (qEsize e)).getD 15 0).toNat ∧
        t.reg .AUD_TX_LAST_TIME_LO p.val = s.sys.setWidth 32 ∧
        t.reg .AUD_TX_LAST_TIME_HI p.val = (s.sys >>> 32).setWidth 32 ∧
        (t.aud p.val).tx.length = (s.fa F.AUD_CFG_BLOCK_FRAMES p.val + 1) * (s.audLayout p.val).rate * s.audPos p.val ∧
        t.aud p.val = { a with tx := (t.aud p.val).tx } ∧ others t ∧
        Only [.audio, .queues, .ecc] (eccRegs ++ [RegKind.AUD_TX_LAST_TAG.addr p.val 0,
          RegKind.AUD_TX_LAST_TIME_LO.addr p.val 0, RegKind.AUD_TX_LAST_TIME_HI.addr p.val 0]) [] s t)

/-- O43. An aborted frame counts under ABORT, one with a bit count no multiple of 8 under ALIGN, one without a byte
beyond the FCS under SHORT, one longer than MAX_LEN under LONG, one with another FCS under FCS_ERR; a good frame whose
data fits one entry of RXQ is published there with its header, and counted; with no room, or while the channel is held
(R338), NOBUF counts and the queue and its drop counter stay. A frame of one entry that TXQ had at the boundary is
consumed and sent as flags, data with FCS and a 0 after five 1s, flag; an entry without FIRST is consumed under TXERR,
or, if it is an ABORT, ends the frame in progress with eight 1s and a flag. HDLC_CH_CFG is written while EN is 0, or to
clear EN, which is remembered to the boundary; else refused. -/
def Obligations.HdlcChannelsCheckAndCarryFrames : Prop :=
  ∀ (c : BitVec 8) (s : State), s.fabUp = true →
    let n := c.toNat
    let h := s.hd n
    let others := fun (t : State) => ∀ k, k ≠ n → t.hd k = s.hd k
    let status := RegKind.HDLC_CH_STATUS.addr n 0
    let cnt := regsOf [.HDLC_CNT_RX_FRAMES, .HDLC_CNT_TX_FRAMES, .HDLC_CNT_FCS_ABORT, .HDLC_CNT_SHORT_LONG,
      .HDLC_CNT_ALIGN_NOBUF, .HDLC_CNT_TXERR]
    (∀ (m : Master) (v : Word), CanWrite m .HDLC_CH_CFG n 0 s →
      let cfg := RegKind.HDLC_CH_CFG.addr n 0
      (s.b F.HDLC_CH_CFG_EN n = true → Ends (.hdlcEnable m c v) s fun t =>
        Answered m 0 true t ∧ Only [.last] [] [] s t) ∧
      (s.b F.HDLC_CH_CFG_EN n = false → Ends (.hdlcEnable m c v) s fun t =>
        t.reg .HDLC_CH_CFG n &&& 0x1FFFC7FF = (v ||| 1) &&& 0x1FFFC7FF ∧ Answered m 0 false t ∧
        Only [.last] [cfg] [] s t) ∧
      Ends (.hdlcDisable m c v) s fun t =>
        t.f F.HDLC_CH_CFG_EN n = 0 ∧ t.hd n = { h with off := true } ∧ others t ∧ Answered m 0 false t ∧
        Only [.hdlc, .last] [cfg] [] s t) ∧
    (∀ (f : HdlcRx) (rest : List HdlcRx), h.done = f :: rest →
      let after := fun (t : State) => t.hd n = { h with done := rest, evt := (t.hd n).evt } ∧ others t ∧
        Only [.hdlc] (status :: cnt) [] s t
      (f.aborted = true → Ends (.hdlcFrameReceived c) s fun t =>
        Counted F.HDLC_CNT_FCS_ABORT_ABORT n s t ∧ (t.reg .HDLC_CH_STATUS n).getLsbD 9 = true ∧ after t) ∧
      (f.aborted = false → f.count % 8 ≠ 0 → Ends (.hdlcFrameReceived c) s fun t =>
        Counted F.HDLC_CNT_ALIGN_NOBUF_ALIGN n s t ∧ (t.reg .HDLC_CH_STATUS n).getLsbD 12 = true ∧ after t) ∧
      (f.aborted = false → f.count % 8 = 0 → f.count / 8 ≤ h.fcsLen → Ends (.hdlcFrameReceived c) s fun t =>
        Counted F.HDLC_CNT_SHORT_LONG_SHORT n s t ∧ (t.reg .HDLC_CH_STATUS n).getLsbD 10 = true ∧ after t) ∧
      (f.aborted = false → f.count % 8 = 0 → h.maxLen + h.fcsLen < f.count / 8 → Ends (.hdlcFrameReceived c) s fun t =>
        Counted F.HDLC_CNT_SHORT_LONG_LONG n s t ∧ (t.reg .HDLC_CH_STATUS n).getLsbD 11 = true ∧ after t) ∧
      (let all := octets (f.count / 8) f.bits
       let len := f.count / 8 - h.fcsLen
       f.aborted = false → f.count % 8 = 0 → h.fcsLen < f.count / 8 → f.count / 8 ≤ h.maxLen + h.fcsLen →
        fcsOf (h.cfg.getLsbD 4) (all.take len) ≠ all.drop len → Ends (.hdlcFrameReceived c) s fun t =>
          Counted F.HDLC_CNT_FCS_ABORT_FCS_ERR n s t ∧ (t.reg .HDLC_CH_STATUS n).getLsbD 8 = true ∧
          t.hd n = { h with done := rest, evt := (t.hd n).evt } ∧ others t ∧
          Only [.hdlc, .mem, .ecc] (status :: cnt ++ eccRegs) [] s t) ∧
      (∀ data : List Byte, f = ⟨octetBits (data ++ fcsOf (h.cfg.getLsbD 4) data), 8 * (data.length + h.fcsLen), false,
          f.stamp, false⟩ →
        1 ≤ data.length → data.length ≤ h.maxLen → h.lim.getLsbD 24 = false → h.cfg.getLsbD 10 = false →
        let q := h.rxq
        let e := s.queue q
        let at_ := e.base + e.tail.toNat % qDepth e * qEsize e
        let entry := leBytes 2 data.length ++ [3, BitVec.ofNat 8 n] ++ leBytes 4 f.stamp.toNat ++ data
        (s.hdlcHeld n = false → s.qLive q e = true → qFill e < qDepth e → 16 ≤ qEsize e →
          data.length + 8 ≤ qEsize e → NoUe at_ entry.length s → Ends (.hdlcFrameReceived c) s fun t =>
            Placed at_ entry s t ∧ t.queue q = { e with tail := e.tail + 1 } ∧ (∀ k, k ≠ q → t.queue k = s.queue k) ∧
            Counted F.HDLC_CNT_RX_FRAMES_RX n s t ∧ t.hd n = { h with done := rest, evt := (t.hd n).evt } ∧ others t ∧
            Only [.hdlc, .queues, .mem, .ecc] (status :: cnt ++ eccRegs) [] s t) ∧
        (s.hdlcHeld n = true ∨ s.qLive q e = false ∨ qDepth e ≤ qFill e → Ends (.hdlcFrameReceived c) s fun t =>
          Counted F.HDLC_CNT_ALIGN_NOBUF_NOBUF n s t ∧ after t))) ∧
    (let q := h.txq
     let e := s.queue q
     let at_ := e.base + e.head.toNat % qDepth e * qEsize e
     let entry := s.bytes at_ (qEsize e)
     let taken := fun (t : State) =>
      t.queue q = { e with head := e.head + 1, acked := e.acked + BitVec.ofNat 32 (qEsize e),
                           sent := e.sent + BitVec.ofNat 32 (qEsize e) } ∧ (∀ k, k ≠ q → t.queue k = s.queue k) ∧
      t.hd n = { h with txBits := (t.hd n).txBits, frames := (t.hd n).frames, flags := (t.hd n).flags,
                        evt := (t.hd n).evt } ∧ others t ∧
      Only [.hdlc, .queues, .ecc] (status :: cnt ++ eccRegs) [] s t
     let ready := (h.ready - e.head).toNat
     h.on = true → s.hdlcHeld n = false → s.qLive q e = true → 1 ≤ ready → ready ≤ qFill e → qHeld e = 0 →
      NoUe at_ (qEsize e) s →
      ((entry.getD 2 0).getLsbD 0 = true → (entry.getD 2 0).getLsbD 1 = true → (entry.getD 2 0).getLsbD 2 = false →
        let data := (entry.drop 8).take ((entry.getD 0 0).toNat + 256 * (entry.getD 1 0).toNat)
        Ends (.hdlcFrameTransmit c) s fun t =>
          (∃ flags, (t.hd n).txBits = h.txBits ++ (List.replicate flags flagBits).flatten ++
            stuff (octetBits (data ++ fcsOf (h.cfg.getLsbD 4) data)) 0 ++ flagBits ∧
            fieldOf h.cfg 6 4 + 1 ≤ flags + h.flags ∧ 1 ≤ flags + h.flags ∧
            (t.hd n).frames = h.frames ++ [(h.txBits.length + 8 * flags, (t.hd n).txBits.length)]) ∧
          t.reg .HDLC_CH_STATUS n = s.reg .HDLC_CH_STATUS n ∧ taken t) ∧
      ((entry.getD 2 0).getLsbD 0 = false → (entry.getD 2 0).getLsbD 2 = false → ready = 1 →
        Ends (.hdlcFrameTransmit c) s fun t =>
          Counted F.HDLC_CNT_TXERR_TXERR n s t ∧ (t.hd n).txBits = h.txBits ∧ (t.hd n).frames = h.frames ∧ taken t) ∧
      (∀ f, (entry.getD 2 0).getLsbD 0 = false → (entry.getD 2 0).getLsbD 2 = true → h.frames.getLast? = some f →
        Ends (.hdlcFrameTransmit c) s fun t =>
          (t.hd n).txBits = h.txBits.take f.1 ++ List.replicate 8 true ++ flagBits ∧ taken t))

/-- O44. By T0, START takes an OFF tenant to RUN with its newts due, RETURN marks a SHED tenant, STOP takes a SHED
tenant other than T0 to OFF; SHED by T0 or the tenant takes a RUN tenant to SHEDDING, records frame and cause,
counts, and stops its cores. In another state, or START, RETURN or STOP by the tenant itself, the tenant stays. At
TAIL_SHED a tenant that has been SHEDDING for a boundary is SHED: no commits, changes or pending events, queues
empty, cores held, event 1006; other tenants keep theirs. -/
def Obligations.TenantStatesFollowTheirCommands : Prop :=
  (∀ (m : Master) (t : Fin 16) (v : Word) (s : State), CanWrite m .TEN_CTL t.val 0 s →
    let u := s.tenantOf m
    let x := s.ten t.val
    let ctl := RegKind.TEN_CTL.addr t.val 0
    let mine := fun n => n < 17 ∧ s.coreOwner n = t.val
    let others := fun (r : State) => ∀ k, k ≠ t.val → r.ten k = s.ten k
    let taken := fun (r : State) => r.reg .TEN_CTL t.val = v &&& 0x300 ∧ Answered m 0 false r
    (u = 0 → s.dev ≠ 2 →
      (x.st = .off → Ends (.tenantStart m t v) s fun r =>
        r.ten t.val = { x with
          st := .run, returnAt := false, age := 0
          cut := x.cut && (List.range 17).any fun n => decide (s.coreOwner n = t.val) } ∧
        others r ∧ (∀ n, mine n → r.core n = { s.core n with startAt := true }) ∧
        (∀ n, ¬mine n → r.core n = s.core n) ∧ taken r ∧ Only [.tenants, .cores, .last] [ctl] [] s r) ∧
      (x.st ≠ .off → Ends (.tenantStart m t v) s fun r => taken r ∧ Only [.last] [ctl] [] s r) ∧
      (x.st = .shed → Ends (.tenantReturn m t v) s fun r => r.ten t.val = { x with returnAt := true } ∧ others r ∧
        taken r ∧ Only [.tenants, .last] [ctl] [] s r) ∧
      (x.st ≠ .shed → Ends (.tenantReturn m t v) s fun r => taken r ∧ Only [.last] [ctl] [] s r) ∧
      (x.st = .shed → t.val ≠ 0 → Ends (.tenantStop m t v) s fun r =>
        r.ten t.val = { x with st := .off, returnAt := false, age := 0 } ∧ others r ∧
        (∀ n, mine n → r.core n = { s.core n with st := .off, wasRun := false, startAt := false }) ∧
        (∀ n, ¬mine n → r.core n = s.core n) ∧ taken r ∧ Only [.tenants, .cores, .last] [ctl] [] s r) ∧
      (x.st ≠ .shed ∨ t.val = 0 → Ends (.tenantStop m t v) s fun r => taken r ∧ Only [.last] [ctl] [] s r)) ∧
    (u ≠ 0 → ∀ i ∈ [Instr.tenantStart m t v, .tenantReturn m t v, .tenantStop m t v],
      Ends i s fun r => Answered m 0 false r ∧ Only [.last] [] [] s r) ∧
    (x.st = .run → Ends (.tailShedRequest m t v) s fun r =>
      r.ten t.val = { x with st := .shedding, age := 0, returnAt := false, cut := true } ∧ others r ∧
      r.reg .TEN_SHED_FRAME t.val = s.frame ∧ r.f F.TEN_SHED_CAUSE_CAUSE t.val = (if u = 0 then 1 else 2) ∧
      Counted F.TEN_STATUS_SHEDS t.val s r ∧
      (∀ n, mine n → r.core n = { s.core n with
        wasRun := decide ((s.core n).st ≠ .off),
        st := if (s.core n).st = .off ∨ (s.core n).st = .faultStop then (s.core n).st else .stopped }) ∧
      (∀ n, ¬mine n → r.core n = s.core n) ∧ Answered m 0 false r ∧
      Only [.tenants, .cores, .last] ((if u = 0 then [ctl] else []) ++ [RegKind.TEN_SHED_FRAME.addr t.val 0,
        RegKind.TEN_SHED_CAUSE.addr t.val 0, RegKind.TEN_STATUS.addr t.val 0]) [] s r) ∧
    (x.st ≠ .run → Ends (.tailShedRequest m t v) s fun r => Answered m 0 false r ∧
      Only [.last] (if u = 0 then [ctl] else []) [] s r)) ∧
  ∀ s : State, s.fabUp = true → s.rst.held = false →
    Ends .tailShed s fun r =>
      let due := fun t => t < 16 ∧ (s.ten t).st = .shedding ∧ 1 ≤ (s.ten t).age
      (∀ t, due t →
        (r.ten t).st = .shed ∧ (∀ c ∈ r.commits, c.tenant ≠ t) ∧ (∀ a, r.change a ≠ .dirty t) ∧
        (∀ n < 17, s.coreOwner n = t → r.pendList n = [] ∧
          (t ≠ 0 ∨ (s.core n).st ≠ .off → (r.core n).st = .stopped ∧ (r.core n).bps = [] ∧ (r.core n).load = none)) ∧
        (∀ q, qEn (s.queue q) = true → s.queueOwner q = t →
          r.queue q = { s.queue q with head := 0, tail := 0, acked := 0, sent := 0 }) ∧
        (⟨1006, some 0, s.frame⟩ : Raised) ∈ r.raised) ∧
      (∀ t, ¬due t → r.ten t = s.ten t ∧ (∀ n < 17, s.coreOwner n = t → r.core n = s.core n) ∧
        (∀ q, s.queueOwner q = t → r.queue q = s.queue q) ∧
        ((∀ c ∈ s.commits, ∀ d ∈ s.commits, c.id = d.id → c = d) → ∀ c ∈ s.commits, c.tenant = t → c ∈ r.commits)) ∧
      Kept [.regs, .events, .tenants, .cores, .pend, .queues, .links, .commits, .changes, .fabric, .power, .mem, .ecc] s r

/-- O45. After EVENT_DELIVERY nothing waits for the window. At a core not waiting in wev, a source that was pending
keeps its stamp, and one that was raised for it, with both mask bits 1, becomes pending with the stamp of its first
raise; no other does. A repeat of a pending source is counted; a core waiting in wev takes the event at once.
AON_EVENT_RELEASE raises what was held, with the current frame. While the router does not run neither does anything. A
write of TEN_MBX_DOOR by an accepted writer fills the mailbox, gives the sender, the way it came and an unread word in
TEN_MBX_INFO, and raises its event; another is refused. -/
def Obligations.EventsReachUnmaskedCores : Prop :=
  (∀ s : State, s.fabUp = true → s.rst.held = false →
    let meant := fun (n : Nat) (r : Raised) => r.num < 1024 ∧ (r.tenant = none ∨ r.tenant = some (s.coreOwner n)) ∧
      (s.reg .TEN_EVT_MASK (s.coreOwner n) (r.num / 32)).getLsbD (r.num % 32) = true ∧
      (s.reg .CORE_EVT_EN n (r.num / 32)).getLsbD (r.num % 32) = true
    let pend := fun (u : State) (n e : Nat) => tabGet (fun _ => none) u.pend (n * 1024 + e)
    Ends .eventDelivery s fun t =>
      (∀ r ∈ t.raised, settleEvent r.num) ∧
      (∀ n < 17, (s.core n).st ≠ .wait → ∀ e < 1024,
        (∀ w, pend s n e = some w → pend t n e = some w) ∧
        (pend s n e = none → (∀ r ∈ s.raised, r.num = e → ¬meant n r) → pend t n e = none) ∧
        (∀ l r l', s.raised = l ++ r :: l' → r.num = e → meant n r → (∀ x ∈ l, x.num = e → ¬meant n x) →
          pend s n e = none → pend t n e = some r.stamp)) ∧
      (∀ n < 17, ∀ r, s.raised = [r] → meant n r →
        (pend s n r.num ≠ none → Counted F.EVR_MERGED_COUNT n s t) ∧
        (s.pendList n = [] → (s.core n).st = .wait → s.irqOf n r.num = none → s.corePg n = true →
          (s.core n).stepping = false →
          (t.core n).st = .run ∧ pend t n r.num = none ∧
          t.ctx n = { s.ctx n with
            a := BitVec.ofNat 32 r.num, y := r.stamp, f := (s.ctx n).f &&& 0b11110, pc := (s.ctx n).pc + 4 })) ∧
      Kept [.regs, .events, .cores, .counters, .ecc, .pend] s t ∧
      RegsKept (regsOf [.EVR_MERGED] ++ (List.range 17).flatMap bookRegs) s t) ∧
  (∀ s : State, s.fabUp = true → s.rst.held = false →
    Ends .aonEventRelease s fun t => t.held = [] ∧ Only [] [] (s.held.map fun n => ⟨n, none, s.frame⟩) s t) ∧
  (∀ s : State, s.fabUp = false → Ends .eventDelivery s (Only [] [] [] s) ∧ Ends .aonEventRelease s (Only [] [] [] s)) ∧
  ∀ (m : Master) (t : Fin 16) (v : Word) (s : State), CanWrite m .TEN_MBX_DOOR t.val 0 s →
    let u := s.tenantOf m
    let bound := ∃ k x, m = .link k x ∧ (s.reg .TEN_LINKS t.val).getLsbD k.val = true
    let ok := u = 0 ∨ u = t.val ∨ bound ∨ (s.reg .TEN_MBX_ALLOW t.val).getLsbD u = true
    (ok → Ends (.tenMbxDoor m t v) s fun r =>
      r.reg .TEN_MBX t.val = v ∧ r.f F.TEN_MBX_INFO_SENDER t.val = u ∧
      (r.f F.TEN_MBX_INFO_VIA_LINK t.val = 1 ↔ ∃ k x, m = .link k x) ∧
      (∀ k x, m = .link k x → r.f F.TEN_MBX_INFO_LINK t.val = k.val) ∧
      r.f F.TEN_MBX_INFO_OVER t.val = (if (s.ten t.val).mbxFull then 1 else s.f F.TEN_MBX_INFO_OVER t.val) ∧
      r.ten t.val = { s.ten t.val with mbxFull := true } ∧ (∀ k, k ≠ t.val → r.ten k = s.ten k) ∧ Answered m 0 false r ∧
      Only [.tenants, .last] [RegKind.TEN_MBX.addr t.val 0, RegKind.TEN_MBX_INFO.addr t.val 0]
        [⟨988 + t.val, some t.val, s.frame⟩] s r) ∧
    (¬ok → Ends (.tenMbxDoor m t v) s fun r => Answered m 0 true r ∧ Only [.last] [] [] s r)

/-- O46. Q_ENABLE of a disabled queue enables it empty, or records the first failing check of R509 in CFG_ERR with EN 0;
on an enabled queue it may change only POLICY and SUM_EN, else an access error. Q_DISABLE of an enabled queue clears
EN and discards every entry, with DROP as it was. A 1 written to QSUM clears the bit of a queue that the writer owns
(T0: any), unless the queue is still at its high mark, and no other bit. -/
def Obligations.QueueDescriptorsAreChecked : Prop :=
  (∀ (m : Master) (q : BitVec 14) (v : Word) (s : State), CanWrite m .Q_CFG q.toNat 0 s →
    let e := s.queue q.toNat
    let on := (v ||| 1) &&& 0x1F77
    let off := v &&& 0x1F76
    let fixed : Word := 0x1F70
    let others := fun (t : State) => ∀ k, k ≠ q.toNat → t.queue k = s.queue k
    let esize := 8 * 2 ^ fieldOf v 4 3
    let size := 2 ^ fieldOf v 8 5 * esize
    let bad1 := 5 < fieldOf v 4 3 ∨ 16 < fieldOf v 8 5
    let bad2 := e.base % esize ≠ 0
    let bad3 := 0x1000000 < e.base + size ∨ e.base / 0x100000 ≠ (e.base + size - 1) / 0x100000
    let bad4 := s.segCovers (s.queueOwner q.toNat) e.base size true = false
    (qEn e = false →
      (¬bad1 → ¬bad2 → ¬bad3 → ¬bad4 → Ends (.qEnable m q v) s fun t =>
        t.queue q.toNat = { e with cfg := on, cfgErr := 0, head := 0, tail := 0, acked := 0, sent := 0 } ∧ others t ∧
        Answered m 0 false t ∧ Only [.queues, .last] [] [] s t) ∧
      (∀ code, (code = 1 ∧ bad1) ∨ (code = 2 ∧ ¬bad1 ∧ bad2) ∨ (code = 3 ∧ ¬bad1 ∧ ¬bad2 ∧ bad3) ∨
          (code = 4 ∧ ¬bad1 ∧ ¬bad2 ∧ ¬bad3 ∧ bad4) → Ends (.qEnable m q v) s fun t =>
        t.queue q.toNat = { e with cfg := on &&& 0xFFFFFFFE, cfgErr := code } ∧ others t ∧ Answered m 0 false t ∧
        Only [.queues, .last] [] [] s t) ∧
      Ends (.qDisable m q v) s fun t => t.queue q.toNat = { e with cfg := off } ∧ others t ∧ Answered m 0 false t ∧
        Only [.queues, .last] [] [] s t) ∧
    (qEn e = true →
      (v &&& fixed = e.cfg &&& fixed →
        (Ends (.qEnable m q v) s fun t => t.queue q.toNat = { e with cfg := on } ∧ others t ∧ Answered m 0 false t ∧
          Only [.queues, .last] [] [] s t) ∧
        Ends (.qDisable m q v) s fun t =>
          t.queue q.toNat = { e with cfg := off, head := 0, tail := 0, acked := 0, sent := 0 } ∧ others t ∧
          Answered m 0 false t ∧ Only [.queues, .links, .last] [] [] s t) ∧
      (v &&& fixed ≠ e.cfg &&& fixed → ∀ i ∈ [Instr.qEnable m q v, .qDisable m q v], Ends i s fun t =>
        Answered m 0 true t ∧ Only [.last] [] [] s t))) ∧
  ∀ (m : Master) (g : BitVec 6) (w : BitVec 3) (v : Word) (s : State), CanWrite m .QSUM g.toNat w.toNat s →
    Ends (.qsumClear m g w v) s fun t =>
      (∀ i < 32, let q := 256 * g.toNat + 32 * w.toNat + i
        ((t.reg .QSUM g.toNat w.toNat).getLsbD i = true ↔
          ((s.reg .QSUM g.toNat w.toNat).getLsbD i = true ∧
            ¬(v.getLsbD i = true ∧ (s.tenantOf m = 0 ∨ s.queueOwner q = s.tenantOf m))) ∨
          ∃ e ∈ s.queues, e.1 = q ∧ qAbove e.2 = true)) ∧
      Answered m 0 false t ∧ Only [.last] [] [] s t

/-- O47. SCRUB_LINE, with the scrubber on and the clocks running, reads the line that POND_SCRUB_STATUS names in a bank
that is on: single errors are corrected and counted, an uncorrectable word is recorded with its address and nothing
corrected, and LINE moves on, counting a pass at the end. BANK_READY turns a risen bank on if its level is on. A GO
of POND_ECC_INJECT for a bank that is on waits as a flip of check bit 0, or 0 and 1, of its word, which ECC_INJECT_FLIP
makes; for another bank it is refused. -/
def Obligations.PondIsScrubbedRaisedAndInjected : Prop :=
  (∀ s : State, s.divRun = true → s.b F.POND_SCRUB_CTL_EN = true →
    let line := s.f F.POND_SCRUB_STATUS_LINE
    let words := [4 * line, 4 * line + 1, 4 * line + 2, 4 * line + 3]
    let moved := fun (t : State) => t.f F.POND_SCRUB_STATUS_LINE = (line + 1) % 0x80000 ∧
      t.f F.POND_SCRUB_STATUS_PASSES =
        (s.f F.POND_SCRUB_STATUS_PASSES + if line = 0x7FFFF then 1 else 0) % 4096 ∧
      t.ceGrown = (s.ceGrown || ((words.any fun w => (s.eccOf w).ce) &&
        decide (s.f F.POND_ECC_CE_COUNT_COUNT ≠ 0xFFFF))) ∧ t.eccJobs = s.eccJobs ∧
      Only [.ecc, .scrub] (RegKind.POND_SCRUB_STATUS.addr 0 0 :: eccRegs) [] s t
    s.bankSt (line / 32768) = 2 →
      ((∀ w ∈ words, (s.eccOf w).ue = false) → Ends .scrubLine s fun t =>
        (∀ w, t.eccOf w = if w ∈ words then .good else s.eccOf w) ∧
        t.f F.POND_ECC_CE_COUNT_COUNT = min (s.f F.POND_ECC_CE_COUNT_COUNT +
          (words.filter fun w => decide (s.eccOf w ≠ .good)).length) 0xFFFF ∧ t.ueNew = s.ueNew ∧ moved t) ∧
      ((∃ w ∈ words, (s.eccOf w).ue = true) → Ends .scrubLine s fun t =>
        (∀ w, t.eccOf w = s.eccOf w) ∧ Counted F.POND_ECC_UE_COUNT_COUNT 0 s t ∧ t.ueNew = true ∧
        (∃ w ∈ words, (s.eccOf w).ue = true ∧ t.reg .POND_ECC_UE_ADDR = BitVec.ofNat 32 (8 * w)) ∧ moved t)) ∧
  (∀ (b : BitVec 4) (s : State), s.bankSt b.toNat = 3 →
    (s.bankCode b.toNat = 1 ∨ (s.bankCode b.toNat = 2 ∧ s.divRun = true)) →
    Ends (.bankReady b) s fun t =>
      t.bankSt b.toNat = (if s.bankLevel b.toNat = 2 then 2 else 3) ∧
      (∀ c < 16, c ≠ b.toNat → t.bankSt c = s.bankSt c) ∧
      (s.bankLevel b.toNat ≠ 2 → t.bankCode b.toNat = s.bankCode b.toNat + 2) ∧
      Only [.power] [RegKind.POND_BANK_STATUS.addr 0 0] [] s t) ∧
  (∀ (m : Master) (v : Word) (s : State), CanWrite m .POND_ECC_INJECT 0 0 s →
    let w := fieldOf v 3 21
    let bits := fieldOf v 28 2
    (s.bankSt (w / 0x20000) ≠ 2 → Ends (.pondEccInject m v) s fun t => Answered m 0 true t ∧ Only [.last] [] [] s t) ∧
    (s.bankSt (w / 0x20000) = 2 → Ends (.pondEccInject m v) s fun t =>
      t.eccJobs = (if bits = 1 ∨ bits = 2 then s.eccJobs ++ [(w, bits)] else s.eccJobs) ∧ (∀ x, t.eccOf x = s.eccOf x) ∧
      Answered m 0 false t ∧ Only [.ecc, .last] [] [] s t)) ∧
  ∀ (w bits : Nat) (rest : List (Nat × Nat)) (s : State), s.divRun = true → s.eccJobs = (w, bits) :: rest →
    Ends .eccInjectFlip s fun t => t.eccJobs = rest ∧
      (∀ x, t.eccOf x = if x ≠ w then s.eccOf x else if bits = 1 then (s.eccOf w).flip 64
        else ((s.eccOf w).flip 64).flip 65) ∧ Only [.ecc] [] [] s t

/-- O48. A counter past 2^48 − 1 wraps; it sets OVF, and the block raises one event, unless a read holds it; the end of
the oldest hold, 64 cycles after its read, reports what was held unless another master's read still holds it. A read of
_LO returns bits 31:0 and latches bits 47:32 for that master's _HI; a write of _LO is kept and the write of _HI loads
both halves. A write of PERF_CTL or FPERF_CTL with a defined SEL sets it and zeroes the counter with anything not
reported; with another it is refused. The other counters stay. -/
def Obligations.CountersWrapHoldAndLoad : Prop :=
  ∀ (c : PerfCtr) (s : State),
    let n := (ctrOf c).1
    let k := (ctrOf c).2
    let p := s.pctr n k
    let status := if n = 17 then RegKind.FPERF_STATUS.addr 0 0 else RegKind.PERF_STATUS.addr n 0
    let ovf := fun (t : State) (j : Nat) =>
      if n = 17 then (t.reg .FPERF_STATUS).getLsbD j else (t.reg .PERF_STATUS n).getLsbD j
    let event : Raised := if n = 17 then s.ev 1007 else ⟨843 + 4 * n, some (s.coreOwner n), s.frame⟩
    let others := fun (t : State) => ∀ i j, (i ≠ n ∨ j ≠ k) → j < 8 → t.pctr i j = s.pctr i j
    let past := fun j => j ∈ ctrNums n ∧ 2 ^ 48 ≤ (s.pctr n j).val
    let may := fun (rd : Bool) (core fab : RegKind) (m : Master) => match c with
      | .core a b => if rd then CanRead m core a.val b.val s else CanWrite m core a.val b.val s
      | .fab b => if rd then CanRead m fab b.val 0 s else CanWrite m fab b.val 0 s
    (Ends (.counterOverflow c) s fun t =>
      (∀ j ∈ ctrNums n, past j → let q := s.pctr n j
        t.pctr n j = { q with
          val := q.val % 2 ^ 48, held := q.held || !q.holders.isEmpty, inDel := q.inDel || q.holders.isEmpty } ∧
        ovf t j = (ovf s j || q.holders.isEmpty)) ∧
      (∀ j ∈ ctrNums n, ¬past j → t.pctr n j = s.pctr n j ∧ ovf t j = ovf s j) ∧
      (∀ i, i ≠ n → ∀ j < 8, t.pctr i j = s.pctr i j) ∧
      ((∃ j, past j ∧ (s.pctr n j).holders = []) → Only [.counters] [status] (if s.fabUp then [event] else []) s t) ∧
      ((∀ j, past j → (s.pctr n j).holders ≠ []) → Only [.counters] [] [] s t)) ∧
    (Ends (.overflowHoldEnd c) s fun t =>
      let ends : Bool := p.held && p.holders.tail.isEmpty
      t.pctr n k = { p with holders := p.holders.tail, held := p.held && !ends, inDel := p.inDel || ends } ∧ others t ∧
      (ends = true → ovf t k = true ∧ Only [.counters] [status] (if s.fabUp then [event] else []) s t) ∧
      (ends = false → Only [.counters] [] [] s t)) ∧
    (∀ m v, (∀ j ∈ ctrNums n, ¬past j) →
      (may true .PERF_CNT_LO .FPERF_CNT_LO m → Ends (.perfCntLoRead m c) s fun t =>
        Answered m (BitVec.ofNat 32 p.val) false t ∧ t.latch m (ctrHi n k) = BitVec.ofNat 32 (p.val / 2 ^ 32) ∧
        (∀ a, a ≠ latchKey m (ctrHi n k) → tabGet (fun _ => (0 : Word)) t.latches a = tabGet (fun _ => 0) s.latches a) ∧
        t.pctr n k = { p with holders := (p.holders.filter fun h => decide (h ≠ m.id)) ++ [m.id] } ∧ others t ∧
        Only [.last, .latches, .counters] [] [] s t) ∧
      (may false .PERF_CNT_LO .FPERF_CNT_LO m → Ends (.perfCntLoWrite m c v) s fun t =>
        t.latch m (ctrLo n k) = v ∧
        (∀ a, a ≠ latchKey m (ctrLo n k) → tabGet (fun _ => (0 : Word)) t.latches a = tabGet (fun _ => 0) s.latches a) ∧
        Answered m 0 false t ∧ Only [.last, .latches] [] [] s t) ∧
      (may false .PERF_CNT_HI .FPERF_CNT_HI m → Ends (.perfCntHiWrite m c v) s fun t =>
        t.pctr n k = { p with val := fieldOf v 0 16 * 2 ^ 32 + (s.latch m (ctrLo n k)).toNat } ∧ others t ∧
        Answered m 0 false t ∧ Only [.last, .counters] [] [] s t)) ∧
    ∀ m v, may false .PERF_CTL .FPERF_CTL m →
      let last := if n = 17 then 7 else 20
      let sel := if n = 17 then fieldOf v 0 5 else fieldOf v 0 6
      let ctl := if n = 17 then RegKind.FPERF_CTL.addr k 0 else RegKind.PERF_CTL.addr n k
      (last < sel → Ends (.perfCtlWrite m c v) s fun t => Answered m 0 true t ∧ Only [.last] [] [] s t) ∧
      (sel ≤ last → Ends (.perfCtlWrite m c v) s fun t =>
        (if n = 17 then t.reg .FPERF_CTL k = v &&& 0x001F011F else t.reg .PERF_CTL n k = v &&& 0x33F) ∧
        t.pctr n k = { PCtr.init with holders := p.holders, wait := p.wait, prev := (t.pctr n k).prev } ∧ others t ∧
        Answered m 0 false t ∧ Kept [.regs, .events, .last, .counters] s t ∧ RegsKept [ctl] s t)

/-- O49. An instruction that completes while a sample is due counts for its skid, and fixes its PC and skid if the
router has delivered the overflow. PC_SAMPLE_CAPTURE makes the record of R572 of what a boundary fixed (for a core that
waits or is stopped, of where it stands, skid 1 to 3) and leaves it waiting; with one already waiting it counts a lost
sample; SEQ moves either way; before the boundary it does nothing. SAMPLE_WRITE writes the waiting record of the lowest
core and counter at WR of its ring and moves WR, or counts it lost where EN is 0, the ring is full or its bank is not
on. Enabling checks the ring in the order of R576. -/
def Obligations.SamplesAreCapturedAndStored : Prop :=
  (∀ (n : Fin 17) (k : Fin 4) (s : State), Executes n.val s →
    let p := s.pctr n.val k.val
    p.due ≠ none → p.ready = none → Ends (.nop n 0 0) s fun t =>
      let q := t.pctr n.val k.val
      let c := t.core n.val
      q.due = p.due ∧ q.dueAt = p.dueAt ∧ q.dueInstr = p.dueInstr + 1 ∧
      (s.fabUp = true → p.dueAt < c.cyc → q.ready = some ((t.ctx n.val).pc.toNat + 2 ^ 24 * c.inHandler.toNat +
        2 ^ 25 * k.val + 2 ^ 27 * min 3 (p.dueInstr + 1))) ∧
      (s.fabUp = false ∨ c.cyc ≤ p.dueAt → q.ready = none)) ∧
  (∀ (n : Fin 17) (k : Fin 4) (s : State),
    let p := s.pctr n.val k.val
    let c := s.core n.val
    p.due = none ∨ (p.ready = none ∧ (c.st = .run ∨ s.fabUp = false)) →
      Ends (.pcSampleCapture n k) s (Only [] [] [] s)) ∧
  (∀ (n : Fin 17) (k : Fin 4) (s : State) (frame : Word) (cycle w : Nat),
    (s.pctr n.val k.val).due = some (frame, cycle) →
    let p := s.pctr n.val k.val
    let c := s.core n.val
    let skid := max 1 (min 3 p.dueInstr)
    (p.ready = some w ∨ (p.ready = none ∧ c.st ≠ .run ∧ s.fabUp = true ∧
      w = (s.ctx n.val).pc.toNat + 2 ^ 24 * c.inHandler.toNat + 2 ^ 25 * k.val + 2 ^ 27 * skid)) →
    let rec_ := leBytes 4 w ++ leBytes 4 frame.toNat ++ leBytes 2 cycle ++ leBytes 2 c.seq.toNat ++ [0, 0, 0, 0]
    let same := fun (t : State) => t.core n.val = { c with seq := c.seq + 1 } ∧
      (∀ m, m ≠ n.val → t.core m = s.core m) ∧ ∀ i j, (i ≠ n.val ∨ j ≠ k.val) → j < 8 → t.pctr i j = s.pctr i j
    (p.wait = none → Ends (.pcSampleCapture n k) s fun t =>
      t.pctr n.val k.val = { p with due := none, dueAt := 0, dueInstr := 0, ready := none, wait := some rec_ } ∧ same t ∧
      Only [.cores, .counters] [] [] s t) ∧
    (p.wait ≠ none → Ends (.pcSampleCapture n k) s fun t =>
      t.pctr n.val k.val = { p with due := none, dueAt := 0, dueInstr := 0, ready := none } ∧ Counted F.PERF_SBUF_LOST_LOST n.val s t ∧ same t ∧
      Only [.cores, .counters] [RegKind.PERF_SBUF_LOST.addr n.val 0] [] s t)) ∧
  (∀ (n : Fin 17) (k : Fin 4) (s : State) (r : List Byte), s.divRun = true → (s.pctr n.val k.val).wait = some r →
    r.length = 16 → (∀ i j, j < 4 → (i < n.val ∨ (i = n.val ∧ j < k.val)) → (s.pctr i j).wait = none) →
    let size := s.f F.PERF_SBUF_CFG_SIZE_LOG2 n.val
    let wr := s.f F.PERF_SBUF_WR_WR n.val
    let a := 16 * s.f F.PERF_SBUF_BASE_BASE n.val + 16 * (wr % 2 ^ size)
    let full := 2 ^ size ≤ (wr + 2 ^ 17 - s.f F.PERF_SBUF_RD_RD n.val) % 2 ^ 17
    let en := s.b F.PERF_SBUF_CFG_EN n.val = true
    let same := fun (t : State) => t.pctr n.val k.val = { s.pctr n.val k.val with wait := none } ∧
      ∀ i j, (i ≠ n.val ∨ j ≠ k.val) → j < 8 → t.pctr i j = s.pctr i j
    (en → ¬full → s.pondOn a 16 = true → Ends .sampleWrite s fun t =>
      Placed a r s t ∧ t.f F.PERF_SBUF_WR_WR n.val = (wr + 1) % 2 ^ 17 ∧ same t ∧
      Only [.mem, .ecc, .counters] [RegKind.PERF_SBUF_WR.addr n.val 0] [] s t) ∧
    (¬en ∨ full → Ends .sampleWrite s fun t => Counted F.PERF_SBUF_LOST_LOST n.val s t ∧ same t ∧
      Only [.counters] [RegKind.PERF_SBUF_LOST.addr n.val 0] [] s t) ∧
    (en → ¬full → s.pondOn a 16 = false → Ends .sampleWrite s fun t => Counted F.PERF_SBUF_LOST_LOST n.val s t ∧
      t.f F.PERF_SBUF_CFG_BANK_ERR n.val = 1 ∧ same t ∧
      Only [.counters] [RegKind.PERF_SBUF_LOST.addr n.val 0, RegKind.PERF_SBUF_CFG.addr n.val 0] [] s t)) ∧
  ∀ (m : Master) (n : Fin 17) (v : Word) (s : State), CanWrite m .PERF_SBUF_CFG n.val 0 s →
    s.b F.PERF_SBUF_CFG_EN n.val = false →
    let size := fieldOf v 4 5
    let base := 16 * s.f F.PERF_SBUF_BASE_BASE n.val
    let len := 16 * 2 ^ size
    let bad1 := size < 4 ∨ 16 < size
    let bad2 := base % len ≠ 0
    let bad3 := 0x1000000 < base + len ∨ base / 0x100000 ≠ (base + len - 1) / 0x100000
    let bad4 := s.segCovers (s.coreOwner n.val) base len false = false
    let cfg := RegKind.PERF_SBUF_CFG.addr n.val 0
    (¬bad1 → ¬bad2 → ¬bad3 → ¬bad4 → Ends (.sbufEnable m n v) s fun t =>
      t.f F.PERF_SBUF_CFG_EN n.val = 1 ∧ t.f F.PERF_SBUF_CFG_SIZE_LOG2 n.val = size ∧
      t.f F.PERF_SBUF_CFG_CFG_ERR n.val = 0 ∧ t.f F.PERF_SBUF_WR_WR n.val = 0 ∧ t.f F.PERF_SBUF_RD_RD n.val = 0 ∧
      Answered m 0 false t ∧
      Only [.last] [cfg, RegKind.PERF_SBUF_WR.addr n.val 0, RegKind.PERF_SBUF_RD.addr n.val 0] [] s t) ∧
    ∀ code, (code = 1 ∧ bad1) ∨ (code = 2 ∧ ¬bad1 ∧ bad2) ∨ (code = 3 ∧ ¬bad1 ∧ ¬bad2 ∧ bad3) ∨
        (code = 4 ∧ ¬bad1 ∧ ¬bad2 ∧ ¬bad3 ∧ bad4) → Ends (.sbufEnable m n v) s fun t =>
      t.f F.PERF_SBUF_CFG_EN n.val = 0 ∧ t.f F.PERF_SBUF_CFG_CFG_ERR n.val = code ∧ Answered m 0 false t ∧
      Only [.last] [cfg] [] s t

/-- O50. A request with the expected SEQ is accepted; one of wrong length is answered BADLEN, one of an unbound tenant
NOT_BOUND and counted, a reserved type BADTYPE; a gap or a duplicate is counted and answered with NULL. QPUT writes
the stamp, the data and zeros at TAIL, or is held or answered QFULL with its event, NOT_OWNER or BADLEN;
HELD_ENTRY_PUT puts a held entry. QREAD sends the next bytes as QDATA and keeps the page, or EMPTY, QBUSY or
MEM_ERR. CTL_RD and CTL_WR of one word of pond memory read or write it; with DIAG_EN 0, DIAG_OFF. MBX writes TEN_MBX
with its event. A NULL acknowledges the oldest packets and releases the entries of an acknowledged page; with NAK
all are replayed. Without its bank's supply a link receives nothing. The order BADLEN before NOT_BOUND before the others
is the model's (log entry 40), and so is that a request whose answers might pass 64 unacknowledged packets is not
accepted (log entry 39). -/
def Obligations.LinkRequestsAreServedAndAnswered : Prop :=
  ∀ (k : Fin 4) (h : PktHdr) (s : State), s.fabUp = true → s.rst.held = false →
    let l := s.link k.val
    let tn := h.tenant.val
    let a := (h.ack - l.last).toNat
    let d := (h.seq - l.exp).toNat
    let becomes := fun (l' : Link) (t : State) => t.link k.val = l' ∧ ∀ j, j ≠ k.val → t.link j = s.link j
    let full := s.ev (724 + 8 * k.val)
    let status := RegKind.HL_STATUS.addr k.val 0
    let gone := (l.replay.take a).map fun p => p.seq
    (s.bankIn 5 = false → ∀ (p : List Byte) (typ : BitVec 4), ∀ c ∈ [Instr.null k h, .badtype k h typ, .qputPacket k h p,
        .qread k h p, .ctlRd k h p, .ctlWr k h p, .mbx k h p, .linkReset k h], Ends c s (Only [] [] [] s)) ∧
    -- NULL
    (s.bankIn 5 = true → 1 ≤ a → a ≤ l.replay.length → h.nak = false →
      let acked := { (({ l with idle := 0 } : Link).acked h.ack) with pages := [] }
      (l.pages = [] → Ends (.null k h) s fun t => becomes acked t ∧ Only [.links] [] [] s t) ∧
      ∀ p, l.pages = [p] → p.seq ∈ gone →
        (p.dead = true → Ends (.null k h) s fun t => becomes acked t ∧ Only [.links] [] [] s t) ∧
        (p.dead = false → let q := s.queue p.queue
          let whole := (p.fin - BitVec.ofNat 32 (qHeadPos q)).toNat / qEsize q
          Ends (.null k h) s fun t => becomes acked t ∧ (∀ j, j ≠ p.queue → t.queue j = s.queue j) ∧
            t.queue p.queue = { q with acked := p.fin, head := q.head + BitVec.ofNat 17 whole } ∧
            Only [.links, .queues] [] [] s t)) ∧
    (s.bankIn 5 = true → ¬(1 ≤ a ∧ a ≤ l.replay.length) →
      (h.nak = false ∨ l.replay = [] → Ends (.null k h) s fun t =>
        becomes { l with idle := 0 } t ∧ Only [.links] [] [] s t) ∧
      (h.nak = true → l.replay ≠ [] → Ends (.null k h) s fun t =>
        becomes ({ l with idle := 0 } : Link).again t ∧
        Counted F.HL_CNT_PARTIAL_REPLAYS k.val s t ∧
        Only [.links] [RegKind.HL_CNT_PARTIAL.addr k.val 0, status] [s.ev (723 + 8 * k.val)] s t) ∧
      -- every request
      (∀ (p : List Byte) (typ : BitVec 4), 6 ≤ typ.toNat → typ.toNat ≤ 14 →
        let q := leField p 0 2 % 16384
        let most := leField p 2 2
        let n := leField p 4 2
        let len := p.length
        let bound := if tn = 0 then s.b F.HL_CFG_T0_OK k.val = true else (s.reg .TEN_LINKS tn).getLsbD k.val = true
        let requests : List (Instr × Prop) := [(.qputPacket k h p, 4 ≤ len), (.qread k h p, len = 4 ∧ 1 ≤ most ∧ most ≤ 504),
          (.ctlRd k h p, len = 6 ∧ 1 ≤ n ∧ n ≤ 127), (.ctlWr k h p, 8 ≤ len ∧ len ≤ 512 ∧ len % 4 = 0),
          (.mbx k h p, len = 4)]
        let diag := s.b F.HL_CFG_DIAG_EN k.val = true
        (∀ c ∈ Instr.badtype k h typ :: requests.map Prod.fst,
          (1 ≤ d → d ≤ 2047 → Ends c s fun t => becomes (({ l with idle := 0 } : Link).sendsPlain 0 true) t ∧
            Counted F.HL_CNT_FRM_GAP_GAP k.val s t ∧
            Only [.links] [RegKind.HL_CNT_FRM_GAP.addr k.val 0, status] [] s t) ∧
          (2048 ≤ d → Ends c s fun t => becomes (({ l with idle := 0 } : Link).sendsPlain 0 false) t ∧
            Counted F.HL_CNT_DUP_BOUND_DUP k.val s t ∧
            Only [.links] [RegKind.HL_CNT_DUP_BOUND.addr k.val 0, status] [] s t)) ∧
        (d = 0 → 64 < l.replay.length + (if h.rspq then 2 else 1) → ∀ c ∈ Instr.badtype k h typ :: requests.map Prod.fst,
          Ends c s fun t => becomes { l with idle := 0 } t ∧ Only [.links] [] [] s t) ∧
        (d = 0 → l.replay.length + (if h.rspq then 2 else 1) ≤ 64 →
          (Ends (.badtype k h typ) s fun t => becomes (l.took.status h 5 typ.toNat) t ∧ Only [.links] [] [] s t) ∧
          (∀ c ∈ requests,
            (¬c.2 → Ends c.1 s fun t => becomes (l.took.status h 6 len) t ∧ Only [.links] [] [] s t) ∧
            (c.2 → ¬bound → Ends c.1 s fun t => becomes (l.took.status h 2 0) t ∧
              Counted F.HL_CNT_DUP_BOUND_NOT_BOUND k.val s t ∧
              Only [.links] [RegKind.HL_CNT_DUP_BOUND.addr k.val 0, status] [] s t) ∧
            (c.2 → bound → (c.1 = .qputPacket k h p ∨ c.1 = .qread k h p) → s.queueOwner q ≠ tn →
              Ends c.1 s fun t => becomes (l.took.status h 8 q) t ∧ Only [.links] [] [] s t) ∧
            (c.2 → bound → (c.1 = .ctlRd k h p ∨ c.1 = .ctlWr k h p) → ¬diag →
              Ends c.1 s fun t => becomes (l.took.status h 9 0) t ∧ Only [.links] [] [] s t)) ∧
          -- QPUT
          (bound → 4 ≤ len → s.queueOwner q = tn →
            let e := s.queue q
            let size := qEsize e
            let entry := leBytes 4 s.frame.toNat ++ p.drop 4 ++ List.replicate (size - len) 0
            let at_ := e.base + e.tail.toNat % qDepth e * size
            let others := fun (t : State) => ∀ j, j ≠ q → t.queue j = s.queue j
            (size < len → Ends (.qputPacket k h p) s fun t => becomes (l.took.status h 6 len) t ∧ Only [.links] [] [] s t) ∧
            (len ≤ size → (∃ x ∈ l.holds, x.queue = q) → Ends (.qputPacket k h p) s fun t =>
              becomes (l.took.status h 3 q) t ∧ Only [.links] [] [full] s t) ∧
            (len ≤ size → (∀ x ∈ l.holds, x.queue ≠ q) →
              (s.qLive q e = true → qFill e ≠ qDepth e → NoUe at_ size s → Ends (.qputPacket k h p) s fun t =>
                Placed at_ entry s t ∧ t.queue q = { e with tail := e.tail + 1 } ∧ others t ∧ becomes (l.took.okd h) t ∧
                Only [.links, .queues, .mem, .ecc] eccRegs [] s t) ∧
              (s.qLive q e = false ∨ qFill e = qDepth e →
                (qDrops e = true → Ends (.qputPacket k h p) s fun t =>
                  t.queue q = (if s.qLive q e = true then
                    { e with drop := if e.drop = 0xFFFF then e.drop else e.drop + 1,
                             dropSat := e.dropSat || decide (e.drop = 0xFFFF) } else e) ∧ others t ∧
                  becomes (l.took.status h 3 q) t ∧ Only [.links, .queues] [] [full] s t) ∧
                (qDrops e = false → 4 ≤ l.holds.length → Ends (.qputPacket k h p) s fun t =>
                  becomes (l.took.status h 3 q) t ∧ Only [.links] [] [full] s t) ∧
                (qDrops e = false → l.holds.length < 4 → Ends (.qputPacket k h p) s fun t =>
                  becomes { l.took with holds := l.holds ++ [⟨q, entry, h.rspq, h.seq, tn⟩] } t ∧
                  Only [.links] [] [full] s t)))) ∧
          -- QREAD
          (bound → len = 4 → 1 ≤ most → most ≤ 504 → s.queueOwner q = tn →
            let e := s.queue q
            let taken := (∃ j < 4, ∃ x ∈ (s.link j).pages, x.queue = q ∧ x.dead = false)
            let ahead := (e.sent - BitVec.ofNat 32 (qHeadPos e)).toNat
            let left := min most (if s.qLive q e = true then qFill e * qEsize e - ahead else 0)
            let addrs := (List.range left).map fun i =>
              e.base + (e.head + BitVec.ofNat 17 ((ahead + i) / qEsize e)).toNat % qDepth e * qEsize e +
                (ahead + i) % qEsize e
            let fin := e.sent + BitVec.ofNat 32 left
            (taken → Ends (.qread k h p) s fun t => becomes (l.took.status h 4 q) t ∧ Only [.links] [] [] s t) ∧
            (¬taken →
              (left = 0 → Ends (.qread k h p) s fun t =>
                becomes ((l.took.sends 8 tn (leBytes 2 q ++ [1, 0] ++ leBytes 4 e.sent.toNat)).okd h) t ∧
                Only [.links] [] [] s t) ∧
              (left ≠ 0 → (∀ x ∈ addrs, (s.eccOf (x / 8)).ue = false) → Ends (.qread k h p) s fun t =>
                becomes (({ l.took.sends 8 tn (leBytes 2 q ++ [0, 0] ++ leBytes 4 e.sent.toNat ++ addrs.map s.byte) with
                  pages := l.pages ++ [⟨l.txNext, q, fin, false⟩] } : Link).okd h) t ∧
                t.queue q = { e with sent := fin } ∧ (∀ j, j ≠ q → t.queue j = s.queue j) ∧
                Only [.links, .queues, .ecc] eccRegs [] s t) ∧
              (left ≠ 0 → (∃ x ∈ addrs, (s.eccOf (x / 8)).ue = true) → Ends (.qread k h p) s fun t =>
                (∃ x ∈ addrs, (s.eccOf (x / 8)).ue = true ∧ becomes (l.took.status h 7 (x / 8 * 8)) t) ∧
                Only [.links, .ecc] eccRegs [] s t))) ∧
          -- CTL_RD and CTL_WR of one word of pond memory, for T0
          (∀ (x : Nat) (v : Word), tn = 0 → bound → diag → x < 0x1000000 →
            (p = leBytes 4 x ++ [1, 0] →
              (x % 4 ≠ 0 → Ends (.ctlRd k h p) s fun t => becomes (l.took.status h 1 x) t ∧ Only [.links] [] [] s t) ∧
              (x % 4 = 0 → s.pondOn x 4 = false → Ends (.ctlRd k h p) s fun t =>
                becomes (l.took.status h 7 x) t ∧ Only [.links] [] [] s t) ∧
              (x % 4 = 0 → s.pondOn x 4 = true → NoUe x 4 s → Ends (.ctlRd k h p) s fun t =>
                becomes ((l.took.sends 9 0 (leBytes 4 x ++ s.bytes x 4)).okd h) t ∧
                Only [.links, .ecc] eccRegs [] s t) ∧
              (x % 4 = 0 → s.pondOn x 4 = true → (s.eccOf (x / 8)).ue = true → Ends (.ctlRd k h p) s fun t =>
                becomes (l.took.status h 7 x) t ∧ Counted F.POND_ECC_UE_COUNT_COUNT 0 s t ∧
                t.reg .POND_ECC_UE_ADDR = BitVec.ofNat 32 (x / 8 * 8) ∧ Only [.links, .ecc] eccRegs [] s t)) ∧
            (p = leBytes 4 x ++ leBytes 4 v.toNat →
              (x % 4 ≠ 0 → Ends (.ctlWr k h p) s fun t => becomes (l.took.status h 1 x) t ∧ Only [.links] [] [] s t) ∧
              (x % 4 = 0 → s.pondOn x 4 = false → Ends (.ctlWr k h p) s fun t =>
                becomes (l.took.status h 7 x) t ∧ Only [.links] [] [] s t) ∧
              (x % 4 = 0 → s.pondOn x 4 = true → NoUe x 4 s → Ends (.ctlWr k h p) s fun t =>
                Placed x (leBytes 4 v.toNat) s t ∧ becomes (l.took.okd h) t ∧
                Only [.links, .mem, .ecc] eccRegs [] s t))) ∧
          -- MBX
          (bound → len = 4 → Ends (.mbx k h p) s fun t =>
            t.reg .TEN_MBX tn = BitVec.ofNat 32 (leNat p) ∧ t.f F.TEN_MBX_INFO_SENDER tn = tn ∧
            t.f F.TEN_MBX_INFO_VIA_LINK tn = 1 ∧ t.f F.TEN_MBX_INFO_LINK tn = k.val ∧
            t.f F.TEN_MBX_INFO_OVER tn = (if (s.ten tn).mbxFull = true then 1 else s.f F.TEN_MBX_INFO_OVER tn) ∧
            t.ten tn = { s.ten tn with mbxFull := true } ∧ (∀ j, j ≠ tn → t.ten j = s.ten j) ∧ becomes (l.took.okd h) t ∧
            Only [.links, .tenants] [RegKind.TEN_MBX.addr tn 0, RegKind.TEN_MBX_INFO.addr tn 0]
              [⟨988 + tn, some tn, s.frame⟩] s t)))) ∧
    -- HELD_ENTRY_PUT
    (∀ x, (l.holds.find? fun y => !(s.qNoRoom y.queue) && (!y.rspq || decide (l.replay.length < 64))) = some x →
      let e := s.queue x.queue
      let at_ := e.base + e.tail.toNat % qDepth e * qEsize e
      let rest := { l with holds := l.holds.filter fun y => decide (y ≠ x) }
      x.entry.length = qEsize e → NoUe at_ (qEsize e) s → Ends (.heldEntryPut k) s fun t =>
        Placed at_ x.entry s t ∧ t.queue x.queue = { e with tail := e.tail + 1 } ∧
        (∀ j, j ≠ x.queue → t.queue j = s.queue j) ∧
        becomes (if x.rspq then rest.sends 10 x.tenant (leBytes 2 x.seq.toNat ++ [0, 0] ++ leBytes 4 0) else rest) t ∧
        Only [.links, .queues, .mem, .ecc] eccRegs [] s t)

/-- O51. A header candidate that fails its CRC, exceeds 512 bytes or has a reserved bit counts HDR_ERR; a packet whose
frame line or trailer fails counts FRAMING or CRC_ERR and is answered with NULL, NAK = 1; the first such error of a
frame raises event 721 + 8k. ACK_TIMEOUT sends a NULL for a request unanswered for 10 µs; REPLAY_TIMEOUT after REPLAY_FR
frames replays; PAGE_PARTIAL after IDLE_FR frames gives a page up with SENT back at ACKED. CS_N rising in SPI mode
counts FRAMING where bytes other than fill follow the last whole packet; waiting packets that the host has clocked out
whole have gone out, and one cut short stays in front. LINK_RESET and HL_CTL.RESET empty the buffers, number from 0,
take MODE, LANES and OCLK_DIV, raise event 720 + 8k and send LINK_RESET. -/
def Obligations.LinkErrorsTimeoutsAndResets : Prop :=
  ∀ (k : Fin 4) (s : State), s.fabUp = true → s.rst.held = false →
    let l := s.link k.val
    let becomes := fun (l' : Link) (t : State) => t.link k.val = l' ∧ ∀ j, j ≠ k.val → t.link j = s.link j
    let addr := fun (r : RegKind) => r.addr k.val 0
    let once := if l.errSeen = true then [] else [s.ev (721 + 8 * k.val)]
    let seen := { l with errSeen := true }
    let counted := fun (f : FieldRef) (r : RegKind) (l' : Link) (t : State) =>
      Counted f k.val s t ∧ becomes l' t ∧ Only [.links] [addr r, addr .HL_STATUS] once s t
    let reset := fun (l : Link) => ({ l with
      cfg := s.reg .HL_CFG k.val, txNext := 0, exp := 0, last := 4095, replay := [], pages := [], ackDue := false,
      noAck := 0, wait := [] } : Link).puts ⟨15, 0, false, 0, 4095, []⟩
    let supplied := s.bankIn 5 = true
    let mark := fun (hdr : BitVec 64) => (hdr.extractLsb' 4 4).toNat = 0xA
    let bad := fun (hdr : BitVec 64) => crc8 (leBytes 7 hdr.toNat) ≠ hdr.extractLsb' 56 8 ∨
      512 < (hdr.extractLsb' 40 10).toNat ∨ (hdr.extractLsb' 14 2).toNat ≠ 0 ∨ (hdr.extractLsb' 50 6).toNat ≠ 0
    (∀ hdr : BitVec 64,
      (supplied → mark hdr → bad hdr → Ends (.hdrErr k (leBytes 8 hdr.toNat)) s
        (counted F.HL_CNT_HDR_CRC_HDR_ERR .HL_CNT_HDR_CRC seen)) ∧
      (¬(supplied ∧ mark hdr ∧ bad hdr) → Ends (.hdrErr k (leBytes 8 hdr.toNat)) s (Only [] [] [] s))) ∧
    (∀ bytes : List Byte, supplied → hdrFails bytes ≠ 0 → Ends (.hdrErr k bytes) s fun t =>
      t.f F.HL_CNT_HDR_CRC_HDR_ERR k.val = min (s.f F.HL_CNT_HDR_CRC_HDR_ERR k.val + hdrFails bytes) 0xFFFF ∧
      becomes seen t ∧ Only [.links] [addr .HL_CNT_HDR_CRC, addr .HL_STATUS] once s t) ∧
    (∀ (hdr : BitVec 64) (payload : List Byte) (crc : Word) (frameLen : Nat), supplied → mark hdr → ¬bad hdr →
      payload.length = (hdr.extractLsb' 40 10).toNat →
      let checked := leBytes 8 hdr.toNat ++ payload
      let bytes := checked ++ leBytes 4 crc.toNat
      let spi := l.cfg.getLsbD 0 = true
      (¬spi → frameLen ≠ bytes.length → Ends (.crcErr k bytes frameLen) s
        (counted F.HL_CNT_FRM_GAP_FRAMING .HL_CNT_FRM_GAP (Link.sendsPlain seen 0 true))) ∧
      (spi ∨ frameLen = bytes.length →
        (crc ≠ crc32c checked → Ends (.crcErr k bytes frameLen) s
          (counted F.HL_CNT_HDR_CRC_CRC_ERR .HL_CNT_HDR_CRC (Link.sendsPlain seen 0 true))) ∧
        (crc = crc32c checked → Ends (.crcErr k bytes frameLen) s (Only [] [] [] s)))) ∧
    (∀ quiet : Nat, Ends (.ackTimeout k quiet) s fun t =>
      becomes (if l.ackDue = true ∧ 10000 ≤ quiet then l.sendsPlain 0 false else l) t ∧ Only [.links] [] [] s t) ∧
    (let due := l.replay ≠ [] ∧ max 1 (s.f F.HL_CFG_REPLAY_FR k.val) ≤ l.noAck
     (due → Ends (.replayTimeout k) s fun t => becomes l.again t ∧
        Counted F.HL_CNT_PARTIAL_REPLAYS k.val s t ∧
        Only [.links] [addr .HL_CNT_PARTIAL, addr .HL_STATUS] [s.ev (723 + 8 * k.val)] s t) ∧
     (¬due → Ends (.replayTimeout k) s (Only [] [] [] s))) ∧
    (let due := max 1 (s.f F.HL_CFG_IDLE_FR k.val) ≤ l.idle
     (∀ p, l.pages = [p] → p.dead = false → due → Ends (.pagePartial k) s fun t =>
        becomes { l with pages := [{ p with dead := true }] } t ∧
        t.queue p.queue = { s.queue p.queue with sent := (s.queue p.queue).acked } ∧
        (∀ j, j ≠ p.queue → t.queue j = s.queue j) ∧ Counted F.HL_CNT_PARTIAL_PARTIAL k.val s t ∧
        Only [.links, .queues] [addr .HL_CNT_PARTIAL, addr .HL_STATUS] [s.ev (722 + 8 * k.val)] s t) ∧
     (¬due → Ends (.pagePartial k) s (Only [] [] [] s))) ∧
    (∀ (received : List Byte) (sent whole : Nat), supplied → l.cfg.getLsbD 0 = true → whole ≤ l.wait.length →
      let size := fun n => ((l.wait.take n).map fun p => p.bytes.length).sum
      size whole ≤ sent → (whole = l.wait.length ∨ sent < size (whole + 1)) →
      ((∃ b ∈ received, b ≠ 0x00 ∧ b ≠ 0xFF) → Ends (.csNRise k received sent) s
        (counted F.HL_CNT_FRM_GAP_FRAMING .HL_CNT_FRM_GAP (seen.clocked whole))) ∧
      ((∀ b ∈ received, b = 0x00 ∨ b = 0xFF) → Ends (.csNRise k received sent) s fun t =>
        becomes (l.clocked whole) t ∧ Only [.links] [] [] s t)) ∧
    (l.pages = [] →
      (∀ h : PktHdr, supplied → Ends (.linkReset k h) s fun t => becomes (reset (({ l with idle := 0 } : Link).acked h.ack)) t ∧
        Only [.links] [] [s.ev (720 + 8 * k.val)] s t) ∧
      ∀ (m : Master) (v : Word), CanWrite m .HL_CTL k.val 0 s → Ends (.hlCtlReset m k v) s fun t =>
        becomes (reset l) t ∧ Answered m 0 false t ∧ Only [.links, .last] [] [s.ev (720 + 8 * k.val)] s t)

/-- O52. An I2C write of nine bytes with a correct PEC writes a plain register; any other is rejected, counted and
raises event 752; an access error counts, sets STAT bit 2 and raises 753. A read gives STAT, the data and the PEC,
and clears STAT bits 1 and 2. CSA_ADDR keeps a write address or reads; CSA_DATA writes there. DBG_DATA reads or
writes the selected debug register of a core that T0's or the owner's fuses leave open; of a locked core only LOCKED
shows. An address match raises 754 and is a wake source. -/
def Obligations.MaintenancePortsActAsTenantZero : Prop :=
  ∀ s : State,
    let wrote := fun (k : RegKind) (i j : Nat) (v : Word) (t : State) => ∀ b < 32, (t.reg k i j).getLsbD b =
      if (k.info.maskOf .rw).getLsbD b then v.getLsbD b
      else (s.reg k i j).getLsbD b && !((k.info.maskOf .w1c).getLsbD b && v.getLsbD b)
    (s.masterLive .i2c = true → s.fabUp = true →
      let strap := s.f F.STRAP_STATUS_I2C_A
      let addrW : Byte := BitVec.ofNat 8 ((0x30 + strap) * 2)
      let addrR : Byte := BitVec.ofNat 8 ((0x30 + strap) * 2 + 1)
      let stat := fun (b : BitVec 3) (t : State) => t.maint = { s.maint with stat := s.maint.stat ||| b }
      (∀ bytes : List Byte, bytes.length ≠ 9 ∨ crc8 (addrW :: bytes.take 8) ≠ bytes.getD 8 0 →
        Ends (.i2cWrite bytes) s fun t => Counted F.I2C_STATUS_REJECTS 0 s t ∧ stat 2 t ∧
          Only [.maint] [RegKind.I2C_STATUS.addr 0 0] [s.ev 752] s t) ∧
      (∀ (a v : Word) (bytes : List Byte), bytes.take 8 = leBytes 4 a.toNat ++ leBytes 4 v.toNat → bytes.length = 9 →
        bytes.getD 8 0 = crc8 (addrW :: bytes.take 8) →
        (∀ (k : RegKind) (i j : Nat), k ∈ plainRegs → k.has i j → codesBad k v = false → a = BitVec.ofNat 32 (k.addr i j) →
          CanWrite .i2c k i j s → Ends (.i2cWrite bytes) s fun t =>
            wrote k i j v t ∧ Answered .i2c 0 false t ∧
            Only [.last] [k.addr i j] [] s t) ∧
        (0x1000000 ≤ a.toNat → a.toNat % 4 ≠ 0 → Ends (.i2cWrite bytes) s fun t =>
          Counted F.I2C_STATUS_ACC_ERR 0 s t ∧ stat 4 t ∧ Answered .i2c 0 true t ∧
          Only [.maint, .last] [RegKind.I2C_STATUS.addr 0 0] [s.ev 753] s t)) ∧
      (∀ a : Word, a.toNat < 0x1000000 → a.toNat % 4 = 0 → s.pondOn a.toNat 4 = true → NoUe a.toNat 4 s →
        Ends (.i2cRead a) s fun t =>
          let body := s.maint.stat.setWidth 8 :: s.bytes a.toNat 4
          t.maint = { s.maint with
            stat := 0, resp := body ++ [crc8 (addrW :: leBytes 4 a.toNat ++ addrR :: body)] } ∧
          Answered .i2c (BitVec.ofNat 32 (leNat (s.bytes a.toNat 4))) false t ∧
          Only [.maint, .last, .ecc] eccRegs [] s t)) ∧
    (s.masterLive .jtag = true →
      (∀ a : Word, Ends (.csaAddr (1#1 ++ a)) s fun t => t.maint = { s.maint with csaAddr := a, csaWrite := true } ∧
        Only [.maint] [] [] s t) ∧
      (∀ a : Word, 0x1000000 ≤ a.toNat → a.toNat % 4 ≠ 0 → Ends (.csaAddr (0#1 ++ a)) s fun t =>
        t.maint = { s.maint with csaAddr := a, csaWrite := false, csaData := 0, csaErr := true } ∧
        Answered .jtag 0 true t ∧ Only [.maint, .last] [] [] s t) ∧
      (∀ a : Word, a.toNat < 0x1000000 → a.toNat % 4 = 0 → s.pondOn a.toNat 4 = true → NoUe a.toNat 4 s →
        Ends (.csaAddr (0#1 ++ a)) s fun t =>
          t.maint = { s.maint with csaAddr := a, csaWrite := false, csaErr := false,
                                   csaData := BitVec.ofNat 32 (leNat (s.bytes a.toNat 4)) } ∧
          Only [.maint, .last, .ecc] eccRegs [] s t) ∧
      (∀ v : Word, s.maint.csaWrite = true → ∀ (k : RegKind) (i j : Nat), k ∈ plainRegs → k.has i j → codesBad k v = false →
        s.maint.csaAddr = BitVec.ofNat 32 (k.addr i j) → CanWrite .jtag k i j s → Ends (.csaData v) s fun t =>
          wrote k i j v t ∧ t.maint = { s.maint with csaErr := false } ∧
          Answered .jtag 0 false t ∧ Only [.maint, .last] [k.addr i j] [] s t) ∧
      ∀ v : Word, s.maint.csaWrite = false → Ends (.csaData v) s (Only [] [] [] s)) ∧
    (∀ (n : Fin 17) (v : Word), s.rst.held = false →
      let c := s.core n.val
      let x := if c.regSel.getLsbD 5 then c.hand else c.main
      let shows := fun (r : BitVec 5) (w : Word) => Ends (.dbgData n r none) s fun t =>
        t.maint = { s.maint with dbgOut := w } ∧ Only [.maint] [] [] s t
      let sets := fun (r : BitVec 5) (c' : Core) => Ends (.dbgData n r (some v)) s fun t =>
        t.core n.val = c' ∧ (∀ m, m ≠ n.val → t.core m = s.core m) ∧ Only [.cores] [] [] s t
      let put := fun (y : Ctx) => if c.regSel.getLsbD 5 then { c with hand := y } else { c with main := y }
      (s.dbgLocked n.val = true → ∀ r : BitVec 5,
        shows r (if r = 0 then 8 else 0) ∧ Ends (.dbgData n r (some v)) s (Only [] [] [] s)) ∧
      (s.dbgLocked n.val = false → s.dbgOpen n.val = true →
        shows 0 (if c.haltReq then 1 else 0) ∧ shows 5 c.regSel ∧ sets 5 { c with regSel := v &&& 0x3F } ∧
        (∀ i < 4, shows (BitVec.ofNat 5 (i + 1)) (tabGet (fun _ => 0) c.bps i) ∧
          sets (BitVec.ofNat 5 (i + 1)) { c with bps := tabPut (fun _ => 0) c.bps i (v &&& 0xC0FFFFFC) }) ∧
        (c.st = .dbg →
          (fieldOf c.regSel 0 5 = 0 → shows 6 x.a ∧ sets 6 (put { x with a := v })) ∧
          (fieldOf c.regSel 0 5 = 1 → shows 6 x.x ∧ sets 6 (put { x with x := v })) ∧
          (fieldOf c.regSel 0 5 = 2 → shows 6 x.y ∧ sets 6 (put { x with y := v })) ∧
          (∀ e < 16, fieldOf c.regSel 0 5 = 6 + e →
            shows 6 ((x.segAt e).setWidth 32) ∧ shows 7 ((x.segAt e >>> 32).setWidth 32))))) ∧
    (∀ a : BitVec 7, s.masterLive .i2c = true → s.fabUp = true → a.toNat ≠ 0x30 + s.f F.STRAP_STATUS_I2C_A →
      Ends (.i2cAddressMatch a) s (Only [] [] [] s))

/-- O53. A write of PWR_DOM_CTL that clears no active PWR_RUN bit is taken, clearing an active one is refused; a line
group powered down holds its pads, drops its power-good bit and its ports' state. Power-good sets the status bit of
a switched-on domain. PWR_PAD_REL releases the groups whose domain is power-good and is an error for others. A
PWR_BUDGET with a class above 3 is refused. A comparator's change that has held for FILTER cycles sets OUT with its
event; the alarm, link activity in a supplied bank and an address match raise theirs; in Brumation each wakes only if
PWR_WAKE_EN enables it. The alarm loads both halves at the write of HI. -/
def Obligations.DomainsPadsAndWakeSources : Prop :=
  ∀ s : State,
    (∀ (m : Master) (v : Word), CanWrite m .PWR_DOM_CTL 0 0 s →
      let old := s.reg .PWR_DOM_CTL
      let new := v &&& 0x3FFFF
      let cleared := old &&& ~~~new
      let ctl := RegKind.PWR_DOM_CTL.addr 0 0
      (cleared &&& s.act .PWR_RUN ≠ 0 → Ends (.domainPowerDown m v) s fun t => Answered m 0 true t ∧
        Only [.last] [] [] s t) ∧
      (cleared = 0 → Ends (.domainPowerUp m v) s fun t => t.reg .PWR_DOM_CTL = new ∧ Answered m 0 false t ∧
        Only [.last] [ctl] [] s t) ∧
      ∀ g < 16, cleared = BitVec.ofNat 32 (2 ^ g) → cleared &&& s.act .PWR_RUN = 0 →
        Ends (.domainPowerDown m v) s fun t =>
          t.reg .PWR_DOM_CTL = new ∧ t.reg .PWR_DOM_STATUS = s.reg .PWR_DOM_STATUS &&& ~~~cleared ∧
          t.reg .PWR_PAD_HOLD = s.reg .PWR_PAD_HOLD ||| cleared ∧
          (∀ p, p / 8 = g → (t.line p).on = false ∧ t.reg .LINE_STATUS p = 0 ∧ t.reg .LINE_RX_PHASE p = 0) ∧
          (∀ p, p / 8 ≠ g → t.line p = s.line p) ∧ Answered m 0 false t ∧
          Only [.lines, .power, .last] ([ctl, RegKind.PWR_DOM_STATUS.addr 0 0, RegKind.PWR_PAD_HOLD.addr 0 0] ++
            (List.range 8).flatMap fun i => [RegKind.LINE_STATUS.addr (8 * g + i) 0, RegKind.LINE_RX_SA.addr (8 * g + i) 0,
              RegKind.LINE_RX_PHASE.addr (8 * g + i) 0, RegKind.LINE_E_DEBIT.addr (8 * g + i) 0]) [] s t) ∧
    (∀ d : Fin 18,
      ((s.reg .PWR_DOM_CTL).getLsbD d.val = true → Ends (.domainPowerGood d) s fun t =>
        t.reg .PWR_DOM_STATUS = s.reg .PWR_DOM_STATUS ||| BitVec.ofNat 32 (2 ^ d.val) ∧
        Only [] [RegKind.PWR_DOM_STATUS.addr 0 0] [] s t) ∧
      ((s.reg .PWR_DOM_CTL).getLsbD d.val = false → Ends (.domainPowerGood d) s (Only [] [] [] s))) ∧
    (∀ (m : Master) (v : Word), CanWrite m .PWR_PAD_REL 0 0 s →
      let good := fun g : Nat => (s.reg .PWR_DOM_STATUS).getLsbD (if g < 17 then g else if g < 20 then 17 else 18)
      Ends (.padRelease m v) s fun t =>
        (∀ g < 24, (t.reg .PWR_PAD_HOLD).getLsbD g = ((s.reg .PWR_PAD_HOLD).getLsbD g && !(v.getLsbD g && good g))) ∧
        (∃ err, Answered m 0 err t ∧ (err = true ↔ ∃ g < 24, v.getLsbD g = true ∧ good g = false)) ∧
        Only [.power, .last] [RegKind.PWR_PAD_HOLD.addr 0 0] [] s t) ∧
    (∀ (m : Master) (n : Fin 16) (v : Word), CanWrite m .PWR_BUDGET n.val 0 s →
      ((∃ c < 4, 3 < fieldOf v (4 * c) 4) → Ends (.pwrBudgetWrite m n v) s fun t => Answered m 0 true t ∧
        Only [.last] [] [] s t) ∧
      ((∀ c < 4, fieldOf v (4 * c) 4 ≤ 3) → Ends (.pwrBudgetWrite m n v) s fun t =>
        t.reg .PWR_BUDGET n.val = v &&& 0x1FFFF ∧ Answered m 0 false t ∧
        Only [.last] [RegKind.PWR_BUDGET.addr n.val 0] [] s t)) ∧
    (∀ (m : Master) (v : Word),
      (CanWrite m .PWR_RTC_ALARM_LO 0 0 s → Ends (.pwrRtcAlarmLoWrite m v) s fun t =>
        t.reg .PWR_RTC_ALARM_LO = v ∧ t.alarmLo = s.alarmLo ∧ Answered m 0 false t ∧
        Only [.last] [RegKind.PWR_RTC_ALARM_LO.addr 0 0] [] s t) ∧
      (CanWrite m .PWR_RTC_ALARM_HI 0 0 s → Ends (.pwrRtcAlarmHiWrite m v) s fun t =>
        t.reg .PWR_RTC_ALARM_HI = v &&& 0x8000FFFF ∧ t.alarmLo = s.reg .PWR_RTC_ALARM_LO ∧ Answered m 0 false t ∧
        Only [.last, .latches] [RegKind.PWR_RTC_ALARM_HI.addr 0 0] [] s t)) ∧
    (let wakes := fun (c : Instr) (bit : Nat) => s.dev = 3 → s.fabUp = false → s.fabPg = false →
      ((s.reg .PWR_WAKE_EN).getLsbD bit = true → Ends c s fun t =>
        t.pwr.deferred = s.pwr.deferred ||| BitVec.ofNat 14 (2 ^ bit) ∧ Kept [.regs, .events, .power] s t) ∧
      ((s.reg .PWR_WAKE_EN).getLsbD bit = false → Ends c s fun t =>
        t.pwr.deferred = s.pwr.deferred ∧ Kept [.regs, .events, .power] s t)
     (let hit := s.b F.PWR_RTC_ALARM_HI_EN = true ∧
        s.rtc.toNat = s.f F.PWR_RTC_ALARM_HI_ALARM_HI * 2 ^ 32 + s.alarmLo.toNat
      (hit → wakes .pwrRtcAlarm 4 ∧ (s.fabUp = true → s.dev ≠ 3 → Ends .pwrRtcAlarm s (Only [] [] [s.ev 788] s))) ∧
      (¬hit → Ends .pwrRtcAlarm s (Only [] [] [] s))) ∧
     (∀ k : Fin 4, (s.bankIn 5 = true → wakes (.linkActivity k) (5 + k.val) ∧
        (s.fabPg = true → s.dev ≠ 3 → Ends (.linkActivity k) s (Only [] [] [s.ev (725 + 8 * k.val)] s))) ∧
      (s.bankIn 5 = false → Ends (.linkActivity k) s (Only [] [] [] s))) ∧
     (∀ a : BitVec 7, s.masterLive .i2c = true → a.toNat = 0x30 + s.f F.STRAP_STATUS_I2C_A →
      wakes (.i2cAddressMatch a) 9 ∧
      (s.fabUp = true → s.dev ≠ 3 → Ends (.i2cAddressMatch a) s (Only [] [] [s.ev 754] s))) ∧
     ∀ (k : Fin 4) (mv cycles : Nat),
      let th := 10 * min 150 (s.f F.PWR_CMP_THRESH k.val)
      let hyst := 10 * s.f F.PWR_CMP_HYST k.val
      let bit : Word := BitVec.ofNat 32 (2 ^ k.val)
      let out := s.reg .PWR_CMP_STATUS
      let on := s.pwr.cmpRaw.getLsbD k.val
      let long := max 1 (s.f F.PWR_CMP_FILTER k.val) ≤ cycles
      let rises := on = false ∧ out.getLsbD k.val = false ∧ th < mv ∧ long
      let falls := on = true ∧ out.getLsbD k.val = true ∧ mv + hyst < th ∧ long
      (s.b F.PWR_CMP_EN k.val = false → Ends (.pwrCmp k mv cycles) s (Only [] [] [] s)) ∧
      (s.b F.PWR_CMP_EN k.val = true →
        (rises ∨ falls → s.fabUp = true → s.dev ≠ 3 → Ends (.pwrCmp k mv cycles) s fun t =>
          t.reg .PWR_CMP_STATUS = out ^^^ bit ∧
          Only [.power] [RegKind.PWR_CMP_STATUS.addr 0 0] [s.ev (784 + k.val)] s t) ∧
        (rises → s.b F.PWR_CMP_DIR k.val = true → wakes (.pwrCmp k mv cycles) k.val) ∧
        (falls → s.b F.PWR_CMP_DIR k.val = false → wakes (.pwrCmp k mv cycles) k.val) ∧
        (¬long ∨ (on = false ∧ out.getLsbD k.val = false ∧ mv ≤ th) ∨
            (on = true ∧ out.getLsbD k.val = true ∧ th ≤ mv + hyst) →
          Ends (.pwrCmp k mv cycles) s (Only [.power] [] [] s))))

/-- O54. TORPOR_ENTRY in Doze with GOAL 2 or 3 and no waiting event sets STATE 2, records which cores wait, turns the
eft and newts off and the banks to POND_BANK_TORPOR; fabric, ports, commits, queues and links stay. TORPOR_WAKE records
the causes and the RTC; TORPOR_CORE_START with the banks on sets STATE 0 and starts the eft and the newts that waited.
BRUMATION_ENTRY with GOAL 3 and no NVM write sets STATE 3, rejects commits, clears PLL_EN, PWR_DOM_CTL and PWR_RUN,
holds the pads and loses the fabric domain; T0's newts that were not OFF are remembered. BRUMATION_WAKE from an enabled
source that has occurred records it and starts the eft. -/
def Obligations.TorporAndBrumationAreEnteredAndLeft : Prop :=
  ∀ s : State,
    let started := fun n : Nat =>
      let o := s.coreOwner n
      { s.core n with
        st := .run, inHandler := false, main := Ctx.start (s.segEntry o) (BitVec.ofNat 24 (s.f F.CORE_START_MAIN_PC n * 4)),
        hand := Ctx.start (fun k => s.segEntry o (16 + k)) 0, afterReti := false, lastLine := none, part := 0,
        startAt := false, restart := false, haltReq := false, bpSkip := false, stepping := false }
    let still := s.fabUp = true ∧ s.dev = 1 ∧ ∀ e ∈ s.raised, ∀ n < 17,
      (e.tenant = none ∨ e.tenant = some (s.coreOwner n)) → s.unmasked n e.num = false
    let goal := s.f F.PWR_STATUS_GOAL
    let banks := fun (k : RegKind) (t : State) => ∀ b < 16,
      (levelIn (s.reg k) b = 0 → t.bankSt b = 0) ∧ (levelIn (s.reg k) b = 1 → t.bankSt b = 1)
    let dropped := RegKind.PWR_DOM_STATUS.addr 0 0
    let record := fun (t : State) => t.reg .PWR_WAKE_RTC_LO = s.rtc.setWidth 32 ∧
      t.reg .PWR_WAKE_RTC_HI = (s.rtc >>> 32).setWidth 32 ∧ t.pwr.deferred = 0
    let recorded := [RegKind.PWR_WAKE_CAUSE.addr 0 0, RegKind.PWR_WAKE_RTC_LO.addr 0 0, RegKind.PWR_WAKE_RTC_HI.addr 0 0]
    (still → 2 ≤ goal → Ends .torporEntry s fun t =>
      t.dev = 2 ∧ s.ev 789 ∈ t.raised ∧ t.f F.PWR_DOM_STATUS_EFT_PG = 0 ∧ t.f F.PWR_DOM_STATUS_NEWT_PG = 0 ∧
      t.f F.CLK_EFT_SRC_CUR = 0 ∧ banks .POND_BANK_TORPOR t ∧
      (∀ n < 17, (t.core n).st = (s.core n).st ∧ (t.core n).wasRun = decide ((s.core n).st = .wait)) ∧
      Kept [.regs, .events, .cores, .counters, .latches, .mem, .ecc, .power, .free] s t) ∧
    (¬still ∨ goal < 2 → Ends .torporEntry s (Only [] [] [] s)) ∧
    (let wants := ∃ n < 17, (n = 16 ∨ (s.core n).wasRun = true) ∧ s.pendList n ≠ []
     let shallow := s.f F.PWR_STATUS_ALLOWED < 2
     (s.dev = 2 → s.pwr.waking = false → (wants ∨ shallow ∨ s.pwr.deferred ≠ 0) → Ends .torporWake s fun t =>
        t.dev = 2 ∧ t.pwr.waking = true ∧ record t ∧
        (∀ b, (t.reg .PWR_WAKE_CAUSE).getLsbD b = true ↔ (s.reg .PWR_WAKE_CAUSE).getLsbD b = true ∨
          s.pwr.deferred.getLsbD b = true ∨ (b = 10 ∧ wants) ∨ (b = 11 ∧ shallow)) ∧
        Only [.power, .mem, .ecc] (recorded ++ [RegKind.POND_BANK_STATUS.addr 0 0, RegKind.POND_SCRUB_STATUS.addr 0 0]) []
          s t) ∧
     (s.dev ≠ 2 ∨ ¬(wants ∨ shallow ∨ s.pwr.deferred ≠ 0) → Ends .torporWake s (Only [] [] [] s))) ∧
    (s.fabUp = true → s.rst.held = false → s.dev = 2 → s.pwr.waking = true →
      (∀ b < 16, s.bankLevel b = 2 → s.bankSt b = 2) → (∀ n < 17, (s.core n).restart = false) → (s.ten 0).st = .run →
      (∀ n < 16, (s.core n).wasRun = true → (s.ten (s.coreOwner n)).st = .run) → Ends .torporCoreStart s fun t =>
        t.dev = 0 ∧ t.pwr = { s.pwr with waking := false } ∧ t.f F.PWR_DOM_STATUS_EFT_PG = 1 ∧
        t.f F.PWR_DOM_STATUS_NEWT_PG = 1 ∧ t.core 16 = started 16 ∧
        (∀ n < 16, t.core n = if (s.core n).wasRun = true then started n else s.core n) ∧
        t.rst = { s.rst with wdt := max 1 (s.f F.WDT_CTL_TIMEOUT) } ∧
        (∀ o, t.ten o = { s.ten o with cut := (s.ten o).cut && !(decide (o = 0) ||
          (List.range 16).any fun n => (s.core n).wasRun && decide (s.coreOwner n = o)) }) ∧
        Only [.cores, .tenants, .power, .reset] [dropped] [s.ev 789] s t) ∧
    (still → goal = 3 → s.nvBusyWriting = false → Ends .brumationEntry s fun t =>
      t.dev = 3 ∧ 789 ∈ t.held ∧ t.reg .PWR_DOM_STATUS = 0 ∧ t.reg .PWR_DOM_CTL = 0 ∧ t.reg .PWR_RUN = 0 ∧
      t.act .PWR_RUN = 0 ∧ t.f F.CLK_ROOT_CTL_PLL_EN = 0 ∧ t.f F.CLK_ROOT_STATUS_DIV_RUN = 0 ∧
      t.f F.CLK_ROOT_STATUS_PLL_LOCK = 0 ∧ banks .POND_BANK_BRUM t ∧ t.commits = [] ∧
      (∀ n < 17, t.core n = { Core.init with
        wasRun := decide (n ≠ 16 ∧ s.coreOwner n = 0 ∧ (s.core n).st ≠ .off) }) ∧ (t.ten 0).st = .run ∧ (∀ n, 0 < n → t.ten n = Tenant.init) ∧ t.queues = [] ∧
      t.raised = [] ∧ t.pend = [] ∧ t.links = [] ∧ t.lines = [] ∧ t.trunks = [] ∧ t.audio = [] ∧ t.hdlc = [] ∧
      (∀ g < 24, (t.reg .PWR_PAD_HOLD).getLsbD g = ((s.reg .PWR_PAD_HOLD).getLsbD g || decide (20 ≤ g) ||
        (s.reg .PWR_DOM_STATUS).getLsbD (if g < 17 then g else 17))) ∧
      (∀ k ∈ [RegKind.PWR_CTL, .PWR_WAKE_EN, .PWR_RTC_ALARM_HI, .PWR_WAKE_CAUSE, .POND_BANK_BRUM], t.reg k = s.reg k) ∧
      ∀ p ∈ [Part.time, .rtc, .ref, .maint, .nvm, .aon, .last], p.same s t) ∧
    (∀ src : Fin 10, s.dev = 3 → s.fabUp = false → s.rst.held = false →
      (s.pwr.deferred.getLsbD src.val = true → Ends (.brumationWake src) s fun t =>
        t.dev = 0 ∧ record t ∧ t.pwr = { s.pwr with deferred := 0, brumWake := true } ∧
        t.reg .PWR_WAKE_CAUSE = s.reg .PWR_WAKE_CAUSE ||| s.pwr.deferred.setWidth 32 ∧
        t.f F.PWR_DOM_STATUS_EFT_PG = 1 ∧ t.core 16 = started 16 ∧ (∀ n, n ≠ 16 → t.core n = s.core n) ∧
        (∀ o, t.ten o = if o = 0 ∧ (s.ten 0).st = .run then { s.ten 0 with cut := false } else s.ten o) ∧
        Only [.cores, .tenants, .power, .reset] (dropped :: recorded) [] s t) ∧
      (s.pwr.deferred.getLsbD src.val = false → Ends (.brumationWake src) s (Only [] [] [] s)))

/-- O55. POR sets RST_CAUSE.POR alone and every register to its reset value; PIN after 16 cycles, SOFT with the key, WDT
when the units counted bring it to 0 and THERMAL add their bit, keep the RTC, AON RAM from 0x00FF8000, the I2C straps
and the flashes, and wait while the controller programs or erases (THERMAL at most 5 ms for the external flash, and not
after abort). The release, after POR with 16,000 cycles of steady supply, samples the straps; with TEST_MODE 0 the first
copy whose 8 block CRCs pass is loaded into AON RAM, recorded, and the eft starts on it; if neither passes FAIL is set.
A kick of 0x0000A5C3 reloads the watchdog, another value does not; at half the TIMEOUT it raises event 1008. -/
def Obligations.ResetsBootAndWatchdog : Prop :=
  ∀ s : State,
    let fresh := fun (t : State) => t.mem = [] ∧ t.cores = [] ∧ t.commits = [] ∧ t.fab = Fabric.init ∧ t.queues = [] ∧
      t.lines = [] ∧ t.trunks = [] ∧ t.audio = [] ∧ t.hdlc = [] ∧ t.raised = [] ∧ t.pend = [] ∧ t.links = [] ∧
      t.tenants = [(0, { Tenant.init with st := .run })] ∧ t.pwr = Power.init ∧ t.nvm.job = none ∧
      t.nvm.slots = s.nvm.slots ∧ t.nvm.slotSt = s.nvm.slotSt ∧ (s.nvBusyWriting = false → ∀ xf, t.flash xf = s.flash xf)
    let reset := fun (src : BitVec 5) (t : State) => fresh t ∧
      t.rst = { Rst.init with sources := s.rst.sources ||| src, held := true } ∧ t.rtc = s.rtc ∧
      (∀ a, t.aonByte a = if 0x00FF8000 ≤ a then s.aonByte a else 0) ∧
      t.reg .RST_CAUSE = s.reg .RST_CAUSE ||| src.setWidth 32 ∧
      t.f F.STRAP_STATUS_I2C_A = s.f F.STRAP_STATUS_I2C_A ∧
      ∀ k i j, k.has i j → k ∉ [RegKind.RST_CAUSE, .STRAP_STATUS, .TH_DIE, .TH_STATUS] → t.reg k i j = k.resetAt i
    let waits := fun (src : BitVec 5) (t : State) => t.rst = { s.rst with waiting := s.rst.waiting ||| src }
    let free := s.nvBusyWriting = false
    let runs := s.b F.WDT_CTL_EN = true ∧ s.corePg 16 = true ∧ (s.core 16).st ≠ .dbg
    let timeout := max 1 (s.f F.WDT_CTL_TIMEOUT)
    (Ends .por s fun t => fresh t ∧ t.aon = [] ∧ t.rst = { Rst.init with sources := 1, held := true } ∧
      t.reg .RST_CAUSE = 1 ∧ ∀ k i j, t.reg k i j = k.resetAt i) ∧
    (∀ cycles,
      (16 ≤ cycles → free → Ends (.pinReset cycles) s (reset 2)) ∧
      (16 ≤ cycles → ¬free → Ends (.pinReset cycles) s fun t => waits 2 t ∧ Only [.reset] [] [] s t) ∧
      (cycles < 16 → Ends (.pinReset cycles) s (Only [] [] [] s))) ∧
    (∀ (m : Master) (v : Word), CanWrite m .RST_CTL 0 0 s →
      (fieldOf v 16 16 = 0xB007 → v.getLsbD 0 = true → free → Ends (.softReset m v) s (reset 8)) ∧
      (fieldOf v 16 16 = 0xB007 → v.getLsbD 0 = true → ¬free → Ends (.softReset m v) s fun t =>
        waits 8 t ∧ Answered m 0 false t ∧ Only [.reset, .last] [] [] s t) ∧
      (fieldOf v 16 16 ≠ 0xB007 ∨ v.getLsbD 0 = false → Ends (.softReset m v) s fun t =>
        Answered m 0 false t ∧ Only [.last] [] [] s t)) ∧
    (∀ units : Nat,
      (runs → s.rst.wdt = units → free → Ends (.wdt units) s (reset 4)) ∧
      (runs → s.rst.wdt = units → ¬free → s.fabUp = true → Ends (.wdt units) s fun t =>
        t.rst = { s.rst with wdt := 0, waiting := s.rst.waiting ||| 4 } ∧
        Only [.reset] [] (if timeout / 2 < units then [s.ev 1008] else []) s t) ∧
      (¬(runs ∧ s.rst.wdt = units) → Ends (.wdt units) s (Only [] [] [] s))) ∧
    (∀ waited : Nat, s.rst.sources.getLsbD 4 = false →
      let may := free ∨ ∃ j, s.nvm.job = some j ∧ 9 ≤ j.op ∧ 5000 ≤ waited
      ((s.th.abort = true ∨ (s.th.shut = true ∧ may)) → Ends (.thermalReset waited) s (reset 16)) ∧
      (s.th.abort = false → (s.th.shut = false ∨ ¬may) → Ends (.thermalReset waited) s (Only [] [] [] s))) ∧
    (∀ (m : Master) (v : Word), CanWrite m .WDT_KICK 0 0 s →
      (v = 0xA5C3 → Ends (.wdtKick m v) s fun t => t.rst = { s.rst with wdt := timeout } ∧ Answered m 0 false t ∧
        Only [.reset, .last] [] [] s t) ∧
      (v ≠ 0xA5C3 → Ends (.wdtKick m v) s fun t => Answered m 0 false t ∧ Only [.last] [] [] s t)) ∧
    (∀ units : Nat,
      (runs → s.rst.wdt = timeout / 2 + units → 0 < units → s.fabUp = true → Ends (.wdtWarn units) s fun t =>
        t.rst = { s.rst with wdt := timeout / 2 } ∧ Only [.reset] [] [s.ev 1008] s t) ∧
      (¬(runs ∧ s.rst.wdt = timeout / 2 + units ∧ 0 < units) → Ends (.wdtWarn units) s (Only [] [] [] s))) ∧
    ∀ (i2cA : BitVec 3) (hold test : Bool) (cycles : Nat),
      let steady := s.rst.sources.getLsbD 0 = false ∨ 16000 ≤ cycles
      let good := fun (c i : Nat) => (crc32c (s.flashBytes false (0x10000 * c + 4096 * i) 4096)).toNat =
        leNat (s.flashBytes false (0x10000 * c + 0x8000 + 4 * i) 4)
      let ends := fun (p : State → Prop) => Ends (.resetRelease i2cA hold test cycles) s fun t => p t ∧
        t.rst.held = false ∧ t.rst.sources = 0 ∧ t.b F.STRAP_STATUS_BOOT_HOLD = hold ∧
        t.b F.STRAP_STATUS_TEST_MODE = test ∧
        t.f F.STRAP_STATUS_I2C_A = if s.rst.sources.getLsbD 0 then i2cA.toNat else s.f F.STRAP_STATUS_I2C_A
      let boots := fun (c : Nat) (t : State) =>
        (∀ i < 0x8000, t.aonByte (0x00FF0000 + i) = s.flashByte false (0x10000 * c + i)) ∧
        (∀ a, 0x00FF8000 ≤ a → t.aonByte a = s.aonByte a) ∧ t.f F.BOOT_STATUS_COPY = c ∧
        t.f F.PWR_DOM_STATUS_EFT_PG = 1 ∧ (t.core 16).st = .run ∧ (t.core 16).inHandler = false ∧
        (t.core 16).main = Ctx.start (t.segEntry (t.coreOwner 16)) (BitVec.ofNat 24 (t.f F.CORE_START_MAIN_PC 16 * 4)) ∧
        ∀ n, n ≠ 16 → t.core n = s.core n
      (s.rst.held = true → s.rst.sources.getLsbD 4 = false → steady →
        (test = true → ends fun t => t.cores = s.cores ∧ t.aon = s.aon) ∧
        (test = false → (∀ i < 8, good 0 i) → ends (boots 0)) ∧
        (∀ b < 8, test = false → ¬good 0 b → (∀ i < b, good 0 i) →
          let bad0 := fun (t : State) => t.f F.BOOT_STATUS_COPY0_ERR = 1 ∧ t.f F.BOOT_STATUS_BLOCK0 = b
          ((∀ i < 8, good 1 i) → ends fun t => boots 1 t ∧ bad0 t) ∧
          (∀ d < 8, ¬good 1 d → (∀ i < d, good 1 i) → ends fun t => bad0 t ∧ t.f F.BOOT_STATUS_COPY1_ERR = 1 ∧
            t.f F.BOOT_STATUS_BLOCK1 = d ∧ t.f F.BOOT_STATUS_FAIL = 1 ∧ t.cores = s.cores))) ∧
      (s.rst.held = false ∨ s.rst.sources.getLsbD 4 = true ∨ ¬steady →
        Ends (.resetRelease i2cA hold test cycles) s (Only [] [] [] s))

/-- O56. GO while a command runs is refused with BUSY and event 825; otherwise the command is taken with ADDR, POND and
LEN and the error its operands have (XF_DOWN, RANGE, PROTECTED). At NVM_DONE it ends with that error and event 825
and no effect, or: a read places the bytes in pond memory and their CRC in NVM_CRC_OUT; a block whose CRC matches
makes the sector those bytes, otherwise CRC and nothing; a page clears bits only; an erase sets the sector to 1s;
margin compares; with event 824. Discovery of a valid SFDP table sets READY with its event. -/
def Obligations.NvmCommandsStartAndEnd : Prop :=
  ∀ s : State, s.fabUp = true →
    let status := RegKind.NVM_STATUS.addr 0 0
    let cmd := RegKind.NVM_CMD.addr 0 0
    (∀ m : Master, CanWrite m .NVM_CMD 0 0 s →
      ∀ c ∈ ([(.nvRead m, 1), (.nvBlock m, 2), (.nvPage m, 3), (.nvErase m, 4), (.nvMargin m, 5), (.xfRead m, 9),
          (.xfBlock m, 10), (.xfPage m, 11), (.xfErase m, 12)] : List (Instr × Nat)),
        let op := c.2
        let xf := decide (9 ≤ op)
        let kind := if 9 ≤ op then op - 8 else op
        let a := s.f F.NVM_ADDR_ADDR
        let p := s.f F.NVM_POND_POND
        let len := s.f F.NVM_LEN_LEN
        let size := s.flashSize xf
        let page := s.pageSize xf
        let down := xf = true ∧ s.b F.XF_STATUS_READY = false
        let range := (kind = 1 ∧ (size < a + len ∨ 0x1000000 < p + len)) ∨
          (kind = 2 ∧ (a % 4096 ≠ 0 ∨ size < a + 4096 ∨ 0x1000000 < p + 4096)) ∨
          (kind = 3 ∧ (len = 0 ∨ 256 < len ∨ page < a % page + len ∨ size < a + len ∨ 0x1000000 < p + len)) ∨
          (kind = 4 ∧ (a % 4096 ≠ 0 ∨ size < a + 4096)) ∨ (kind = 5 ∧ (a % 256 ≠ 0 ∨ size < a + 256))
        let locked := xf = false ∧ 2 ≤ kind ∧ kind ≤ 4 ∧ ((a < 0x10000 ∧ s.b F.NVM_CTL_FROG_UNLOCK0 = false) ∨
          (0x10000 ≤ a ∧ a < 0x20000 ∧ s.b F.NVM_CTL_FROG_UNLOCK1 = false))
        (s.nvm.job ≠ none → Ends c.1 s fun t => t.f F.NVM_STATUS_ERR = 1 ∧ t.nvm = s.nvm ∧ Answered m 0 false t ∧
          Only [.last] [status] [s.ev 825] s t) ∧
        (s.nvm.job = none → ∀ err, (err = 7 ∧ down) ∨ (err = 2 ∧ ¬down ∧ range) ∨
            (err = 3 ∧ ¬down ∧ ¬range ∧ locked) ∨ (err = 0 ∧ ¬down ∧ ¬range ∧ ¬locked) →
          Ends c.1 s fun t => t.nvm = { s.nvm with job := some ⟨op, a, p, len, err⟩ } ∧ t.f F.NVM_STATUS_BUSY = 1 ∧
            t.f F.NVM_CMD_OP = op ∧ Answered m 0 false t ∧ Only [.nvm, .last] [cmd, status] [] s t)) ∧
    (∀ j : NvmJob, s.nvm.job = some j → s.rst.waiting = 0 →
      let xf := decide (9 ≤ j.op)
      let is := fun k => j.err = 0 ∧ (j.op = k ∨ (j.op = k + 8 ∧ k < 5))
      let ended := fun (err : Nat) (t : State) => t.nvm.job = none ∧ t.f F.NVM_STATUS_BUSY = 0 ∧ t.f F.NVM_STATUS_ERR = err
      let other := fun (t : State) => t.flash (!xf) = s.flash (!xf)
      let data := s.bytes j.pond 4096
      let event := fun (err : Nat) => if err = 0 then s.ev 824 else s.ev 825
      let readable := fun n => (∀ i < n, s.pondOn (j.pond + i) 1 = true) ∧ NoUe j.pond n s
      (j.err ≠ 0 → j.err < 16 → ∀ f, Ends (.nvmDone f) s fun t => ended j.err t ∧ t.nvm = { s.nvm with job := none } ∧
        Only [.nvm] [status] [s.ev 825] s t) ∧
      (s.divRun = true → s.th.shut = false →
        (is 1 → readable j.len → Ends (.nvmDone none) s fun t => ended 0 t ∧ t.nvm = { s.nvm with job := none } ∧
          Placed j.pond (s.flashBytes xf j.addr j.len) s t ∧
          t.reg .NVM_CRC_OUT = crc32c (s.flashBytes xf j.addr j.len) ∧
          Only [.nvm, .mem, .ecc] (status :: RegKind.NVM_CRC_OUT.addr 0 0 :: eccRegs) [s.ev 824] s t) ∧
        (is 2 → readable 4096 → j.addr % 4096 = 0 →
          (crc32c data = s.reg .NVM_CRC_IN → ∀ (f : Option (BitVec 4)) (err : Nat), (f = none ∧ err = 0) ∨
              (f = some 6 ∧ err = 6) → Ends (.nvmDone f) s fun t => ended err t ∧ other t ∧
            (∀ x, t.flashByte xf x = if j.addr ≤ x ∧ x < j.addr + 4096 then data.getD (x - j.addr) 0
              else s.flashByte xf x) ∧
            Only [.nvm, .ecc] (status :: eccRegs) [event err] s t) ∧
          (crc32c data ≠ s.reg .NVM_CRC_IN → ∀ f, Ends (.nvmDone f) s fun t => ended 4 t ∧
            t.nvm = { s.nvm with job := none } ∧ Only [.nvm, .ecc] (status :: eccRegs) [s.ev 825] s t)) ∧
        (is 3 → readable j.len → Ends (.nvmDone none) s fun t => ended 0 t ∧ other t ∧
          (∀ x, t.flashByte xf x = if j.addr ≤ x ∧ x < j.addr + j.len
            then s.flashByte xf x &&& s.byte (j.pond + (x - j.addr)) else s.flashByte xf x) ∧
          Only [.nvm, .ecc] (status :: eccRegs) [s.ev 824] s t) ∧
        (is 4 → Ends (.nvmDone none) s fun t => ended 0 t ∧ other t ∧
          (∀ x, t.flashByte xf x = if x / 4096 = j.addr / 4096 then 0xFF else s.flashByte xf x) ∧
          Only [.nvm] [status] [s.ev 824] s t) ∧
        (is 5 → (Ends (.nvmDone none) s fun t => ended 0 t ∧ t.nvm = { s.nvm with job := none } ∧
            Only [.nvm] [status] [s.ev 824] s t) ∧
          Ends (.nvmDone (some 6)) s fun t => ended 6 t ∧ t.nvm = { s.nvm with job := none } ∧
            Only [.nvm] [status] [s.ev 825] s t))) ∧
    ∀ bs : List Byte, s.b F.XF_CTL_EN = true →
      let xfs := RegKind.XF_STATUS.addr 0 0
      let was := s.b F.XF_STATUS_READY
      let valid := leNat (bs.take 4) = 0x50444653 ∧ (bs.getD 10 0xFF).toNat = 1 ∧ bfpt bs 1 % 4 = 1
      let lg := sfdpDensity bs - 20
      (valid → Ends (.xfDiscovery bs) s fun t => t.b F.XF_STATUS_READY = true ∧ t.f F.XF_STATUS_DENSITY = lg % 16 ∧
        t.b F.XF_STATUS_ADDR4 = (decide (7 < lg) && decide (bfpt bs 1 / 2 ^ 17 % 4 ≠ 0)) ∧
        t.nvm = { s.nvm with xfTable := bs, xfMbit := 2 ^ lg, xfPage :=
          if 11 ≤ (bs.getD 11 0xFF).toNat then 2 ^ (bfpt bs 11 / 16 % 16) else 256 } ∧
        Only [.nvm] [xfs] (if was then [] else [s.ev 827]) s t) ∧
      (¬valid → Ends (.xfDiscovery bs) s fun t => t.b F.XF_STATUS_READY = false ∧
        Only [] [xfs] (if was then [s.ev 827] else []) s t)

/-- O57. IMAGE_CHECK with no check running takes UPD_MAN, UPD_PAY and KEYSRC. UPD_DONE, with the ranges readable,
reports BAD_FIELD, NO_KEY, BAD_SIG, BAD_HASH or OK in that order, with event 826. UPD_KEYPROG with GO programs
UPD_KEY_DATA into an empty slot; UPD_REVOKE with its key revokes a programmed slot while another stays; otherwise
KEY_ERR with event 828. KEY_DONE burns the slot and its state, with event 828. -/
def Obligations.ImagesAreCheckedAndKeysBurned : Prop :=
  ∀ s : State, s.fabUp = true →
    let status := RegKind.UPD_STATUS.addr 0 0
    (∀ (m : Master) (v : Word), CanWrite m .UPD_CMD 0 0 s →
      let cmd := RegKind.UPD_CMD.addr 0 0
      (s.nvm.check = none → Ends (.imageCheck m v) s fun t =>
        t.nvm = { s.nvm with check := some (s.f F.UPD_MAN_ADDR, s.f F.UPD_PAY_ADDR, v.getLsbD 0) } ∧
        t.f F.UPD_STATUS_BUSY = 1 ∧ t.b F.UPD_CMD_KEYSRC = v.getLsbD 0 ∧ Answered m 0 false t ∧
        Only [.nvm, .last] [cmd, status] [] s t) ∧
      (s.nvm.check ≠ none → Ends (.imageCheck m v) s fun t => t.b F.UPD_CMD_KEYSRC = v.getLsbD 0 ∧
        Answered m 0 false t ∧ Only [.last] [cmd] [] s t)) ∧
    (∀ (man pay : Nat) (keysrc : Bool), s.nvm.check = some (man, pay, keysrc) → s.pondOn man 0x140 = true →
      NoUe man 0x140 s →
      let m := s.bytes man 0x140
      let len := manField m 0x14 4
      let key := (m.drop 0x80).take 32
      let signed := edVerify key (m.take 0x100) ((m.drop 0x100).take 64) = true
      let hashed := sha512 (s.bytes pay len) = (m.drop 0x40).take 64
      let reads := (∀ i < len, s.pondOn (pay + i) 1 = true) ∧ NoUe pay len s
      let ends := fun (result : Nat) (slot : Option Nat) => Ends .updDone s fun t =>
        t.f F.UPD_STATUS_RESULT = result ∧ t.f F.UPD_STATUS_BUSY = 0 ∧
        (∀ k, slot = some k → t.f F.UPD_STATUS_SLOT = k) ∧ t.nvm = { s.nvm with check := none } ∧
        Only [.nvm, .ecc] (status :: eccRegs) [s.ev 826] s t
      (manifestOk m = false → ends 1 none) ∧
      (manifestOk m = true → s.keyUsable m keysrc = none → ends 2 none) ∧
      ∀ slot, manifestOk m = true → s.keyUsable m keysrc = some slot →
        (¬signed → ends 3 slot) ∧ (signed → reads → ¬hashed → ends 4 slot) ∧ (signed → reads → hashed → ends 0 slot)) ∧
    (∀ (m : Master) (v : Word),
      let k := fieldOf v 0 2
      let refused := fun (c : Instr) => Ends c s fun t => t.f F.UPD_STATUS_KEY_ERR = 1 ∧ Answered m 0 false t ∧
        Only [.last] [status] [s.ev 828] s t
      let takes := fun (c : Instr) (h : List Byte) => Ends c s fun t => t.nvm = { s.nvm with fuse := some (k, h) } ∧
        Answered m 0 false t ∧ Only [.nvm, .last] [] [] s t
      let other := ∃ i < 4, i ≠ k ∧ s.slotState i = 1
      (CanWrite m .UPD_KEYPROG 0 0 s →
        (s.slotState k = 0 → s.nvm.fuse = none → takes (.updKeyprog m v)
          ((List.range 8).flatMap fun i => leBytes 4 (s.reg .UPD_KEY_DATA i).toNat)) ∧
        (s.slotState k ≠ 0 ∨ s.nvm.fuse ≠ none → refused (.updKeyprog m v))) ∧
      (CanWrite m .UPD_REVOKE 0 0 s → fieldOf v 8 16 = 0x5E7A →
        (s.slotState k = 1 → s.nvm.fuse = none → other → takes (.updRevoke m v) []) ∧
        (s.slotState k ≠ 1 ∨ s.nvm.fuse ≠ none ∨ ¬other → refused (.updRevoke m v))) ∧
      (CanWrite m .UPD_REVOKE 0 0 s → fieldOf v 8 16 ≠ 0x5E7A → Ends (.updRevoke m v) s fun t =>
        Answered m 0 false t ∧ Only [.last] [] [] s t)) ∧
    ∀ (k : Nat) (h : List Byte), k < 4 → s.nvm.fuse = some (k, h) → h = [] ∨ h.length = 32 →
      Ends .keyDone s fun t => t.nvm.fuse = none ∧ t.slotState k = (if h = [] then 3 else 1) ∧
        (∀ i, i ≠ k → t.slotState i = s.slotState i ∧ (i < 4 → t.keySlot i = s.keySlot i)) ∧
        t.keySlot k = (if h = [] then s.keySlot k else h) ∧ Only [.nvm] [] [s.ev 828] s t

/-- O58. EN starts POWERING and clears it; when its wait is over PANEL_SCAN_START drives row 0; each PANEL_ROW_PERIOD,
at the row period's length in cycles of AUD_CLK, drives the next row's levels with the overdrive from the row before,
blanks, or begins a scan and counts it; a stopping scan goes dark and OFF. Each change raises event 818. A submitted
slot is WAITING, or DONE with ERR 1 or 2 and event 817, or an access error while busy; it starts when no earlier slot
shares a pixel and its VSYNC condition holds. An engine access copies one line's bytes into the panel RAM and moves on,
ends the slot with event 816, or with ERR 3 and event 817. -/
def Obligations.PanelStatesScanAndDescriptors : Prop :=
  ∀ s : State, s.fabUp = true →
    let st := s.f F.PNL_STATUS_STATE
    let status := RegKind.PNL_STATUS.addr 0 0
    let ctl := RegKind.PNL_CTL.addr 0 0
    let goes := fun (n : Nat) (t : State) => t.f F.PNL_STATUS_STATE = n
    let rows := s.f F.PNL_GEOM_ROWS + 1
    let cols := s.f F.PNL_GEOM_COLS + 1
    let gs := max 1 (s.f F.PNL_TIMING_GS)
    let row := fun (i : Nat) (before : Nat → Nat) (t : State) =>
      t.pnl = { s.pnl with
        period := i, prev := (List.range cols).map fun c => s.pixel c i, iseg := s.f F.PNL_DRIVE_ISEG,
        drive := (List.range cols).map fun c => (s.overdrive (before c) (s.pixel c i), s.pixel c i * gs),
        descs := t.pnl.descs } ∧
      t.f F.PNL_STATUS_ROW = i ∧ t.f F.PNL_STATUS_BLANK = 0
    (∀ (m : Master) (v : Word), CanWrite m .PNL_CTL 0 0 s →
      (st = 0 → s.domRun 17 = true → Ends (.panelEnable m v) s fun t => goes 1 t ∧
        t.pnl = { s.pnl with ven := true, venLow := false, wait := fieldOf v 8 8 * 8 + 1 } ∧
        t.reg .PNL_CTL = (v ||| 1) &&& 0xFF03 ∧ Answered m 0 false t ∧
        Only [.panel, .last] [ctl, status] [s.ev 818] s t) ∧
      (st ≠ 0 → Ends (.panelEnable m v) s fun t => t.reg .PNL_CTL = (v ||| 1) &&& 0xFF03 ∧ Answered m 0 false t ∧
        Only [.last] [ctl] [] s t) ∧
      (st = 1 → Ends (.panelDisable m v) s fun t => goes 0 t ∧ t.pnl = { s.pnl with venLow := true, wait := 0 } ∧
        t.reg .PNL_CTL = v &&& 0xFF02 ∧ Answered m 0 false t ∧ Only [.panel, .last] [ctl, status] [s.ev 818] s t) ∧
      (st = 2 → Ends (.panelDisable m v) s fun t => goes 3 t ∧ t.reg .PNL_CTL = v &&& 0xFF02 ∧ Answered m 0 false t ∧
        Only [.last] [ctl, status] [s.ev 818] s t) ∧
      (st = 0 ∨ st = 3 → Ends (.panelDisable m v) s fun t => t.reg .PNL_CTL = v &&& 0xFF02 ∧ Answered m 0 false t ∧
        Only [.last] [ctl] [] s t)) ∧
    (s.domRun 17 = true → st = 1 → s.pnl.wait = 0 → Ends .panelScanStart s fun t => goes 2 t ∧ row 0 (fun _ => 0) t ∧
      t.pnl.descs = s.pnl.descs ∧ Only [.panel] [status] [s.ev 818] s t) ∧
    (st ≠ 1 ∨ s.pnl.wait ≠ 0 → Ends .panelScanStart s (Only [] [] [] s)) ∧
    (s.domRun 17 = true →
      let i := s.pnl.period + 1
      let len := (s.f F.PNL_TIMING_PDIV + 1) * (s.f F.PNL_TIMING_PRE + 15 * gs + s.f F.PNL_TIMING_DIS)
      let periods := rows + s.f F.PNL_GEOM_VBLANK
      let before := fun c => s.pnl.prev.getD c 0
      let dark := { s.pnl with prev := [], drive := [] }
      (∀ cycles, st = 0 ∨ st = 1 ∨ cycles ≠ len → Ends (.panelRowPeriod cycles) s (Only [] [] [] s)) ∧
      (st = 3 → Ends (.panelRowPeriod len) s fun t => goes 0 t ∧ t.pnl = { dark with period := 0, iseg := 0, venLow := true } ∧
        Only [.panel] [status] [s.ev 818] s t) ∧
      (st = 2 → i < rows → Ends (.panelRowPeriod len) s fun t => row i before t ∧ t.pnl.descs = s.pnl.descs ∧
        Only [.panel] [status] [] s t) ∧
      (st = 2 → rows ≤ i → i < periods → Ends (.panelRowPeriod len) s fun t =>
        t.pnl = { dark with period := i, iseg := s.f F.PNL_DRIVE_ISEG, descs := t.pnl.descs } ∧
        t.f F.PNL_STATUS_BLANK = 1 ∧ Only [.panel] [status] [] s t) ∧
      (st = 2 → periods ≤ i → Ends (.panelRowPeriod len) s fun t => row 0 before t ∧
        t.f F.PNL_SCAN_COUNT_SCANS = (s.f F.PNL_SCAN_COUNT_SCANS + 1) % 2 ^ 32 ∧
        Only [.panel] [status, RegKind.PNL_SCAN_COUNT.addr 0 0] [] s t)) ∧
    (∀ k : Fin 4,
      let d := s.pdesc k.val
      let slot := s.f F.PNL_DESC_STATUS_STATE k.val
      let dstat := RegKind.PNL_DESC_STATUS.addr k.val 0
      let busy := fun (j : Nat) => s.f F.PNL_DESC_STATUS_STATE j = 1 ∨ s.f F.PNL_DESC_STATUS_STATE j = 2
      (∀ (m : Master) (v : Word), CanWrite m .PNL_DESC_CTL k.val 0 s →
        let new := { PDesc.init with
          order := s.pnl.subs, src := s.f F.PNL_DESC_SRC_SRC k.val, x2 := s.f F.PNL_DESC_RECT_X2 k.val,
          y := s.f F.PNL_DESC_RECT_Y k.val, w2 := s.f F.PNL_DESC_RECT_W2 k.val, h1 := s.f F.PNL_DESC_RECT_H1 k.val,
          stride := fieldOf v 0 12, vsync := v.getLsbD 16 }
        let outside := 64 < new.y + (new.h1 + 1) ∨ 127 < new.x2 + new.w2
        let beyond := 0x1000000 < new.src + new.h1 * new.stride + (new.w2 + 1)
        (busy k.val → Ends (.pnlDescSubmit m k v) s fun t => Answered m 0 true t ∧ Only [.last] [] [] s t) ∧
        (¬busy k.val → ∀ err, (err = 1 ∧ outside) ∨ (err = 2 ∧ ¬outside ∧ beyond) ∨ (err = 0 ∧ ¬outside ∧ ¬beyond) →
          Ends (.pnlDescSubmit m k v) s fun t =>
            t.pdesc k.val = new ∧ (∀ j, j ≠ k.val → t.pdesc j = s.pdesc j) ∧
            t.pnl = { s.pnl with subs := s.pnl.subs + 1, descs := t.pnl.descs } ∧
            t.f F.PNL_DESC_STATUS_STATE k.val = (if err = 0 then 1 else 3) ∧ t.f F.PNL_DESC_STATUS_ERR k.val = err ∧
            t.f F.PNL_DESC_STATUS_SEQ k.val = s.pnl.subs % 256 ∧ t.reg .PNL_DESC_CTL k.val = v &&& 0x10FFF ∧
            Answered m 0 false t ∧ Only [.panel, .last] [RegKind.PNL_DESC_CTL.addr k.val 0, dstat]
              (if err = 0 then [] else [s.ev 817]) s t)) ∧
      (s.domRun 17 = true →
        let free := ∀ j < 4, busy j → (s.pdesc j).order < d.order → (s.pdesc j).shares d = false
        let synced := d.vsync = false ∨ st ≠ 2 ∨ d.blanked = true
        (slot = 1 → free → synced → Ends (.pnlDescStart k) s fun t => t.f F.PNL_DESC_STATUS_STATE k.val = 2 ∧
          Only [] [dstat] [] s t) ∧
        (slot ≠ 1 ∨ ¬free ∨ ¬synced → Ends (.pnlDescStart k) s (Only [] [] [] s)) ∧
        (s.pnlServe = some k.val → d.y + d.h1 < 64 → d.x2 + d.w2 ≤ 127 → d.row ≤ d.h1 → d.byte ≤ d.w2 →
          let a := d.src + d.row * d.stride + d.byte
          let len := min (d.w2 + 1 - d.byte) (32 - a % 32)
          let dst := 128 * (d.y + d.row) + d.x2 + d.byte
          let others := fun (t : State) => t.pnl.served = k.val ∧ ∀ j, j ≠ k.val → t.pdesc j = s.pdesc j
          let copied := fun (t : State) => others t ∧ ∀ b < 8192,
            t.pnlByte b = if dst ≤ b ∧ b < dst + len then (s.byte (a + (b - dst))).toNat else s.pnlByte b
          let ended := fun (err : Nat) (t : State) => t.f F.PNL_DESC_STATUS_STATE k.val = 3 ∧
            t.f F.PNL_DESC_STATUS_ERR k.val = err
          (s.pondOn a len = false → Ends .panelEngineAccess s fun t => ended 3 t ∧ others t ∧
            Only [.panel] [dstat] [s.ev 817] s t) ∧
          (s.pondOn a len = true → ¬NoUe a len s → Ends .panelEngineAccess s fun t => ended 3 t ∧ others t ∧
            Only [.panel, .ecc] (dstat :: eccRegs) [s.ev 817] s t) ∧
          (s.pondOn a len = true → NoUe a len s →
            (d.byte + len ≤ d.w2 → Ends .panelEngineAccess s fun t => copied t ∧
              t.pdesc k.val = { d with byte := d.byte + len } ∧
              Only [.panel, .ecc] (regsOf [.PNL_RAM] ++ eccRegs) [] s t) ∧
            (d.w2 < d.byte + len → d.row < d.h1 → Ends .panelEngineAccess s fun t => copied t ∧
              t.pdesc k.val = { d with byte := 0, row := d.row + 1 } ∧
              Only [.panel, .ecc] (regsOf [.PNL_RAM] ++ eccRegs) [] s t) ∧
            (d.w2 < d.byte + len → d.row = d.h1 → d.vsync = false ∨ d.wrapped = false →
              Ends .panelEngineAccess s fun t => copied t ∧ ended 0 t ∧
                Only [.panel, .ecc] (dstat :: regsOf [.PNL_RAM] ++ eccRegs) [s.ev 816] s t)))))

/-- O59. A conversion outside the window is a fault that shows at the next tick; four good ones clear it; TEMP is the
linearised mean of four. Two die conversions at a threshold declare the warning or shutdown, one the abort, with
their events; 1,024 cool ones release THERMAL. A control tick takes the applied settings, sets TEMP 0xFFF for
disabled and faulted inputs, tracks Th with hysteresis, and gives each running channel the demand of its table,
fixed duty or full under warning, not below MIN_DUTY: a stopped channel starts, a running one takes it as its duty,
and RUN = 0 or demand 0 stops it. -/
def Obligations.TemperaturesAndDemandsFollowTheTick : Prop :=
  ∀ s : State, s.fabUp = true →
    (∀ (n : Fin 8) (raw : BitVec 12), s.domRun 17 = true → s.tf F.TH_CFG_EN / 2 ^ n.val % 2 = 1 →
      let x := s.therm n.val
      let temp := RegKind.TH_TEMP.addr n.val 0
      let lost := raw.toNat < s.tf F.TH_LIMITS_SHORT_LIM ∨ s.tf F.TH_LIMITS_OPEN_LIM < raw.toNat
      let last := (raw.toNat :: x.last).take 4
      let fault := s.b F.TH_TEMP_FAULT n.val
      let others := fun (t : State) => (∀ j, j ≠ n.val → t.therm j = s.therm j) ∧
        t.th = { s.th with inputs := t.th.inputs } ∧ t.f F.TH_TEMP_RAW n.val = raw.toNat
      let r := last.sum / 4
      let l0 : Int := s.thLin n.val (r / 256)
      let l1 : Int := s.thLin n.val (r / 256 + 1)
      (lost → Ends (.thConversion n raw) s fun t => t.therm n.val = { last := last, good := 0, due := true } ∧
        others t ∧ t.f F.TH_TEMP_TEMP n.val = s.f F.TH_TEMP_TEMP n.val ∧ Only [.thermal] [temp] [] s t) ∧
      (¬lost → x.due = true ∨ fault = true → x.good < 3 → Ends (.thConversion n raw) s fun t =>
        t.therm n.val = { x with last := last, good := x.good + 1 } ∧ others t ∧
        t.f F.TH_TEMP_TEMP n.val = s.f F.TH_TEMP_TEMP n.val ∧ Only [.thermal] [temp] [] s t) ∧
      (¬lost → (x.due = false ∧ fault = false) ∨ 3 ≤ x.good → last.length = 4 → Ends (.thConversion n raw) s fun t =>
        t.therm n.val = { last := last, good := x.good + 1, due := false } ∧ others t ∧
        t.b F.TH_TEMP_FAULT n.val = false ∧
        (last.sum ≤ 4 * 4095 → (t.f F.TH_TEMP_TEMP n.val : Int) = l0 + (l1 - l0) * ((r % 256 : Nat) : Int) / 256) ∧
        Only [.thermal] [temp, RegKind.TH_STATUS.addr 0 0] (if fault then [s.ev 802] else []) s t)) ∧
    (∀ (n : Fin 8) (raw : BitVec 12), s.tf F.TH_CFG_EN / 2 ^ n.val % 2 = 0 →
      Ends (.thConversion n raw) s (Only [] [] [] s)) ∧
    (∀ code : BitVec 12, s.nvm.job = none → (∀ k < 4, s.fanSt k ≠ 5) →
      let c := code.toNat
      let two := (c :: s.th.die).take 2
      let both := fun (p : Nat → Prop) => two.length = 2 ∧ ∀ v ∈ two, p v
      let warns := both fun v => 3024 ≤ v
      let clears := both fun v => v < 2944
      let shuts := both fun v => 3184 ≤ v
      Ends (.dieConversion code) s fun t =>
        t.f F.TH_DIE_CODE = c ∧ t.th = { s.th with
          die := two, warn := t.th.warn, shut := t.th.shut, abort := t.th.abort,
          cool := if c < 2864 then s.th.cool + 1 else 0 } ∧
        (t.th.warn = true ↔ (s.th.warn = false ∧ warns) ∨ (s.th.warn = true ∧ ¬clears)) ∧
        (t.th.shut = true ↔ s.th.shut = true ∨ shuts) ∧ (t.th.abort = true ↔ s.th.abort = true ∨ 3344 ≤ c) ∧
        Only [.thermal] [RegKind.TH_DIE.addr 0 0, RegKind.TH_STATUS.addr 0 0]
          ((if t.th.warn = s.th.warn then [] else [s.ev 800]) ++ if t.th.shut = s.th.shut then [] else [s.ev 801]) s t) ∧
    (s.rst.sources.getLsbD 4 = true → 1024 ≤ s.th.cool → Ends .thermalRelease s fun t =>
      t.rst = { s.rst with sources := s.rst.sources &&& 0xF } ∧ t.th = { s.th with shut := false, abort := false } ∧
      Only [.reset, .thermal] [] [] s t) ∧
    (s.rst.sources.getLsbD 4 = false ∨ s.th.cool < 1024 → Ends .thermalRelease s (Only [] [] [] s)) ∧
    (let due := s.frame.toNat % 8 = 0 ∧ s.th.tickDone = false ∧ s.domRun 17 = true
     (¬due → Ends .controlTick s (Only [] [] [] s)) ∧
     (due → Ends .controlTick s fun t =>
      t.th.tickDone = true ∧
      (∀ f ∈ [F.FAN_CTL_RUN, F.FAN_CTL_SRC, F.FAN_CTL_WARN_FULL, F.FAN_CTL_FIXED_DUTY, F.FAN_CTL_SENS,
          F.FAN_DRIVE_MIN_DUTY, F.FAN_DRIVE_HYST, F.FAN_BLDC_START_DUTY, F.FAN_TAB_T, F.FAN_TAB_D, F.TH_CFG_EN,
          F.TH_LIMITS_SHORT_LIM, F.TH_LIMITS_OPEN_LIM, F.TH_LIN_L2w, F.TH_LIN8_L16], ∀ i j, f.k.has i j →
        t.tf f i j = fieldOf (s.act f.k i j) f.lo f.w) ∧
      (∀ i < 8, let on := t.tf F.TH_CFG_EN / 2 ^ i % 2 = 1
        (¬on → t.f F.TH_TEMP_TEMP i = 0xFFF ∧ t.b F.TH_TEMP_FAULT i = false ∧ t.therm i = Therm.init) ∧
        (on → (s.therm i).due = true → t.f F.TH_TEMP_TEMP i = 0xFFF ∧ t.b F.TH_TEMP_FAULT i = true) ∧
        (on → (s.therm i).due = false → t.f F.TH_TEMP_TEMP i = s.f F.TH_TEMP_TEMP i)) ∧
      (∀ k < 4,
        let x := s.fan k
        let goes := fun (n d : Nat) => t.fanSt k = n ∧ t.f F.FAN_STATUS_DUTY k = d
        (t.tf F.FAN_CTL_RUN k = 0 → t.fanSt k = 0 ∧ (s.fanSt k ≠ 0 → goes 0 0) ∧ (t.fan k).running = false) ∧
        (t.tf F.FAN_CTL_RUN k = 1 →
          let sens := t.tf F.FAN_CTL_SENS k
          let temps := (if sens / 256 % 2 = 1 then [s.f F.TH_DIE_CODE] else []) ++
            ((List.range 8).filter fun i => decide (sens / 2 ^ i % 2 = 1)).map fun i => t.f F.TH_TEMP_TEMP i
          let tc := temps.foldl max 0
          let hyst := t.tf F.FAN_DRIVE_HYST k
          let th0 := s.f F.FAN_SPEED_TH k
          let th := if x.running = false ∨ th0 < tc then tc else if tc + hyst < th0 then tc + hyst else th0
          let tt := fun i => t.tf F.FAN_TAB_T k i
          let dd := fun i => t.tf F.FAN_TAB_D k i
          let floor := t.tf F.FAN_DRIVE_MIN_DUTY k
          t.f F.FAN_SPEED_TH k = th ∧ (t.fan k).running = true ∧
          (∀ d0, (t.tf F.FAN_CTL_SRC k = 1 ∧ d0 = t.tf F.FAN_CTL_FIXED_DUTY k) ∨ (t.tf F.FAN_CTL_SRC k = 0 ∧
              (∀ i < 7, tt i < tt (i + 1)) ∧ ((th ≤ tt 0 ∧ d0 = dd 0) ∨ (tt 7 ≤ th ∧ d0 = dd 7) ∨
                ∃ i < 7, tt i ≤ th ∧ th < tt (i + 1) ∧ (d0 : Int) = (dd i : Int) +
                  Int.tdiv (((dd (i + 1) : Int) - dd i) * ((th : Int) - tt i)) ((tt (i + 1) : Int) - tt i))) →
            let d2 := if t.tf F.FAN_CTL_WARN_FULL k = 1 ∧ s.th.warn = true then 255 else d0
            let d := if d2 ≠ 0 ∧ d2 < floor then floor else d2
            (t.fan k).demand = d ∧
            (x.mode = 1 ∨ x.mode = 2 →
              (d = 0 → t.fanSt k = 0 ∧ (s.fanSt k ≠ 0 → goes 0 0)) ∧
              (d ≠ 0 → s.fanSt k = 0 → goes (if x.mode = 1 then 1 else 6)
                (if x.mode = 1 then t.tf F.FAN_BLDC_START_DUTY k else 255)) ∧
              (d ≠ 0 → s.fanSt k = 3 → goes 3 d))))) ∧
      Kept [.regs, .events, .thermal] s t ∧
      RegsKept (regsOf [.FAN_AGE, .FAN_SPEED, .FAN_STATUS, .TH_STATUS, .TH_TEMP]) s t))

/-- O60. FAN_MODE takes a consistent pair (a changed one stops the channel), and sets MISMATCH with event 812 + k
otherwise. Each timed or sensed event of R796 to R800 that is due moves the channel to its next state with its duty,
speed and event 804 + k, counts a stall where one begins, and does nothing when it is not due. AGE_START in RUN
begins a measurement, elsewhere ends it with RESULT 3, in AGEING is an access error; AGE_DONE records the mean duty,
RATIO and OLD; AGE_TIMEOUT records RESULT 2; each returns to RUN at the demand with event 808 + k. The mean is
rounded up or down, which the spec leaves open. -/
def Obligations.FanChannelsMoveBetweenTheirStates : Prop :=
  ∀ (k : Fin 4) (s : State), s.fabUp = true →
    let x := s.fan k.val
    let n := s.fanSt k.val
    let up := s.domRun 17 = true
    let status := RegKind.FAN_STATUS.addr k.val 0
    let speed := RegKind.FAN_SPEED.addr k.val 0
    let stalls := RegKind.FAN_STALLS.addr k.val 0
    let age := RegKind.FAN_AGE.addr k.val 0
    let moved := s.ev (804 + k.val)
    let aged := s.ev (808 + k.val)
    let becomes := fun (y : Fan) (t : State) => t.fan k.val = y ∧ (∀ j, j ≠ k.val → t.fan j = s.fan j) ∧
      t.th = { s.th with fans := t.th.fans }
    let goes := fun (m : Nat) (t : State) => t.fanSt k.val = m
    let duty := fun (d : Nat) (t : State) => t.f F.FAN_STATUS_DUTY k.val = d % 256
    let turns := fun (v : Nat) (t : State) => t.f F.FAN_SPEED_SPEED k.val = v
    let stalled := Counted F.FAN_STALLS_STALLS k.val s
    let idle := Only [] [] [] s
    let aligned := fun (attempt : Nat) (t : State) => goes 1 t ∧ duty (s.tf F.FAN_BLDC_START_DUTY k.val) t ∧ turns 0 t ∧
      becomes { x with
        attempt := attempt, zc := 0, pause := false, steps := 0, comm := 0, acc := 0, stTicks := 0 } t
    let kicked := fun (t : State) => goes 6 t ∧ duty 255 t ∧ becomes { x with kickTicks := 0, stTicks := 0 } t
    let runs := fun (y : Fan) (t : State) => goes 3 t ∧ duty x.demand t ∧ becomes { y with stTicks := 0 } t
    -- FAN_MODE
    (∀ (m : Master) (v : Word), CanWrite m .FAN_MODE k.val 0 s →
      let mode := fieldOf v 0 2
      let pin := fieldOf v 4 2
      let ok := (mode = 0 ∧ pin = 0) ∨ (mode = 1 ∧ pin = 1 ∧ k.val < 2) ∨ (mode = 2 ∧ pin = 2)
      let same := x.mode = mode ∧ x.pin = pin
      let ends := fun (mis : Nat) (p : State → Prop) => Ends (.fanModeWrite m k v) s fun t =>
        t.reg .FAN_MODE k.val = v &&& 0x33 ∧ t.f F.FAN_STATUS_MISMATCH k.val = mis ∧ Answered m 0 false t ∧ p t
      let reg := RegKind.FAN_MODE.addr k.val 0
      (¬ok → ends 1 (Only [.last] [reg, status] [s.ev (812 + k.val)] s)) ∧
      (ok → same → ends 0 (Only [.last] [reg, status] [] s)) ∧
      (ok → ¬same → n ≠ 5 → ends 0 fun t => goes 0 t ∧ duty 0 t ∧ turns 0 t ∧
        becomes { Fan.init with mode := mode, pin := pin, running := x.running } t ∧
        Only [.thermal, .last] [reg, status, speed] (if n = 0 then [] else [moved]) s t)) ∧
    -- direct drive
    (let due := up ∧ n = 1 ∧ s.tf F.FAN_BLDC_ALIGN_MS k.val ≤ x.stTicks
     (due → Ends (.alignEnd k) s fun t => goes 2 t ∧
        becomes { x with zc := 0, step := s.tf F.FAN_BLDC_RAMP_RAMP_START k.val, stTicks := 0 } t ∧
        Only [.thermal] [status] [moved] s t) ∧
     (¬due → Ends (.alignEnd k) s idle)) ∧
    (let due := up ∧ n = 2 ∧ x.pause = false ∧ s.tf F.FAN_BLDC_RAMP_MS k.val * 8 ≤ x.stTicks
     (due → x.attempt < 3 → Ends (.rampTimeout k) s fun t => goes 2 t ∧ duty 0 t ∧
        becomes { x with pause := true, zc := 0, stTicks := 0 } t ∧ Only [.thermal] [status] [] s t) ∧
     (due → 3 ≤ x.attempt → x.mode = 1 → Ends (.rampTimeout k) s fun t => goes 4 t ∧ duty 0 t ∧ turns 0 t ∧ stalled t ∧
        becomes { x with stTicks := 0 } t ∧ Only [.thermal] [status, speed, stalls] [moved] s t) ∧
     (¬due → Ends (.rampTimeout k) s idle)) ∧
    (let due := up ∧ n = 2 ∧ x.pause = true ∧ 500 ≤ x.stTicks
     (due → Ends (.rampPauseEnd k) s fun t => aligned (x.attempt + 1) t ∧ Only [.thermal] [status, speed] [moved] s t) ∧
     (¬due → Ends (.rampPauseEnd k) s idle)) ∧
    (∀ interval at_ : Nat, up → x.mode = 1 →
      let zc := if interval ≤ 4 * at_ ∧ 4 * at_ ≤ 3 * interval then x.zc + 1 else 0
      let y := { x with zc := zc, step := interval, steps := 0 }
      (n = 2 → x.pause = false → zc < 12 → Ends (.bemfZeroCrossing k interval at_) s fun t => becomes y t ∧
        Only [.thermal] [] [] s t) ∧
      (n = 2 → x.pause = false → 12 ≤ zc → Ends (.bemfZeroCrossing k interval at_) s fun t => runs y t ∧
        Only [.thermal] [status] [moved] s t) ∧
      (n = 3 ∨ n = 5 → (x.steps + 1) % 6 ≠ 0 → Ends (.bemfZeroCrossing k interval at_) s fun t =>
        becomes { x with step := interval, steps := (x.steps + 1) % 6, comm := (x.comm + 1) % 6 } t ∧
        Only [.thermal] [] [] s t) ∧
      (n = 3 ∨ n = 5 → (x.steps + 1) % 6 = 0 → interval ≠ 0 → s.tf F.FAN_BLDC_POLE_PAIRS k.val ≠ 0 →
        Ends (.bemfZeroCrossing k interval at_) s fun t =>
          turns (min (10000000 / (interval * s.tf F.FAN_BLDC_POLE_PAIRS k.val)) 0xFFFF) t ∧
          becomes { x with step := interval, steps := 0, comm := (x.comm + 1) % 6 } t ∧ Only [.thermal] [speed] [] s t)) ∧
    (∀ quiet : Nat, let due := up ∧ n = 3 ∧ x.mode = 1 ∧ 2 * x.step ≤ quiet
     (due → Ends (.commutationTimeout k quiet) s fun t => aligned 1 t ∧ stalled t ∧
        Only [.thermal] [status, speed, stalls] [moved] s t) ∧
     (¬due → Ends (.commutationTimeout k quiet) s idle)) ∧
    (let due := up ∧ n = 4 ∧ 10000 ≤ x.stTicks ∧ x.demand ≠ 0
     (due → x.mode = 1 → Ends (.stallRetry k) s fun t => aligned 1 t ∧ Only [.thermal] [status, speed] [moved] s t) ∧
     (due → x.mode = 2 → Ends (.stallRetry k) s fun t => kicked t ∧ Only [.thermal] [status] [moved] s t) ∧
     (¬due → Ends (.stallRetry k) s idle)) ∧
    -- variable supply
    (let due := up ∧ n = 6 ∧ s.tf F.FAN_TACH_KICK_MS k.val * 10 ≤ x.kickTicks
     (due → Ends (.kickEnd k) s fun t => runs x t ∧ Only [.thermal] [status] [moved] s t) ∧
     (¬due → Ends (.kickEnd k) s idle)) ∧
    (∀ period : Nat, up → x.mode = 2 →
      let periods := s.tf F.FAN_TACH_PPR k.val + 1
      let edges := if x.seen = true then (period :: x.edges).take 4 else []
      let y := { x with seen := true, edges := edges, edgeTicks := 0 }
      let shows := fun (t : State) => (periods ≤ edges.length →
        turns (min (60000000 / (edges.take periods).sum) 0xFFFF) t) ∧
        (edges.length < periods → turns (s.f F.FAN_SPEED_SPEED k.val) t)
      (x.seen = true → period < 100 → Ends (.tachEdge k period) s idle) ∧
      (x.seen = false ∨ 100 ≤ period →
        (n ≠ 4 → Ends (.tachEdge k period) s fun t => shows t ∧ becomes y t ∧ Only [.thermal] [speed] [] s t) ∧
        (n = 4 → Ends (.tachEdge k period) s fun t => shows t ∧ runs y t ∧
          Only [.thermal] [status, speed] [moved] s t))) ∧
    (let due := up ∧ x.mode = 2 ∧ 1000 ≤ x.edgeTicks
     let stops := n = 3 ∧ x.demand ≠ 0 ∧ s.tf F.FAN_TACH_SPINUP k.val * 10 ≤ x.kickTicks
     (due → ¬stops → Ends (.tachTimeout k) s fun t => turns 0 t ∧ becomes { x with seen := false, edges := [] } t ∧
        Only [.thermal] [speed] [] s t) ∧
     (due → stops → Ends (.tachTimeout k) s fun t => goes 4 t ∧ turns 0 t ∧ stalled t ∧
        becomes { x with seen := false, edges := [], stTicks := 0 } t ∧
        Only [.thermal] [status, speed, stalls] [moved] s t) ∧
     (¬due → Ends (.tachTimeout k) s idle)) ∧
    -- ageing
    (∀ (m : Master) (v : Word), CanWrite m .FAN_AGE_CTL k.val 0 s →
      let reg := RegKind.FAN_AGE_CTL.addr k.val 0
      let taken := fun (t : State) => t.reg .FAN_AGE_CTL k.val = v &&& 0xFFFF ∧ Answered m 0 false t
      (n = 5 → Ends (.ageStart m k v) s fun t => Answered m 0 true t ∧ Only [.last] [] [] s t) ∧
      (n ≠ 5 → n ≠ 3 → Ends (.ageStart m k v) s fun t => taken t ∧ t.f F.FAN_AGE_RESULT k.val = 3 ∧
        Only [.last] [reg, age] [aged] s t) ∧
      (n = 3 → Ends (.ageStart m k v) s fun t => taken t ∧ goes 5 t ∧
        becomes { x with ageTicks := 0, ageGood := 0, ageSum := 0, stTicks := 0 } t ∧
        Only [.thermal, .last] [reg, status] [moved] s t)) ∧
    (n = 5 → 1000 ≤ x.ageGood → x.ageSum ≤ 255000 → Ends (.ageDone k) s fun t => runs x t ∧
      t.f F.FAN_AGE_RESULT k.val = 1 ∧
      (∃ d, t.f F.FAN_AGE_DUTY k.val = d ∧ 1000 * d < 256 * x.ageSum + 1000 ∧ 256 * x.ageSum < 1000 * d + 1000 ∧
        let ref := s.f F.FAN_AGE_REF_AGE_REF k.val
        let ratio := min 0xFFFF (d * 256 / ref)
        (ref ≠ 0 → t.f F.FAN_AGE_LIM_RATIO k.val = ratio ∧
          (t.b F.FAN_AGE_OLD k.val = true ↔ s.f F.FAN_AGE_LIM_AGE_LIM k.val < ratio)) ∧
        (ref = 0 → t.reg .FAN_AGE_LIM k.val = s.reg .FAN_AGE_LIM k.val)) ∧
      Only [.thermal] [status, age, RegKind.FAN_AGE_LIM.addr k.val 0] [aged, moved] s t) ∧
    (n ≠ 5 ∨ x.ageGood < 1000 → Ends (.ageDone k) s idle) ∧
    (n = 5 → 60000 ≤ x.ageTicks → Ends (.ageTimeout k) s fun t => runs x t ∧ t.f F.FAN_AGE_RESULT k.val = 2 ∧
      Only [.thermal] [status, age] [aged, moved] s t) ∧
    (n ≠ 5 ∨ x.ageTicks < 60000 → Ends (.ageTimeout k) s idle)
end

