-- ==== Sys2Proof/Laws/Addr.lean ====
section
/-!
SUPPORT. Laws/Addr.lean: every register stands at its address and at no other register's (R6, R837): `regAt` finds a
register at its address, and the addresses of two registers differ.
-/
namespace Sys2Proof.Machine

/-- The addresses `base + i * s1 + j * s2`. -/
structure Grid where
  base : Nat
  s1 : Nat
  n1 : Nat
  s2 : Nat
  n2 : Nat

def Grid.last (g : Grid) : Nat := g.base + (g.n1 - 1) * g.s1 + (g.n2 - 1) * g.s2

def RegInfo.grid (r : RegInfo) (d : Nat) : Grid := ⟨r.base + d, r.s1, r.n1, r.s2, r.n2⟩

/-- Two grids have no address in common: their ranges do not meet, or they lie apart in every window of `s1`, or modulo
`s2`. -/
def Grid.apart (g h : Grid) : Bool :=
  decide (g.last < h.base) || decide (h.last < g.base) ||
  (decide (g.s1 = h.s1) && decide (g.base % g.s1 + (g.n2 - 1) * g.s2 < g.s1) &&
    decide (h.base % h.s1 + (h.n2 - 1) * h.s2 < h.s1) &&
    (decide (g.base % g.s1 + (g.n2 - 1) * g.s2 < h.base % h.s1) ||
      decide (h.base % h.s1 + (h.n2 - 1) * h.s2 < g.base % g.s1))) ||
  (decide (g.s2 = h.s2) && decide (g.s1 % g.s2 = 0) && decide (h.s1 % g.s2 = 0) &&
    decide (g.base % g.s2 ≠ h.base % g.s2))

theorem Grid.le_last (g : Grid) {i j : Nat} (hi : i < g.n1) (hj : j < g.n2) : i * g.s1 + j * g.s2 + g.base ≤ g.last := by
  have h1 : i * g.s1 ≤ (g.n1 - 1) * g.s1 := Nat.mul_le_mul_right _ (by omega)
  have h2 : j * g.s2 ≤ (g.n2 - 1) * g.s2 := Nat.mul_le_mul_right _ (by omega)
  unfold Grid.last; omega

theorem Grid.window (g : Grid) {i j : Nat} (hj : j < g.n2) (h : g.base % g.s1 + (g.n2 - 1) * g.s2 < g.s1) :
    (g.base + i * g.s1 + j * g.s2) % g.s1 = g.base % g.s1 + j * g.s2 ∧
      g.base % g.s1 + j * g.s2 ≤ g.base % g.s1 + (g.n2 - 1) * g.s2 := by
  have h2 : j * g.s2 ≤ (g.n2 - 1) * g.s2 := Nat.mul_le_mul_right _ (by omega)
  refine ⟨?_, by omega⟩
  rw [show g.base + i * g.s1 + j * g.s2 = g.base + j * g.s2 + i * g.s1 by ring, Nat.add_mul_mod_self_right,
    Nat.add_mod, Nat.mod_eq_of_lt (a := j * g.s2) (by omega), Nat.mod_eq_of_lt (by omega)]

theorem Grid.apart_ne {g h : Grid} (ha : g.apart h = true) {i j i' j' : Nat} (hi : i < g.n1) (hj : j < g.n2)
    (hi' : i' < h.n1) (hj' : j' < h.n2) :
    g.base + i * g.s1 + j * g.s2 ≠ h.base + i' * h.s1 + j' * h.s2 := by
  intro he
  have l1 := g.le_last hi hj
  have l2 := h.le_last hi' hj'
  simp only [Grid.apart, Bool.or_eq_true, Bool.and_eq_true, decide_eq_true_eq] at ha
  rcases ha with ((ha | ha) | ⟨⟨⟨h1, h2⟩, h3⟩, h4⟩) | ⟨⟨⟨h1, h2⟩, h3⟩, h4⟩
  · omega
  · omega
  · have w1 := g.window (i := i) hj h2
    have w2 := h.window (i := i') hj' h3
    rw [he, h1, w2.1] at w1
    rw [h1] at h4
    omega
  · apply h4
    have e1 : (g.base + i * g.s1 + j * g.s2) % g.s2 = g.base % g.s2 := by
      rw [Nat.add_mul_mod_self_right, Nat.add_mod, Nat.mul_mod, h2]; simp
    have e2 : (h.base + i' * h.s1 + j' * h.s2) % g.s2 = h.base % g.s2 := by
      rw [h1, Nat.add_mul_mod_self_right, ← h1, Nat.add_mod, Nat.mul_mod, h3]; simp
    rw [← e1, he, e2]

theorem indexOf_sound {r : RegInfo} {off i j : Nat} (h : r.indexOf off = some (i, j)) :
    i < r.n1 ∧ j < r.n2 ∧ off = i * r.s1 + j * r.s2 := by
  unfold RegInfo.indexOf at h
  dsimp only at h
  split at h
  · rename_i hc
    simp only [Option.some.injEq, Prod.mk.injEq] at h
    obtain ⟨rfl, rfl⟩ := h
    refine ⟨hc.1, hc.2.2, ?_⟩
    have h1 := Nat.div_add_mod' off r.s1
    have h2 := Nat.div_add_mod' (off % r.s1) r.s2
    omega
  · simp at h

theorem indexOf_complete {r : RegInfo} {i j : Nat} (hi : i < r.n1) (hj : j < r.n2) (hs : 0 < r.s2)
    (hw : (r.n2 - 1) * r.s2 < r.s1) : r.indexOf (i * r.s1 + j * r.s2) = some (i, j) := by
  have h2 : j * r.s2 ≤ (r.n2 - 1) * r.s2 := Nat.mul_le_mul_right _ (by omega)
  have hd : (i * r.s1 + j * r.s2) / r.s1 = i := by
    rw [Nat.add_comm, Nat.add_mul_div_right _ _ (by omega), Nat.div_eq_of_lt (by omega)]; omega
  have hm : (i * r.s1 + j * r.s2) % r.s1 = j * r.s2 := by
    rw [Nat.add_comm, Nat.add_mul_mod_self_right, Nat.mod_eq_of_lt (by omega)]
  unfold RegInfo.indexOf
  simp only [hd, hm, Nat.mul_mod_left, Nat.mul_div_cancel _ hs]
  simp [hi, hj]

/-- Neither the register nor its active view meets a grid. -/
def RegInfo.clear (r : RegInfo) (g : Grid) : Bool :=
  (r.grid 0).apart g && match r.act with | none => true | some d => (r.grid d).apart g

theorem at?_clear {k : RegKind} {g : Grid} (h : k.info.clear g = true) {i j : Nat} (hi : i < g.n1) (hj : j < g.n2) :
    k.at? (g.base + i * g.s1 + j * g.s2) = none := by
  simp only [RegInfo.clear, Bool.and_eq_true] at h
  have key : ∀ d, (k.info.grid d).apart g = true →
      (if k.info.base + d ≤ g.base + i * g.s1 + j * g.s2 then
        k.info.indexOf (g.base + i * g.s1 + j * g.s2 - (k.info.base + d)) else none) = none := by
    intro d hd
    split
    · rename_i hle
      match hx : k.info.indexOf (g.base + i * g.s1 + j * g.s2 - (k.info.base + d)) with
      | none => rfl
      | some (i', j') =>
        obtain ⟨h1, h2, h3⟩ := indexOf_sound hx
        refine absurd ?_ (Grid.apart_ne hd (i := i') (j := j') h1 h2 hi hj)
        show k.info.base + d + i' * k.info.s1 + j' * k.info.s2 = _
        omega
    · rfl
  unfold RegKind.at?
  dsimp only
  have k0 := key 0 h.1
  simp only [Nat.add_zero] at k0
  rw [k0]
  cases hact : k.info.act with
  | none => rfl
  | some d =>
    have := h.2
    rw [hact] at this
    simp only [key d this]

/-- The list finds the register before any other at its grid. -/
def findsIn (k : RegKind) : List RegKind → Bool
  | [] => false
  | k' :: t => decide (k' = k) || (k'.info.clear (k.info.grid 0) && findsIn k t)

/-- The 64 KB blocks that a register's grid spans all list it, and none is the queue descriptors'. -/
def RegKind.placed (k : RegKind) : Bool :=
  let b := k.info.base / 0x10000
  let e := (k.info.grid 0).last / 0x10000
  decide (0 < k.info.s2) && decide ((k.info.n2 - 1) * k.info.s2 < k.info.s1) &&
    (List.range (e - b + 1)).all fun x => findsIn k (regsOfBlock (b + x)) &&
      !decide (0x118 ≤ b + x ∧ b + x < 0x11C) && !decide (0x108 ≤ b + x ∧ b + x < 0x10C)

/-- Not one of the queue descriptor registers. -/
def RegKind.noQueue : RegKind → Bool
  | .Q_BASE | .Q_CFG | .Q_WM | .Q_HEAD | .Q_TAIL | .Q_FILL | .Q_DROP | .Q_STAT => false
  | _ => true

theorem RegKind.addr_eq {k : RegKind} (h : k.noQueue = true) (i j : Nat) :
    k.addr i j = k.info.base + i * k.info.s1 + j * k.info.s2 := by
  cases k <;> first | rfl | exact absurd h (by decide)

set_option maxRecDepth 20000 in
theorem RegKind.all_placed (k : RegKind) (h : k.noQueue = true) : k.placed = true := by
  cases k <;> first | decide | exact absurd h (by decide)

theorem findSome_of_findsIn {k : RegKind} {l : List RegKind} (h : findsIn k l = true) {i j : Nat}
    (hi : i < k.info.n1) (hj : j < k.info.n2) (hs : 0 < k.info.s2) (hw : (k.info.n2 - 1) * k.info.s2 < k.info.s1) :
    l.findSome? (fun k' => k'.at? (k.info.base + i * k.info.s1 + j * k.info.s2)) = some ⟨k, i, j, false⟩ := by
  induction l with
  | nil => simp [findsIn] at h
  | cons k' t ih =>
    simp only [findsIn, Bool.or_eq_true, decide_eq_true_eq, Bool.and_eq_true] at h
    rcases h with h | ⟨h1, h2⟩
    · subst h
      have : k'.at? (k'.info.base + i * k'.info.s1 + j * k'.info.s2) = some ⟨k', i, j, false⟩ := by
        unfold RegKind.at?
        dsimp only
        rw [if_pos (by omega), show k'.info.base + i * k'.info.s1 + j * k'.info.s2 - k'.info.base
          = i * k'.info.s1 + j * k'.info.s2 by omega, indexOf_complete hi hj hs hw]
      simp [this]
    · have := at?_clear h1 (i := i) (j := j) hi hj
      simp only [RegInfo.grid, Nat.add_zero] at this
      simp [this, ih h2]

/-- Every register but the queue descriptors' stands at its address (R837). -/
theorem regAt_addr {k : RegKind} (hk : k.noQueue = true) {i j : Nat} (hi : i < k.info.n1) (hj : j < k.info.n2) :
    regAt (k.addr i j) = some ⟨k, i, j, false⟩ := by
  have hp := RegKind.all_placed k hk
  rw [RegKind.addr_eq hk]
  simp only [RegKind.placed, Bool.and_eq_true, decide_eq_true_eq, List.all_eq_true, Bool.not_eq_true',
    decide_eq_false_iff_not] at hp
  obtain ⟨⟨hs, hw⟩, hb⟩ := hp
  have hl := Grid.le_last (k.info.grid 0) (i := i) (j := j) hi hj
  simp only [RegInfo.grid, Nat.add_zero] at hl
  have hle : k.info.base + i * k.info.s1 + j * k.info.s2 ≤ (k.info.grid 0).last := by
    simp only [RegInfo.grid, Nat.add_zero]; omega
  have hd := Nat.div_le_div_right (c := 0x10000) hle
  have hd' := Nat.div_le_div_right (c := 0x10000) (show k.info.base ≤ k.info.base + i * k.info.s1 + j * k.info.s2 by omega)
  have := hb ((k.info.base + i * k.info.s1 + j * k.info.s2) / 0x10000 - k.info.base / 0x10000)
    (List.mem_range.mpr (by omega))
  rw [show k.info.base / 0x10000 + ((k.info.base + i * k.info.s1 + j * k.info.s2) / 0x10000 - k.info.base / 0x10000)
    = (k.info.base + i * k.info.s1 + j * k.info.s2) / 0x10000 by omega] at this
  generalize ha : k.info.base + i * k.info.s1 + j * k.info.s2 = a at *
  have hq : queueOffset a = none := by
    unfold queueOffset
    rw [if_neg (by omega), if_neg (by omega)]
  unfold regAt
  rw [hq]
  dsimp only
  rw [← ha]
  rw [← ha] at this
  exact findSome_of_findsIn this.1.1 hi hj hs hw

/-- A descriptor of the lower window: registers of queues below 8,192. -/
def RegKind.isQueue (k : RegKind) : Bool := !k.noQueue

theorem queue_at (k : RegKind) (hk : k.isQueue = true) (i : Nat) (hi : i < 16384) :
    (regsOfBlock 0x118).findSome? (fun k' => k'.at? (k.info.base + i * 32)) = some ⟨k, i, 0, false⟩ := by
  have hf : findsIn k (regsOfBlock 0x118) = true ∧ 16384 ≤ k.info.n1 ∧ k.info.n2 = 1 ∧ k.info.s1 = 32 ∧
      0 < k.info.s2 := by
    cases k <;> first | decide | exact absurd hk (by decide)
  obtain ⟨h1, h2, h3, h4, h5⟩ := hf
  have := findSome_of_findsIn h1 (i := i) (j := 0) (by omega) (by omega) h5 (by rw [h3, h4]; omega)
  simpa [h4] using this

/-- A queue descriptor's register stands at its address, in either window (R506). -/
theorem regAt_queue {k : RegKind} (hk : k.isQueue = true) {i j : Nat} (hi : i < 16384) :
    regAt (k.addr i j) = some ⟨k, i, 0, false⟩ := by
  have hb : k.info.base = 0x01180000 + (k.info.base - 0x01180000) ∧ k.info.base - 0x01180000 < 32 := by
    cases k <;> first | exact absurd hk (by decide) | decide
  have ha : k.addr i j = if i < 8192 then k.info.base + i * 32 else k.info.base - 0x100000 + (i - 8192) * 32 := by
    cases k <;> first | exact absurd hk (by decide) | rfl
  generalize k.info.base - 0x01180000 = o at hb
  obtain ⟨ho, ho'⟩ := hb
  have hq := queue_at k hk i hi
  rw [ho] at hq
  have h1 : queueOffset (k.addr i j) = some (o + i * 32) := by
    rw [ha, ho]
    unfold queueOffset
    by_cases h : i < 8192
    · rw [if_pos h, if_pos (by omega)]; exact congrArg some (by omega)
    · rw [if_neg h, if_neg (by omega), if_pos (by omega)]; exact congrArg some (by omega)
  unfold regAt
  rw [h1]
  dsimp only
  rw [← hq, ← Nat.add_assoc]

theorem regAt_has {k : RegKind} {i j : Nat} (h : k.has i j) : regAt (k.addr i j) = some ⟨k, i, j, false⟩ := by
  by_cases hk : k.noQueue = true
  · exact regAt_addr hk h.1 h.2
  · have hq : k.isQueue = true := by simp [RegKind.isQueue, hk]
    have hn : k.info.n1 = 16384 ∧ k.info.n2 = 1 := by
      cases k <;> first | decide | exact absurd hq (by decide)
    have hj : j = 0 := by have := h.2; omega
    subst hj
    exact regAt_queue hq (by have := h.1; omega)

/-- The list finds the register's active view at distance `d` before any other register there. -/
def findsAct (k : RegKind) (d : Nat) : List RegKind → Bool
  | [] => false
  | k' :: t => (decide (k' = k) && (k.info.grid 0).apart (k.info.grid d)) ||
    (k'.info.clear (k.info.grid d) && findsAct k d t)

/-- As `placed`, for the active view. -/
def RegKind.actPlaced (k : RegKind) : Bool :=
  match k.info.act with
  | none => true
  | some d =>
    let b := (k.info.base + d) / 0x10000
    let e := (k.info.grid d).last / 0x10000
    decide (0 < k.info.s2) && decide ((k.info.n2 - 1) * k.info.s2 < k.info.s1) && decide (0 < d) &&
      (List.range (e - b + 1)).all fun x => findsAct k d (regsOfBlock (b + x)) &&
        !decide (0x118 ≤ b + x ∧ b + x < 0x11C) && !decide (0x108 ≤ b + x ∧ b + x < 0x10C)

set_option maxRecDepth 20000 in
theorem RegKind.all_actPlaced (k : RegKind) : k.actPlaced = true := by cases k <;> decide

theorem act_noQueue {k : RegKind} {d : Nat} (h : k.info.act = some d) : k.noQueue = true := by
  cases k <;> first | rfl | cases h

theorem findSome_of_findsAct {k : RegKind} {d : Nat} (ha : k.info.act = some d) {l : List RegKind}
    (h : findsAct k d l = true) {i j : Nat} (hi : i < k.info.n1) (hj : j < k.info.n2) (hs : 0 < k.info.s2)
    (hw : (k.info.n2 - 1) * k.info.s2 < k.info.s1) :
    l.findSome? (fun k' => k'.at? (k.info.base + d + i * k.info.s1 + j * k.info.s2)) = some ⟨k, i, j, true⟩ := by
  induction l with
  | nil => simp [findsAct] at h
  | cons k' t ih =>
    simp only [findsAct, Bool.or_eq_true, decide_eq_true_eq, Bool.and_eq_true] at h
    rcases h with ⟨h, h0⟩ | ⟨h1, h2⟩
    · subst h
      have hm : (if k'.info.base ≤ k'.info.base + d + i * k'.info.s1 + j * k'.info.s2 then
          k'.info.indexOf (k'.info.base + d + i * k'.info.s1 + j * k'.info.s2 - k'.info.base) else none) = none := by
        rw [if_pos (by omega)]
        match hx : k'.info.indexOf (k'.info.base + d + i * k'.info.s1 + j * k'.info.s2 - k'.info.base) with
        | none => rfl
        | some (i', j') =>
          obtain ⟨h1, h2, h3⟩ := indexOf_sound hx
          refine absurd ?_ (Grid.apart_ne h0 (i := i') (j := j') h1 h2 (i' := i) (j' := j) hi hj)
          show k'.info.base + 0 + i' * k'.info.s1 + j' * k'.info.s2 =
            k'.info.base + d + i * k'.info.s1 + j * k'.info.s2
          omega
      have : k'.at? (k'.info.base + d + i * k'.info.s1 + j * k'.info.s2) = some ⟨k', i, j, true⟩ := by
        unfold RegKind.at?
        dsimp only
        rw [hm, ha]
        dsimp only
        rw [if_pos (by omega), show k'.info.base + d + i * k'.info.s1 + j * k'.info.s2 - (k'.info.base + d)
          = i * k'.info.s1 + j * k'.info.s2 by omega, indexOf_complete hi hj hs hw]
      simp [this]
    · have := at?_clear h1 (i := i) (j := j) hi hj
      simp only [RegInfo.grid] at this
      simp [this, ih h2]

/-- The active view of a register stands at its address and at no other's (R31, R837). -/
theorem regAt_act {k : RegKind} {d : Nat} (ha : k.info.act = some d) {i j : Nat} (h : k.has i j) :
    regAt (k.addr i j + d) = some ⟨k, i, j, true⟩ := by
  have hk := act_noQueue ha
  have hp := RegKind.all_actPlaced k
  rw [RegKind.addr_eq hk]
  unfold RegKind.actPlaced at hp
  rw [ha] at hp
  simp only [Bool.and_eq_true, decide_eq_true_eq, List.all_eq_true, Bool.not_eq_true',
    decide_eq_false_iff_not] at hp
  obtain ⟨⟨⟨hs, hw⟩, hd0⟩, hb⟩ := hp
  have hl := Grid.le_last (k.info.grid d) (i := i) (j := j) h.1 h.2
  simp only [RegInfo.grid] at hl
  have hle : k.info.base + d + i * k.info.s1 + j * k.info.s2 ≤ (k.info.grid d).last := by
    simp only [RegInfo.grid]; omega
  have hd := Nat.div_le_div_right (c := 0x10000) hle
  have hd' := Nat.div_le_div_right (c := 0x10000)
    (show k.info.base + d ≤ k.info.base + d + i * k.info.s1 + j * k.info.s2 by omega)
  have := hb ((k.info.base + d + i * k.info.s1 + j * k.info.s2) / 0x10000 - (k.info.base + d) / 0x10000)
    (List.mem_range.mpr (by omega))
  rw [show (k.info.base + d) / 0x10000 + ((k.info.base + d + i * k.info.s1 + j * k.info.s2) / 0x10000
    - (k.info.base + d) / 0x10000) = (k.info.base + d + i * k.info.s1 + j * k.info.s2) / 0x10000 by omega] at this
  rw [show k.info.base + i * k.info.s1 + j * k.info.s2 + d = k.info.base + d + i * k.info.s1 + j * k.info.s2 by omega]
  have hf := findSome_of_findsAct ha this.1.1 h.1 h.2 hs hw
  generalize k.info.base + d + i * k.info.s1 + j * k.info.s2 = a at *
  have hq : queueOffset a = none := by
    unfold queueOffset
    rw [if_neg (by omega), if_neg (by omega)]
  unfold regAt
  rw [hq]
  exact hf

/-- Two registers stand at different addresses. -/
theorem addr_ne {k k' : RegKind} {i j i' j' : Nat} (h : k.has i j) (h' : k'.has i' j')
    (hne : k ≠ k' ∨ i ≠ i' ∨ j ≠ j') : k.addr i j ≠ k'.addr i' j' := by
  intro he
  have := regAt_has h
  rw [he, regAt_has h'] at this
  simp only [Option.some.injEq, RegRef.mk.injEq, and_true] at this
  obtain ⟨h1, h2, h3⟩ := this
  rcases hne with hne | hne | hne
  · exact hne h1.symm
  · exact hne h2.symm
  · exact hne h3.symm

/-- Every address of a register lies in the device's 32 bits. -/
theorem addr_lt {k : RegKind} {i j : Nat} (h : k.has i j) : k.addr i j < 0x100000000 := by
  by_cases hk : k.noQueue = true
  · have hl := Grid.le_last (k.info.grid 0) (i := i) (j := j) h.1 h.2
    have : (k.info.grid 0).last < 0x100000000 := by cases k <;> decide
    rw [RegKind.addr_eq hk]
    simp only [RegInfo.grid, Nat.add_zero] at hl this
    omega
  · have hq : k.isQueue = true := by simp [RegKind.isQueue, hk]
    have hb : k.info.n1 = 16384 ∧ 0x01180000 ≤ k.info.base ∧ k.info.base < 0x01180020 := by
      cases k <;> first | decide | exact absurd hq (by decide)
    have ha : k.addr i j = if i < 8192 then k.info.base + i * 32 else k.info.base - 0x100000 + (i - 8192) * 32 := by
      cases k <;> first | exact absurd hq (by decide) | rfl
    have := h.1
    rw [ha]; split <;> omega

/-- An active copy stands at no register's address. -/
theorem actAddr_ne {k k' : RegKind} {i j i' j' : Nat} (h : k.has i j) (h' : k'.has i' j')
    (hs : k.info.scope.isSome = true) : k.actAddr i j ≠ k'.addr i' j' := by
  unfold RegKind.actAddr
  split
  · rename_i d hd
    intro he
    have := regAt_act hd h
    rw [he, regAt_has h'] at this
    simp at this
  · have := addr_lt h'; omega
  · rename_i hn; rw [hn] at hs; simp at hs

end Sys2Proof.Machine
end

