-- ==== Sys2Proof/Laws/Tab.lean ====
section
/-!
SUPPORT. Laws/Tab.lean: reading a sparse table after a write, and the canonical form that writes keep.
-/
namespace Sys2Proof.Machine

variable {α : Type}

theorem tabGet_del_same (d : Nat → α) (t : Tab α) (k : Nat) : tabGet d (tabDel t k) k = d k := by
  induction t with
  | nil => rfl
  | cons e t ih =>
    by_cases h : e.1 = k
    · simpa [tabDel, h] using ih
    · have h' : k ≠ e.1 := fun q => h q.symm
      simpa [tabDel, h, tabGet, h'] using ih

theorem tabGet_del_ne (d : Nat → α) (t : Tab α) {k k' : Nat} (h : k' ≠ k) :
    tabGet d (tabDel t k) k' = tabGet d t k' := by
  induction t with
  | nil => rfl
  | cons e t ih =>
    by_cases he : e.1 = k
    · have : k' ≠ e.1 := fun q => h (q.trans he)
      simpa [tabDel, he, tabGet, this, h] using ih
    · simp only [tabDel, List.filter, ne_eq, he, not_false_eq_true, decide_true, tabGet] at ih ⊢
      split <;> [rfl; exact ih]

theorem tabGet_ins_same (d : Nat → α) (k : Nat) (v : α) (t : Tab α) : tabGet d (tabIns k v t) k = v := by
  induction t with
  | nil => simp [tabIns, tabGet]
  | cons e t ih =>
    simp only [tabIns]
    split
    · simp [tabGet]
    · split
      · simp [tabGet]
      · rename_i h
        simp [tabGet, h, ih]

theorem tabGet_ins_ne (d : Nat → α) {k k' : Nat} (h : k' ≠ k) (v : α) (t : Tab α) :
    tabGet d (tabIns k v t) k' = tabGet d t k' := by
  induction t with
  | nil => simp [tabIns, tabGet, h]
  | cons e t ih =>
    simp only [tabIns]
    split
    · simp [tabGet, h]
    · split
      · rename_i he
        simp [tabGet, h, ← he]
      · simp only [tabGet]
        split <;> [rfl; exact ih]

variable [DecidableEq α]

@[simp] theorem tabGet_put_same (d : Nat → α) (t : Tab α) (k : Nat) (v : α) : tabGet d (tabPut d t k v) k = v := by
  unfold tabPut
  split
  · rename_i h; rw [tabGet_del_same, h]
  · exact tabGet_ins_same d k v t

/-- A write leaves what every other key reads as, whatever an unlisted key reads as for the reader. -/
theorem tabGet_put_ne (d d' : Nat → α) (t : Tab α) {k k' : Nat} (v : α) (h : k' ≠ k) :
    tabGet d (tabPut d' t k v) k' = tabGet d t k' := by
  unfold tabPut
  split
  · exact tabGet_del_ne d t h
  · exact tabGet_ins_ne d h v t

/-- A test that no pair with the written key passes finds the same pairs after the write. -/
theorem tabPut_any (d : Nat → α) (t : Tab α) (k : Nat) (v : α) (p : Nat × α → Bool) (h : ∀ w, p (k, w) = false) :
    (tabPut d t k v).any p = t.any p := by
  have hdel : (tabDel t k).any p = t.any p := by
    induction t with
    | nil => rfl
    | cons e t ih =>
      by_cases he : e.1 = k
      · have : p e = false := by rw [show e = (k, e.2) from Prod.ext he rfl]; exact h _
        simp only [tabDel, List.filter, he, ne_eq, not_true_eq_false, decide_false, List.any_cons, this,
          Bool.false_or] at ih ⊢
        exact ih
      · simp only [tabDel, List.filter, he, ne_eq, not_false_eq_true, decide_true, List.any_cons] at ih ⊢
        rw [ih]
  have hins : (tabIns k v t).any p = t.any p := by
    clear hdel
    induction t with
    | nil => simp [tabIns, h]
    | cons e t ih =>
      simp only [tabIns]
      split
      · simp [h]
      · split
        · rename_i he
          have : p e = false := by rw [show e = (k, e.2) from Prod.ext he.symm rfl]; exact h _
          simp [h, this]
        · simp [ih]
  unfold tabPut
  split <;> assumption

/-! ### The canonical form -/

omit [DecidableEq α] in
theorem tabRising_mono {lo lo' : Nat} (h : lo' ≤ lo) (t : Tab α) (ht : tabRising lo t = true) :
    tabRising lo' t = true := by
  cases t with
  | nil => rfl
  | cons e t => simp only [tabRising, Bool.and_eq_true, decide_eq_true_eq] at ht ⊢; exact ⟨by omega, ht.2⟩

omit [DecidableEq α] in
theorem tabRising_filter (p : Nat × α → Bool) {lo : Nat} (t : Tab α) (ht : tabRising lo t = true) :
    tabRising lo (t.filter p) = true := by
  induction t generalizing lo with
  | nil => rfl
  | cons e t ih =>
    simp only [tabRising, Bool.and_eq_true, decide_eq_true_eq] at ht
    simp only [List.filter]
    split
    · simp only [tabRising, Bool.and_eq_true, decide_eq_true_eq]; exact ⟨ht.1, ih ht.2⟩
    · exact ih (tabRising_mono (by omega) t ht.2)

omit [DecidableEq α] in
theorem tabRising_ins {lo k : Nat} (hk : lo ≤ k) (v : α) (t : Tab α) (ht : tabRising lo t = true) :
    tabRising lo (tabIns k v t) = true := by
  induction t generalizing lo with
  | nil => simp [tabIns, tabRising, hk]
  | cons e t ih =>
    simp only [tabRising, Bool.and_eq_true, decide_eq_true_eq] at ht
    simp only [tabIns]
    split
    · simp only [tabRising, Bool.and_eq_true, decide_eq_true_eq]; exact ⟨hk, by omega, ht.2⟩
    · split
      · rename_i he; subst he
        simp only [tabRising, Bool.and_eq_true, decide_eq_true_eq]; exact ht
      · simp only [tabRising, Bool.and_eq_true, decide_eq_true_eq]; exact ⟨ht.1, ih (by omega) ht.2⟩

omit [DecidableEq α] in
theorem mem_tabIns {k : Nat} {v : α} {t : Tab α} {e : Nat × α} (h : e ∈ tabIns k v t) : e = (k, v) ∨ e ∈ t := by
  induction t with
  | nil => simpa [tabIns] using h
  | cons x t ih =>
    simp only [tabIns] at h
    split at h
    · simpa using h
    · split at h
      · rcases List.mem_cons.mp h with h | h
        · exact .inl h
        · exact .inr (List.mem_cons_of_mem _ h)
      · rcases List.mem_cons.mp h with h | h
        · exact .inr (by simp [h])
        · exact (ih h).imp id (List.mem_cons_of_mem _)

/-- Dropping pairs keeps the canonical form. -/
theorem tabWf_filter (d : Nat → α) (p : Nat × α → Bool) (t : Tab α) (h : tabWf d t = true) :
    tabWf d (t.filter p) = true := by
  simp only [tabWf, Bool.and_eq_true, List.all_eq_true] at h ⊢
  exact ⟨tabRising_filter p t h.1, fun e he => h.2 e (List.mem_filter.mp he).1⟩

/-- A write keeps the canonical form. -/
theorem tabWf_put (d : Nat → α) (t : Tab α) (k : Nat) (v : α) (h : tabWf d t = true) :
    tabWf d (tabPut d t k v) = true := by
  unfold tabPut
  split
  · exact tabWf_filter d _ t h
  · rename_i hv
    simp only [tabWf, Bool.and_eq_true, List.all_eq_true] at h ⊢
    refine ⟨tabRising_ins (Nat.zero_le _) v t h.1, fun e he => ?_⟩
    rcases mem_tabIns he with rfl | he
    · simpa using hv
    · exact h.2 e he

end Sys2Proof.Machine
end

