-- ==== Sys2Proof/Laws/State.lean ====
section
/-!
SUPPORT. Laws/State.lean: for each update of a State, one lemma per field that it leaves as it was, and what it makes
of the thing that it writes.
-/
namespace Sys2Proof.Machine

variable (s : State)

/-! ### Fields that an update leaves as they were -/

@[simp] theorem State.setReg_frame (k : RegKind) (v : Word) (i j : Nat) : (s.setReg k v i j).frame = s.frame := rfl
@[simp] theorem State.setReg_sys (k : RegKind) (v : Word) (i j : Nat) : (s.setReg k v i j).sys = s.sys := rfl
@[simp] theorem State.setReg_rtc (k : RegKind) (v : Word) (i j : Nat) : (s.setReg k v i j).rtc = s.rtc := rfl
@[simp] theorem State.setReg_ticks (k : RegKind) (v : Word) (i j : Nat) : (s.setReg k v i j).ticks = s.ticks := rfl
@[simp] theorem State.setReg_secDone (k : RegKind) (v : Word) (i j : Nat) : (s.setReg k v i j).secDone = s.secDone := rfl
@[simp] theorem State.setReg_latches (k : RegKind) (v : Word) (i j : Nat) : (s.setReg k v i j).latches = s.latches := rfl
@[simp] theorem State.setReg_chg (k : RegKind) (v : Word) (i j : Nat) : (s.setReg k v i j).chg = s.chg := rfl
@[simp] theorem State.setReg_commits (k : RegKind) (v : Word) (i j : Nat) : (s.setReg k v i j).commits = s.commits := rfl
@[simp] theorem State.setReg_nextId (k : RegKind) (v : Word) (i j : Nat) : (s.setReg k v i j).nextId = s.nextId := rfl
@[simp] theorem State.setReg_fab (k : RegKind) (v : Word) (i j : Nat) : (s.setReg k v i j).fab = s.fab := rfl
@[simp] theorem State.setReg_clk (k : RegKind) (v : Word) (i j : Nat) : (s.setReg k v i j).clk = s.clk := rfl
@[simp] theorem State.setReg_cands (k : RegKind) (v : Word) (i j : Nat) : (s.setReg k v i j).cands = s.cands := rfl
@[simp] theorem State.setReg_dpll (k : RegKind) (v : Word) (i j : Nat) : (s.setReg k v i j).dpll = s.dpll := rfl
@[simp] theorem State.setReg_lines (k : RegKind) (v : Word) (i j : Nat) : (s.setReg k v i j).lines = s.lines := rfl
@[simp] theorem State.setReg_trunks (k : RegKind) (v : Word) (i j : Nat) : (s.setReg k v i j).trunks = s.trunks := rfl
@[simp] theorem State.setReg_pairs (k : RegKind) (v : Word) (i j : Nat) : (s.setReg k v i j).pairs = s.pairs := rfl
@[simp] theorem State.setReg_audio (k : RegKind) (v : Word) (i j : Nat) : (s.setReg k v i j).audio = s.audio := rfl
@[simp] theorem State.setReg_hdlc (k : RegKind) (v : Word) (i j : Nat) : (s.setReg k v i j).hdlc = s.hdlc := rfl
@[simp] theorem State.setReg_cores (k : RegKind) (v : Word) (i j : Nat) : (s.setReg k v i j).cores = s.cores := rfl
@[simp] theorem State.setReg_tenants (k : RegKind) (v : Word) (i j : Nat) : (s.setReg k v i j).tenants = s.tenants := rfl
@[simp] theorem State.setReg_queues (k : RegKind) (v : Word) (i j : Nat) : (s.setReg k v i j).queues = s.queues := rfl
@[simp] theorem State.setReg_raised (k : RegKind) (v : Word) (i j : Nat) : (s.setReg k v i j).raised = s.raised := rfl
@[simp] theorem State.setReg_held (k : RegKind) (v : Word) (i j : Nat) : (s.setReg k v i j).held = s.held := rfl
@[simp] theorem State.setReg_pend (k : RegKind) (v : Word) (i j : Nat) : (s.setReg k v i j).pend = s.pend := rfl
@[simp] theorem State.setReg_pctrs (k : RegKind) (v : Word) (i j : Nat) : (s.setReg k v i j).pctrs = s.pctrs := rfl
@[simp] theorem State.setReg_links (k : RegKind) (v : Word) (i j : Nat) : (s.setReg k v i j).links = s.links := rfl
@[simp] theorem State.setReg_maint (k : RegKind) (v : Word) (i j : Nat) : (s.setReg k v i j).maint = s.maint := rfl
@[simp] theorem State.setReg_pwr (k : RegKind) (v : Word) (i j : Nat) : (s.setReg k v i j).pwr = s.pwr := rfl
@[simp] theorem State.setReg_rst (k : RegKind) (v : Word) (i j : Nat) : (s.setReg k v i j).rst = s.rst := rfl
@[simp] theorem State.setReg_nvm (k : RegKind) (v : Word) (i j : Nat) : (s.setReg k v i j).nvm = s.nvm := rfl
@[simp] theorem State.setReg_pnl (k : RegKind) (v : Word) (i j : Nat) : (s.setReg k v i j).pnl = s.pnl := rfl
@[simp] theorem State.setReg_th (k : RegKind) (v : Word) (i j : Nat) : (s.setReg k v i j).th = s.th := rfl
@[simp] theorem State.setReg_mem (k : RegKind) (v : Word) (i j : Nat) : (s.setReg k v i j).mem = s.mem := rfl
@[simp] theorem State.setReg_aon (k : RegKind) (v : Word) (i j : Nat) : (s.setReg k v i j).aon = s.aon := rfl
@[simp] theorem State.setReg_ecc (k : RegKind) (v : Word) (i j : Nat) : (s.setReg k v i j).ecc = s.ecc := rfl
@[simp] theorem State.setReg_eccJobs (k : RegKind) (v : Word) (i j : Nat) : (s.setReg k v i j).eccJobs = s.eccJobs := rfl
@[simp] theorem State.setReg_ceGrown (k : RegKind) (v : Word) (i j : Nat) : (s.setReg k v i j).ceGrown = s.ceGrown := rfl
@[simp] theorem State.setReg_ueNew (k : RegKind) (v : Word) (i j : Nat) : (s.setReg k v i j).ueNew = s.ueNew := rfl
@[simp] theorem State.setReg_scrub (k : RegKind) (v : Word) (i j : Nat) : (s.setReg k v i j).scrub = s.scrub := rfl
@[simp] theorem State.setReg_last (k : RegKind) (v : Word) (i j : Nat) : (s.setReg k v i j).last = s.last := rfl
@[simp] theorem State.setReg_freeCtr (k : RegKind) (v : Word) (i j : Nat) : (s.setReg k v i j).freeCtr = s.freeCtr := rfl
@[simp] theorem State.setReg_pending (k : RegKind) (v : Word) (i j : Nat) : (s.setReg k v i j).pending = s.pending := rfl

@[simp] theorem State.setAct_frame (k : RegKind) (v : Word) (i j : Nat) : (s.setAct k v i j).frame = s.frame := rfl
@[simp] theorem State.setAct_sys (k : RegKind) (v : Word) (i j : Nat) : (s.setAct k v i j).sys = s.sys := rfl
@[simp] theorem State.setAct_rtc (k : RegKind) (v : Word) (i j : Nat) : (s.setAct k v i j).rtc = s.rtc := rfl
@[simp] theorem State.setAct_ticks (k : RegKind) (v : Word) (i j : Nat) : (s.setAct k v i j).ticks = s.ticks := rfl
@[simp] theorem State.setAct_secDone (k : RegKind) (v : Word) (i j : Nat) : (s.setAct k v i j).secDone = s.secDone := rfl
@[simp] theorem State.setAct_latches (k : RegKind) (v : Word) (i j : Nat) : (s.setAct k v i j).latches = s.latches := rfl
@[simp] theorem State.setAct_chg (k : RegKind) (v : Word) (i j : Nat) : (s.setAct k v i j).chg = s.chg := rfl
@[simp] theorem State.setAct_commits (k : RegKind) (v : Word) (i j : Nat) : (s.setAct k v i j).commits = s.commits := rfl
@[simp] theorem State.setAct_nextId (k : RegKind) (v : Word) (i j : Nat) : (s.setAct k v i j).nextId = s.nextId := rfl
@[simp] theorem State.setAct_fab (k : RegKind) (v : Word) (i j : Nat) : (s.setAct k v i j).fab = s.fab := rfl
@[simp] theorem State.setAct_clk (k : RegKind) (v : Word) (i j : Nat) : (s.setAct k v i j).clk = s.clk := rfl
@[simp] theorem State.setAct_cands (k : RegKind) (v : Word) (i j : Nat) : (s.setAct k v i j).cands = s.cands := rfl
@[simp] theorem State.setAct_dpll (k : RegKind) (v : Word) (i j : Nat) : (s.setAct k v i j).dpll = s.dpll := rfl
@[simp] theorem State.setAct_lines (k : RegKind) (v : Word) (i j : Nat) : (s.setAct k v i j).lines = s.lines := rfl
@[simp] theorem State.setAct_trunks (k : RegKind) (v : Word) (i j : Nat) : (s.setAct k v i j).trunks = s.trunks := rfl
@[simp] theorem State.setAct_pairs (k : RegKind) (v : Word) (i j : Nat) : (s.setAct k v i j).pairs = s.pairs := rfl
@[simp] theorem State.setAct_audio (k : RegKind) (v : Word) (i j : Nat) : (s.setAct k v i j).audio = s.audio := rfl
@[simp] theorem State.setAct_hdlc (k : RegKind) (v : Word) (i j : Nat) : (s.setAct k v i j).hdlc = s.hdlc := rfl
@[simp] theorem State.setAct_cores (k : RegKind) (v : Word) (i j : Nat) : (s.setAct k v i j).cores = s.cores := rfl
@[simp] theorem State.setAct_tenants (k : RegKind) (v : Word) (i j : Nat) : (s.setAct k v i j).tenants = s.tenants := rfl
@[simp] theorem State.setAct_queues (k : RegKind) (v : Word) (i j : Nat) : (s.setAct k v i j).queues = s.queues := rfl
@[simp] theorem State.setAct_raised (k : RegKind) (v : Word) (i j : Nat) : (s.setAct k v i j).raised = s.raised := rfl
@[simp] theorem State.setAct_held (k : RegKind) (v : Word) (i j : Nat) : (s.setAct k v i j).held = s.held := rfl
@[simp] theorem State.setAct_pend (k : RegKind) (v : Word) (i j : Nat) : (s.setAct k v i j).pend = s.pend := rfl
@[simp] theorem State.setAct_pctrs (k : RegKind) (v : Word) (i j : Nat) : (s.setAct k v i j).pctrs = s.pctrs := rfl
@[simp] theorem State.setAct_links (k : RegKind) (v : Word) (i j : Nat) : (s.setAct k v i j).links = s.links := rfl
@[simp] theorem State.setAct_maint (k : RegKind) (v : Word) (i j : Nat) : (s.setAct k v i j).maint = s.maint := rfl
@[simp] theorem State.setAct_pwr (k : RegKind) (v : Word) (i j : Nat) : (s.setAct k v i j).pwr = s.pwr := rfl
@[simp] theorem State.setAct_rst (k : RegKind) (v : Word) (i j : Nat) : (s.setAct k v i j).rst = s.rst := rfl
@[simp] theorem State.setAct_nvm (k : RegKind) (v : Word) (i j : Nat) : (s.setAct k v i j).nvm = s.nvm := rfl
@[simp] theorem State.setAct_pnl (k : RegKind) (v : Word) (i j : Nat) : (s.setAct k v i j).pnl = s.pnl := rfl
@[simp] theorem State.setAct_th (k : RegKind) (v : Word) (i j : Nat) : (s.setAct k v i j).th = s.th := rfl
@[simp] theorem State.setAct_mem (k : RegKind) (v : Word) (i j : Nat) : (s.setAct k v i j).mem = s.mem := rfl
@[simp] theorem State.setAct_aon (k : RegKind) (v : Word) (i j : Nat) : (s.setAct k v i j).aon = s.aon := rfl
@[simp] theorem State.setAct_ecc (k : RegKind) (v : Word) (i j : Nat) : (s.setAct k v i j).ecc = s.ecc := rfl
@[simp] theorem State.setAct_eccJobs (k : RegKind) (v : Word) (i j : Nat) : (s.setAct k v i j).eccJobs = s.eccJobs := rfl
@[simp] theorem State.setAct_ceGrown (k : RegKind) (v : Word) (i j : Nat) : (s.setAct k v i j).ceGrown = s.ceGrown := rfl
@[simp] theorem State.setAct_ueNew (k : RegKind) (v : Word) (i j : Nat) : (s.setAct k v i j).ueNew = s.ueNew := rfl
@[simp] theorem State.setAct_scrub (k : RegKind) (v : Word) (i j : Nat) : (s.setAct k v i j).scrub = s.scrub := rfl
@[simp] theorem State.setAct_last (k : RegKind) (v : Word) (i j : Nat) : (s.setAct k v i j).last = s.last := rfl
@[simp] theorem State.setAct_freeCtr (k : RegKind) (v : Word) (i j : Nat) : (s.setAct k v i j).freeCtr = s.freeCtr := rfl
@[simp] theorem State.setAct_pending (k : RegKind) (v : Word) (i j : Nat) : (s.setAct k v i j).pending = s.pending := rfl

@[simp] theorem State.setF_frame (f : FieldRef) (n i j : Nat) : (s.setF f n i j).frame = s.frame := rfl
@[simp] theorem State.setF_sys (f : FieldRef) (n i j : Nat) : (s.setF f n i j).sys = s.sys := rfl
@[simp] theorem State.setF_rtc (f : FieldRef) (n i j : Nat) : (s.setF f n i j).rtc = s.rtc := rfl
@[simp] theorem State.setF_ticks (f : FieldRef) (n i j : Nat) : (s.setF f n i j).ticks = s.ticks := rfl
@[simp] theorem State.setF_secDone (f : FieldRef) (n i j : Nat) : (s.setF f n i j).secDone = s.secDone := rfl
@[simp] theorem State.setF_latches (f : FieldRef) (n i j : Nat) : (s.setF f n i j).latches = s.latches := rfl
@[simp] theorem State.setF_chg (f : FieldRef) (n i j : Nat) : (s.setF f n i j).chg = s.chg := rfl
@[simp] theorem State.setF_commits (f : FieldRef) (n i j : Nat) : (s.setF f n i j).commits = s.commits := rfl
@[simp] theorem State.setF_nextId (f : FieldRef) (n i j : Nat) : (s.setF f n i j).nextId = s.nextId := rfl
@[simp] theorem State.setF_fab (f : FieldRef) (n i j : Nat) : (s.setF f n i j).fab = s.fab := rfl
@[simp] theorem State.setF_clk (f : FieldRef) (n i j : Nat) : (s.setF f n i j).clk = s.clk := rfl
@[simp] theorem State.setF_cands (f : FieldRef) (n i j : Nat) : (s.setF f n i j).cands = s.cands := rfl
@[simp] theorem State.setF_dpll (f : FieldRef) (n i j : Nat) : (s.setF f n i j).dpll = s.dpll := rfl
@[simp] theorem State.setF_lines (f : FieldRef) (n i j : Nat) : (s.setF f n i j).lines = s.lines := rfl
@[simp] theorem State.setF_trunks (f : FieldRef) (n i j : Nat) : (s.setF f n i j).trunks = s.trunks := rfl
@[simp] theorem State.setF_pairs (f : FieldRef) (n i j : Nat) : (s.setF f n i j).pairs = s.pairs := rfl
@[simp] theorem State.setF_audio (f : FieldRef) (n i j : Nat) : (s.setF f n i j).audio = s.audio := rfl
@[simp] theorem State.setF_hdlc (f : FieldRef) (n i j : Nat) : (s.setF f n i j).hdlc = s.hdlc := rfl
@[simp] theorem State.setF_cores (f : FieldRef) (n i j : Nat) : (s.setF f n i j).cores = s.cores := rfl
@[simp] theorem State.setF_tenants (f : FieldRef) (n i j : Nat) : (s.setF f n i j).tenants = s.tenants := rfl
@[simp] theorem State.setF_queues (f : FieldRef) (n i j : Nat) : (s.setF f n i j).queues = s.queues := rfl
@[simp] theorem State.setF_raised (f : FieldRef) (n i j : Nat) : (s.setF f n i j).raised = s.raised := rfl
@[simp] theorem State.setF_held (f : FieldRef) (n i j : Nat) : (s.setF f n i j).held = s.held := rfl
@[simp] theorem State.setF_pend (f : FieldRef) (n i j : Nat) : (s.setF f n i j).pend = s.pend := rfl
@[simp] theorem State.setF_pctrs (f : FieldRef) (n i j : Nat) : (s.setF f n i j).pctrs = s.pctrs := rfl
@[simp] theorem State.setF_links (f : FieldRef) (n i j : Nat) : (s.setF f n i j).links = s.links := rfl
@[simp] theorem State.setF_maint (f : FieldRef) (n i j : Nat) : (s.setF f n i j).maint = s.maint := rfl
@[simp] theorem State.setF_pwr (f : FieldRef) (n i j : Nat) : (s.setF f n i j).pwr = s.pwr := rfl
@[simp] theorem State.setF_rst (f : FieldRef) (n i j : Nat) : (s.setF f n i j).rst = s.rst := rfl
@[simp] theorem State.setF_nvm (f : FieldRef) (n i j : Nat) : (s.setF f n i j).nvm = s.nvm := rfl
@[simp] theorem State.setF_pnl (f : FieldRef) (n i j : Nat) : (s.setF f n i j).pnl = s.pnl := rfl
@[simp] theorem State.setF_th (f : FieldRef) (n i j : Nat) : (s.setF f n i j).th = s.th := rfl
@[simp] theorem State.setF_mem (f : FieldRef) (n i j : Nat) : (s.setF f n i j).mem = s.mem := rfl
@[simp] theorem State.setF_aon (f : FieldRef) (n i j : Nat) : (s.setF f n i j).aon = s.aon := rfl
@[simp] theorem State.setF_ecc (f : FieldRef) (n i j : Nat) : (s.setF f n i j).ecc = s.ecc := rfl
@[simp] theorem State.setF_eccJobs (f : FieldRef) (n i j : Nat) : (s.setF f n i j).eccJobs = s.eccJobs := rfl
@[simp] theorem State.setF_ceGrown (f : FieldRef) (n i j : Nat) : (s.setF f n i j).ceGrown = s.ceGrown := rfl
@[simp] theorem State.setF_ueNew (f : FieldRef) (n i j : Nat) : (s.setF f n i j).ueNew = s.ueNew := rfl
@[simp] theorem State.setF_scrub (f : FieldRef) (n i j : Nat) : (s.setF f n i j).scrub = s.scrub := rfl
@[simp] theorem State.setF_last (f : FieldRef) (n i j : Nat) : (s.setF f n i j).last = s.last := rfl
@[simp] theorem State.setF_freeCtr (f : FieldRef) (n i j : Nat) : (s.setF f n i j).freeCtr = s.freeCtr := rfl
@[simp] theorem State.setF_pending (f : FieldRef) (n i j : Nat) : (s.setF f n i j).pending = s.pending := rfl

@[simp] theorem State.setB_frame (f : FieldRef) (b : Bool) (i j : Nat) : (s.setB f b i j).frame = s.frame := rfl
@[simp] theorem State.setB_sys (f : FieldRef) (b : Bool) (i j : Nat) : (s.setB f b i j).sys = s.sys := rfl
@[simp] theorem State.setB_rtc (f : FieldRef) (b : Bool) (i j : Nat) : (s.setB f b i j).rtc = s.rtc := rfl
@[simp] theorem State.setB_ticks (f : FieldRef) (b : Bool) (i j : Nat) : (s.setB f b i j).ticks = s.ticks := rfl
@[simp] theorem State.setB_secDone (f : FieldRef) (b : Bool) (i j : Nat) : (s.setB f b i j).secDone = s.secDone := rfl
@[simp] theorem State.setB_latches (f : FieldRef) (b : Bool) (i j : Nat) : (s.setB f b i j).latches = s.latches := rfl
@[simp] theorem State.setB_chg (f : FieldRef) (b : Bool) (i j : Nat) : (s.setB f b i j).chg = s.chg := rfl
@[simp] theorem State.setB_commits (f : FieldRef) (b : Bool) (i j : Nat) : (s.setB f b i j).commits = s.commits := rfl
@[simp] theorem State.setB_nextId (f : FieldRef) (b : Bool) (i j : Nat) : (s.setB f b i j).nextId = s.nextId := rfl
@[simp] theorem State.setB_fab (f : FieldRef) (b : Bool) (i j : Nat) : (s.setB f b i j).fab = s.fab := rfl
@[simp] theorem State.setB_clk (f : FieldRef) (b : Bool) (i j : Nat) : (s.setB f b i j).clk = s.clk := rfl
@[simp] theorem State.setB_cands (f : FieldRef) (b : Bool) (i j : Nat) : (s.setB f b i j).cands = s.cands := rfl
@[simp] theorem State.setB_dpll (f : FieldRef) (b : Bool) (i j : Nat) : (s.setB f b i j).dpll = s.dpll := rfl
@[simp] theorem State.setB_lines (f : FieldRef) (b : Bool) (i j : Nat) : (s.setB f b i j).lines = s.lines := rfl
@[simp] theorem State.setB_trunks (f : FieldRef) (b : Bool) (i j : Nat) : (s.setB f b i j).trunks = s.trunks := rfl
@[simp] theorem State.setB_pairs (f : FieldRef) (b : Bool) (i j : Nat) : (s.setB f b i j).pairs = s.pairs := rfl
@[simp] theorem State.setB_audio (f : FieldRef) (b : Bool) (i j : Nat) : (s.setB f b i j).audio = s.audio := rfl
@[simp] theorem State.setB_hdlc (f : FieldRef) (b : Bool) (i j : Nat) : (s.setB f b i j).hdlc = s.hdlc := rfl
@[simp] theorem State.setB_cores (f : FieldRef) (b : Bool) (i j : Nat) : (s.setB f b i j).cores = s.cores := rfl
@[simp] theorem State.setB_tenants (f : FieldRef) (b : Bool) (i j : Nat) : (s.setB f b i j).tenants = s.tenants := rfl
@[simp] theorem State.setB_queues (f : FieldRef) (b : Bool) (i j : Nat) : (s.setB f b i j).queues = s.queues := rfl
@[simp] theorem State.setB_raised (f : FieldRef) (b : Bool) (i j : Nat) : (s.setB f b i j).raised = s.raised := rfl
@[simp] theorem State.setB_held (f : FieldRef) (b : Bool) (i j : Nat) : (s.setB f b i j).held = s.held := rfl
@[simp] theorem State.setB_pend (f : FieldRef) (b : Bool) (i j : Nat) : (s.setB f b i j).pend = s.pend := rfl
@[simp] theorem State.setB_pctrs (f : FieldRef) (b : Bool) (i j : Nat) : (s.setB f b i j).pctrs = s.pctrs := rfl
@[simp] theorem State.setB_links (f : FieldRef) (b : Bool) (i j : Nat) : (s.setB f b i j).links = s.links := rfl
@[simp] theorem State.setB_maint (f : FieldRef) (b : Bool) (i j : Nat) : (s.setB f b i j).maint = s.maint := rfl
@[simp] theorem State.setB_pwr (f : FieldRef) (b : Bool) (i j : Nat) : (s.setB f b i j).pwr = s.pwr := rfl
@[simp] theorem State.setB_rst (f : FieldRef) (b : Bool) (i j : Nat) : (s.setB f b i j).rst = s.rst := rfl
@[simp] theorem State.setB_nvm (f : FieldRef) (b : Bool) (i j : Nat) : (s.setB f b i j).nvm = s.nvm := rfl
@[simp] theorem State.setB_pnl (f : FieldRef) (b : Bool) (i j : Nat) : (s.setB f b i j).pnl = s.pnl := rfl
@[simp] theorem State.setB_th (f : FieldRef) (b : Bool) (i j : Nat) : (s.setB f b i j).th = s.th := rfl
@[simp] theorem State.setB_mem (f : FieldRef) (b : Bool) (i j : Nat) : (s.setB f b i j).mem = s.mem := rfl
@[simp] theorem State.setB_aon (f : FieldRef) (b : Bool) (i j : Nat) : (s.setB f b i j).aon = s.aon := rfl
@[simp] theorem State.setB_ecc (f : FieldRef) (b : Bool) (i j : Nat) : (s.setB f b i j).ecc = s.ecc := rfl
@[simp] theorem State.setB_eccJobs (f : FieldRef) (b : Bool) (i j : Nat) : (s.setB f b i j).eccJobs = s.eccJobs := rfl
@[simp] theorem State.setB_ceGrown (f : FieldRef) (b : Bool) (i j : Nat) : (s.setB f b i j).ceGrown = s.ceGrown := rfl
@[simp] theorem State.setB_ueNew (f : FieldRef) (b : Bool) (i j : Nat) : (s.setB f b i j).ueNew = s.ueNew := rfl
@[simp] theorem State.setB_scrub (f : FieldRef) (b : Bool) (i j : Nat) : (s.setB f b i j).scrub = s.scrub := rfl
@[simp] theorem State.setB_last (f : FieldRef) (b : Bool) (i j : Nat) : (s.setB f b i j).last = s.last := rfl
@[simp] theorem State.setB_freeCtr (f : FieldRef) (b : Bool) (i j : Nat) : (s.setB f b i j).freeCtr = s.freeCtr := rfl
@[simp] theorem State.setB_pending (f : FieldRef) (b : Bool) (i j : Nat) : (s.setB f b i j).pending = s.pending := rfl

@[simp] theorem State.setBit_frame (k : RegKind) (n i j : Nat) : (s.setBit k n i j).frame = s.frame := rfl
@[simp] theorem State.setBit_sys (k : RegKind) (n i j : Nat) : (s.setBit k n i j).sys = s.sys := rfl
@[simp] theorem State.setBit_rtc (k : RegKind) (n i j : Nat) : (s.setBit k n i j).rtc = s.rtc := rfl
@[simp] theorem State.setBit_ticks (k : RegKind) (n i j : Nat) : (s.setBit k n i j).ticks = s.ticks := rfl
@[simp] theorem State.setBit_secDone (k : RegKind) (n i j : Nat) : (s.setBit k n i j).secDone = s.secDone := rfl
@[simp] theorem State.setBit_latches (k : RegKind) (n i j : Nat) : (s.setBit k n i j).latches = s.latches := rfl
@[simp] theorem State.setBit_chg (k : RegKind) (n i j : Nat) : (s.setBit k n i j).chg = s.chg := rfl
@[simp] theorem State.setBit_commits (k : RegKind) (n i j : Nat) : (s.setBit k n i j).commits = s.commits := rfl
@[simp] theorem State.setBit_nextId (k : RegKind) (n i j : Nat) : (s.setBit k n i j).nextId = s.nextId := rfl
@[simp] theorem State.setBit_fab (k : RegKind) (n i j : Nat) : (s.setBit k n i j).fab = s.fab := rfl
@[simp] theorem State.setBit_clk (k : RegKind) (n i j : Nat) : (s.setBit k n i j).clk = s.clk := rfl
@[simp] theorem State.setBit_cands (k : RegKind) (n i j : Nat) : (s.setBit k n i j).cands = s.cands := rfl
@[simp] theorem State.setBit_dpll (k : RegKind) (n i j : Nat) : (s.setBit k n i j).dpll = s.dpll := rfl
@[simp] theorem State.setBit_lines (k : RegKind) (n i j : Nat) : (s.setBit k n i j).lines = s.lines := rfl
@[simp] theorem State.setBit_trunks (k : RegKind) (n i j : Nat) : (s.setBit k n i j).trunks = s.trunks := rfl
@[simp] theorem State.setBit_pairs (k : RegKind) (n i j : Nat) : (s.setBit k n i j).pairs = s.pairs := rfl
@[simp] theorem State.setBit_audio (k : RegKind) (n i j : Nat) : (s.setBit k n i j).audio = s.audio := rfl
@[simp] theorem State.setBit_hdlc (k : RegKind) (n i j : Nat) : (s.setBit k n i j).hdlc = s.hdlc := rfl
@[simp] theorem State.setBit_cores (k : RegKind) (n i j : Nat) : (s.setBit k n i j).cores = s.cores := rfl
@[simp] theorem State.setBit_tenants (k : RegKind) (n i j : Nat) : (s.setBit k n i j).tenants = s.tenants := rfl
@[simp] theorem State.setBit_queues (k : RegKind) (n i j : Nat) : (s.setBit k n i j).queues = s.queues := rfl
@[simp] theorem State.setBit_raised (k : RegKind) (n i j : Nat) : (s.setBit k n i j).raised = s.raised := rfl
@[simp] theorem State.setBit_held (k : RegKind) (n i j : Nat) : (s.setBit k n i j).held = s.held := rfl
@[simp] theorem State.setBit_pend (k : RegKind) (n i j : Nat) : (s.setBit k n i j).pend = s.pend := rfl
@[simp] theorem State.setBit_pctrs (k : RegKind) (n i j : Nat) : (s.setBit k n i j).pctrs = s.pctrs := rfl
@[simp] theorem State.setBit_links (k : RegKind) (n i j : Nat) : (s.setBit k n i j).links = s.links := rfl
@[simp] theorem State.setBit_maint (k : RegKind) (n i j : Nat) : (s.setBit k n i j).maint = s.maint := rfl
@[simp] theorem State.setBit_pwr (k : RegKind) (n i j : Nat) : (s.setBit k n i j).pwr = s.pwr := rfl
@[simp] theorem State.setBit_rst (k : RegKind) (n i j : Nat) : (s.setBit k n i j).rst = s.rst := rfl
@[simp] theorem State.setBit_nvm (k : RegKind) (n i j : Nat) : (s.setBit k n i j).nvm = s.nvm := rfl
@[simp] theorem State.setBit_pnl (k : RegKind) (n i j : Nat) : (s.setBit k n i j).pnl = s.pnl := rfl
@[simp] theorem State.setBit_th (k : RegKind) (n i j : Nat) : (s.setBit k n i j).th = s.th := rfl
@[simp] theorem State.setBit_mem (k : RegKind) (n i j : Nat) : (s.setBit k n i j).mem = s.mem := rfl
@[simp] theorem State.setBit_aon (k : RegKind) (n i j : Nat) : (s.setBit k n i j).aon = s.aon := rfl
@[simp] theorem State.setBit_ecc (k : RegKind) (n i j : Nat) : (s.setBit k n i j).ecc = s.ecc := rfl
@[simp] theorem State.setBit_eccJobs (k : RegKind) (n i j : Nat) : (s.setBit k n i j).eccJobs = s.eccJobs := rfl
@[simp] theorem State.setBit_ceGrown (k : RegKind) (n i j : Nat) : (s.setBit k n i j).ceGrown = s.ceGrown := rfl
@[simp] theorem State.setBit_ueNew (k : RegKind) (n i j : Nat) : (s.setBit k n i j).ueNew = s.ueNew := rfl
@[simp] theorem State.setBit_scrub (k : RegKind) (n i j : Nat) : (s.setBit k n i j).scrub = s.scrub := rfl
@[simp] theorem State.setBit_last (k : RegKind) (n i j : Nat) : (s.setBit k n i j).last = s.last := rfl
@[simp] theorem State.setBit_freeCtr (k : RegKind) (n i j : Nat) : (s.setBit k n i j).freeCtr = s.freeCtr := rfl
@[simp] theorem State.setBit_pending (k : RegKind) (n i j : Nat) : (s.setBit k n i j).pending = s.pending := rfl

@[simp] theorem State.setTen_frame (t : Nat) (v : Tenant) : (s.setTen t v).frame = s.frame := rfl
@[simp] theorem State.setTen_sys (t : Nat) (v : Tenant) : (s.setTen t v).sys = s.sys := rfl
@[simp] theorem State.setTen_rtc (t : Nat) (v : Tenant) : (s.setTen t v).rtc = s.rtc := rfl
@[simp] theorem State.setTen_ticks (t : Nat) (v : Tenant) : (s.setTen t v).ticks = s.ticks := rfl
@[simp] theorem State.setTen_secDone (t : Nat) (v : Tenant) : (s.setTen t v).secDone = s.secDone := rfl
@[simp] theorem State.setTen_regs (t : Nat) (v : Tenant) : (s.setTen t v).regs = s.regs := rfl
@[simp] theorem State.setTen_latches (t : Nat) (v : Tenant) : (s.setTen t v).latches = s.latches := rfl
@[simp] theorem State.setTen_chg (t : Nat) (v : Tenant) : (s.setTen t v).chg = s.chg := rfl
@[simp] theorem State.setTen_commits (t : Nat) (v : Tenant) : (s.setTen t v).commits = s.commits := rfl
@[simp] theorem State.setTen_nextId (t : Nat) (v : Tenant) : (s.setTen t v).nextId = s.nextId := rfl
@[simp] theorem State.setTen_fab (t : Nat) (v : Tenant) : (s.setTen t v).fab = s.fab := rfl
@[simp] theorem State.setTen_clk (t : Nat) (v : Tenant) : (s.setTen t v).clk = s.clk := rfl
@[simp] theorem State.setTen_cands (t : Nat) (v : Tenant) : (s.setTen t v).cands = s.cands := rfl
@[simp] theorem State.setTen_dpll (t : Nat) (v : Tenant) : (s.setTen t v).dpll = s.dpll := rfl
@[simp] theorem State.setTen_lines (t : Nat) (v : Tenant) : (s.setTen t v).lines = s.lines := rfl
@[simp] theorem State.setTen_trunks (t : Nat) (v : Tenant) : (s.setTen t v).trunks = s.trunks := rfl
@[simp] theorem State.setTen_pairs (t : Nat) (v : Tenant) : (s.setTen t v).pairs = s.pairs := rfl
@[simp] theorem State.setTen_audio (t : Nat) (v : Tenant) : (s.setTen t v).audio = s.audio := rfl
@[simp] theorem State.setTen_hdlc (t : Nat) (v : Tenant) : (s.setTen t v).hdlc = s.hdlc := rfl
@[simp] theorem State.setTen_cores (t : Nat) (v : Tenant) : (s.setTen t v).cores = s.cores := rfl
@[simp] theorem State.setTen_queues (t : Nat) (v : Tenant) : (s.setTen t v).queues = s.queues := rfl
@[simp] theorem State.setTen_raised (t : Nat) (v : Tenant) : (s.setTen t v).raised = s.raised := rfl
@[simp] theorem State.setTen_held (t : Nat) (v : Tenant) : (s.setTen t v).held = s.held := rfl
@[simp] theorem State.setTen_pend (t : Nat) (v : Tenant) : (s.setTen t v).pend = s.pend := rfl
@[simp] theorem State.setTen_pctrs (t : Nat) (v : Tenant) : (s.setTen t v).pctrs = s.pctrs := rfl
@[simp] theorem State.setTen_links (t : Nat) (v : Tenant) : (s.setTen t v).links = s.links := rfl
@[simp] theorem State.setTen_maint (t : Nat) (v : Tenant) : (s.setTen t v).maint = s.maint := rfl
@[simp] theorem State.setTen_pwr (t : Nat) (v : Tenant) : (s.setTen t v).pwr = s.pwr := rfl
@[simp] theorem State.setTen_rst (t : Nat) (v : Tenant) : (s.setTen t v).rst = s.rst := rfl
@[simp] theorem State.setTen_nvm (t : Nat) (v : Tenant) : (s.setTen t v).nvm = s.nvm := rfl
@[simp] theorem State.setTen_pnl (t : Nat) (v : Tenant) : (s.setTen t v).pnl = s.pnl := rfl
@[simp] theorem State.setTen_th (t : Nat) (v : Tenant) : (s.setTen t v).th = s.th := rfl
@[simp] theorem State.setTen_mem (t : Nat) (v : Tenant) : (s.setTen t v).mem = s.mem := rfl
@[simp] theorem State.setTen_aon (t : Nat) (v : Tenant) : (s.setTen t v).aon = s.aon := rfl
@[simp] theorem State.setTen_ecc (t : Nat) (v : Tenant) : (s.setTen t v).ecc = s.ecc := rfl
@[simp] theorem State.setTen_eccJobs (t : Nat) (v : Tenant) : (s.setTen t v).eccJobs = s.eccJobs := rfl
@[simp] theorem State.setTen_ceGrown (t : Nat) (v : Tenant) : (s.setTen t v).ceGrown = s.ceGrown := rfl
@[simp] theorem State.setTen_ueNew (t : Nat) (v : Tenant) : (s.setTen t v).ueNew = s.ueNew := rfl
@[simp] theorem State.setTen_scrub (t : Nat) (v : Tenant) : (s.setTen t v).scrub = s.scrub := rfl
@[simp] theorem State.setTen_last (t : Nat) (v : Tenant) : (s.setTen t v).last = s.last := rfl
@[simp] theorem State.setTen_freeCtr (t : Nat) (v : Tenant) : (s.setTen t v).freeCtr = s.freeCtr := rfl
@[simp] theorem State.setTen_pending (t : Nat) (v : Tenant) : (s.setTen t v).pending = s.pending := rfl

@[simp] theorem State.setCore_frame (n : Nat) (c : Core) : (s.setCore n c).frame = s.frame := rfl
@[simp] theorem State.setCore_sys (n : Nat) (c : Core) : (s.setCore n c).sys = s.sys := rfl
@[simp] theorem State.setCore_rtc (n : Nat) (c : Core) : (s.setCore n c).rtc = s.rtc := rfl
@[simp] theorem State.setCore_ticks (n : Nat) (c : Core) : (s.setCore n c).ticks = s.ticks := rfl
@[simp] theorem State.setCore_secDone (n : Nat) (c : Core) : (s.setCore n c).secDone = s.secDone := rfl
@[simp] theorem State.setCore_regs (n : Nat) (c : Core) : (s.setCore n c).regs = s.regs := rfl
@[simp] theorem State.setCore_latches (n : Nat) (c : Core) : (s.setCore n c).latches = s.latches := rfl
@[simp] theorem State.setCore_chg (n : Nat) (c : Core) : (s.setCore n c).chg = s.chg := rfl
@[simp] theorem State.setCore_commits (n : Nat) (c : Core) : (s.setCore n c).commits = s.commits := rfl
@[simp] theorem State.setCore_nextId (n : Nat) (c : Core) : (s.setCore n c).nextId = s.nextId := rfl
@[simp] theorem State.setCore_fab (n : Nat) (c : Core) : (s.setCore n c).fab = s.fab := rfl
@[simp] theorem State.setCore_clk (n : Nat) (c : Core) : (s.setCore n c).clk = s.clk := rfl
@[simp] theorem State.setCore_cands (n : Nat) (c : Core) : (s.setCore n c).cands = s.cands := rfl
@[simp] theorem State.setCore_dpll (n : Nat) (c : Core) : (s.setCore n c).dpll = s.dpll := rfl
@[simp] theorem State.setCore_lines (n : Nat) (c : Core) : (s.setCore n c).lines = s.lines := rfl
@[simp] theorem State.setCore_trunks (n : Nat) (c : Core) : (s.setCore n c).trunks = s.trunks := rfl
@[simp] theorem State.setCore_pairs (n : Nat) (c : Core) : (s.setCore n c).pairs = s.pairs := rfl
@[simp] theorem State.setCore_audio (n : Nat) (c : Core) : (s.setCore n c).audio = s.audio := rfl
@[simp] theorem State.setCore_hdlc (n : Nat) (c : Core) : (s.setCore n c).hdlc = s.hdlc := rfl
@[simp] theorem State.setCore_tenants (n : Nat) (c : Core) : (s.setCore n c).tenants = s.tenants := rfl
@[simp] theorem State.setCore_queues (n : Nat) (c : Core) : (s.setCore n c).queues = s.queues := rfl
@[simp] theorem State.setCore_raised (n : Nat) (c : Core) : (s.setCore n c).raised = s.raised := rfl
@[simp] theorem State.setCore_held (n : Nat) (c : Core) : (s.setCore n c).held = s.held := rfl
@[simp] theorem State.setCore_pend (n : Nat) (c : Core) : (s.setCore n c).pend = s.pend := rfl
@[simp] theorem State.setCore_pctrs (n : Nat) (c : Core) : (s.setCore n c).pctrs = s.pctrs := rfl
@[simp] theorem State.setCore_links (n : Nat) (c : Core) : (s.setCore n c).links = s.links := rfl
@[simp] theorem State.setCore_maint (n : Nat) (c : Core) : (s.setCore n c).maint = s.maint := rfl
@[simp] theorem State.setCore_pwr (n : Nat) (c : Core) : (s.setCore n c).pwr = s.pwr := rfl
@[simp] theorem State.setCore_rst (n : Nat) (c : Core) : (s.setCore n c).rst = s.rst := rfl
@[simp] theorem State.setCore_nvm (n : Nat) (c : Core) : (s.setCore n c).nvm = s.nvm := rfl
@[simp] theorem State.setCore_pnl (n : Nat) (c : Core) : (s.setCore n c).pnl = s.pnl := rfl
@[simp] theorem State.setCore_th (n : Nat) (c : Core) : (s.setCore n c).th = s.th := rfl
@[simp] theorem State.setCore_mem (n : Nat) (c : Core) : (s.setCore n c).mem = s.mem := rfl
@[simp] theorem State.setCore_aon (n : Nat) (c : Core) : (s.setCore n c).aon = s.aon := rfl
@[simp] theorem State.setCore_ecc (n : Nat) (c : Core) : (s.setCore n c).ecc = s.ecc := rfl
@[simp] theorem State.setCore_eccJobs (n : Nat) (c : Core) : (s.setCore n c).eccJobs = s.eccJobs := rfl
@[simp] theorem State.setCore_ceGrown (n : Nat) (c : Core) : (s.setCore n c).ceGrown = s.ceGrown := rfl
@[simp] theorem State.setCore_ueNew (n : Nat) (c : Core) : (s.setCore n c).ueNew = s.ueNew := rfl
@[simp] theorem State.setCore_scrub (n : Nat) (c : Core) : (s.setCore n c).scrub = s.scrub := rfl
@[simp] theorem State.setCore_last (n : Nat) (c : Core) : (s.setCore n c).last = s.last := rfl
@[simp] theorem State.setCore_freeCtr (n : Nat) (c : Core) : (s.setCore n c).freeCtr = s.freeCtr := rfl
@[simp] theorem State.setCore_pending (n : Nat) (c : Core) : (s.setCore n c).pending = s.pending := rfl

@[simp] theorem State.putCtx_frame (n : Nat) (c : Ctx) : (s.putCtx n c).frame = s.frame := rfl
@[simp] theorem State.putCtx_sys (n : Nat) (c : Ctx) : (s.putCtx n c).sys = s.sys := rfl
@[simp] theorem State.putCtx_rtc (n : Nat) (c : Ctx) : (s.putCtx n c).rtc = s.rtc := rfl
@[simp] theorem State.putCtx_ticks (n : Nat) (c : Ctx) : (s.putCtx n c).ticks = s.ticks := rfl
@[simp] theorem State.putCtx_secDone (n : Nat) (c : Ctx) : (s.putCtx n c).secDone = s.secDone := rfl
@[simp] theorem State.putCtx_regs (n : Nat) (c : Ctx) : (s.putCtx n c).regs = s.regs := rfl
@[simp] theorem State.putCtx_latches (n : Nat) (c : Ctx) : (s.putCtx n c).latches = s.latches := rfl
@[simp] theorem State.putCtx_chg (n : Nat) (c : Ctx) : (s.putCtx n c).chg = s.chg := rfl
@[simp] theorem State.putCtx_commits (n : Nat) (c : Ctx) : (s.putCtx n c).commits = s.commits := rfl
@[simp] theorem State.putCtx_nextId (n : Nat) (c : Ctx) : (s.putCtx n c).nextId = s.nextId := rfl
@[simp] theorem State.putCtx_fab (n : Nat) (c : Ctx) : (s.putCtx n c).fab = s.fab := rfl
@[simp] theorem State.putCtx_clk (n : Nat) (c : Ctx) : (s.putCtx n c).clk = s.clk := rfl
@[simp] theorem State.putCtx_cands (n : Nat) (c : Ctx) : (s.putCtx n c).cands = s.cands := rfl
@[simp] theorem State.putCtx_dpll (n : Nat) (c : Ctx) : (s.putCtx n c).dpll = s.dpll := rfl
@[simp] theorem State.putCtx_lines (n : Nat) (c : Ctx) : (s.putCtx n c).lines = s.lines := rfl
@[simp] theorem State.putCtx_trunks (n : Nat) (c : Ctx) : (s.putCtx n c).trunks = s.trunks := rfl
@[simp] theorem State.putCtx_pairs (n : Nat) (c : Ctx) : (s.putCtx n c).pairs = s.pairs := rfl
@[simp] theorem State.putCtx_audio (n : Nat) (c : Ctx) : (s.putCtx n c).audio = s.audio := rfl
@[simp] theorem State.putCtx_hdlc (n : Nat) (c : Ctx) : (s.putCtx n c).hdlc = s.hdlc := rfl
@[simp] theorem State.putCtx_tenants (n : Nat) (c : Ctx) : (s.putCtx n c).tenants = s.tenants := rfl
@[simp] theorem State.putCtx_queues (n : Nat) (c : Ctx) : (s.putCtx n c).queues = s.queues := rfl
@[simp] theorem State.putCtx_raised (n : Nat) (c : Ctx) : (s.putCtx n c).raised = s.raised := rfl
@[simp] theorem State.putCtx_held (n : Nat) (c : Ctx) : (s.putCtx n c).held = s.held := rfl
@[simp] theorem State.putCtx_pend (n : Nat) (c : Ctx) : (s.putCtx n c).pend = s.pend := rfl
@[simp] theorem State.putCtx_pctrs (n : Nat) (c : Ctx) : (s.putCtx n c).pctrs = s.pctrs := rfl
@[simp] theorem State.putCtx_links (n : Nat) (c : Ctx) : (s.putCtx n c).links = s.links := rfl
@[simp] theorem State.putCtx_maint (n : Nat) (c : Ctx) : (s.putCtx n c).maint = s.maint := rfl
@[simp] theorem State.putCtx_pwr (n : Nat) (c : Ctx) : (s.putCtx n c).pwr = s.pwr := rfl
@[simp] theorem State.putCtx_rst (n : Nat) (c : Ctx) : (s.putCtx n c).rst = s.rst := rfl
@[simp] theorem State.putCtx_nvm (n : Nat) (c : Ctx) : (s.putCtx n c).nvm = s.nvm := rfl
@[simp] theorem State.putCtx_pnl (n : Nat) (c : Ctx) : (s.putCtx n c).pnl = s.pnl := rfl
@[simp] theorem State.putCtx_th (n : Nat) (c : Ctx) : (s.putCtx n c).th = s.th := rfl
@[simp] theorem State.putCtx_mem (n : Nat) (c : Ctx) : (s.putCtx n c).mem = s.mem := rfl
@[simp] theorem State.putCtx_aon (n : Nat) (c : Ctx) : (s.putCtx n c).aon = s.aon := rfl
@[simp] theorem State.putCtx_ecc (n : Nat) (c : Ctx) : (s.putCtx n c).ecc = s.ecc := rfl
@[simp] theorem State.putCtx_eccJobs (n : Nat) (c : Ctx) : (s.putCtx n c).eccJobs = s.eccJobs := rfl
@[simp] theorem State.putCtx_ceGrown (n : Nat) (c : Ctx) : (s.putCtx n c).ceGrown = s.ceGrown := rfl
@[simp] theorem State.putCtx_ueNew (n : Nat) (c : Ctx) : (s.putCtx n c).ueNew = s.ueNew := rfl
@[simp] theorem State.putCtx_scrub (n : Nat) (c : Ctx) : (s.putCtx n c).scrub = s.scrub := rfl
@[simp] theorem State.putCtx_last (n : Nat) (c : Ctx) : (s.putCtx n c).last = s.last := rfl
@[simp] theorem State.putCtx_freeCtr (n : Nat) (c : Ctx) : (s.putCtx n c).freeCtr = s.freeCtr := rfl
@[simp] theorem State.putCtx_pending (n : Nat) (c : Ctx) : (s.putCtx n c).pending = s.pending := rfl

@[simp] theorem State.setLatch_frame (m : Master) (a : Nat) (v : Word) : (s.setLatch m a v).frame = s.frame := rfl
@[simp] theorem State.setLatch_sys (m : Master) (a : Nat) (v : Word) : (s.setLatch m a v).sys = s.sys := rfl
@[simp] theorem State.setLatch_rtc (m : Master) (a : Nat) (v : Word) : (s.setLatch m a v).rtc = s.rtc := rfl
@[simp] theorem State.setLatch_ticks (m : Master) (a : Nat) (v : Word) : (s.setLatch m a v).ticks = s.ticks := rfl
@[simp] theorem State.setLatch_secDone (m : Master) (a : Nat) (v : Word) : (s.setLatch m a v).secDone = s.secDone := rfl
@[simp] theorem State.setLatch_regs (m : Master) (a : Nat) (v : Word) : (s.setLatch m a v).regs = s.regs := rfl
@[simp] theorem State.setLatch_chg (m : Master) (a : Nat) (v : Word) : (s.setLatch m a v).chg = s.chg := rfl
@[simp] theorem State.setLatch_commits (m : Master) (a : Nat) (v : Word) : (s.setLatch m a v).commits = s.commits := rfl
@[simp] theorem State.setLatch_nextId (m : Master) (a : Nat) (v : Word) : (s.setLatch m a v).nextId = s.nextId := rfl
@[simp] theorem State.setLatch_fab (m : Master) (a : Nat) (v : Word) : (s.setLatch m a v).fab = s.fab := rfl
@[simp] theorem State.setLatch_clk (m : Master) (a : Nat) (v : Word) : (s.setLatch m a v).clk = s.clk := rfl
@[simp] theorem State.setLatch_cands (m : Master) (a : Nat) (v : Word) : (s.setLatch m a v).cands = s.cands := rfl
@[simp] theorem State.setLatch_dpll (m : Master) (a : Nat) (v : Word) : (s.setLatch m a v).dpll = s.dpll := rfl
@[simp] theorem State.setLatch_lines (m : Master) (a : Nat) (v : Word) : (s.setLatch m a v).lines = s.lines := rfl
@[simp] theorem State.setLatch_trunks (m : Master) (a : Nat) (v : Word) : (s.setLatch m a v).trunks = s.trunks := rfl
@[simp] theorem State.setLatch_pairs (m : Master) (a : Nat) (v : Word) : (s.setLatch m a v).pairs = s.pairs := rfl
@[simp] theorem State.setLatch_audio (m : Master) (a : Nat) (v : Word) : (s.setLatch m a v).audio = s.audio := rfl
@[simp] theorem State.setLatch_hdlc (m : Master) (a : Nat) (v : Word) : (s.setLatch m a v).hdlc = s.hdlc := rfl
@[simp] theorem State.setLatch_cores (m : Master) (a : Nat) (v : Word) : (s.setLatch m a v).cores = s.cores := rfl
@[simp] theorem State.setLatch_tenants (m : Master) (a : Nat) (v : Word) : (s.setLatch m a v).tenants = s.tenants := rfl
@[simp] theorem State.setLatch_queues (m : Master) (a : Nat) (v : Word) : (s.setLatch m a v).queues = s.queues := rfl
@[simp] theorem State.setLatch_raised (m : Master) (a : Nat) (v : Word) : (s.setLatch m a v).raised = s.raised := rfl
@[simp] theorem State.setLatch_held (m : Master) (a : Nat) (v : Word) : (s.setLatch m a v).held = s.held := rfl
@[simp] theorem State.setLatch_pend (m : Master) (a : Nat) (v : Word) : (s.setLatch m a v).pend = s.pend := rfl
@[simp] theorem State.setLatch_pctrs (m : Master) (a : Nat) (v : Word) : (s.setLatch m a v).pctrs = s.pctrs := rfl
@[simp] theorem State.setLatch_links (m : Master) (a : Nat) (v : Word) : (s.setLatch m a v).links = s.links := rfl
@[simp] theorem State.setLatch_maint (m : Master) (a : Nat) (v : Word) : (s.setLatch m a v).maint = s.maint := rfl
@[simp] theorem State.setLatch_pwr (m : Master) (a : Nat) (v : Word) : (s.setLatch m a v).pwr = s.pwr := rfl
@[simp] theorem State.setLatch_rst (m : Master) (a : Nat) (v : Word) : (s.setLatch m a v).rst = s.rst := rfl
@[simp] theorem State.setLatch_nvm (m : Master) (a : Nat) (v : Word) : (s.setLatch m a v).nvm = s.nvm := rfl
@[simp] theorem State.setLatch_pnl (m : Master) (a : Nat) (v : Word) : (s.setLatch m a v).pnl = s.pnl := rfl
@[simp] theorem State.setLatch_th (m : Master) (a : Nat) (v : Word) : (s.setLatch m a v).th = s.th := rfl
@[simp] theorem State.setLatch_mem (m : Master) (a : Nat) (v : Word) : (s.setLatch m a v).mem = s.mem := rfl
@[simp] theorem State.setLatch_aon (m : Master) (a : Nat) (v : Word) : (s.setLatch m a v).aon = s.aon := rfl
@[simp] theorem State.setLatch_ecc (m : Master) (a : Nat) (v : Word) : (s.setLatch m a v).ecc = s.ecc := rfl
@[simp] theorem State.setLatch_eccJobs (m : Master) (a : Nat) (v : Word) : (s.setLatch m a v).eccJobs = s.eccJobs := rfl
@[simp] theorem State.setLatch_ceGrown (m : Master) (a : Nat) (v : Word) : (s.setLatch m a v).ceGrown = s.ceGrown := rfl
@[simp] theorem State.setLatch_ueNew (m : Master) (a : Nat) (v : Word) : (s.setLatch m a v).ueNew = s.ueNew := rfl
@[simp] theorem State.setLatch_scrub (m : Master) (a : Nat) (v : Word) : (s.setLatch m a v).scrub = s.scrub := rfl
@[simp] theorem State.setLatch_last (m : Master) (a : Nat) (v : Word) : (s.setLatch m a v).last = s.last := rfl
@[simp] theorem State.setLatch_freeCtr (m : Master) (a : Nat) (v : Word) : (s.setLatch m a v).freeCtr = s.freeCtr := rfl
@[simp] theorem State.setLatch_pending (m : Master) (a : Nat) (v : Word) : (s.setLatch m a v).pending = s.pending := rfl

@[simp] theorem State.setByte_frame (a : Nat) (v : Byte) : (s.setByte a v).frame = s.frame := rfl
@[simp] theorem State.setByte_sys (a : Nat) (v : Byte) : (s.setByte a v).sys = s.sys := rfl
@[simp] theorem State.setByte_rtc (a : Nat) (v : Byte) : (s.setByte a v).rtc = s.rtc := rfl
@[simp] theorem State.setByte_ticks (a : Nat) (v : Byte) : (s.setByte a v).ticks = s.ticks := rfl
@[simp] theorem State.setByte_secDone (a : Nat) (v : Byte) : (s.setByte a v).secDone = s.secDone := rfl
@[simp] theorem State.setByte_regs (a : Nat) (v : Byte) : (s.setByte a v).regs = s.regs := rfl
@[simp] theorem State.setByte_latches (a : Nat) (v : Byte) : (s.setByte a v).latches = s.latches := rfl
@[simp] theorem State.setByte_chg (a : Nat) (v : Byte) : (s.setByte a v).chg = s.chg := rfl
@[simp] theorem State.setByte_commits (a : Nat) (v : Byte) : (s.setByte a v).commits = s.commits := rfl
@[simp] theorem State.setByte_nextId (a : Nat) (v : Byte) : (s.setByte a v).nextId = s.nextId := rfl
@[simp] theorem State.setByte_fab (a : Nat) (v : Byte) : (s.setByte a v).fab = s.fab := rfl
@[simp] theorem State.setByte_clk (a : Nat) (v : Byte) : (s.setByte a v).clk = s.clk := rfl
@[simp] theorem State.setByte_cands (a : Nat) (v : Byte) : (s.setByte a v).cands = s.cands := rfl
@[simp] theorem State.setByte_dpll (a : Nat) (v : Byte) : (s.setByte a v).dpll = s.dpll := rfl
@[simp] theorem State.setByte_lines (a : Nat) (v : Byte) : (s.setByte a v).lines = s.lines := rfl
@[simp] theorem State.setByte_trunks (a : Nat) (v : Byte) : (s.setByte a v).trunks = s.trunks := rfl
@[simp] theorem State.setByte_pairs (a : Nat) (v : Byte) : (s.setByte a v).pairs = s.pairs := rfl
@[simp] theorem State.setByte_audio (a : Nat) (v : Byte) : (s.setByte a v).audio = s.audio := rfl
@[simp] theorem State.setByte_hdlc (a : Nat) (v : Byte) : (s.setByte a v).hdlc = s.hdlc := rfl
@[simp] theorem State.setByte_cores (a : Nat) (v : Byte) : (s.setByte a v).cores = s.cores := rfl
@[simp] theorem State.setByte_tenants (a : Nat) (v : Byte) : (s.setByte a v).tenants = s.tenants := rfl
@[simp] theorem State.setByte_queues (a : Nat) (v : Byte) : (s.setByte a v).queues = s.queues := rfl
@[simp] theorem State.setByte_raised (a : Nat) (v : Byte) : (s.setByte a v).raised = s.raised := rfl
@[simp] theorem State.setByte_held (a : Nat) (v : Byte) : (s.setByte a v).held = s.held := rfl
@[simp] theorem State.setByte_pend (a : Nat) (v : Byte) : (s.setByte a v).pend = s.pend := rfl
@[simp] theorem State.setByte_pctrs (a : Nat) (v : Byte) : (s.setByte a v).pctrs = s.pctrs := rfl
@[simp] theorem State.setByte_links (a : Nat) (v : Byte) : (s.setByte a v).links = s.links := rfl
@[simp] theorem State.setByte_maint (a : Nat) (v : Byte) : (s.setByte a v).maint = s.maint := rfl
@[simp] theorem State.setByte_pwr (a : Nat) (v : Byte) : (s.setByte a v).pwr = s.pwr := rfl
@[simp] theorem State.setByte_rst (a : Nat) (v : Byte) : (s.setByte a v).rst = s.rst := rfl
@[simp] theorem State.setByte_nvm (a : Nat) (v : Byte) : (s.setByte a v).nvm = s.nvm := rfl
@[simp] theorem State.setByte_pnl (a : Nat) (v : Byte) : (s.setByte a v).pnl = s.pnl := rfl
@[simp] theorem State.setByte_th (a : Nat) (v : Byte) : (s.setByte a v).th = s.th := rfl
@[simp] theorem State.setByte_aon (a : Nat) (v : Byte) : (s.setByte a v).aon = s.aon := rfl
@[simp] theorem State.setByte_ecc (a : Nat) (v : Byte) : (s.setByte a v).ecc = s.ecc := rfl
@[simp] theorem State.setByte_eccJobs (a : Nat) (v : Byte) : (s.setByte a v).eccJobs = s.eccJobs := rfl
@[simp] theorem State.setByte_ceGrown (a : Nat) (v : Byte) : (s.setByte a v).ceGrown = s.ceGrown := rfl
@[simp] theorem State.setByte_ueNew (a : Nat) (v : Byte) : (s.setByte a v).ueNew = s.ueNew := rfl
@[simp] theorem State.setByte_scrub (a : Nat) (v : Byte) : (s.setByte a v).scrub = s.scrub := rfl
@[simp] theorem State.setByte_last (a : Nat) (v : Byte) : (s.setByte a v).last = s.last := rfl
@[simp] theorem State.setByte_freeCtr (a : Nat) (v : Byte) : (s.setByte a v).freeCtr = s.freeCtr := rfl
@[simp] theorem State.setByte_pending (a : Nat) (v : Byte) : (s.setByte a v).pending = s.pending := rfl

@[simp] theorem State.setEcc_frame (w : Nat) (v : WordErr) : (s.setEcc w v).frame = s.frame := rfl
@[simp] theorem State.setEcc_sys (w : Nat) (v : WordErr) : (s.setEcc w v).sys = s.sys := rfl
@[simp] theorem State.setEcc_rtc (w : Nat) (v : WordErr) : (s.setEcc w v).rtc = s.rtc := rfl
@[simp] theorem State.setEcc_ticks (w : Nat) (v : WordErr) : (s.setEcc w v).ticks = s.ticks := rfl
@[simp] theorem State.setEcc_secDone (w : Nat) (v : WordErr) : (s.setEcc w v).secDone = s.secDone := rfl
@[simp] theorem State.setEcc_regs (w : Nat) (v : WordErr) : (s.setEcc w v).regs = s.regs := rfl
@[simp] theorem State.setEcc_latches (w : Nat) (v : WordErr) : (s.setEcc w v).latches = s.latches := rfl
@[simp] theorem State.setEcc_chg (w : Nat) (v : WordErr) : (s.setEcc w v).chg = s.chg := rfl
@[simp] theorem State.setEcc_commits (w : Nat) (v : WordErr) : (s.setEcc w v).commits = s.commits := rfl
@[simp] theorem State.setEcc_nextId (w : Nat) (v : WordErr) : (s.setEcc w v).nextId = s.nextId := rfl
@[simp] theorem State.setEcc_fab (w : Nat) (v : WordErr) : (s.setEcc w v).fab = s.fab := rfl
@[simp] theorem State.setEcc_clk (w : Nat) (v : WordErr) : (s.setEcc w v).clk = s.clk := rfl
@[simp] theorem State.setEcc_cands (w : Nat) (v : WordErr) : (s.setEcc w v).cands = s.cands := rfl
@[simp] theorem State.setEcc_dpll (w : Nat) (v : WordErr) : (s.setEcc w v).dpll = s.dpll := rfl
@[simp] theorem State.setEcc_lines (w : Nat) (v : WordErr) : (s.setEcc w v).lines = s.lines := rfl
@[simp] theorem State.setEcc_trunks (w : Nat) (v : WordErr) : (s.setEcc w v).trunks = s.trunks := rfl
@[simp] theorem State.setEcc_pairs (w : Nat) (v : WordErr) : (s.setEcc w v).pairs = s.pairs := rfl
@[simp] theorem State.setEcc_audio (w : Nat) (v : WordErr) : (s.setEcc w v).audio = s.audio := rfl
@[simp] theorem State.setEcc_hdlc (w : Nat) (v : WordErr) : (s.setEcc w v).hdlc = s.hdlc := rfl
@[simp] theorem State.setEcc_cores (w : Nat) (v : WordErr) : (s.setEcc w v).cores = s.cores := rfl
@[simp] theorem State.setEcc_tenants (w : Nat) (v : WordErr) : (s.setEcc w v).tenants = s.tenants := rfl
@[simp] theorem State.setEcc_queues (w : Nat) (v : WordErr) : (s.setEcc w v).queues = s.queues := rfl
@[simp] theorem State.setEcc_raised (w : Nat) (v : WordErr) : (s.setEcc w v).raised = s.raised := rfl
@[simp] theorem State.setEcc_held (w : Nat) (v : WordErr) : (s.setEcc w v).held = s.held := rfl
@[simp] theorem State.setEcc_pend (w : Nat) (v : WordErr) : (s.setEcc w v).pend = s.pend := rfl
@[simp] theorem State.setEcc_pctrs (w : Nat) (v : WordErr) : (s.setEcc w v).pctrs = s.pctrs := rfl
@[simp] theorem State.setEcc_links (w : Nat) (v : WordErr) : (s.setEcc w v).links = s.links := rfl
@[simp] theorem State.setEcc_maint (w : Nat) (v : WordErr) : (s.setEcc w v).maint = s.maint := rfl
@[simp] theorem State.setEcc_pwr (w : Nat) (v : WordErr) : (s.setEcc w v).pwr = s.pwr := rfl
@[simp] theorem State.setEcc_rst (w : Nat) (v : WordErr) : (s.setEcc w v).rst = s.rst := rfl
@[simp] theorem State.setEcc_nvm (w : Nat) (v : WordErr) : (s.setEcc w v).nvm = s.nvm := rfl
@[simp] theorem State.setEcc_pnl (w : Nat) (v : WordErr) : (s.setEcc w v).pnl = s.pnl := rfl
@[simp] theorem State.setEcc_th (w : Nat) (v : WordErr) : (s.setEcc w v).th = s.th := rfl
@[simp] theorem State.setEcc_mem (w : Nat) (v : WordErr) : (s.setEcc w v).mem = s.mem := rfl
@[simp] theorem State.setEcc_aon (w : Nat) (v : WordErr) : (s.setEcc w v).aon = s.aon := rfl
@[simp] theorem State.setEcc_eccJobs (w : Nat) (v : WordErr) : (s.setEcc w v).eccJobs = s.eccJobs := rfl
@[simp] theorem State.setEcc_ceGrown (w : Nat) (v : WordErr) : (s.setEcc w v).ceGrown = s.ceGrown := rfl
@[simp] theorem State.setEcc_ueNew (w : Nat) (v : WordErr) : (s.setEcc w v).ueNew = s.ueNew := rfl
@[simp] theorem State.setEcc_scrub (w : Nat) (v : WordErr) : (s.setEcc w v).scrub = s.scrub := rfl
@[simp] theorem State.setEcc_last (w : Nat) (v : WordErr) : (s.setEcc w v).last = s.last := rfl
@[simp] theorem State.setEcc_freeCtr (w : Nat) (v : WordErr) : (s.setEcc w v).freeCtr = s.freeCtr := rfl
@[simp] theorem State.setEcc_pending (w : Nat) (v : WordErr) : (s.setEcc w v).pending = s.pending := rfl

@[simp] theorem State.setQueue_frame (q : Nat) (v : Queue) : (s.setQueue q v).frame = s.frame := rfl
@[simp] theorem State.setQueue_sys (q : Nat) (v : Queue) : (s.setQueue q v).sys = s.sys := rfl
@[simp] theorem State.setQueue_rtc (q : Nat) (v : Queue) : (s.setQueue q v).rtc = s.rtc := rfl
@[simp] theorem State.setQueue_ticks (q : Nat) (v : Queue) : (s.setQueue q v).ticks = s.ticks := rfl
@[simp] theorem State.setQueue_secDone (q : Nat) (v : Queue) : (s.setQueue q v).secDone = s.secDone := rfl
@[simp] theorem State.setQueue_regs (q : Nat) (v : Queue) : (s.setQueue q v).regs = s.regs := rfl
@[simp] theorem State.setQueue_latches (q : Nat) (v : Queue) : (s.setQueue q v).latches = s.latches := rfl
@[simp] theorem State.setQueue_chg (q : Nat) (v : Queue) : (s.setQueue q v).chg = s.chg := rfl
@[simp] theorem State.setQueue_commits (q : Nat) (v : Queue) : (s.setQueue q v).commits = s.commits := rfl
@[simp] theorem State.setQueue_nextId (q : Nat) (v : Queue) : (s.setQueue q v).nextId = s.nextId := rfl
@[simp] theorem State.setQueue_fab (q : Nat) (v : Queue) : (s.setQueue q v).fab = s.fab := rfl
@[simp] theorem State.setQueue_clk (q : Nat) (v : Queue) : (s.setQueue q v).clk = s.clk := rfl
@[simp] theorem State.setQueue_cands (q : Nat) (v : Queue) : (s.setQueue q v).cands = s.cands := rfl
@[simp] theorem State.setQueue_dpll (q : Nat) (v : Queue) : (s.setQueue q v).dpll = s.dpll := rfl
@[simp] theorem State.setQueue_lines (q : Nat) (v : Queue) : (s.setQueue q v).lines = s.lines := rfl
@[simp] theorem State.setQueue_trunks (q : Nat) (v : Queue) : (s.setQueue q v).trunks = s.trunks := rfl
@[simp] theorem State.setQueue_pairs (q : Nat) (v : Queue) : (s.setQueue q v).pairs = s.pairs := rfl
@[simp] theorem State.setQueue_audio (q : Nat) (v : Queue) : (s.setQueue q v).audio = s.audio := rfl
@[simp] theorem State.setQueue_hdlc (q : Nat) (v : Queue) : (s.setQueue q v).hdlc = s.hdlc := rfl
@[simp] theorem State.setQueue_cores (q : Nat) (v : Queue) : (s.setQueue q v).cores = s.cores := rfl
@[simp] theorem State.setQueue_tenants (q : Nat) (v : Queue) : (s.setQueue q v).tenants = s.tenants := rfl
@[simp] theorem State.setQueue_raised (q : Nat) (v : Queue) : (s.setQueue q v).raised = s.raised := rfl
@[simp] theorem State.setQueue_held (q : Nat) (v : Queue) : (s.setQueue q v).held = s.held := rfl
@[simp] theorem State.setQueue_pend (q : Nat) (v : Queue) : (s.setQueue q v).pend = s.pend := rfl
@[simp] theorem State.setQueue_pctrs (q : Nat) (v : Queue) : (s.setQueue q v).pctrs = s.pctrs := rfl
@[simp] theorem State.setQueue_links (q : Nat) (v : Queue) : (s.setQueue q v).links = s.links := rfl
@[simp] theorem State.setQueue_maint (q : Nat) (v : Queue) : (s.setQueue q v).maint = s.maint := rfl
@[simp] theorem State.setQueue_pwr (q : Nat) (v : Queue) : (s.setQueue q v).pwr = s.pwr := rfl
@[simp] theorem State.setQueue_rst (q : Nat) (v : Queue) : (s.setQueue q v).rst = s.rst := rfl
@[simp] theorem State.setQueue_nvm (q : Nat) (v : Queue) : (s.setQueue q v).nvm = s.nvm := rfl
@[simp] theorem State.setQueue_pnl (q : Nat) (v : Queue) : (s.setQueue q v).pnl = s.pnl := rfl
@[simp] theorem State.setQueue_th (q : Nat) (v : Queue) : (s.setQueue q v).th = s.th := rfl
@[simp] theorem State.setQueue_mem (q : Nat) (v : Queue) : (s.setQueue q v).mem = s.mem := rfl
@[simp] theorem State.setQueue_aon (q : Nat) (v : Queue) : (s.setQueue q v).aon = s.aon := rfl
@[simp] theorem State.setQueue_ecc (q : Nat) (v : Queue) : (s.setQueue q v).ecc = s.ecc := rfl
@[simp] theorem State.setQueue_eccJobs (q : Nat) (v : Queue) : (s.setQueue q v).eccJobs = s.eccJobs := rfl
@[simp] theorem State.setQueue_ceGrown (q : Nat) (v : Queue) : (s.setQueue q v).ceGrown = s.ceGrown := rfl
@[simp] theorem State.setQueue_ueNew (q : Nat) (v : Queue) : (s.setQueue q v).ueNew = s.ueNew := rfl
@[simp] theorem State.setQueue_scrub (q : Nat) (v : Queue) : (s.setQueue q v).scrub = s.scrub := rfl
@[simp] theorem State.setQueue_last (q : Nat) (v : Queue) : (s.setQueue q v).last = s.last := rfl
@[simp] theorem State.setQueue_freeCtr (q : Nat) (v : Queue) : (s.setQueue q v).freeCtr = s.freeCtr := rfl
@[simp] theorem State.setQueue_pending (q : Nat) (v : Queue) : (s.setQueue q v).pending = s.pending := rfl

@[simp] theorem State.setConn_frame (n : Nat) (c : Copies) : (s.setConn n c).frame = s.frame := rfl
@[simp] theorem State.setConn_sys (n : Nat) (c : Copies) : (s.setConn n c).sys = s.sys := rfl
@[simp] theorem State.setConn_rtc (n : Nat) (c : Copies) : (s.setConn n c).rtc = s.rtc := rfl
@[simp] theorem State.setConn_ticks (n : Nat) (c : Copies) : (s.setConn n c).ticks = s.ticks := rfl
@[simp] theorem State.setConn_secDone (n : Nat) (c : Copies) : (s.setConn n c).secDone = s.secDone := rfl
@[simp] theorem State.setConn_regs (n : Nat) (c : Copies) : (s.setConn n c).regs = s.regs := rfl
@[simp] theorem State.setConn_latches (n : Nat) (c : Copies) : (s.setConn n c).latches = s.latches := rfl
@[simp] theorem State.setConn_chg (n : Nat) (c : Copies) : (s.setConn n c).chg = s.chg := rfl
@[simp] theorem State.setConn_commits (n : Nat) (c : Copies) : (s.setConn n c).commits = s.commits := rfl
@[simp] theorem State.setConn_nextId (n : Nat) (c : Copies) : (s.setConn n c).nextId = s.nextId := rfl
@[simp] theorem State.setConn_clk (n : Nat) (c : Copies) : (s.setConn n c).clk = s.clk := rfl
@[simp] theorem State.setConn_cands (n : Nat) (c : Copies) : (s.setConn n c).cands = s.cands := rfl
@[simp] theorem State.setConn_dpll (n : Nat) (c : Copies) : (s.setConn n c).dpll = s.dpll := rfl
@[simp] theorem State.setConn_lines (n : Nat) (c : Copies) : (s.setConn n c).lines = s.lines := rfl
@[simp] theorem State.setConn_trunks (n : Nat) (c : Copies) : (s.setConn n c).trunks = s.trunks := rfl
@[simp] theorem State.setConn_pairs (n : Nat) (c : Copies) : (s.setConn n c).pairs = s.pairs := rfl
@[simp] theorem State.setConn_audio (n : Nat) (c : Copies) : (s.setConn n c).audio = s.audio := rfl
@[simp] theorem State.setConn_hdlc (n : Nat) (c : Copies) : (s.setConn n c).hdlc = s.hdlc := rfl
@[simp] theorem State.setConn_cores (n : Nat) (c : Copies) : (s.setConn n c).cores = s.cores := rfl
@[simp] theorem State.setConn_tenants (n : Nat) (c : Copies) : (s.setConn n c).tenants = s.tenants := rfl
@[simp] theorem State.setConn_queues (n : Nat) (c : Copies) : (s.setConn n c).queues = s.queues := rfl
@[simp] theorem State.setConn_raised (n : Nat) (c : Copies) : (s.setConn n c).raised = s.raised := rfl
@[simp] theorem State.setConn_held (n : Nat) (c : Copies) : (s.setConn n c).held = s.held := rfl
@[simp] theorem State.setConn_pend (n : Nat) (c : Copies) : (s.setConn n c).pend = s.pend := rfl
@[simp] theorem State.setConn_pctrs (n : Nat) (c : Copies) : (s.setConn n c).pctrs = s.pctrs := rfl
@[simp] theorem State.setConn_links (n : Nat) (c : Copies) : (s.setConn n c).links = s.links := rfl
@[simp] theorem State.setConn_maint (n : Nat) (c : Copies) : (s.setConn n c).maint = s.maint := rfl
@[simp] theorem State.setConn_pwr (n : Nat) (c : Copies) : (s.setConn n c).pwr = s.pwr := rfl
@[simp] theorem State.setConn_rst (n : Nat) (c : Copies) : (s.setConn n c).rst = s.rst := rfl
@[simp] theorem State.setConn_nvm (n : Nat) (c : Copies) : (s.setConn n c).nvm = s.nvm := rfl
@[simp] theorem State.setConn_pnl (n : Nat) (c : Copies) : (s.setConn n c).pnl = s.pnl := rfl
@[simp] theorem State.setConn_th (n : Nat) (c : Copies) : (s.setConn n c).th = s.th := rfl
@[simp] theorem State.setConn_mem (n : Nat) (c : Copies) : (s.setConn n c).mem = s.mem := rfl
@[simp] theorem State.setConn_aon (n : Nat) (c : Copies) : (s.setConn n c).aon = s.aon := rfl
@[simp] theorem State.setConn_ecc (n : Nat) (c : Copies) : (s.setConn n c).ecc = s.ecc := rfl
@[simp] theorem State.setConn_eccJobs (n : Nat) (c : Copies) : (s.setConn n c).eccJobs = s.eccJobs := rfl
@[simp] theorem State.setConn_ceGrown (n : Nat) (c : Copies) : (s.setConn n c).ceGrown = s.ceGrown := rfl
@[simp] theorem State.setConn_ueNew (n : Nat) (c : Copies) : (s.setConn n c).ueNew = s.ueNew := rfl
@[simp] theorem State.setConn_scrub (n : Nat) (c : Copies) : (s.setConn n c).scrub = s.scrub := rfl
@[simp] theorem State.setConn_last (n : Nat) (c : Copies) : (s.setConn n c).last = s.last := rfl
@[simp] theorem State.setConn_freeCtr (n : Nat) (c : Copies) : (s.setConn n c).freeCtr = s.freeCtr := rfl
@[simp] theorem State.setConn_pending (n : Nat) (c : Copies) : (s.setConn n c).pending = s.pending := rfl

@[simp] theorem State.setSel_frame (n : Nat) (c : Copies) : (s.setSel n c).frame = s.frame := rfl
@[simp] theorem State.setSel_sys (n : Nat) (c : Copies) : (s.setSel n c).sys = s.sys := rfl
@[simp] theorem State.setSel_rtc (n : Nat) (c : Copies) : (s.setSel n c).rtc = s.rtc := rfl
@[simp] theorem State.setSel_ticks (n : Nat) (c : Copies) : (s.setSel n c).ticks = s.ticks := rfl
@[simp] theorem State.setSel_secDone (n : Nat) (c : Copies) : (s.setSel n c).secDone = s.secDone := rfl
@[simp] theorem State.setSel_regs (n : Nat) (c : Copies) : (s.setSel n c).regs = s.regs := rfl
@[simp] theorem State.setSel_latches (n : Nat) (c : Copies) : (s.setSel n c).latches = s.latches := rfl
@[simp] theorem State.setSel_chg (n : Nat) (c : Copies) : (s.setSel n c).chg = s.chg := rfl
@[simp] theorem State.setSel_commits (n : Nat) (c : Copies) : (s.setSel n c).commits = s.commits := rfl
@[simp] theorem State.setSel_nextId (n : Nat) (c : Copies) : (s.setSel n c).nextId = s.nextId := rfl
@[simp] theorem State.setSel_clk (n : Nat) (c : Copies) : (s.setSel n c).clk = s.clk := rfl
@[simp] theorem State.setSel_cands (n : Nat) (c : Copies) : (s.setSel n c).cands = s.cands := rfl
@[simp] theorem State.setSel_dpll (n : Nat) (c : Copies) : (s.setSel n c).dpll = s.dpll := rfl
@[simp] theorem State.setSel_lines (n : Nat) (c : Copies) : (s.setSel n c).lines = s.lines := rfl
@[simp] theorem State.setSel_trunks (n : Nat) (c : Copies) : (s.setSel n c).trunks = s.trunks := rfl
@[simp] theorem State.setSel_pairs (n : Nat) (c : Copies) : (s.setSel n c).pairs = s.pairs := rfl
@[simp] theorem State.setSel_audio (n : Nat) (c : Copies) : (s.setSel n c).audio = s.audio := rfl
@[simp] theorem State.setSel_hdlc (n : Nat) (c : Copies) : (s.setSel n c).hdlc = s.hdlc := rfl
@[simp] theorem State.setSel_cores (n : Nat) (c : Copies) : (s.setSel n c).cores = s.cores := rfl
@[simp] theorem State.setSel_tenants (n : Nat) (c : Copies) : (s.setSel n c).tenants = s.tenants := rfl
@[simp] theorem State.setSel_queues (n : Nat) (c : Copies) : (s.setSel n c).queues = s.queues := rfl
@[simp] theorem State.setSel_raised (n : Nat) (c : Copies) : (s.setSel n c).raised = s.raised := rfl
@[simp] theorem State.setSel_held (n : Nat) (c : Copies) : (s.setSel n c).held = s.held := rfl
@[simp] theorem State.setSel_pend (n : Nat) (c : Copies) : (s.setSel n c).pend = s.pend := rfl
@[simp] theorem State.setSel_pctrs (n : Nat) (c : Copies) : (s.setSel n c).pctrs = s.pctrs := rfl
@[simp] theorem State.setSel_links (n : Nat) (c : Copies) : (s.setSel n c).links = s.links := rfl
@[simp] theorem State.setSel_maint (n : Nat) (c : Copies) : (s.setSel n c).maint = s.maint := rfl
@[simp] theorem State.setSel_pwr (n : Nat) (c : Copies) : (s.setSel n c).pwr = s.pwr := rfl
@[simp] theorem State.setSel_rst (n : Nat) (c : Copies) : (s.setSel n c).rst = s.rst := rfl
@[simp] theorem State.setSel_nvm (n : Nat) (c : Copies) : (s.setSel n c).nvm = s.nvm := rfl
@[simp] theorem State.setSel_pnl (n : Nat) (c : Copies) : (s.setSel n c).pnl = s.pnl := rfl
@[simp] theorem State.setSel_th (n : Nat) (c : Copies) : (s.setSel n c).th = s.th := rfl
@[simp] theorem State.setSel_mem (n : Nat) (c : Copies) : (s.setSel n c).mem = s.mem := rfl
@[simp] theorem State.setSel_aon (n : Nat) (c : Copies) : (s.setSel n c).aon = s.aon := rfl
@[simp] theorem State.setSel_ecc (n : Nat) (c : Copies) : (s.setSel n c).ecc = s.ecc := rfl
@[simp] theorem State.setSel_eccJobs (n : Nat) (c : Copies) : (s.setSel n c).eccJobs = s.eccJobs := rfl
@[simp] theorem State.setSel_ceGrown (n : Nat) (c : Copies) : (s.setSel n c).ceGrown = s.ceGrown := rfl
@[simp] theorem State.setSel_ueNew (n : Nat) (c : Copies) : (s.setSel n c).ueNew = s.ueNew := rfl
@[simp] theorem State.setSel_scrub (n : Nat) (c : Copies) : (s.setSel n c).scrub = s.scrub := rfl
@[simp] theorem State.setSel_last (n : Nat) (c : Copies) : (s.setSel n c).last = s.last := rfl
@[simp] theorem State.setSel_freeCtr (n : Nat) (c : Copies) : (s.setSel n c).freeCtr = s.freeCtr := rfl
@[simp] theorem State.setSel_pending (n : Nat) (c : Copies) : (s.setSel n c).pending = s.pending := rfl

@[simp] theorem State.setChange_frame (a : Nat) (c : Change) : (s.setChange a c).frame = s.frame := rfl
@[simp] theorem State.setChange_sys (a : Nat) (c : Change) : (s.setChange a c).sys = s.sys := rfl
@[simp] theorem State.setChange_rtc (a : Nat) (c : Change) : (s.setChange a c).rtc = s.rtc := rfl
@[simp] theorem State.setChange_ticks (a : Nat) (c : Change) : (s.setChange a c).ticks = s.ticks := rfl
@[simp] theorem State.setChange_secDone (a : Nat) (c : Change) : (s.setChange a c).secDone = s.secDone := rfl
@[simp] theorem State.setChange_regs (a : Nat) (c : Change) : (s.setChange a c).regs = s.regs := rfl
@[simp] theorem State.setChange_latches (a : Nat) (c : Change) : (s.setChange a c).latches = s.latches := rfl
@[simp] theorem State.setChange_commits (a : Nat) (c : Change) : (s.setChange a c).commits = s.commits := rfl
@[simp] theorem State.setChange_nextId (a : Nat) (c : Change) : (s.setChange a c).nextId = s.nextId := rfl
@[simp] theorem State.setChange_fab (a : Nat) (c : Change) : (s.setChange a c).fab = s.fab := rfl
@[simp] theorem State.setChange_clk (a : Nat) (c : Change) : (s.setChange a c).clk = s.clk := rfl
@[simp] theorem State.setChange_cands (a : Nat) (c : Change) : (s.setChange a c).cands = s.cands := rfl
@[simp] theorem State.setChange_dpll (a : Nat) (c : Change) : (s.setChange a c).dpll = s.dpll := rfl
@[simp] theorem State.setChange_lines (a : Nat) (c : Change) : (s.setChange a c).lines = s.lines := rfl
@[simp] theorem State.setChange_trunks (a : Nat) (c : Change) : (s.setChange a c).trunks = s.trunks := rfl
@[simp] theorem State.setChange_pairs (a : Nat) (c : Change) : (s.setChange a c).pairs = s.pairs := rfl
@[simp] theorem State.setChange_audio (a : Nat) (c : Change) : (s.setChange a c).audio = s.audio := rfl
@[simp] theorem State.setChange_hdlc (a : Nat) (c : Change) : (s.setChange a c).hdlc = s.hdlc := rfl
@[simp] theorem State.setChange_cores (a : Nat) (c : Change) : (s.setChange a c).cores = s.cores := rfl
@[simp] theorem State.setChange_tenants (a : Nat) (c : Change) : (s.setChange a c).tenants = s.tenants := rfl
@[simp] theorem State.setChange_queues (a : Nat) (c : Change) : (s.setChange a c).queues = s.queues := rfl
@[simp] theorem State.setChange_raised (a : Nat) (c : Change) : (s.setChange a c).raised = s.raised := rfl
@[simp] theorem State.setChange_held (a : Nat) (c : Change) : (s.setChange a c).held = s.held := rfl
@[simp] theorem State.setChange_pend (a : Nat) (c : Change) : (s.setChange a c).pend = s.pend := rfl
@[simp] theorem State.setChange_pctrs (a : Nat) (c : Change) : (s.setChange a c).pctrs = s.pctrs := rfl
@[simp] theorem State.setChange_links (a : Nat) (c : Change) : (s.setChange a c).links = s.links := rfl
@[simp] theorem State.setChange_maint (a : Nat) (c : Change) : (s.setChange a c).maint = s.maint := rfl
@[simp] theorem State.setChange_pwr (a : Nat) (c : Change) : (s.setChange a c).pwr = s.pwr := rfl
@[simp] theorem State.setChange_rst (a : Nat) (c : Change) : (s.setChange a c).rst = s.rst := rfl
@[simp] theorem State.setChange_nvm (a : Nat) (c : Change) : (s.setChange a c).nvm = s.nvm := rfl
@[simp] theorem State.setChange_pnl (a : Nat) (c : Change) : (s.setChange a c).pnl = s.pnl := rfl
@[simp] theorem State.setChange_th (a : Nat) (c : Change) : (s.setChange a c).th = s.th := rfl
@[simp] theorem State.setChange_mem (a : Nat) (c : Change) : (s.setChange a c).mem = s.mem := rfl
@[simp] theorem State.setChange_aon (a : Nat) (c : Change) : (s.setChange a c).aon = s.aon := rfl
@[simp] theorem State.setChange_ecc (a : Nat) (c : Change) : (s.setChange a c).ecc = s.ecc := rfl
@[simp] theorem State.setChange_eccJobs (a : Nat) (c : Change) : (s.setChange a c).eccJobs = s.eccJobs := rfl
@[simp] theorem State.setChange_ceGrown (a : Nat) (c : Change) : (s.setChange a c).ceGrown = s.ceGrown := rfl
@[simp] theorem State.setChange_ueNew (a : Nat) (c : Change) : (s.setChange a c).ueNew = s.ueNew := rfl
@[simp] theorem State.setChange_scrub (a : Nat) (c : Change) : (s.setChange a c).scrub = s.scrub := rfl
@[simp] theorem State.setChange_last (a : Nat) (c : Change) : (s.setChange a c).last = s.last := rfl
@[simp] theorem State.setChange_freeCtr (a : Nat) (c : Change) : (s.setChange a c).freeCtr = s.freeCtr := rfl
@[simp] theorem State.setChange_pending (a : Nat) (c : Change) : (s.setChange a c).pending = s.pending := rfl

@[simp] theorem State.setPctr_frame (n k : Nat) (c : PCtr) : (s.setPctr n k c).frame = s.frame := rfl
@[simp] theorem State.setPctr_sys (n k : Nat) (c : PCtr) : (s.setPctr n k c).sys = s.sys := rfl
@[simp] theorem State.setPctr_rtc (n k : Nat) (c : PCtr) : (s.setPctr n k c).rtc = s.rtc := rfl
@[simp] theorem State.setPctr_ticks (n k : Nat) (c : PCtr) : (s.setPctr n k c).ticks = s.ticks := rfl
@[simp] theorem State.setPctr_secDone (n k : Nat) (c : PCtr) : (s.setPctr n k c).secDone = s.secDone := rfl
@[simp] theorem State.setPctr_regs (n k : Nat) (c : PCtr) : (s.setPctr n k c).regs = s.regs := rfl
@[simp] theorem State.setPctr_latches (n k : Nat) (c : PCtr) : (s.setPctr n k c).latches = s.latches := rfl
@[simp] theorem State.setPctr_chg (n k : Nat) (c : PCtr) : (s.setPctr n k c).chg = s.chg := rfl
@[simp] theorem State.setPctr_commits (n k : Nat) (c : PCtr) : (s.setPctr n k c).commits = s.commits := rfl
@[simp] theorem State.setPctr_nextId (n k : Nat) (c : PCtr) : (s.setPctr n k c).nextId = s.nextId := rfl
@[simp] theorem State.setPctr_fab (n k : Nat) (c : PCtr) : (s.setPctr n k c).fab = s.fab := rfl
@[simp] theorem State.setPctr_clk (n k : Nat) (c : PCtr) : (s.setPctr n k c).clk = s.clk := rfl
@[simp] theorem State.setPctr_cands (n k : Nat) (c : PCtr) : (s.setPctr n k c).cands = s.cands := rfl
@[simp] theorem State.setPctr_dpll (n k : Nat) (c : PCtr) : (s.setPctr n k c).dpll = s.dpll := rfl
@[simp] theorem State.setPctr_lines (n k : Nat) (c : PCtr) : (s.setPctr n k c).lines = s.lines := rfl
@[simp] theorem State.setPctr_trunks (n k : Nat) (c : PCtr) : (s.setPctr n k c).trunks = s.trunks := rfl
@[simp] theorem State.setPctr_pairs (n k : Nat) (c : PCtr) : (s.setPctr n k c).pairs = s.pairs := rfl
@[simp] theorem State.setPctr_audio (n k : Nat) (c : PCtr) : (s.setPctr n k c).audio = s.audio := rfl
@[simp] theorem State.setPctr_hdlc (n k : Nat) (c : PCtr) : (s.setPctr n k c).hdlc = s.hdlc := rfl
@[simp] theorem State.setPctr_cores (n k : Nat) (c : PCtr) : (s.setPctr n k c).cores = s.cores := rfl
@[simp] theorem State.setPctr_tenants (n k : Nat) (c : PCtr) : (s.setPctr n k c).tenants = s.tenants := rfl
@[simp] theorem State.setPctr_queues (n k : Nat) (c : PCtr) : (s.setPctr n k c).queues = s.queues := rfl
@[simp] theorem State.setPctr_raised (n k : Nat) (c : PCtr) : (s.setPctr n k c).raised = s.raised := rfl
@[simp] theorem State.setPctr_held (n k : Nat) (c : PCtr) : (s.setPctr n k c).held = s.held := rfl
@[simp] theorem State.setPctr_pend (n k : Nat) (c : PCtr) : (s.setPctr n k c).pend = s.pend := rfl
@[simp] theorem State.setPctr_links (n k : Nat) (c : PCtr) : (s.setPctr n k c).links = s.links := rfl
@[simp] theorem State.setPctr_maint (n k : Nat) (c : PCtr) : (s.setPctr n k c).maint = s.maint := rfl
@[simp] theorem State.setPctr_pwr (n k : Nat) (c : PCtr) : (s.setPctr n k c).pwr = s.pwr := rfl
@[simp] theorem State.setPctr_rst (n k : Nat) (c : PCtr) : (s.setPctr n k c).rst = s.rst := rfl
@[simp] theorem State.setPctr_nvm (n k : Nat) (c : PCtr) : (s.setPctr n k c).nvm = s.nvm := rfl
@[simp] theorem State.setPctr_pnl (n k : Nat) (c : PCtr) : (s.setPctr n k c).pnl = s.pnl := rfl
@[simp] theorem State.setPctr_th (n k : Nat) (c : PCtr) : (s.setPctr n k c).th = s.th := rfl
@[simp] theorem State.setPctr_mem (n k : Nat) (c : PCtr) : (s.setPctr n k c).mem = s.mem := rfl
@[simp] theorem State.setPctr_aon (n k : Nat) (c : PCtr) : (s.setPctr n k c).aon = s.aon := rfl
@[simp] theorem State.setPctr_ecc (n k : Nat) (c : PCtr) : (s.setPctr n k c).ecc = s.ecc := rfl
@[simp] theorem State.setPctr_eccJobs (n k : Nat) (c : PCtr) : (s.setPctr n k c).eccJobs = s.eccJobs := rfl
@[simp] theorem State.setPctr_ceGrown (n k : Nat) (c : PCtr) : (s.setPctr n k c).ceGrown = s.ceGrown := rfl
@[simp] theorem State.setPctr_ueNew (n k : Nat) (c : PCtr) : (s.setPctr n k c).ueNew = s.ueNew := rfl
@[simp] theorem State.setPctr_scrub (n k : Nat) (c : PCtr) : (s.setPctr n k c).scrub = s.scrub := rfl
@[simp] theorem State.setPctr_last (n k : Nat) (c : PCtr) : (s.setPctr n k c).last = s.last := rfl
@[simp] theorem State.setPctr_freeCtr (n k : Nat) (c : PCtr) : (s.setPctr n k c).freeCtr = s.freeCtr := rfl
@[simp] theorem State.setPctr_pending (n k : Nat) (c : PCtr) : (s.setPctr n k c).pending = s.pending := rfl

@[simp] theorem State.setLink_frame (k : Nat) (l : Link) : (s.setLink k l).frame = s.frame := rfl
@[simp] theorem State.setLink_sys (k : Nat) (l : Link) : (s.setLink k l).sys = s.sys := rfl
@[simp] theorem State.setLink_rtc (k : Nat) (l : Link) : (s.setLink k l).rtc = s.rtc := rfl
@[simp] theorem State.setLink_ticks (k : Nat) (l : Link) : (s.setLink k l).ticks = s.ticks := rfl
@[simp] theorem State.setLink_secDone (k : Nat) (l : Link) : (s.setLink k l).secDone = s.secDone := rfl
@[simp] theorem State.setLink_regs (k : Nat) (l : Link) : (s.setLink k l).regs = s.regs := rfl
@[simp] theorem State.setLink_latches (k : Nat) (l : Link) : (s.setLink k l).latches = s.latches := rfl
@[simp] theorem State.setLink_chg (k : Nat) (l : Link) : (s.setLink k l).chg = s.chg := rfl
@[simp] theorem State.setLink_commits (k : Nat) (l : Link) : (s.setLink k l).commits = s.commits := rfl
@[simp] theorem State.setLink_nextId (k : Nat) (l : Link) : (s.setLink k l).nextId = s.nextId := rfl
@[simp] theorem State.setLink_fab (k : Nat) (l : Link) : (s.setLink k l).fab = s.fab := rfl
@[simp] theorem State.setLink_clk (k : Nat) (l : Link) : (s.setLink k l).clk = s.clk := rfl
@[simp] theorem State.setLink_cands (k : Nat) (l : Link) : (s.setLink k l).cands = s.cands := rfl
@[simp] theorem State.setLink_dpll (k : Nat) (l : Link) : (s.setLink k l).dpll = s.dpll := rfl
@[simp] theorem State.setLink_lines (k : Nat) (l : Link) : (s.setLink k l).lines = s.lines := rfl
@[simp] theorem State.setLink_trunks (k : Nat) (l : Link) : (s.setLink k l).trunks = s.trunks := rfl
@[simp] theorem State.setLink_pairs (k : Nat) (l : Link) : (s.setLink k l).pairs = s.pairs := rfl
@[simp] theorem State.setLink_audio (k : Nat) (l : Link) : (s.setLink k l).audio = s.audio := rfl
@[simp] theorem State.setLink_hdlc (k : Nat) (l : Link) : (s.setLink k l).hdlc = s.hdlc := rfl
@[simp] theorem State.setLink_cores (k : Nat) (l : Link) : (s.setLink k l).cores = s.cores := rfl
@[simp] theorem State.setLink_tenants (k : Nat) (l : Link) : (s.setLink k l).tenants = s.tenants := rfl
@[simp] theorem State.setLink_queues (k : Nat) (l : Link) : (s.setLink k l).queues = s.queues := rfl
@[simp] theorem State.setLink_raised (k : Nat) (l : Link) : (s.setLink k l).raised = s.raised := rfl
@[simp] theorem State.setLink_held (k : Nat) (l : Link) : (s.setLink k l).held = s.held := rfl
@[simp] theorem State.setLink_pend (k : Nat) (l : Link) : (s.setLink k l).pend = s.pend := rfl
@[simp] theorem State.setLink_pctrs (k : Nat) (l : Link) : (s.setLink k l).pctrs = s.pctrs := rfl
@[simp] theorem State.setLink_maint (k : Nat) (l : Link) : (s.setLink k l).maint = s.maint := rfl
@[simp] theorem State.setLink_pwr (k : Nat) (l : Link) : (s.setLink k l).pwr = s.pwr := rfl
@[simp] theorem State.setLink_rst (k : Nat) (l : Link) : (s.setLink k l).rst = s.rst := rfl
@[simp] theorem State.setLink_nvm (k : Nat) (l : Link) : (s.setLink k l).nvm = s.nvm := rfl
@[simp] theorem State.setLink_pnl (k : Nat) (l : Link) : (s.setLink k l).pnl = s.pnl := rfl
@[simp] theorem State.setLink_th (k : Nat) (l : Link) : (s.setLink k l).th = s.th := rfl
@[simp] theorem State.setLink_mem (k : Nat) (l : Link) : (s.setLink k l).mem = s.mem := rfl
@[simp] theorem State.setLink_aon (k : Nat) (l : Link) : (s.setLink k l).aon = s.aon := rfl
@[simp] theorem State.setLink_ecc (k : Nat) (l : Link) : (s.setLink k l).ecc = s.ecc := rfl
@[simp] theorem State.setLink_eccJobs (k : Nat) (l : Link) : (s.setLink k l).eccJobs = s.eccJobs := rfl
@[simp] theorem State.setLink_ceGrown (k : Nat) (l : Link) : (s.setLink k l).ceGrown = s.ceGrown := rfl
@[simp] theorem State.setLink_ueNew (k : Nat) (l : Link) : (s.setLink k l).ueNew = s.ueNew := rfl
@[simp] theorem State.setLink_scrub (k : Nat) (l : Link) : (s.setLink k l).scrub = s.scrub := rfl
@[simp] theorem State.setLink_last (k : Nat) (l : Link) : (s.setLink k l).last = s.last := rfl
@[simp] theorem State.setLink_freeCtr (k : Nat) (l : Link) : (s.setLink k l).freeCtr = s.freeCtr := rfl
@[simp] theorem State.setLink_pending (k : Nat) (l : Link) : (s.setLink k l).pending = s.pending := rfl

@[simp] theorem State.seen_frame (m : Master) (v : Word) (e : Bool) : (s.seen m v e).frame = s.frame := rfl
@[simp] theorem State.seen_sys (m : Master) (v : Word) (e : Bool) : (s.seen m v e).sys = s.sys := rfl
@[simp] theorem State.seen_rtc (m : Master) (v : Word) (e : Bool) : (s.seen m v e).rtc = s.rtc := rfl
@[simp] theorem State.seen_ticks (m : Master) (v : Word) (e : Bool) : (s.seen m v e).ticks = s.ticks := rfl
@[simp] theorem State.seen_secDone (m : Master) (v : Word) (e : Bool) : (s.seen m v e).secDone = s.secDone := rfl
@[simp] theorem State.seen_regs (m : Master) (v : Word) (e : Bool) : (s.seen m v e).regs = s.regs := rfl
@[simp] theorem State.seen_latches (m : Master) (v : Word) (e : Bool) : (s.seen m v e).latches = s.latches := rfl
@[simp] theorem State.seen_chg (m : Master) (v : Word) (e : Bool) : (s.seen m v e).chg = s.chg := rfl
@[simp] theorem State.seen_commits (m : Master) (v : Word) (e : Bool) : (s.seen m v e).commits = s.commits := rfl
@[simp] theorem State.seen_nextId (m : Master) (v : Word) (e : Bool) : (s.seen m v e).nextId = s.nextId := rfl
@[simp] theorem State.seen_fab (m : Master) (v : Word) (e : Bool) : (s.seen m v e).fab = s.fab := rfl
@[simp] theorem State.seen_clk (m : Master) (v : Word) (e : Bool) : (s.seen m v e).clk = s.clk := rfl
@[simp] theorem State.seen_cands (m : Master) (v : Word) (e : Bool) : (s.seen m v e).cands = s.cands := rfl
@[simp] theorem State.seen_dpll (m : Master) (v : Word) (e : Bool) : (s.seen m v e).dpll = s.dpll := rfl
@[simp] theorem State.seen_lines (m : Master) (v : Word) (e : Bool) : (s.seen m v e).lines = s.lines := rfl
@[simp] theorem State.seen_trunks (m : Master) (v : Word) (e : Bool) : (s.seen m v e).trunks = s.trunks := rfl
@[simp] theorem State.seen_pairs (m : Master) (v : Word) (e : Bool) : (s.seen m v e).pairs = s.pairs := rfl
@[simp] theorem State.seen_audio (m : Master) (v : Word) (e : Bool) : (s.seen m v e).audio = s.audio := rfl
@[simp] theorem State.seen_hdlc (m : Master) (v : Word) (e : Bool) : (s.seen m v e).hdlc = s.hdlc := rfl
@[simp] theorem State.seen_cores (m : Master) (v : Word) (e : Bool) : (s.seen m v e).cores = s.cores := rfl
@[simp] theorem State.seen_tenants (m : Master) (v : Word) (e : Bool) : (s.seen m v e).tenants = s.tenants := rfl
@[simp] theorem State.seen_queues (m : Master) (v : Word) (e : Bool) : (s.seen m v e).queues = s.queues := rfl
@[simp] theorem State.seen_raised (m : Master) (v : Word) (e : Bool) : (s.seen m v e).raised = s.raised := rfl
@[simp] theorem State.seen_held (m : Master) (v : Word) (e : Bool) : (s.seen m v e).held = s.held := rfl
@[simp] theorem State.seen_pend (m : Master) (v : Word) (e : Bool) : (s.seen m v e).pend = s.pend := rfl
@[simp] theorem State.seen_pctrs (m : Master) (v : Word) (e : Bool) : (s.seen m v e).pctrs = s.pctrs := rfl
@[simp] theorem State.seen_links (m : Master) (v : Word) (e : Bool) : (s.seen m v e).links = s.links := rfl
@[simp] theorem State.seen_maint (m : Master) (v : Word) (e : Bool) : (s.seen m v e).maint = s.maint := rfl
@[simp] theorem State.seen_pwr (m : Master) (v : Word) (e : Bool) : (s.seen m v e).pwr = s.pwr := rfl
@[simp] theorem State.seen_rst (m : Master) (v : Word) (e : Bool) : (s.seen m v e).rst = s.rst := rfl
@[simp] theorem State.seen_nvm (m : Master) (v : Word) (e : Bool) : (s.seen m v e).nvm = s.nvm := rfl
@[simp] theorem State.seen_pnl (m : Master) (v : Word) (e : Bool) : (s.seen m v e).pnl = s.pnl := rfl
@[simp] theorem State.seen_th (m : Master) (v : Word) (e : Bool) : (s.seen m v e).th = s.th := rfl
@[simp] theorem State.seen_mem (m : Master) (v : Word) (e : Bool) : (s.seen m v e).mem = s.mem := rfl
@[simp] theorem State.seen_aon (m : Master) (v : Word) (e : Bool) : (s.seen m v e).aon = s.aon := rfl
@[simp] theorem State.seen_ecc (m : Master) (v : Word) (e : Bool) : (s.seen m v e).ecc = s.ecc := rfl
@[simp] theorem State.seen_eccJobs (m : Master) (v : Word) (e : Bool) : (s.seen m v e).eccJobs = s.eccJobs := rfl
@[simp] theorem State.seen_ceGrown (m : Master) (v : Word) (e : Bool) : (s.seen m v e).ceGrown = s.ceGrown := rfl
@[simp] theorem State.seen_ueNew (m : Master) (v : Word) (e : Bool) : (s.seen m v e).ueNew = s.ueNew := rfl
@[simp] theorem State.seen_scrub (m : Master) (v : Word) (e : Bool) : (s.seen m v e).scrub = s.scrub := rfl
@[simp] theorem State.seen_freeCtr (m : Master) (v : Word) (e : Bool) : (s.seen m v e).freeCtr = s.freeCtr := rfl
@[simp] theorem State.seen_pending (m : Master) (v : Word) (e : Bool) : (s.seen m v e).pending = s.pending := rfl

/-! ### Raising an event -/

@[simp] theorem State.raiseAt_frame (n : Nat) (t : Option Nat) (w : Word) : (s.raiseAt n t w).frame = s.frame := by
  unfold State.raiseAt; split <;> [rfl; (split <;> rfl)]
@[simp] theorem State.raiseAt_sys (n : Nat) (t : Option Nat) (w : Word) : (s.raiseAt n t w).sys = s.sys := by
  unfold State.raiseAt; split <;> [rfl; (split <;> rfl)]
@[simp] theorem State.raiseAt_rtc (n : Nat) (t : Option Nat) (w : Word) : (s.raiseAt n t w).rtc = s.rtc := by
  unfold State.raiseAt; split <;> [rfl; (split <;> rfl)]
@[simp] theorem State.raiseAt_ticks (n : Nat) (t : Option Nat) (w : Word) : (s.raiseAt n t w).ticks = s.ticks := by
  unfold State.raiseAt; split <;> [rfl; (split <;> rfl)]
@[simp] theorem State.raiseAt_secDone (n : Nat) (t : Option Nat) (w : Word) : (s.raiseAt n t w).secDone = s.secDone := by
  unfold State.raiseAt; split <;> [rfl; (split <;> rfl)]
@[simp] theorem State.raiseAt_regs (n : Nat) (t : Option Nat) (w : Word) : (s.raiseAt n t w).regs = s.regs := by
  unfold State.raiseAt; split <;> [rfl; (split <;> rfl)]
@[simp] theorem State.raiseAt_latches (n : Nat) (t : Option Nat) (w : Word) : (s.raiseAt n t w).latches = s.latches := by
  unfold State.raiseAt; split <;> [rfl; (split <;> rfl)]
@[simp] theorem State.raiseAt_chg (n : Nat) (t : Option Nat) (w : Word) : (s.raiseAt n t w).chg = s.chg := by
  unfold State.raiseAt; split <;> [rfl; (split <;> rfl)]
@[simp] theorem State.raiseAt_commits (n : Nat) (t : Option Nat) (w : Word) : (s.raiseAt n t w).commits = s.commits := by
  unfold State.raiseAt; split <;> [rfl; (split <;> rfl)]
@[simp] theorem State.raiseAt_nextId (n : Nat) (t : Option Nat) (w : Word) : (s.raiseAt n t w).nextId = s.nextId := by
  unfold State.raiseAt; split <;> [rfl; (split <;> rfl)]
@[simp] theorem State.raiseAt_fab (n : Nat) (t : Option Nat) (w : Word) : (s.raiseAt n t w).fab = s.fab := by
  unfold State.raiseAt; split <;> [rfl; (split <;> rfl)]
@[simp] theorem State.raiseAt_clk (n : Nat) (t : Option Nat) (w : Word) : (s.raiseAt n t w).clk = s.clk := by
  unfold State.raiseAt; split <;> [rfl; (split <;> rfl)]
@[simp] theorem State.raiseAt_cands (n : Nat) (t : Option Nat) (w : Word) : (s.raiseAt n t w).cands = s.cands := by
  unfold State.raiseAt; split <;> [rfl; (split <;> rfl)]
@[simp] theorem State.raiseAt_dpll (n : Nat) (t : Option Nat) (w : Word) : (s.raiseAt n t w).dpll = s.dpll := by
  unfold State.raiseAt; split <;> [rfl; (split <;> rfl)]
@[simp] theorem State.raiseAt_lines (n : Nat) (t : Option Nat) (w : Word) : (s.raiseAt n t w).lines = s.lines := by
  unfold State.raiseAt; split <;> [rfl; (split <;> rfl)]
@[simp] theorem State.raiseAt_trunks (n : Nat) (t : Option Nat) (w : Word) : (s.raiseAt n t w).trunks = s.trunks := by
  unfold State.raiseAt; split <;> [rfl; (split <;> rfl)]
@[simp] theorem State.raiseAt_pairs (n : Nat) (t : Option Nat) (w : Word) : (s.raiseAt n t w).pairs = s.pairs := by
  unfold State.raiseAt; split <;> [rfl; (split <;> rfl)]
@[simp] theorem State.raiseAt_audio (n : Nat) (t : Option Nat) (w : Word) : (s.raiseAt n t w).audio = s.audio := by
  unfold State.raiseAt; split <;> [rfl; (split <;> rfl)]
@[simp] theorem State.raiseAt_hdlc (n : Nat) (t : Option Nat) (w : Word) : (s.raiseAt n t w).hdlc = s.hdlc := by
  unfold State.raiseAt; split <;> [rfl; (split <;> rfl)]
@[simp] theorem State.raiseAt_cores (n : Nat) (t : Option Nat) (w : Word) : (s.raiseAt n t w).cores = s.cores := by
  unfold State.raiseAt; split <;> [rfl; (split <;> rfl)]
@[simp] theorem State.raiseAt_tenants (n : Nat) (t : Option Nat) (w : Word) : (s.raiseAt n t w).tenants = s.tenants := by
  unfold State.raiseAt; split <;> [rfl; (split <;> rfl)]
@[simp] theorem State.raiseAt_queues (n : Nat) (t : Option Nat) (w : Word) : (s.raiseAt n t w).queues = s.queues := by
  unfold State.raiseAt; split <;> [rfl; (split <;> rfl)]
@[simp] theorem State.raiseAt_pend (n : Nat) (t : Option Nat) (w : Word) : (s.raiseAt n t w).pend = s.pend := by
  unfold State.raiseAt; split <;> [rfl; (split <;> rfl)]
@[simp] theorem State.raiseAt_pctrs (n : Nat) (t : Option Nat) (w : Word) : (s.raiseAt n t w).pctrs = s.pctrs := by
  unfold State.raiseAt; split <;> [rfl; (split <;> rfl)]
@[simp] theorem State.raiseAt_links (n : Nat) (t : Option Nat) (w : Word) : (s.raiseAt n t w).links = s.links := by
  unfold State.raiseAt; split <;> [rfl; (split <;> rfl)]
@[simp] theorem State.raiseAt_maint (n : Nat) (t : Option Nat) (w : Word) : (s.raiseAt n t w).maint = s.maint := by
  unfold State.raiseAt; split <;> [rfl; (split <;> rfl)]
@[simp] theorem State.raiseAt_pwr (n : Nat) (t : Option Nat) (w : Word) : (s.raiseAt n t w).pwr = s.pwr := by
  unfold State.raiseAt; split <;> [rfl; (split <;> rfl)]
@[simp] theorem State.raiseAt_rst (n : Nat) (t : Option Nat) (w : Word) : (s.raiseAt n t w).rst = s.rst := by
  unfold State.raiseAt; split <;> [rfl; (split <;> rfl)]
@[simp] theorem State.raiseAt_nvm (n : Nat) (t : Option Nat) (w : Word) : (s.raiseAt n t w).nvm = s.nvm := by
  unfold State.raiseAt; split <;> [rfl; (split <;> rfl)]
@[simp] theorem State.raiseAt_pnl (n : Nat) (t : Option Nat) (w : Word) : (s.raiseAt n t w).pnl = s.pnl := by
  unfold State.raiseAt; split <;> [rfl; (split <;> rfl)]
@[simp] theorem State.raiseAt_th (n : Nat) (t : Option Nat) (w : Word) : (s.raiseAt n t w).th = s.th := by
  unfold State.raiseAt; split <;> [rfl; (split <;> rfl)]
@[simp] theorem State.raiseAt_mem (n : Nat) (t : Option Nat) (w : Word) : (s.raiseAt n t w).mem = s.mem := by
  unfold State.raiseAt; split <;> [rfl; (split <;> rfl)]
@[simp] theorem State.raiseAt_aon (n : Nat) (t : Option Nat) (w : Word) : (s.raiseAt n t w).aon = s.aon := by
  unfold State.raiseAt; split <;> [rfl; (split <;> rfl)]
@[simp] theorem State.raiseAt_ecc (n : Nat) (t : Option Nat) (w : Word) : (s.raiseAt n t w).ecc = s.ecc := by
  unfold State.raiseAt; split <;> [rfl; (split <;> rfl)]
@[simp] theorem State.raiseAt_eccJobs (n : Nat) (t : Option Nat) (w : Word) : (s.raiseAt n t w).eccJobs = s.eccJobs := by
  unfold State.raiseAt; split <;> [rfl; (split <;> rfl)]
@[simp] theorem State.raiseAt_ceGrown (n : Nat) (t : Option Nat) (w : Word) : (s.raiseAt n t w).ceGrown = s.ceGrown := by
  unfold State.raiseAt; split <;> [rfl; (split <;> rfl)]
@[simp] theorem State.raiseAt_ueNew (n : Nat) (t : Option Nat) (w : Word) : (s.raiseAt n t w).ueNew = s.ueNew := by
  unfold State.raiseAt; split <;> [rfl; (split <;> rfl)]
@[simp] theorem State.raiseAt_scrub (n : Nat) (t : Option Nat) (w : Word) : (s.raiseAt n t w).scrub = s.scrub := by
  unfold State.raiseAt; split <;> [rfl; (split <;> rfl)]
@[simp] theorem State.raiseAt_last (n : Nat) (t : Option Nat) (w : Word) : (s.raiseAt n t w).last = s.last := by
  unfold State.raiseAt; split <;> [rfl; (split <;> rfl)]
@[simp] theorem State.raiseAt_freeCtr (n : Nat) (t : Option Nat) (w : Word) : (s.raiseAt n t w).freeCtr = s.freeCtr := by
  unfold State.raiseAt; split <;> [rfl; (split <;> rfl)]
@[simp] theorem State.raiseAt_pending (n : Nat) (t : Option Nat) (w : Word) : (s.raiseAt n t w).pending = s.pending := by
  unfold State.raiseAt; split <;> [rfl; (split <;> rfl)]

/-! ### What an update writes -/

@[simp] theorem State.setReg_reg (k : RegKind) (v : Word) (i j : Nat) : (s.setReg k v i j).reg k i j = v :=
  tabGet_put_same _ _ _ _
@[simp] theorem State.setAct_act (k : RegKind) (v : Word) (i j : Nat) : (s.setAct k v i j).act k i j = v :=
  tabGet_put_same _ _ _ _
@[simp] theorem State.setTen_ten (t : Nat) (v : Tenant) : (s.setTen t v).ten t = v := tabGet_put_same _ _ _ _
@[simp] theorem State.setCore_core (n : Nat) (c : Core) : (s.setCore n c).core n = c := tabGet_put_same _ _ _ _
@[simp] theorem State.setLatch_latch (m : Master) (a : Nat) (v : Word) : (s.setLatch m a v).latch m a = v :=
  tabGet_put_same _ _ _ _
@[simp] theorem State.setByte_byte (a : Nat) (v : Byte) : (s.setByte a v).byte a = v := tabGet_put_same _ _ _ _
@[simp] theorem State.setEcc_ecc_same (w : Nat) (v : WordErr) : (s.setEcc w v).eccOf w = v := tabGet_put_same _ _ _ _
@[simp] theorem State.setQueue_queue (q : Nat) (v : Queue) : (s.setQueue q v).queue q = v := tabGet_put_same _ _ _ _
@[simp] theorem State.setConn_conn (n : Nat) (c : Copies) : (s.setConn n c).conn n = c := tabGet_put_same _ _ _ _
@[simp] theorem State.setSel_sel (n : Nat) (c : Copies) : (s.setSel n c).sel n = c := tabGet_put_same _ _ _ _
@[simp] theorem State.setChange_change (a : Nat) (c : Change) : (s.setChange a c).change a = c :=
  tabGet_put_same _ _ _ _
@[simp] theorem State.setPctr_pctr (n k : Nat) (c : PCtr) : (s.setPctr n k c).pctr n k = c := tabGet_put_same _ _ _ _
@[simp] theorem State.setLink_link (k : Nat) (l : Link) : (s.setLink k l).link k = l := tabGet_put_same _ _ _ _

theorem State.setCore_core_ne {n m : Nat} (c : Core) (h : m ≠ n) : (s.setCore n c).core m = s.core m := by
  simp only [State.setCore, State.core]; apply tabGet_put_ne; exact h
theorem State.setByte_byte_ne {a b : Nat} (v : Byte) (h : b ≠ a) : (s.setByte a v).byte b = s.byte b := by
  simp only [State.setByte, State.byte]; apply tabGet_put_ne; exact h
theorem State.setEcc_ecc_ne {w x : Nat} (v : WordErr) (h : x ≠ w) : (s.setEcc w v).eccOf x = s.eccOf x := by
  simp only [State.setEcc, State.eccOf]; apply tabGet_put_ne; exact h
theorem State.setQueue_queue_ne {q r : Nat} (v : Queue) (h : r ≠ q) : (s.setQueue q v).queue r = s.queue r := by
  simp only [State.setQueue, State.queue]; apply tabGet_put_ne; exact h
theorem State.setTen_ten_ne {t u : Nat} (v : Tenant) (h : u ≠ t) : (s.setTen t v).ten u = s.ten u := by
  simp only [State.setTen, State.ten]; apply tabGet_put_ne; exact h
theorem State.setLink_link_ne {k l : Nat} (v : Link) (h : l ≠ k) : (s.setLink k v).link l = s.link l := by
  simp only [State.setLink, State.link]; apply tabGet_put_ne; exact h
theorem State.setReg_reg_ne (k : RegKind) (v : Word) (i j : Nat) {k' : RegKind} {i' j' : Nat}
    (h : k'.addr i' j' ≠ k.addr i j) : (s.setReg k v i j).reg k' i' j' = s.reg k' i' j' := by
  simp only [State.setReg, State.reg]; apply tabGet_put_ne; exact h

/-- What the register at an address reads as after a register write. -/
theorem State.setReg_get (d : Nat → Word) (k : RegKind) (v : Word) (i j : Nat) {a : Nat} (h : a ≠ k.addr i j) :
    tabGet d (s.setReg k v i j).regs a = tabGet d s.regs a := by
  simp only [State.setReg]; apply tabGet_put_ne; exact h

@[simp] theorem State.setCore_ctx (n : Nat) (c : Core) : (s.setCore n c).ctx n = c.ctx := by
  unfold State.ctx; simp

end Sys2Proof.Machine
end

