-- ==== Sys2Proof/Laws/Run.lean ====
section
/-!
SUPPORT. Laws/Run.lean: how parts and registers that are kept compose, what the logic after every command can change,
and how a command ends.
-/
namespace Sys2Proof.Machine

/-! ### Kept parts and registers -/

theorem Part.same_refl (p : Part) (s : State) : p.same s s := by cases p <;> simp [Part.same]

theorem Part.same_trans {p : Part} {s t u : State} (h : p.same s t) (g : p.same t u) : p.same s u := by
  cases p <;> simp only [Part.same] at * <;> simp_all

theorem Kept.refl (but : List Part) (s : State) : Kept but s s := fun p _ => p.same_refl s

theorem Kept.mono {b c : List Part} {s t : State} (h : Kept b s t) (hbc : b ⊆ c) : Kept c s t :=
  fun p hp => h p fun q => hp (hbc q)

theorem Kept.trans {b : List Part} {s t u : State} (h : Kept b s t) (g : Kept b t u) : Kept b s u :=
  fun p hp => Part.same_trans (h p hp) (g p hp)

theorem RegsKept.refl (but : List Nat) (s : State) : RegsKept but s s := fun _ _ _ _ => rfl

theorem RegsKept.mono {b c : List Nat} {s t : State} (h : RegsKept b s t) (hbc : b ⊆ c) : RegsKept c s t :=
  fun d a ha hs => h d a (fun q => ha (hbc q)) hs

theorem RegsKept.trans {b : List Nat} {s t u : State} (h : RegsKept b s t) (g : RegsKept b t u) : RegsKept b s u :=
  fun d a ha hs => (g d a ha hs).trans (h d a ha hs)

/-- A state with the same registers keeps them all. -/
theorem RegsKept.of_eq {s t : State} (h : t.regs = s.regs) (but : List Nat) : RegsKept but s t :=
  fun _ _ _ _ => by rw [h]

theorem RegsKept.setReg (s : State) (k : RegKind) (v : Word) (i j : Nat) (but : List Nat)
    (h : k.addr i j ∈ but ∨ settles (k.addr i j)) : RegsKept but s (s.setReg k v i j) := fun d a ha hs =>
  s.setReg_get d k v i j (by rintro rfl; rcases h with h | h <;> contradiction)

/-- A register that is kept reads as it did. -/
theorem RegsKept.reg {but : List Nat} {s t : State} (h : RegsKept but s t) (k : RegKind) (i j : Nat)
    (hb : k.addr i j ∉ but) (hs : ¬settles (k.addr i j)) : t.reg k i j = s.reg k i j := h _ _ hb hs

theorem RegsKept.field {but : List Nat} {s t : State} (h : RegsKept but s t) (f : FieldRef) (i j : Nat)
    (hb : f.k.addr i j ∉ but) (hs : ¬settles (f.k.addr i j)) : t.f f i j = s.f f i j := by
  unfold State.f; rw [h.reg _ _ _ hb hs]

theorem Kept.setReg (s : State) (k : RegKind) (v : Word) (i j : Nat) : Kept [.regs] s (s.setReg k v i j) :=
  fun p hp => by cases p <;> simp_all [Part.same]

theorem Kept.raiseAt (s : State) (n : Nat) (t : Option Nat) (w : Word) : Kept [.events] s (s.raiseAt n t w) :=
  fun p hp => by cases p <;> simp_all [Part.same]

/-! ### The logic after every command -/

theorem statusAddr (i : Nat) (h : i = 0) : RegKind.PWR_STATUS.addr i 0 = 0x01200004 := by subst h; rfl

theorem settles_status : settles (RegKind.PWR_STATUS.addr 0 0) := .inl rfl

theorem NewEvents.refl (s : State) : NewEvents [] s s := ⟨⟨[], by simp, by simp⟩, fun _ h => .inl h⟩

theorem NewEvents.trans {es : List Raised} {s t u : State} (h : NewEvents es s t) (g : NewEvents [] t u) :
    NewEvents es s u := by
  obtain ⟨⟨l, hl, h1⟩, h2⟩ := h
  obtain ⟨⟨m, hm, g1⟩, g2⟩ := g
  refine ⟨⟨l ++ m, ?_, by rw [g1, h1]; simp⟩, fun n hn => ?_⟩
  · intro e he
    rcases List.mem_append.mp he with he | he
    · exact hl e he
    · exact hm e he
  · rcases g2 n hn with hn | hn
    · exact h2 n hn
    · exact .inr hn

theorem NewEvents.of_eq {s t : State} (h : t.raised = s.raised) (g : t.held = s.held) : NewEvents [] s t :=
  ⟨⟨[], by simp, by simp [h]⟩, fun _ hn => .inl (g ▸ hn)⟩

/-- An event that is raised while the router runs. -/
theorem NewEvents.raiseAt (s : State) (n : Nat) (t : Option Nat) (w : Word) (h : s.fabUp = true) :
    NewEvents [⟨n, t, w⟩] s (s.raiseAt n t w) := by
  unfold State.raiseAt
  rw [if_pos h]
  exact ⟨⟨[], by simp, by simp⟩, fun _ hn => .inl hn⟩

/-- A step of the logic after a command: registers that settle, and their events. -/
def Settling (s t : State) : Prop := Only [] [] [] s t

theorem Settling.refl (s : State) : Settling s s := ⟨Kept.refl _ _, RegsKept.refl _ _, NewEvents.refl s⟩

theorem Settling.trans {s t u : State} (h : Settling s t) (g : Settling t u) : Settling s u :=
  ⟨h.1.trans g.1, h.2.trans g.2, h.3.trans g.3⟩

theorem Settling.raiseAt (s : State) (n : Nat) (t : Option Nat) (w : Word) (h : settleEvent n) :
    Settling s (s.raiseAt n t w) := by
  refine ⟨(Kept.raiseAt s n t w).mono (by simp), RegsKept.of_eq (by simp) _, ?_⟩
  unfold State.raiseAt
  split
  · exact ⟨⟨[⟨n, t, w⟩], by simpa using h, by simp⟩, fun _ hn => .inl hn⟩
  · split
    · refine ⟨⟨[], by simp, by simp⟩, fun m hm => ?_⟩
      rcases List.mem_append.mp hm with hm | hm
      · exact .inl hm
      · simp only [List.mem_singleton] at hm; exact .inr (hm ▸ h)
    · exact NewEvents.refl s

theorem Settling.setReg (s : State) (k : RegKind) (v : Word) (i j : Nat) (h : settles (k.addr i j)) :
    Settling s (s.setReg k v i j) :=
  ⟨(Kept.setReg s k v i j).mono (by simp), RegsKept.setReg s k v i j _ (.inr h), .of_eq rfl rfl⟩

theorem Settling.setStatus (s : State) (f : FieldRef) (hf : f.k = .PWR_STATUS) (n : Nat) :
    Settling s (s.setF f n) := by
  unfold State.setF; rw [hf]; exact Settling.setReg _ _ _ _ _ settles_status

theorem Settling.ite {c : Prop} [Decidable c] {s t u : State} (h : Settling s t) (g : Settling s u) :
    Settling s (if c then t else u) := by split <;> assumption

theorem Settling.foldl {α : Type} (f : State → α → State) (h : ∀ s a, Settling s (f s a)) (l : List α) (s : State) :
    Settling s (l.foldl f s) := by
  induction l generalizing s with
  | nil => exact Settling.refl s
  | cons a l ih => exact (h s a).trans (ih _)

theorem settling_allow (s : State) : Settling s s.allow := by
  unfold State.allow State.raise
  refine Settling.trans ?_ (Settling.ite (Settling.refl _) (Settling.setStatus _ _ rfl _))
  refine Settling.trans ?_ (Settling.ite ((Settling.setStatus _ _ rfl _).trans (Settling.raiseAt _ _ _ _ (by unfold settleEvent; omega)))
    (Settling.refl _))
  exact Settling.ite (Settling.refl _) ((Settling.setStatus _ _ rfl _).trans (Settling.raiseAt _ _ _ _ (by unfold settleEvent; omega)))

theorem settling_doze (s : State) : Settling s s.doze := by
  unfold State.doze State.raise
  exact Settling.ite (Settling.refl _) ((Settling.setStatus _ _ rfl _).trans (Settling.raiseAt _ _ _ _ (by unfold settleEvent; omega)))

theorem settles_qsum (q : Nat) (h : q < 16384) : settles (RegKind.QSUM.addr (q / 256) (q % 256 / 32)) := by
  right
  show 0x011C4000 ≤ 0x011C4000 + q / 256 * 0x20 + q % 256 / 32 * 4 ∧ _ < _
  exact ⟨by omega, by show 0x011C4000 + q / 256 * 0x20 + q % 256 / 32 * 4 < _; omega⟩

theorem settling_qsumOne (s : State) (e : Nat × Queue) : Settling s (s.qsumOne e) := by
  unfold State.qsumOne State.raiseTo State.setBit
  split
  · rename_i h
    simp only [Bool.and_eq_true, decide_eq_true_eq] at h
    exact (Settling.setReg _ _ _ _ _ (settles_qsum _ h.1.2)).trans (Settling.raiseAt _ _ _ _ (by unfold settleEvent; omega))
  · exact Settling.refl s

theorem settling_settle (s : State) : Settling s s.settle := by
  unfold State.settle State.qsums
  refine Settling.ite (Settling.refl _) ?_
  refine ((settling_allow s).trans (settling_doze _)).trans (Settling.ite ?_ (Settling.refl _))
  exact Settling.foldl _ settling_qsumOne _ _

/-! ### How a command ends -/

/-- Two changes after one another, the second of the logic after a command. -/
theorem Only.settled {b : List Part} {r : List Nat} {es : List Raised} {s t u : State} (h : Only b r es s t)
    (g : Settling t u) : Only b r es s u :=
  ⟨h.1.trans (g.1.mono (by simp)), h.2.trans (g.2.mono (by simp)), h.3.trans g.3⟩

/-- A command whose meaning is `run f` ends in a state that differs from what `f` made only as the logic after every
command allows. -/
theorem ends_run {c : Instr} {s : State} {f : State → State} {P : State → Prop} (hc : exec c s = run f s)
    (h : ∀ t, Settling (f s) t → P t) : Ends c s P := by
  refine ⟨_, hc, h _ ?_⟩
  have hs := settling_settle (f s)
  refine ⟨fun p hp => ?_, hs.2, hs.3⟩
  have := hs.1 p hp
  cases p <;> exact this

/-- A register that does not settle is as the command's own effect left it. -/
theorem Settling.reg {s t : State} (h : Settling s t) (k : RegKind) (i j : Nat) (hs : ¬settles (k.addr i j)) :
    t.reg k i j = s.reg k i j := h.2.reg k i j (by simp) hs

theorem Settling.field {s t : State} (h : Settling s t) (f : FieldRef) (i j : Nat) (hs : ¬settles (f.k.addr i j)) :
    t.f f i j = s.f f i j := h.2.field f i j (by simp) hs

end Sys2Proof.Machine
end

