-- ==== Sys2Proof/Laws/Access.lean ====
section
/-!
SUPPORT. Laws/Access.lean: what a read and a write of a named register come to when they are served, and how changes
that leave the rest alone compose.
-/
namespace Sys2Proof.Machine

theorem addr_aligned (k : RegKind) (i j : Nat) : k.addr i j % 4 = 0 := by
  have h : k.info.base % 4 = 0 ∧ k.info.s1 % 4 = 0 ∧ k.info.s2 % 4 = 0 ∧ 0x100000 ≤ k.info.base := by
    cases k <;> decide
  obtain ⟨h1, h2, h3, h4⟩ := h
  by_cases hk : k.noQueue = true
  · rw [RegKind.addr_eq hk, Nat.add_mod, Nat.add_mod k.info.base, Nat.mul_mod, Nat.mul_mod j, h1, h2, h3]; simp
  · have ha : k.addr i j = if i < 8192 then k.info.base + i * 32 else k.info.base - 0x100000 + (i - 8192) * 32 := by
      cases k <;> first | exact absurd rfl hk | rfl
    rw [ha]; split <;> omega

/-- A served write of a named register. -/
theorem regWrite_ok {m : Master} {k : RegKind} {i j : Nat} {s : State} (h : CanWrite m k i j s) (hi : k.has i j)
    (ha : k.info.wr ≠ .active) {v : Word} (hv : codesBad k v = false) :
    s.regWrite m k i j v =
      (s.writeReg m ⟨k, i, j, false⟩ v).1.seen m 0 (s.writeReg m ⟨k, i, j, false⟩ v).2 := by
  obtain ⟨h1, h2, h3⟩ := h
  unfold State.regWrite State.busWrite State.ctlWrite State.ctlWord
  simp only [h1, if_true, addr_aligned, regAt_has hi, h2, h3, ha, hv, ne_eq, not_true_eq_false, or_self, if_false,
    Bool.not_true, Bool.or_self, Bool.false_eq_true, decide_false]

/-- A write that the rights of its tenant, the register's domain or its codes refuse: an access error and nothing
else. -/
theorem regWrite_refused {m : Master} {k : RegKind} {i j : Nat} {s : State} (hl : s.masterLive m = true)
    (hi : k.has i j) {v : Word}
    (h : s.reach ⟨k, i, j, false⟩ = false ∨ s.mayWrite m ⟨k, i, j, false⟩ = false ∨ k.info.wr = .active ∨
      codesBad k v = true) : s.regWrite m k i j v = s.seen m 0 true := by
  unfold State.regWrite State.busWrite State.ctlWrite State.ctlWord
  simp only [hl, if_true, addr_aligned, regAt_has hi, ne_eq, not_true_eq_false, or_self, if_false]
  rcases h with h | h | h | h <;> simp [h]

/-- A served read of a named register. -/
theorem busRead_ok {m : Master} {k : RegKind} {i j : Nat} {s : State} (h : CanRead m k i j s) (hi : k.has i j) :
    s.busRead m (k.addr i j) =
      (s.readReg m ⟨k, i, j, false⟩).1.seen m (s.readReg m ⟨k, i, j, false⟩).2 false := by
  obtain ⟨h1, h2, h3⟩ := h
  unfold State.busRead State.ctlRead State.ctlWordRead
  simp only [h1, if_true, addr_aligned, regAt_has hi, h2, h3, ne_eq, not_true_eq_false, or_self, if_false,
    Bool.not_true, Bool.or_self, Bool.false_eq_true]

/-! ### Changes that leave the rest alone -/

theorem Only.refl (b : List Part) (r : List Nat) (s : State) : Only b r [] s s :=
  ⟨Kept.refl _ _, RegsKept.refl _ _, NewEvents.refl s⟩

theorem Only.trans {b : List Part} {r : List Nat} {es : List Raised} {s t u : State} (h : Only b r es s t)
    (g : Only b r [] t u) : Only b r es s u := ⟨h.1.trans g.1, h.2.trans g.2, h.3.trans g.3⟩

theorem Only.mono {b b' : List Part} {r r' : List Nat} {es : List Raised} {s t : State} (h : Only b r es s t)
    (hb : b ⊆ b') (hr : r ⊆ r') : Only b' r' es s t :=
  ⟨h.1.mono (List.append_subset.mpr ⟨fun _ hx => List.mem_append_left _ (hb hx), List.subset_append_right _ _⟩),
    h.2.mono hr, h.3⟩

/-- A change of the parts listed, with registers and events as they were. -/
theorem Only.of_kept {b : List Part} {s t : State} (h : Kept b s t) (hr : t.regs = s.regs)
    (he : t.raised = s.raised) (hh : t.held = s.held) (r : List Nat) : Only b r [] s t :=
  ⟨h.mono (by simp), RegsKept.of_eq hr _, .of_eq he hh⟩

theorem Only.setReg (s : State) (k : RegKind) (v : Word) (i j : Nat) (b : List Part) {r : List Nat}
    (h : k.addr i j ∈ r ∨ settles (k.addr i j)) : Only b r [] s (s.setReg k v i j) :=
  ⟨(Kept.setReg s k v i j).mono (by simp), RegsKept.setReg s k v i j _ h, .of_eq rfl rfl⟩

theorem Only.setF (s : State) (f : FieldRef) (n i j : Nat) (b : List Part) {r : List Nat}
    (h : f.k.addr i j ∈ r ∨ settles (f.k.addr i j)) : Only b r [] s (s.setF f n i j) :=
  Only.setReg s f.k _ i j b h

theorem Only.seen (s : State) (m : Master) (v : Word) (e : Bool) : Only [.last] [] [] s (s.seen m v e) :=
  .of_kept (s := s) (t := s.seen m v e) (fun p hp => by cases p <;> simp_all [Part.same, State.seen]) rfl rfl rfl _

/-- An event raised after a change that raised none. -/
theorem Only.raiseAt {b : List Part} {r : List Nat} {s t : State} (h : Only b r [] s t) (hr : t.raised = s.raised)
    (hh : t.held = s.held) (n : Nat) (o : Option Nat) (w : Word) (hu : t.fabUp = true) :
    Only b r [⟨n, o, w⟩] s (t.raiseAt n o w) := by
  refine ⟨h.1.trans ((Kept.raiseAt t n o w).mono (by simp)), h.2.trans (RegsKept.of_eq (by simp) _), ?_⟩
  unfold State.raiseAt
  rw [if_pos hu]
  exact ⟨⟨[], by simp, by simp [hr]⟩, fun m hm => .inl (hh ▸ hm)⟩

end Sys2Proof.Machine
end

