-- ==== Sys2Proof/Laws/Field.lean ====
section
/-!
SUPPORT. Laws/Field.lean: reading a field of a register after a write of a field.
-/
namespace Sys2Proof.Machine

/-- A field reads as what was put into it. -/
theorem fieldOf_withField (w : Word) (lo width n : Nat) (h : lo + width ≤ 32) :
    fieldOf (withField w lo width n) lo width = n % 2 ^ width := by
  unfold fieldOf withField
  apply Nat.eq_of_testBit_eq
  intro i
  rw [Nat.testBit_mod_two_pow, Nat.testBit_mod_two_pow, Nat.testBit_shiftRight]
  by_cases hi : i < width
  · simp only [hi, decide_true, Bool.true_and]
    rw [BitVec.testBit_toNat]
    simp only [BitVec.getLsbD_or, BitVec.getLsbD_and, BitVec.getLsbD_not, BitVec.getLsbD_ofNat]
    have h32 : lo + i < 32 := by omega
    simp [h32, Nat.testBit_shiftLeft, Nat.testBit_two_pow_sub_one, hi, Nat.testBit_mod_two_pow]
  · simp [hi]

/-- A field reads as before after a write of a field beside it. -/
theorem fieldOf_withField_ne (w : Word) (lo width lo' width' n : Nat) (h : lo + width ≤ lo' ∨ lo' + width' ≤ lo) :
    fieldOf (withField w lo' width' n) lo width = fieldOf w lo width := by
  unfold fieldOf withField
  apply Nat.eq_of_testBit_eq
  intro i
  rw [Nat.testBit_mod_two_pow, Nat.testBit_mod_two_pow, Nat.testBit_shiftRight, Nat.testBit_shiftRight]
  by_cases hi : i < width
  · simp only [hi, decide_true, Bool.true_and]
    rw [BitVec.testBit_toNat, BitVec.testBit_toNat]
    simp only [BitVec.getLsbD_or, BitVec.getLsbD_and, BitVec.getLsbD_not, BitVec.getLsbD_ofNat]
    rcases h with h | h
    · have : ¬(lo' ≤ lo + i) := by omega
      simp [Nat.testBit_shiftLeft, this, Nat.testBit_two_pow_sub_one]
      intro hh; have := BitVec.lt_of_getLsbD hh; omega
    · have h2 : ¬(lo + i - lo' < width') := by omega
      simp [Nat.testBit_shiftLeft, h2, Nat.testBit_two_pow_sub_one, Nat.testBit_mod_two_pow]
      intro hh; have := BitVec.lt_of_getLsbD hh; omega
  · simp [hi]

theorem fieldOf_lt (w : Word) (lo width : Nat) : fieldOf w lo width < 2 ^ width :=
  Nat.mod_lt _ (Nat.two_pow_pos _)

/-- A field of a register after it was set. -/
theorem State.setF_f (s : State) (f : FieldRef) (n i j : Nat) (h : f.lo + f.w ≤ 32) :
    (s.setF f n i j).f f i j = n % 2 ^ f.w := by
  simp only [State.setF, State.f, State.setReg_reg]
  exact fieldOf_withField _ _ _ _ h

/-- A field of a register after another field of it was set. -/
theorem State.setF_f_ne (s : State) (f g : FieldRef) (n i j : Nat) (hk : g.k = f.k)
    (h : g.lo + g.w ≤ f.lo ∨ f.lo + f.w ≤ g.lo) : (s.setF f n i j).f g i j = s.f g i j := by
  simp only [State.setF, State.f, hk, State.setReg_reg]
  exact fieldOf_withField_ne _ _ _ _ _ _ h

/-- A field of a register at another address. -/
theorem State.setF_f_addr (s : State) (f g : FieldRef) (n i j i' j' : Nat) (h : g.k.addr i' j' ≠ f.k.addr i j) :
    (s.setF f n i j).f g i' j' = s.f g i' j' := by
  unfold State.setF State.f
  rw [State.setReg_reg_ne _ _ _ _ _ h]

end Sys2Proof.Machine
end

