-- ==== Sys2Proof/Laws/Core.lean ====
section
/-!
SUPPORT. Laws/Core.lean: what the cycles, the fetch and the boundary of an instruction leave as it was, and what
`State.instr` is for a core that executes.
-/
namespace Sys2Proof.Machine

/-- Everything that the cycles of core `n` leave: all of `Completes` with the context unchanged, and no word of pond
memory becomes uncorrectable. -/
structure Beside (n : Nat) (s t : State) : Prop where
  completes : Completes [] n s t (s.ctx n)
  ecc : ∀ w, (t.eccOf w).ue = true → (s.eccOf w).ue = true

theorem CoreKept.refl (n : Nat) (s : State) : CoreKept n s s := ⟨rfl, rfl, rfl, rfl, rfl, rfl, rfl, rfl, rfl, rfl⟩

theorem CoreKept.trans {n : Nat} {s t u : State} (h : CoreKept n s t) (g : CoreKept n t u) : CoreKept n s u := by
  unfold CoreKept at *; simp_all

theorem CoreKept.of_eq {n : Nat} {s t : State} (h : t.core n = s.core n) : CoreKept n s t := by
  unfold CoreKept; simp [h]

theorem Around.refl (b : List Part) (n : Nat) (s : State) : Around b n s s :=
  ⟨Kept.refl _ _, RegsKept.refl _ _, fun _ _ => rfl⟩

theorem Around.trans {b : List Part} {n : Nat} {s t u : State} (h : Around b n s t) (g : Around b n t u) :
    Around b n s u :=
  ⟨h.kept.trans g.kept, h.regs.trans g.regs, fun m hm => (g.others m hm).trans (h.others m hm)⟩

theorem Around.mono {b c : List Part} {n : Nat} {s t : State} (h : Around b n s t) (hbc : b ⊆ c) : Around c n s t :=
  ⟨h.kept.mono (List.append_subset.mpr ⟨fun _ hx => List.mem_append_left _ (hbc hx), List.subset_append_right _ _⟩),
    h.regs, h.others⟩

theorem Beside.refl (n : Nat) (s : State) : Beside n s s :=
  ⟨⟨Around.refl _ _ _, CoreKept.refl _ _, rfl⟩, fun _ h => h⟩

theorem Beside.trans {n : Nat} {s t u : State} (h : Beside n s t) (g : Beside n t u) : Beside n s u :=
  ⟨⟨h.completes.around.trans g.completes.around, h.completes.core.trans g.completes.core,
    g.completes.ctx.trans h.completes.ctx⟩, fun w hw => h.ecc w (g.ecc w hw)⟩

theorem Beside.ite {n : Nat} {c : Prop} [Decidable c] {s t u : State} (h : Beside n s t) (g : Beside n s u) :
    Beside n s (if c then t else u) := by split <;> assumption

theorem Beside.foldl {α : Type} {n : Nat} {f : State → α → State} (h : ∀ s a, Beside n s (f s a)) (l : List α)
    (s : State) : Beside n s (l.foldl f s) := by
  induction l generalizing s with
  | nil => exact Beside.refl n s
  | cons a l ih => exact (h s a).trans (ih _)

/-- A change of parts that an instruction may touch, with the cores and check bits as they were. -/
theorem Beside.of_kept {n : Nat} {s t : State} (h : Kept [.regs, .events, .counters, .free] s t)
    (hr : RegsKept (bookRegs n) s t) : Beside n s t := by
  have hc : t.cores = s.cores := h .cores (by simp)
  have he : t.ecc = s.ecc ∧ _ := h .ecc (by simp)
  have hcore : ∀ m, t.core m = s.core m := fun m => by unfold State.core; rw [hc]
  refine ⟨⟨⟨h.mono (by simp), hr, fun m _ => hcore m⟩, .of_eq (hcore n), ?_⟩, fun w => ?_⟩
  · unfold State.ctx; rw [hcore]
  · unfold State.eccOf; rw [he.1]; exact id

theorem Beside.setReg {n : Nat} (s : State) (k : RegKind) (v : Word) (i j : Nat) (h : k.addr i j ∈ bookRegs n) :
    Beside n s (s.setReg k v i j) :=
  .of_kept ((Kept.setReg s k v i j).mono (by simp)) (RegsKept.setReg s k v i j _ (.inl h))

theorem Beside.setF {n : Nat} (s : State) (f : FieldRef) (x i j : Nat) (h : f.k.addr i j ∈ bookRegs n) :
    Beside n s (s.setF f x i j) := Beside.setReg s _ _ _ _ h

theorem Beside.raiseAt (n : Nat) (s : State) (e : Nat) (t : Option Nat) (w : Word) : Beside n s (s.raiseAt e t w) :=
  .of_kept ((Kept.raiseAt s e t w).mono (by simp)) (RegsKept.of_eq (by simp) _)

theorem Beside.setPctr (n : Nat) (s : State) (m k : Nat) (c : PCtr) : Beside n s (s.setPctr m k c) :=
  .of_kept (fun p hp => by cases p <;> simp_all [Part.same]) (RegsKept.of_eq (by simp) _)

theorem Beside.bump {n : Nat} (s : State) (f : FieldRef) (x : Nat) (i j : Nat) (h : f.k.addr i j ∈ bookRegs n) :
    Beside n s (s.bump f x none i j) := by
  unfold State.bump
  dsimp only
  split <;> exact Beside.setF _ _ _ _ _ h

/-- A new core record that keeps what `CoreKept` names and the running context. -/
theorem Beside.setCore {n : Nat} (s : State) (c : Core) (hc : CoreKept n s (s.setCore n c))
    (hx : c.ctx = (s.core n).ctx) : Beside n s (s.setCore n c) :=
  ⟨⟨⟨fun p hp => by cases p <;> simp_all [Part.same], RegsKept.of_eq (by simp) _,
    fun m hm => s.setCore_core_ne c hm⟩, hc, by rw [s.setCore_ctx, hx]; rfl⟩, fun w => id⟩

/-- Two core records that differ only in what cycles and fetches change. -/
def Core.Like (c d : Core) : Prop :=
  c.st = d.st ∧ c.inHandler = d.inHandler ∧ c.main = d.main ∧ c.hand = d.hand ∧ c.haltReq = d.haltReq ∧
    c.bps = d.bps ∧ c.regSel = d.regSel ∧ c.restart = d.restart ∧ c.startAt = d.startAt ∧ c.wasRun = d.wasRun ∧
    c.seq = d.seq

theorem Beside.like {n : Nat} (s : State) (c : Core) (h : c.Like (s.core n)) : Beside n s (s.setCore n c) := by
  obtain ⟨h1, h2, h3, h4, h5, h6, h7, h8, h9, h10, h11⟩ := h
  refine .setCore s c ?_ ?_
  · unfold CoreKept Core.otherCtx; rw [State.setCore_core, h2, h3, h4]; exact ⟨h1, rfl, rfl, h5, h6, h7, h8, h9, h10, h11⟩
  · unfold Core.ctx; rw [h2, h3, h4]

theorem Core.Like.refl (c : Core) : c.Like c := ⟨rfl, rfl, rfl, rfl, rfl, rfl, rfl, rfl, rfl, rfl, rfl⟩

/-! ### Cycles -/

theorem Beside.perfOne (s : State) (n k : Nat) (hold : Bool) (v : List (Nat × Nat)) (t : Nat) :
    Beside n s (s.perfOne n k hold v t) := by
  unfold State.perfOne
  extract_lets ctl sel total
  split
  · exact .refl _ _
  · split
    · exact .setPctr _ _ _ _ _
    · exact .refl _ _

theorem Beside.perf (s : State) (n : Nat) (v : List (Nat × Nat)) (t : Nat) : Beside n s (s.perf n v t) :=
  Beside.foldl (fun s k => Beside.perfOne s n k _ v t) _ _

theorem Beside.perfBoundary (s : State) (n : Nat) : Beside n s (s.perfBoundary n) := by
  unfold State.perfBoundary
  refine Beside.foldl (fun s k => ?_) _ _
  dsimp only
  split
  · exact .setPctr _ _ _ _ _
  · exact .refl _ _

theorem Beside.eccClear (n : Nat) (l : List Nat) (s : State) :
    Beside n s (l.foldl (fun s w => s.setEcc w .good) s) := by
  have h : ∀ (s : State) (w : Nat), Beside n s (s.setEcc w .good) := fun s w =>
    ⟨⟨⟨fun p hp => by cases p <;> simp_all [Part.same], RegsKept.of_eq rfl _, fun _ _ => rfl⟩, .of_eq rfl, rfl⟩,
      fun x hx => by
        by_cases h : x = w
        · subst h; simp [WordErr.ue] at hx
        · rwa [s.setEcc_ecc_ne _ h] at hx⟩
  exact Beside.foldl h l s

theorem Beside.eccRead (n : Nat) (s : State) (m p : Nat) (ws : List Nat) : Beside n s (s.eccRead m p ws).1 := by
  have hue : ∀ u : State, Beside n u { u with ueNew := true } := fun u =>
    ⟨⟨⟨fun p hp => by cases p <;> simp_all [Part.same], RegsKept.of_eq rfl _, fun _ _ => rfl⟩, .of_eq rfl, rfl⟩,
      fun _ h => h⟩
  have hce : ∀ (u : State) (b : Bool), Beside n u { u with ceGrown := b } := fun u b =>
    ⟨⟨⟨fun p hp => by cases p <;> simp_all [Part.same], RegsKept.of_eq rfl _, fun _ _ => rfl⟩, .of_eq rfl, rfl⟩,
      fun _ h => h⟩
  have b : ∀ (u : State) (f : FieldRef) (x : Nat), f.k = .POND_ECC_CE_COUNT ∨ f.k = .POND_ECC_UE_COUNT →
      Beside n u (u.bump f x none) := fun u f x h => .bump _ _ _ _ _ (by rcases h with h | h <;> simp [h, bookRegs])
  have f : ∀ (u : State) (f : FieldRef) (x : Nat), f.k = .POND_ECC_UE_INFO → Beside n u (u.setF f x) :=
    fun u f x h => .setF _ _ _ _ _ (by simp [h, bookRegs])
  unfold State.eccRead
  extract_lets ce s0 s1 s2 s3
  have h1 : Beside n s s1 := by
    dsimp only [s1]
    split
    · exact .refl _ _
    · exact (b _ _ _ (.inl rfl)).trans (hce _ _)
  have h2 : Beside n s s2 := by
    dsimp only [s2]
    split
    · exact h1.trans (f _ _ _ rfl)
    · exact h1
  have h3 : Beside n s s3 := by
    dsimp only [s3]
    split
    · exact h2.trans (f _ _ _ rfl)
    · exact h2.trans (b _ _ _ (.inr rfl))
  clear_value s3 s2 s1
  split
  · exact h2.trans (.eccClear _ _ _)
  · extract_lets s4 s5 s6
    have h4 : Beside n s s4 := h3.trans (.setReg _ _ _ _ _ (by simp [bookRegs]))
    have h5 : Beside n s s5 := h4.trans (f _ _ _ rfl)
    have h6 : Beside n s s6 := h5.trans ((f _ _ _ rfl).trans (f _ _ _ rfl))
    exact h6.trans (hue _)

theorem Beside.loadLines (n k : Nat) (s : State) : Beside n s (s.loadLines n k) := by
  induction k generalizing s with
  | zero => exact .refl _ _
  | succ k ih =>
    unfold State.loadLines
    extract_lets c
    split
    · exact .refl _ _
    · rename_i l hl
      split
      · extract_lets line set ok r l' c' s1 s2
        have hr : Beside n s r.1 := by
          dsimp only [r]
          split
          · exact .eccRead _ _ _ _ _
          · exact .refl _ _
        have h1 : Beside n s s1 := by
          refine ⟨⟨⟨hr.completes.around.kept.trans (fun p hp => by cases p <;> simp_all [Part.same, s1]),
            hr.completes.around.regs.trans (RegsKept.of_eq rfl _), fun m hm => ?_⟩, ?_, ?_⟩, hr.ecc⟩
          · rw [show s1 = r.1.setCore n c' from rfl, State.setCore_core_ne _ _ hm]
            exact hr.completes.around.others m hm
          · unfold CoreKept; rw [show s1 = r.1.setCore n c' from rfl, State.setCore_core]
            exact ⟨rfl, rfl, rfl, rfl, rfl, rfl, rfl, rfl, rfl, rfl⟩
          · rw [show s1 = r.1.setCore n c' from rfl, State.setCore_ctx]; rfl
        have h2 : Beside n s s2 := by
          dsimp only [s2]
          split
          · exact h1
          · exact h1.trans (.setF _ _ _ _ _ (by simp [bookRegs]))
        refine Beside.trans ?_ (ih _)
        split
        · exact h2.trans (.setF _ _ _ _ _ (by simp [bookRegs]))
        · exact h2
      · exact .refl _ _

/-- A read of a line, if its bank is on. -/
theorem Beside.lineRead (s : State) (n line : Nat) :
    Beside n s (if s.pondOn (line * 32) 32 then s.eccRead (fetchCode n) 1 (wordsOf (line * 32) 32) else (s, false)).1 := by
  split
  · exact .eccRead _ _ _ _ _
  · exact .refl _ _

theorem Beside.lbDone (s : State) (n line : Nat) : Beside n s (s.lbDone n line) := by
  unfold State.lbDone
  exact (Beside.lineRead s n line).trans (.like _ _ (Core.Like.refl _))

theorem Beside.lbPass (s : State) (n k : Nat) : Beside n s (s.lbPass n k) := by
  unfold State.lbPass
  extract_lets c
  split
  · exact .refl _ _
  · split
    · exact .refl _ _
    · split
      · exact .lbDone _ _ _
      · exact .like _ _ (Core.Like.refl _)

theorem Beside.pass (s : State) (n k : Nat) : Beside n s (s.pass n k) := by
  unfold State.pass
  extract_lets c s1
  have h1 : Beside n s s1 := by
    refine Beside.trans (Beside.like s _ ?_) (.lbPass _ _ _)
    exact Core.Like.refl (s.core n)
  clear_value s1
  split
  · exact h1
  · exact h1.trans (.loadLines _ _ _)

theorem Beside.spend (s : State) (n st k : Nat) (p : List (Nat × Nat)) : Beside n s (s.spend n st k p) := by
  unfold State.spend
  extract_lets t v
  split
  · exact .refl _ _
  · exact (Beside.perf _ _ _ _).trans (.pass _ _ _)

theorem Core.fill_eq (c : Core) (pin : Bool) (n line : Nat) (bs : List Byte) :
    ∃ a b l, c.fill pin n line bs = { c with way0 := a, way1 := b, lru := l } := by
  unfold Core.fill Core.touch
  extract_lets set way c'
  dsimp only [c']
  split <;> exact ⟨_, _, _, rfl⟩

theorem Beside.fill (u : State) (n line : Nat) (pin : Bool) (bs : List Byte) :
    Beside n u (u.setCore n ((u.core n).fill pin n line bs)) := by
  obtain ⟨a, b, l, h⟩ := Core.fill_eq (u.core n) pin n line bs
  rw [h]
  exact .like _ _ (Core.Like.refl _)

theorem Beside.endLoad (s : State) (n : Nat) : Beside n s (s.endLoad n).1 := by
  unfold State.endLoad
  extract_lets c
  split
  · refine Beside.trans (Beside.like s _ ?_) (.loadLines _ _ _)
    exact Core.Like.refl (s.core n)
  · exact .refl _ _

theorem Beside.fillNow (s : State) (n line : Nat) (pin : Bool) : Beside n s (s.fillNow n line pin).1 := by
  unfold State.fillNow
  extract_lets c s0
  have h0 : Beside n s s0 := by
    refine Beside.trans (Beside.like s _ ?_) (.perf _ _ _ _)
    exact Core.Like.refl (s.core n)
  clear_value s0
  split
  · exact h0
  · split
    · rename_i s1 heq
      have : Beside n s0 s1 := by have := Beside.eccRead n s0 (fetchCode n) 1 (wordsOf (line * 32) 32); rwa [heq] at this
      exact (h0.trans this).trans (Beside.fill _ _ _ _ _)
    · rename_i s1 heq
      have : Beside n s0 s1 := by have := Beside.eccRead n s0 (fetchCode n) 1 (wordsOf (line * 32) 32); rwa [heq] at this
      exact h0.trans this

theorem Beside.fillLine (s : State) (n line : Nat) (pin : Bool) : Beside n s (s.fillLine n line pin).1 := by
  unfold State.fillLine
  exact (Beside.endLoad _ _).trans (.fillNow _ _ _ _)

theorem Beside.takeLine (s : State) (n line : Nat) (pin : Bool) (bs : List Byte) :
    Beside n s (s.takeLine n line pin bs) := by
  unfold State.takeLine
  obtain ⟨a, b, l, h⟩ := Core.fill_eq { s.core n with lb := none } pin n line bs
  rw [h]
  exact .like _ _ (Core.Like.refl _)

theorem Beside.fetchLine (s : State) (n a : Nat) : Beside n s (s.fetchLine n a).1 := by
  unfold State.fetchLine
  split
  · exact .refl _ _
  · extract_lets line c pin s1
    have h1 : Beside n s s1 := .lbDone _ _ _
    clear_value s1
    split
    · exact .like _ _ (Core.Like.refl _)
    · split
      · split
        · exact .fillLine _ _ _ _
        · split
          · exact .takeLine _ _ _ _ _
          · split
            · exact h1.trans (.takeLine _ _ _ _ _)
            · exact h1.trans (.fillLine _ _ _ _)
      · exact .fillLine _ _ _ _

theorem Beside.fetch (s : State) (n : Nat) : Beside n s (s.fetch n).1 := by
  unfold State.fetch
  extract_lets c d
  split
  · exact .refl _ _
  · exact .fetchLine _ _ _

theorem Beside.prefetch (s : State) (n a e : Nat) : Beside n s (s.prefetch n a e) := by
  unfold State.prefetch
  extract_lets c line c' next have_
  split
  · exact .refl _ _
  · split
    · exact .like _ _ (Core.Like.refl _)
    · refine Beside.trans (Beside.like s _ ?_) (.perf _ _ _ _)
      exact Core.Like.refl (s.core n)

theorem Beside.boundary (s : State) (n : Nat) : Beside n s (s.boundary n) := by
  unfold State.boundary
  exact Beside.like s _ (Core.Like.refl (s.core n))

theorem Beside.countLeft (s : State) (n cost : Nat) : Beside n s (s.countLeft n cost).2 := by
  have h : Beside n s s.free.2 :=
    .of_kept (fun p hp => by cases p <;> simp_all [Part.same, State.free]) (RegsKept.of_eq rfl _)
  unfold State.countLeft
  extract_lets p
  split
  · exact .refl _ _
  · split
    · exact .refl _ _
    · exact h

theorem Beside.wrapOne (s : State) (n k : Nat) (hn : n ≠ 17) : Beside n s (s.wrapOne n k).1 := by
  unfold State.wrapOne
  extract_lets c free s1
  have h1 : Beside n s s1 := .setPctr _ _ _ _ _
  clear_value s1
  split
  · exact .refl _ _
  · split
    · refine h1.trans ?_
      unfold State.setOvf State.setBit
      rw [if_neg hn]
      exact .setReg _ _ _ _ _ (by simp [bookRegs])
    · exact h1

theorem Beside.wrapBlock (s : State) (n : Nat) (hn : n ≠ 17) : Beside n s (s.wrapBlock n) := by
  unfold State.wrapBlock
  extract_lets r
  have hr : ∀ (l : List Nat) (x : State × Bool), Beside n x.1 (l.foldl (fun (x : State × Bool) k =>
      let y := x.1.wrapOne n k
      (y.1, x.2 || y.2)) x).1 := by
    intro l
    induction l with
    | nil => exact fun x => .refl _ _
    | cons a l ih =>
      intro x
      rw [List.foldl_cons]
      refine Beside.trans ?_ (ih _)
      exact Beside.wrapOne x.1 n a hn
  have h := hr (ctrNums n) (s, false)
  refine .ite (h.trans ?_) h
  unfold State.ovfEvent State.raise State.raiseTo
  exact .ite (.raiseAt _ _ _ _ _) (.raiseAt _ _ _ _ _)

/-! ### An instruction -/

/-- What `State.instr` is for a core that executes: its body acts on a state that the fetch and the cycles left as
`Beside` says, and the marks of samples and counter overflows follow. -/
theorem instr_executes {n : Nat} {s : State} (h : Executes n s) (cost : Nat) (pulses : List (Nat × Nat))
    (body : State → State × Option Trap) : ∃ u, Beside n s u ∧ s.instr n cost pulses body =
      match body u with
      | (v, none) => (if cost = 0 then v else v.perfBoundary n).wrapBlock n
      | (v, some t) => ((v.perfBoundary n).takeTrap n t).wrapBlock n := by
  obtain ⟨hr, hb, u, k, hf⟩ := h
  have hu : Beside n s u := by have := Beside.fetch s n; rwa [hf] at this
  have hb' : (decide ((s.core n).part = 0) && ((s.core n).haltReq || ((s.core n).breaks && !(s.core n).bpSkip))) =
      false := by
    rcases hb with hp | ⟨hh, hb | hb⟩
    · simp [hp]
    · simp [hh, hb]
    · simp [hh, hb]
  have he : s.instr n cost pulses body = u.perform n k cost pulses body := by
    unfold State.instr
    simp only [hr, hb', hf, Bool.not_true, Bool.false_eq_true, if_false]
  rw [he]
  unfold State.perform
  extract_lets d s1 c s2
  have h1 : Beside n u s1 := (Beside.spend _ _ _ _ _).trans (.prefetch _ _ _ _)
  have h2 : Beside n u s2 :=
    (h1.trans (.countLeft _ _ _)).trans ((Beside.spend _ _ _ _ _).trans (.boundary _ _))
  clear_value s2
  exact ⟨s2, hu.trans h2, rfl⟩

end Sys2Proof.Machine
end

