-- ==== Sys2Proof/Laws/Memory.lean ====
section
/-!
SUPPORT. Laws/Memory.lean: pond memory and AON RAM: a read after a write, and that every operation on them keeps their
canonical form.
-/
namespace Sys2Proof.Machine

variable (s : State)

/-! ### Reads after writes -/

theorem byte_setByte_same (a : Nat) (v : Byte) : (s.setByte a v).byte a = v := tabGet_put_same _ _ _ _

theorem byte_setByte_ne {a b : Nat} (h : b ≠ a) (v : Byte) : (s.setByte a v).byte b = s.byte b :=
  tabGet_put_ne (fun _ => (0 : Byte)) (fun _ => 0) s.mem v h

/-- Bytes stand where they were written, and every other byte is as it was. -/
theorem byte_setBytes (a : Nat) (bs : List Byte) (b : Nat) :
    (s.setBytes a bs).byte b = if a ≤ b ∧ b < a + bs.length then bs.getD (b - a) 0 else s.byte b := by
  induction bs generalizing s a with
  | nil => simp only [State.setBytes, List.length_nil]; rw [if_neg (by omega)]
  | cons v t ih =>
    simp only [State.setBytes, ih, List.length_cons]
    by_cases h : b = a
    · subst h
      rw [if_neg (by omega), if_pos (by omega), byte_setByte_same, Nat.sub_self]; rfl
    · rw [byte_setByte_ne s h v]
      by_cases h' : a + 1 ≤ b ∧ b < a + 1 + t.length
      · rw [if_pos h', if_pos (by omega)]
        obtain ⟨n, hn⟩ : ∃ n, b - a = n + 1 := ⟨b - a - 1, by omega⟩
        rw [hn, show b - (a + 1) = n by omega]; rfl
      · rw [if_neg h', if_neg (by omega)]

/-- The same of AON RAM. -/
theorem aonByte_setAonBytes (a : Nat) (bs : List Byte) (b : Nat) :
    (s.setAonBytes a bs).aonByte b = if a ≤ b ∧ b < a + bs.length then bs.getD (b - a) 0 else s.aonByte b := by
  induction bs generalizing s a with
  | nil => simp only [State.setAonBytes, List.length_nil]; rw [if_neg (by omega)]
  | cons v t ih =>
    simp only [State.setAonBytes, ih, List.length_cons]
    have put : ∀ x, ({ s with aon := tabPut (fun _ => (0 : Byte)) s.aon a v } : State).aonByte x =
        if x = a then v else s.aonByte x := by
      intro x
      split
      · rename_i h; subst h; exact tabGet_put_same _ _ _ _
      · rename_i h; exact tabGet_put_ne (fun _ => (0 : Byte)) (fun _ => 0) s.aon v h
    rw [put]
    by_cases h : b = a
    · subst h
      rw [if_neg (by omega), if_pos rfl, if_pos (by omega), Nat.sub_self]; rfl
    · rw [if_neg h]
      by_cases h' : a + 1 ≤ b ∧ b < a + 1 + t.length
      · rw [if_pos h', if_pos (by omega)]
        obtain ⟨n, hn⟩ : ∃ n, b - a = n + 1 := ⟨b - a - 1, by omega⟩
        rw [hn, show b - (a + 1) = n by omega]; rfl
      · rw [if_neg h', if_neg (by omega)]

/-! ### The canonical form -/

/-- The memory of the reset state has it. -/
theorem reset_wf : Memory.wf State.reset.mem = true ∧ Memory.wf State.reset.aon = true := ⟨rfl, rfl⟩

theorem setByte_wf (a : Nat) (v : Byte) (h : Memory.wf s.mem = true) : Memory.wf (s.setByte a v).mem = true :=
  tabWf_put _ _ _ _ h

theorem setBytes_wf (a : Nat) (bs : List Byte) (h : Memory.wf s.mem = true) :
    Memory.wf (s.setBytes a bs).mem = true := by
  induction bs generalizing s a with
  | nil => exact h
  | cons v t ih => exact ih _ _ (setByte_wf s a v h)

theorem setAonBytes_wf (a : Nat) (bs : List Byte) (h : Memory.wf s.aon = true) :
    Memory.wf (s.setAonBytes a bs).aon = true := by
  induction bs generalizing s a with
  | nil => exact h
  | cons v t ih => exact ih _ _ (tabWf_put _ _ _ _ h)

theorem foldl_setEcc_mem (ws : List Nat) : (ws.foldl (fun s w => s.setEcc w .good) s).mem = s.mem := by
  induction ws generalizing s with
  | nil => rfl
  | cons w t ih => exact ih _

theorem bump_mem (f : FieldRef) (n : Nat) (sat : Option FieldRef) (i j : Nat) : (s.bump f n sat i j).mem = s.mem := by
  unfold State.bump
  cases sat <;> simp only <;> split <;> rfl

/-- Reading words changes check bits, counts and records, and no byte. -/
theorem eccRead_mem (master port : Nat) (ws : List Nat) : (s.eccRead master port ws).1.mem = s.mem := by
  simp only [State.eccRead]
  generalize (ws.filter fun w => (s.eccOf w).ce) = ce
  have h1 : (if ce.isEmpty then s else
      { s.bump F.POND_ECC_CE_COUNT_COUNT ce.length none with
        ceGrown := s.ceGrown || decide (s.f F.POND_ECC_CE_COUNT_COUNT ≠ 0xFFFF) }).mem = s.mem := by
    split
    · rfl
    · exact bump_mem s _ _ _ _ _
  generalize (if ce.isEmpty then s else
      { s.bump F.POND_ECC_CE_COUNT_COUNT ce.length none with
        ceGrown := s.ceGrown || decide (s.f F.POND_ECC_CE_COUNT_COUNT ≠ 0xFFFF) }) = s1 at h1 ⊢
  split
  · rw [foldl_setEcc_mem]
    split <;> exact h1
  · simp only [State.setF_mem, State.setReg_mem]
    split <;> split <;> simp only [State.setF_mem, bump_mem, h1]

theorem pondRead_mem (master port a len : Nat) : (s.pondRead master port a len).1.mem = s.mem := by
  unfold State.pondRead
  split <;> rename_i h <;> have := eccRead_mem s master port (wordsOf a len) <;> rw [h] at this <;> exact this

/-- A write of pond memory keeps the canonical form. -/
theorem pondWrite_wf (master port a : Nat) (bs : List Byte) (h : Memory.wf s.mem = true) :
    Memory.wf (s.pondWrite master port a bs).1.mem = true := by
  simp only [State.pondWrite]
  split <;> rename_i s1 heq <;>
    have hm := eccRead_mem s master port ((wordsOf a bs.length).filter fun w =>
      !(decide (a ≤ w * 8 ∧ w * 8 + 8 ≤ a + bs.length))) <;> rw [heq] at hm
  · refine setBytes_wf _ _ _ ?_
    rw [foldl_setEcc_mem]
    exact hm ▸ h
  · exact hm ▸ h

/-- A bank that goes off keeps it. -/
theorem bankOff_wf (b : Nat) (h : Memory.wf s.mem = true) : Memory.wf (s.bankOff b).mem = true := by
  rw [show (s.bankOff b).mem = s.mem.filter fun e => decide (e.1 / 0x100000 ≠ b) from rfl]
  exact tabWf_filter _ _ _ h

/-- So does a bank that takes a level. -/
theorem bankTo_wf (b lvl : Nat) (h : Memory.wf s.mem = true) : Memory.wf (s.bankTo b lvl).mem = true := by
  have raise : ∀ s : State, (s.bankRaise b).mem = s.mem := by
    intro s
    simp only [State.bankRaise]
    split <;> rfl
  simp only [State.bankTo]
  split
  · split
    · exact h
    · rw [raise]; exact h
  · split
    · split
      · exact bankOff_wf s b h
      · exact h
    · split
      · exact h
      · exact bankOff_wf s b h

/-- A device reset keeps the upper half of AON RAM in its form. -/
theorem deviceReset_wf (src : BitVec 5) (h : Memory.wf s.aon = true) :
    Memory.wf (s.deviceReset src).aon = true ∧ Memory.wf (s.deviceReset src).mem = true := by
  unfold State.deviceReset
  simp only [State.setB_aon, State.setReg_aon, State.setB_mem, State.setReg_mem]
  refine ⟨?_, ?_⟩
  · exact tabWf_filter (fun _ => 0) (fun e => decide (0x00FF8000 ≤ e.1)) s.aon h
  · simp only [State.deadOf, State.dead]; rfl

/-- So does loading a froglet. -/
theorem loadFroglet_wf (copy : Nat) (h : Memory.wf s.aon = true) : Memory.wf (s.loadFroglet copy).aon = true := by
  have fold : ∀ (l : List (Byte × Nat)) (t : Tab Byte), Memory.wf t = true →
      Memory.wf (l.foldl (fun t e => tabPut (fun _ => (0 : Byte)) t (0x00FF0000 + e.2) e.1) t) = true := by
    intro l
    induction l with
    | nil => exact fun _ h => h
    | cons e l ih => exact fun t ht => ih _ (tabWf_put _ _ _ _ ht)
  unfold State.loadFroglet
  simp only
  generalize s.flashBytes false (copy * 0x10000) 0x8000 = bs
  exact fold _ _ (tabWf_filter (fun _ => 0) (fun e => decide (0x00FF8000 ≤ e.1)) s.aon h)

end Sys2Proof.Machine
end

