-- ==== Sys2Proof/Machine/Moult.lean ====
section
/-!
DEFINITION. Machine/Moult.lean: what the flashes' contents mean (spec/19 R730 to R735, R740, R742, R743, R749): the journal,
the moult state and what the next start does, an image's checks, hot pages, settings records. The froglet and the site
firmware write these with the commands of Machine/Nvm.lean (log entry 90).
-/
namespace Sys2Proof.Machine

/-! ### The journal (R730 to R732) -/

structure JEntry where
  typ : Nat
  seq : Nat
  arg0 : Nat
  arg1 : Nat
  deriving DecidableEq, Repr

/-- The entry in a slot of the ring; one whose MAGIC or CRC fails is none. -/
def State.journalAt (s : State) (slot : Nat) : Option JEntry :=
  let bs := s.flashBytes false (0x20000 + 32 * slot) 32
  if manField bs 0 1 = 0x4A ∧ manField bs 28 4 = (crc32c (bs.take 28)).toNat then
    some ⟨manField bs 1 1, manField bs 4 4, manField bs 8 4, manField bs 12 4⟩
  else none

def State.journalList (s : State) : List JEntry := (List.range 2048).filterMap s.journalAt

/-- The entry with the highest SEQ. -/
def newestEntry (es : List JEntry) : Option JEntry :=
  es.foldl (fun m e => match m with
    | none => some e
    | some x => if x.seq < e.seq then some e else some x) none

/-! ### The moult state (R733) -/

inductive Moult
  | idle
  | staged
  | trial (n : Nat)
  | exhausted
  | inPlace
  deriving DecidableEq, Repr

/-- The state that an entry of types 1 to 8 gives; a trial with the number of starts it has had. -/
def JEntry.moult (e : JEntry) : Moult :=
  match e.typ with
  | 1 => .staged
  | 2 => .trial 0
  | 3 => if e.arg0 < 3 then .trial e.arg0 else .exhausted
  | 7 => .inPlace
  | _ => .idle

/-- The newest entry of types 1 to 8; types 9 to 11 do not change the state. -/
def State.moult (s : State) : Moult :=
  match newestEntry (s.journalList.filter fun e => decide (1 ≤ e.typ ∧ e.typ ≤ 8)) with
  | none => .idle
  | some e => e.moult

/-! ### Hot pages and aborted erases (R749) -/

/-- Pages named by a HOT_PAGE entry that no later HOT_CLEARED entry names. -/
def State.hotPages (s : State) : List Nat :=
  let es := s.journalList
  ((es.filter fun e => decide (e.typ = 9) &&
    !(es.any fun c => decide (c.typ = 11 ∧ c.arg0 = e.arg0 ∧ e.seq < c.seq))).map (·.arg0)).eraseDups

/-- Sectors named by ERASE_ABORT entries. -/
def State.abortedErases (s : State) : List Nat :=
  ((s.journalList.filter fun e => decide (e.typ = 10)).map (·.arg0)).eraseDups

/-! ### Images in flash (R734, R735, R740) -/

/-- Where an image lies: the active one, SPAWN_NEW, SPAWN_OLD (R711, R712). -/
structure Store where
  xf : Bool
  base : Nat
  deriving DecidableEq, Repr

def Store.active : Store := ⟨false, 0x80000⟩
def Store.spawnNew : Store := ⟨true, 0⟩
def Store.spawnOld : Store := ⟨true, 0x200000⟩

def State.storeBytes (s : State) (w : Store) (a n : Nat) : List Byte := s.flashBytes w.xf (w.base + a) n

def State.manifest (s : State) (w : Store) : List Byte := s.storeBytes w 0 4096

/-- The CRC of each block against the manifest's table. -/
def State.blocksGood (s : State) (w : Store) : Bool :=
  let m := s.manifest w
  let n := manField m 0x10 4
  decide (n ≤ 896) && (List.range n).all fun i =>
    decide (manField m (0x200 + 4 * i) 4 = (crc32c (s.storeBytes w (4096 * (i + 1)) 4096)).toNat)

/-- The failure of R734's checks as R740 numbers it, or 0: a block CRC, the check of R715 with KIND = 2, the range of
the load address. -/
def State.imageFails (s : State) (w : Store) : Nat :=
  let m := s.manifest w
  let len := manField m 0x14 4
  if !(s.blocksGood w) then 1
  else if manField m 6 1 ≠ 2 then 3
  else
    match (s.manResult m false).1 with
    | 0 =>
      if !(payloadGood m (s.storeBytes w 4096 len)) then 6
      else if 0xFF0000 < manField m 0x18 4 + len then 9 else 0
    | r => 2 + r

/-- SPAWN_OLD holds the active image. -/
def State.oldMatches (s : State) : Bool :=
  let n := 4096 * (manField (s.manifest .active) 0x10 4 % 1024 + 1)
  decide (s.storeBytes .spawnOld 0 n = s.storeBytes .active 0 n)

/-- What the next start does (R733, R735, R740): start the active image, with what it writes first; copy SPAWN_NEW in,
and then COPIED and TRIAL 1; write TRIAL; write REJECTED with its reason; copy SPAWN_OLD in, and then FELL_BACK;
recovery. -/
inductive Start
  | active
  | copyNew
  | trial (n : Nat)
  | rejected (why : Nat)
  | fallBack
  | recovery
  deriving DecidableEq, Repr

/-- The active image starts if it passes, and otherwise SPAWN_OLD or nothing does (R735). -/
def State.startOr (s : State) (what : Start) : Start :=
  if s.imageFails .active = 0 then what else if s.imageFails .spawnOld = 0 then .fallBack else .recovery

def State.nextStart (s : State) : Start :=
  if s.b F.STRAP_STATUS_BOOT_HOLD then .recovery
  else
    match s.moult with
    | .idle => s.startOr .active
    | .staged =>
      let e := s.imageFails .spawnNew
      if e ≠ 0 then s.startOr (.rejected e) else if s.oldMatches then .copyNew else s.startOr (.rejected 8)
    | .trial n => s.startOr (.trial (n + 1))
    | .exhausted => if s.imageFails .spawnOld = 0 then .fallBack else .recovery
    | .inPlace => .recovery

/-! ### Settings (R742, R743) -/

/-- A record: where it lies, its format, key, record number and data, and whether it counts. -/
structure Setting where
  fmt : Nat
  key : Nat
  seq : Nat
  data : List Byte
  counts : Bool
  deriving DecidableEq, Repr

/-- The record at an offset of the store. It counts while STATE is committed and its CRC passes. -/
def State.recordAt (s : State) (a : Nat) : Option Setting :=
  let h := s.flashBytes false (0x30000 + a) 16
  let len := manField h 4 2
  if manField h 0 1 ≠ 0x5E ∨ 1008 < len then none
  else
    let data := s.flashBytes false (0x30000 + a + 16) len
    let crc := (crc32c (h.take 6 ++ (h.drop 8).take 4 ++ data)).toNat
    some ⟨manField h 1 1, manField h 2 2, manField h 8 4, data,
      decide (manField h 6 1 = 0x3F) && decide (manField h 12 4 = crc)⟩

/-- The records of the log from an offset on, which stand one behind the other at multiples of 16 bytes. -/
def State.records (s : State) : Nat → Nat → List Setting
  | 0, _ => []
  | n + 1, a =>
    if 0x50000 ≤ a then []
    else
      match s.recordAt a with
      | none => s.records n (a + 16)
      | some r => r :: s.records n (a + 16 + (r.data.length + 15) / 16 * 16)

/-- The setting of a format and key: the data of its counting record with the highest SEQ. -/
def State.setting (s : State) (fmt key : Nat) : Option (List Byte) :=
  let rs := (s.records 0x5000 0).filter fun r => r.counts && decide (r.fmt = fmt ∧ r.key = key)
  (rs.foldl (fun m r => match m with
    | none => some r
    | some (x : Setting) => if x.seq < r.seq then some r else some x) none).map (·.data)

end Sys2Proof.Machine
end

