-- ==== Sys2Proof/Tests/Slice0.lean ====
section
/-!
SUPPORT. Tests/Slice0.lean: ill-formed operands that the check refuses, a witness for the hypotheses of each statement
(states and operands, at the ends of their ranges, that meet them), and a few small runs against the manual's values.
-/
namespace Sys2Proof.Tests
open Sys2Proof.Machine

/-! ### The well-formedness check

For each check an operand that it refuses, and one at its bound that it takes. -/

theorem test_frameBoundary_needs_at_most_8_ports :
    Instr.wellFormed (.frameBoundary (List.replicate 9 [])) = false ∧
      Instr.wellFormed (.frameBoundary (List.replicate 8 [])) = true := by decide

/-- 513 bytes of payload are one too many (R589). -/
theorem test_payload_length :
    (let h : PktHdr := ⟨15, true, false, 0, 0⟩
     let p : List Byte := List.replicate 513 0
     Instr.wellFormed (.qputPacket 0 h p) = false ∧ Instr.wellFormed (.qread 0 h p) = false ∧
       Instr.wellFormed (.ctlRd 0 h p) = false ∧ Instr.wellFormed (.ctlWr 0 h p) = false ∧
       Instr.wellFormed (.mbx 0 h p) = false ∧ Instr.wellFormed (.qputPacket 0 h (p.drop 1)) = true) := by decide +kernel

/-- Bytes without the mark 0xA are no header (R592), nor are seven bytes. -/
theorem test_hdrErr_needs_mark :
    (let bs : List Byte := List.replicate 7 0
     Instr.wellFormed (.hdrErr 0 (0xB0 :: bs)) = false ∧ Instr.wellFormed (.hdrErr 0 (0xA0 :: bs.drop 1)) = false ∧
       Instr.wellFormed (.hdrErr 0 (0xA0 :: bs)) = true) := by decide

theorem test_crcErr_length :
    Instr.wellFormed (.crcErr 0 (List.replicate 525 0) 0) = false ∧
      Instr.wellFormed (.crcErr 0 (List.replicate 524 0) 0) = true := by decide +kernel

/-- Types 0 to 5 and 15 have meanings of their own (R595). -/
theorem test_badtype_range :
    (let h : PktHdr := ⟨0, false, false, 0, 0⟩
     Instr.wellFormed (.badtype 0 h 5) = false ∧ Instr.wellFormed (.badtype 0 h 15) = false ∧
       Instr.wellFormed (.badtype 0 h 6) = true ∧ Instr.wellFormed (.badtype 0 h 14) = true) := by decide

theorem test_nvmDone_fault :
    Instr.wellFormed (.nvmDone (some 5)) = false ∧ Instr.wellFormed (.nvmDone (some 6)) = true ∧
      Instr.wellFormed (.nvmDone none) = true := by decide

theorem test_crossing_inside_step :
    Instr.wellFormed (.bemfZeroCrossing 0 100 101) = false ∧ Instr.wellFormed (.bemfZeroCrossing 0 100 100) = true := by
  decide

/-! ### Small states -/

/-- The eft, which acts for tenant 0. -/
abbrev eft : Master := .core 16
/-- A state whose fabric runs and whose pond banks are on. -/
def up : State :=
  ((State.reset.setF F.PWR_DOM_STATUS_FAB_PG 1).setF F.CLK_ROOT_STATUS_DIV_RUN 1).setReg .POND_BANK_STATUS 0xAAAAAAAA
/-- The same with fields set, each as (field, register number, value). -/
def put (s : State) (l : List (FieldRef × Nat × Nat)) : State := l.foldl (fun s e => s.setF e.1 e.2.2 e.2.1) s
/-- The same with fields of active copies set. -/
def putA (s : State) (l : List (FieldRef × Nat × Nat)) : State :=
  l.foldl (fun s e => s.setAct e.1.k (withField (s.act e.1.k e.2.1) e.1.lo e.1.w e.2.2) e.2.1) s
def withCand (n : Nat) (c : Cand) (s : State) : State := { s with cands := tabPut (fun _ => Cand.init) s.cands n c }
def withDpll (d : Dpll) (s : State) : State := { s with dpll := d }
def withTrunk (n : Nat) (k : Trunk) (s : State) : State := { s with trunks := tabPut (fun _ => Trunk.init) s.trunks n k }

/-! ### What every command rests on -/

theorem wit_StepTakesFrontCommand :
    ({ up with pending := [.ctlRd 0 ⟨15, true, false, 4095, 0⟩ [], .commitApply] } : State).pending =
      .ctlRd 0 ⟨15, true, false, 4095, 0⟩ [] :: [.commitApply] := rfl

theorem wit_IdleStepIsOneClockPeriod :
    State.reset.pending = [] ∧ ¬(State.reset.divRun = true ∨ State.reset.corePg 16 = false ∨ State.reset.rst.held = true) ∧
      up.divRun = true := by decide

theorem wit_ResetLeavesResetColumn :
    RegKind.FAB_CONN.has 16383 0 ∧ RegKind.FAB_CONN ≠ .TEN_SEG_W0 ∧ RegKind.FAB_CONN ≠ .TEN_SEG_W1 ∧
      RegKind.FAB_CONN ≠ .PWR_DOM_STATUS := by decide

theorem wit_ResetStartsEftAlone : (15 : Nat) < 16 ∧ (1 : Nat) ≠ 0 := by decide

theorem wit_StepLeavesMachineSettled :
    ({ State.dead with rst := { Rst.init with held := true } } : State).rst.held = true ∧
      ∃ t, step { State.dead with rst := { Rst.init with held := true } } = .next t := ⟨rfl, _, rfl⟩

theorem wit_MisshapenOrUnassignedAccessRefused :
    up.masterLive eft = true ∧ (AccessSize.half ≠ .word ∨ (0x01200000 : Word).toNat % 4 ≠ 0) ∧
      (0x01200001 : Word).toNat % 4 ≠ 0 ∧ (0x012FFFFC : Word).toNat % 4 = 0 ∧
      regAt (0x012FFFFC : Word).toNat = none ∧ (inTestWindow (0x012FFFFC : Word).toNat && up.testMode) = false := by decide

theorem wit_UnreachableDomainRefused :
    State.reset.masterLive eft = true ∧ RegKind.FAB_CONN.has 16383 0 ∧
      State.reset.reach ⟨.FAB_CONN, 16383, 0, false⟩ = false ∧ (0xFFFFFC : Nat) < 0x1000000 ∧ inAon 0 0xFFFFFC = false ∧
      State.reset.pondOn 0xFFFFFC 4 = false := by decide

theorem wit_WriteChangesWritableFieldsOnly :
    RegKind.LINE_RX_CFG ∈ plainRegs ∧ RegKind.LINE_RX_CFG.has 127 0 ∧ CanWrite eft .LINE_RX_CFG 127 0 up ∧
      codesBad .LINE_RX_CFG 0 = false := by decide

theorem wit_ShadowWriteHeldUntilCommit :
    (RegKind.LINE_CTL.info.scope.isSome = true ∧ RegKind.LINE_CTL.has 127 0 ∧ CanWrite eft .LINE_CTL 127 0 up ∧
      codesBad .LINE_CTL 0 = false ∧ (up.change (RegKind.LINE_CTL.addr 127 0)).isPending = false) ∧
    ((up.setChange (connAddr 16383) (.pending 0)).change (RegKind.FAB_CONN.addr 16383 0)).isPending = true ∧
    ((up.setChange (selAddr 1023) (.pending 0)).change (RegKind.FAB_SEL.addr 1023 0)).isPending = true ∧
    ((up.setChange (RegKind.LINE_CTL.addr 0 0) (.pending 0)).change (RegKind.LINE_CTL.addr 0 0)).isPending = true ∧
    up.masterLive eft = true ∧
    (∃ r, regAt (BitVec.ofNat 32 (RegKind.LINE_CTL.actAddr 0 0)).toNat = some r ∧ (r.act = true ∨ r.k.info.wr = .active)) ∧
    ∃ r, regAt (BitVec.ofNat 32 (RegKind.FAB_CONN_ACT.addr 0 0)).toNat = some r ∧ (r.act = true ∨ r.k.info.wr = .active) :=
  ⟨by decide, by decide, by decide, by decide, by decide, ⟨_, rfl, by decide⟩, ⟨_, rfl, by decide⟩⟩

theorem wit_ReadClearsReadClearFields :
    RegKind.POND_ECC_CE_COUNT ∈ rcRegs ∧ RegKind.POND_ECC_CE_COUNT.has 0 0 ∧ CanRead .jtag .POND_ECC_CE_COUNT 0 0 up ∧
      CanRead eft .Q_DROP 16383 0 up ∧ CanRead eft .TEN_MBX 15 0 up ∧ CanRead eft .TEN_STATUS 15 0 up ∧
      RegKind.FAB_CONN.has 16383 0 ∧ CanRead eft .FAB_CONN 16383 0 up := by decide

/-! ### Clocks and references -/

theorem wit_RootClockStartsInThreeSteps :
    (CanWrite eft .CLK_ROOT_CTL 0 0 State.reset ∧ State.reset.b F.CLK_ROOT_CTL_PLL_EN = false ∧ State.reset.dev ≠ 3 ∧
      State.reset.fabPg = false) ∧
    (let s := { put up [(F.CLK_ROOT_CTL_OSC_SETTLE, 0, 65535)] with clk := ⟨true, true, false, false, false, 0⟩ }
     s.clk.settling = true ∧ s.f F.CLK_ROOT_CTL_OSC_SETTLE ≤ 65535 ∧ 65534 < s.f F.CLK_ROOT_CTL_OSC_SETTLE) ∧
    (let s := { up with clk := ⟨true, false, false, true, true, 3071⟩ }
     s.clk.pllOn = true ∧ s.b F.CLK_ROOT_STATUS_PLL_LOCK = false) := by decide

theorem wit_EftClockSourceFollowsTheLock :
    (let s := put up [(F.CLK_ROOT_CTL_PLL_EN, 0, 1)]
     CanWrite eft .CLK_ROOT_CTL 0 0 s ∧ s.b F.CLK_ROOT_CTL_PLL_EN = true) ∧
    ({ up with clk := ⟨false, false, false, false, false, 0⟩ } : State).clk.oscEn = false ∧
    (let s := { up with clk := ⟨true, false, false, false, false, 0⟩ }
     s.clk.oscEn = true ∧ (16 ≤ 16 ∨ (12288 : Nat) < 11059 ∨ (13517 : Nat) < 12288) ∧
       (16 ≤ 0 ∨ (11058 : Nat) < 11059) ∧ (13517 : Nat) < 13518 ∧
       ¬(16 ≤ 15 ∨ (11059 : Nat) < 11059 ∨ (13517 : Nat) < 11059) ∧
       ¬(16 ≤ 15 ∨ (13517 : Nat) < 11059 ∨ (13517 : Nat) < 13517)) ∧
    (let s := { put up [(F.CLK_ROOT_STATUS_PLL_LOCK, 0, 1)] with clk := ⟨true, false, false, true, false, 0⟩ }
     s.clk.pllOn = true ∧ s.b F.CLK_ROOT_STATUS_PLL_LOCK = true ∧ CanWrite eft .CLK_EFT_SRC 0 0 s) ∧
    (CanWrite eft .CLK_EFT_SRC 0 0 up ∧ (1 : Word).getLsbD 0 = true ∧ up.b F.CLK_ROOT_STATUS_PLL_LOCK = false ∧
      up.fabUp = true) ∧
    (CanWrite eft .CLK_EFT_SRC 0 0 State.reset ∧ State.reset.fabUp = false ∧
      State.reset.b F.CLK_ROOT_STATUS_PLL_LOCK = false ∧ (4 : Word).getLsbD 0 = false) := by decide

theorem wit_TimeRegistersLatchAndLoad :
    CanRead eft .RTC_LO 0 0 State.reset ∧ CanWrite eft .RTC_LO 0 0 State.reset ∧ CanWrite eft .RTC_HI 0 0 State.reset ∧
      CanRead eft .SYS_TIME_LO 0 0 up ∧ up.divRun = true ∧
      (let s := { State.reset with clk := ⟨true, false, false, true, true, 3071⟩ }
       CanRead eft .SYS_TIME_LO 0 0 s ∧ s.divRun = false ∧ s.clk.into < 3072) := by decide

/-- A consistent pair at a corner of BW 3 (R126), and one beyond it. -/
theorem wit_DpllLoopTakesConsistentPairsOnly :
    CanWrite eft .DPLL_LOOP 0 0 up ∧ up.fabUp = true ∧ fieldOf 0x120D3#32 0 2 = 3 ∧ fieldOf 0x120D3#32 4 5 = 13 ∧
      fieldOf 0x120D3#32 12 6 = 18 ∧ fieldOf 0x130D3#32 12 6 = 19 := by decide

theorem wit_DpllUpdateFiltersAndSelects :
    (let s := withDpll { Dpll.init with due := true, take := some 7 } up
     s.fabUp = true ∧ s.dpll.due = true ∧ s.dpll.take = some 7 ∧ s.selected ≠ some 7 ∧ s.f F.DPLL_STATUS_STATE = 0) ∧
    (let s := withDpll { Dpll.init with due := true, take := some 0 } (put up [(F.DPLL_STATUS_STATE, 0, 3)])
     s.selected ≠ some 0 ∧ s.f F.DPLL_STATUS_STATE = 3) ∧
    (let s := withDpll { Dpll.init with due := true, take := some 7, errZero := true }
       (put up [(F.DPLL_STATUS_STATE, 0, 2), (F.REF_SEL_STATUS_SEL_CAND, 0, 7), (F.REF_SEL_STATUS_SEL_VALID, 0, 1)])
     s.dpll.take = some 7 ∧ s.selected = some 7 ∧ s.f F.DPLL_STATUS_STATE = 2 ∧ s.dpll.held = 0 ∧
       s.dpll.errZero = true) ∧
    (let s := withDpll { Dpll.init with due := true, take := some 7, held := 1 }
       (put up [(F.DPLL_STATUS_STATE, 0, 1), (F.REF_SEL_STATUS_SEL_CAND, 0, 7), (F.REF_SEL_STATUS_SEL_VALID, 0, 1)])
     s.selected = some 7 ∧ s.f F.DPLL_STATUS_STATE = 1 ∧ 0 < s.dpll.held) ∧
    (let s := withDpll { Dpll.init with due := true } (put up [(F.DPLL_STATUS_STATE, 0, 1)])
     s.dpll.take = none ∧ s.dpll.takeFree = false ∧ s.f F.DPLL_STATUS_STATE = 1) ∧
    (let s := withDpll { Dpll.init with due := true, takeFree := true } up
     s.dpll.take = none ∧ s.dpll.takeFree = true) := by decide

theorem wit_DpllLockFollowsPhaseError :
    (let s := withDpll { Dpll.init with inLock := 1000 } (put up [(F.DPLL_STATUS_STATE, 0, 1)])
     s.fabUp = true ∧ s.f F.DPLL_STATUS_STATE = 1 ∧ 1000 ≤ s.dpll.inLock) ∧
    (let s := withDpll { Dpll.init with inLock := 999, outLock := 15 } up
     (s.f F.DPLL_STATUS_STATE ≠ 1 ∨ s.dpll.inLock < 1000) ∧ (s.f F.DPLL_STATUS_STATE ≠ 2 ∨ s.dpll.outLock < 16)) ∧
    (let s := withDpll { Dpll.init with outLock := 16 } (put up [(F.DPLL_STATUS_STATE, 0, 2)])
     s.f F.DPLL_STATUS_STATE = 2 ∧ 16 ≤ s.dpll.outLock) ∧
    (CanWrite eft .DPLL_HOLD_CTL 0 0 up ∧ holdCtlOk 0x0000093C = true) := by decide

/-- The configuration that acts, with fields set, each as (field, register number, value). -/
def acting (s : State) (l : List (FieldRef × Nat × Nat)) : State :=
  l.foldl (fun s e => { s with dpll := { s.dpll with
    cfg := tabPut (fun _ => e.1.k.resetAt e.2.1) s.dpll.cfg (e.1.k.addr e.2.1 0)
      (withField (tabGet (fun _ => e.1.k.resetAt e.2.1) s.dpll.cfg (e.1.k.addr e.2.1 0)) e.1.lo e.1.w e.2.2) } }) s

theorem wit_CandidateFailuresAndTimers :
    (let s := withCand 7 { Cand.init with age := 2, edges := 255 }
       (acting up [(F.REF_CAND_CFG_EN, 7, 1), (F.REF_CAND_CFG_TYPE, 7, 3)])
     s.fabUp = true ∧ s.rb F.REF_CAND_CFG_EN 7 = true ∧
       (if s.rf F.REF_CAND_CFG_TYPE 7 = 4 then 8800 else 2) ≤ (s.cand 7).age ∧
       s.rf F.REF_CAND_CFG_TYPE 7 = 3 ∧ s.rb F.REF_INPUT_CTL_REFIN1_MODE = false ∧ 256 ≤ (s.cand 7).edges + 1) ∧
    (let s := acting up [(F.REF_CAND_CFG_EN, 7, 1), (F.REF_CAND_CFG_TYPE, 7, 2), (F.REF_INPUT_CTL_REFIN0_MODE, 0, 1)]
     s.rb F.REF_CAND_CFG_EN 7 = true ∧ s.rf F.REF_CAND_CFG_TYPE 7 = 2 ∧ s.rb F.REF_INPUT_CTL_REFIN0_MODE = true) ∧
    (let s := withCand 0 { Cand.init with age := 8800 }
       (acting up [(F.REF_CAND_CFG_EN, 0, 1), (F.REF_CAND_CFG_TYPE, 0, 4)])
     s.rb F.REF_CAND_CFG_EN 0 = true ∧ (if s.rf F.REF_CAND_CFG_TYPE 0 = 4 then 8800 else 2) ≤ (s.cand 0).age ∧
       s.rf F.REF_CAND_CFG_TYPE 0 = 4 ∧ true ≠ s.rb F.REF_INPUT_CTL_PPS_EDGE ∧
       ¬(s.rf F.REF_CAND_CFG_TYPE 0 = 2 ∧ s.rb F.REF_INPUT_CTL_REFIN0_MODE = true ∨
         s.rf F.REF_CAND_CFG_TYPE 0 = 3 ∧ s.rb F.REF_INPUT_CTL_REFIN1_MODE = true)) ∧
    (let s := withCand 7 { Cand.init with failed := false, wtr := some 0 } up
     s.fabUp = true ∧ (s.cand 7).failed = false ∧ (s.cand 7).wtr = some 0 ∧ CanWrite eft .REF_CAND_WTR 7 0 s ∧
       (s.cand 7).wtr.isSome = true) ∧
    (CanWrite eft .REF_CAND_CFG 7 0 up ∧ codesBad .REF_CAND_CFG 0 = false) := by decide

/-! ### The fabric -/

theorem wit_ConnectionWriteMakesShadowDirty :
    (CanWrite eft .FAB_CONN 16383 0 up ∧ (up.change (connAddr 16383)).isPending = false ∧
      fieldOf 0x03FF8000#32 26 5 = 0 ∧ fieldOf 0x03FF8000#32 14 2 = 2 ∧ up.slotOwner 16383 = up.tenantOf eft ∧
      up.selOwner (fieldOf 0x03FF8000#32 16 10) = up.tenantOf eft) ∧
    fieldOf 0x04000000#32 26 5 ≠ 0 ∧
    (CanWrite eft .FAB_SEL 1023 0 up ∧ (up.change (selAddr 1023)).isPending = false ∧ fieldOf 0x1FFFFFFF#32 29 2 = 0 ∧
      up.selOwner 1023 = up.tenantOf eft ∧ fieldOf 0x20000000#32 29 2 ≠ 0) := by decide

/-- Commits of tenant 0 for frame 5. -/
def manyCommits (n : Nat) : List Commit := (List.range n).map fun i => ⟨i, 0, 5, 0, []⟩

theorem wit_CommitArrivalAcceptsOrRejects :
    (CanWrite eft .FAB_COMMIT_FRAME 0 0 up ∧ up.fabUp = true ∧ up.tenantOf eft = 0 ∧ up.frame = 0 ∧
      (0x7FFFFFFF - up.frame).toNat < 0x80000000 ∧ (up.ten 0).st ≠ .shedding ∧ (up.ten 0).st ≠ .shed ∧
      ({ up with commits := manyCommits 63 } : State).pendingOf 0 = manyCommits 63 ∧ (manyCommits 63).length = 63) ∧
    (let s := up.setChange (connAddr 16383) (.dirty 0)
     connAddr 16383 ∈ s.covers 0 1 ∧ s.changeOk 0 (connAddr 16383) = true) ∧
    (let s := up.setChange (connAddr 16383) (.dirty 0)
     let s := s.setReg .TEN_SLOT_OWN 0x80000000 1 511
     s.changeOk 0 (connAddr 16383) = false) ∧
    (0x80000000 ≤ (0x80000000 - up.frame : Word).toNat) ∧
    64 ≤ (({ up with commits := manyCommits 64 } : State).pendingOf 0).length ∧
    ((up.setTen 0 { Tenant.init with st := .shed }).ten 0).st = .shed := by decide

theorem wit_CommitAppliesTogetherAtTargetFrame :
    let s := { up.setChange (connAddr 16383) (.pending 0) with frame := 5, commits := [⟨0, 0, 5, 1, []⟩, ⟨1, 0, 6, 1, []⟩] }
    s.fabUp = true ∧ s.rst.held = false ∧ ⟨0, 0, 5, 1, []⟩ ∈ s.commits ∧ s.change (connAddr 16383) = .pending 0 ∧
      (connAddr 0, Change.pending 0) ∉ s.chg := by decide

theorem wit_FabricMaintenanceCommands :
    CanWrite eft .FAB_DISCARD 0 0 up ∧
    (let s := { putA up [(F.FAB_GATE_CTL_AUTO, 0, 1)] with ticks := 2 }
     s.fabUp = true ∧ s.rowMayDrop 16383 = true) ∧
    CanWrite eft .FAB_PAR_INJECT 0 0 up ∧ (0x00003FFF : Word).getLsbD 30 = false ∧ (0x400003FF : Word).getLsbD 30 = true ∧
    fieldOf 0x400003FF#32 0 14 < 1024 ∧ (0x40000400 : Word).getLsbD 30 = true ∧ 1024 ≤ fieldOf 0x40000400#32 0 14 ∧ CanWrite eft .FAB_CAPTURE_CTL 0 0 up ∧
    ({ up with fab := { Fabric.init with capRun := some 8 } } : State).fab.capRun = some 8 := by decide

/-! ### Ports -/

/-- A started line port 127. -/
def lineUp (l : Line) (s : State) : State := s.setLine 127 { l with on := true }
def los (s : State) : State := s.setReg .LINE_STATUS 1 127
/-- Without the supply of any I/O bank. -/
def unfed (s : State) : State := { s with pwr := { s.pwr with supply := 0 } }

theorem wit_LineDefectsDeclareAndClear :
    (let s := lineUp Line.init up
     (s.line 127).on = true ∧ s.fabUp = true ∧ s.lineDefect 127 0 = false ∧ s.losZeros 127 ≤ 32 ∧
       s.lineFramed 127 = true ∧ s.bankIn (127 / 32) = true ∧ (unfed s).bankIn (127 / 32) = false ∧
       ∀ n < 8, s.candFrom n 0 127 = false) ∧
    (let s := los (lineUp Line.init up)
     s.lineDefect 127 0 = true ∧ clearWindow (s.losZeros 127) 0x88888888 = true) ∧
    (let s := lineUp { Line.init with aisLow := true } up
     (2 : BitVec 10).toNat ≤ 2 ∧ (s.line 127).aisLow = true ∧ s.lineDefect 127 0 = false ∧ s.lineDefect 127 1 = false) ∧
    (let s := (lineUp { Line.init with aisHigh := true } up).setReg .LINE_STATUS 2 127
     2 < (3 : BitVec 10).toNat ∧ (s.line 127).aisHigh = true ∧ s.lineDefect 127 1 = true) ∧
    (let s := lineUp Line.init up
     (s.line 127).aisLow = false ∧ (s.line 127).aisHigh = false) ∧
    (let s := putA (lineUp { Line.init with aligned := true, alFrames := 64 } up) [(F.LINE_CTL_CRC4, 127, 1)]
     s.fa F.LINE_CTL_CRC4 127 = 1 ∧ (s.line 127).aligned = true ∧ (s.line 127).mfPos = none ∧
       64 ≤ (s.line 127).alFrames) ∧
    (let s := putA (lineUp { Line.init with aligned := true, alFrames := 3200 } up) [(F.LINE_CTL_CRC4, 127, 2)]
     s.fa F.LINE_CTL_CRC4 127 = 2 ∧ (s.line 127).aligned = true ∧ (s.line 127).mfPos = none ∧ (s.line 127).mfDone = false ∧ 3200 ≤ (s.line 127).alFrames) := by decide

/-- Frames whose first byte is the FAS word of R194, and is not. -/
theorem wit_LineFrameEntersStoreAndFramer :
    (let s := putA (lineUp { Line.init with aligned := true, fasBad := 1 } up) [(F.LINE_CTL_IF_MODE, 127, 1)]
     (s.line 127).on = true ∧ s.fabUp = true ∧ s.fa F.LINE_CTL_LOOP 127 ≠ 1 ∧ s.ba F.LINE_CTL_IF_MODE 127 = true ∧
       s.lineFramed 127 = true ∧ (s.line 127).aligned = true ∧ (s.line 127).odd = false ∧ (s.line 127).mfPos = none ∧
       (s.line 127).fb = [] ∧ (s.line 127).fasBad < 2 ∧ s.bankIn (127 / 32) = true ∧ (unfed s).bankIn (127 / 32) = false) ∧
    isFas (listOfBits (0x1B#256 <<< 248)) = true ∧ isFas (listOfBits (0#256)) = false ∧
    (let s := acting up [(F.REF_CAND_CFG_EN, 7, 1), (F.REF_CAND_CFG_INDEX, 7, 127)]
     s.candFrom 7 0 127 = true) ∧ 2 ≤ (lineUp { Line.init with fasBad := 2 } up |>.line 127).fasBad ∧
    (lineUp { Line.init with phase := some 65535 } up |>.line 127).phase.isSome = true := by decide

def trunkUp (k : Trunk) (s : State) : State := withTrunk 3 { k with on := true } s

theorem wit_TrunkFrameEntersBuffer :
    (let s := trunkUp { Trunk.init with aligned := true, fawBad := 3 } up
     (s.trunk 3).on = true ∧ s.fabUp = true ∧ s.fa F.TRK_CTL_LOOP 3 = 0 ∧ (s.trunk 3).aligned = true ∧
       (s.trunk 3).fb = [] ∧ (s.trunk 3).fawBad = 3 ∧ s.bankIn 4 = true ∧ s.trunkDefect 3 0 = false ∧ 500 < (501 : BitVec 16).toInt.natAbs) ∧
    (let s := (trunkUp Trunk.init up).setReg .TRK_STATUS 1 3
     s.bankIn 4 = true ∧ s.trunkDefect 3 0 = true ∧ (255 : Nat) < 256 ∧ (0xFE0C : BitVec 16).toInt.natAbs ≤ 500) := by decide

/-- The FAW of R251 with one bit wrong, and with two. -/
theorem wit_TrunkFrameFaw :
    fawDiff (listOfBits (0x1F356A4D : BitVec 32)) < 2 ∧ 2 ≤ fawDiff (listOfBits (0x1F356A4F : BitVec 32)) := by decide

theorem wit_SecCounterReadSelectsNewerBank :
    CanRead eft .LINE_CNT_SEC 127 0 up ∧ CanRead eft .TRK_CNT_SEC 3 0 up := by decide

theorem wit_SecondBoundaryLatchesCounters :
    let s := { up with sys := 24576000, frame := 8000 }
    s.fabUp = true ∧ s.rst.held = false ∧ s.sys.toNat % 24576000 = 0 ∧ 0 < s.sys.toNat ∧ s.secDone = false := by decide

/-! ### Cores -/

/-- The eft in MAIN, or in HANDLER, with a context. -/
def coreIn (h : Bool) (c : Ctx) (s : State) : State :=
  s.setCore 16 { eftBoot with inHandler := h, main := if h then eftBoot.main else c, hand := if h then c else eftBoot.hand }
def mainCtx : Ctx := eftBoot.main
/-- Segments of tests: 8 without R, 9 on connection memory, 10 on selectors, 11 on connection memory and beyond, 12 that
ends 2 bytes into a word. -/
def testCtx : Ctx :=
  ((((mainCtx.putSeg 8 0x8000100000000002).putSeg 9 0x8001000001000008).putSeg 10 0x8000100001020008).putSeg 11
    0x8002000001000008).putSeg 12 0x8000000200000003

/-- A core that is about to execute, as a test that can be computed. -/
def ready (n : Nat) (s : State) : Bool :=
  s.canRun n && !(s.core n).haltReq && !(s.core n).breaks && (match (s.fetch n).2 with | .ok _ => true | _ => false)

theorem executes_of_ready {n : Nat} {s : State} (h : ready n s = true) : Executes n s := by
  simp only [ready, Bool.and_eq_true, Bool.not_eq_true'] at h
  obtain ⟨⟨⟨h1, h2⟩, h3⟩, h4⟩ := h
  refine ⟨h1, .inr ⟨h2, .inl h3⟩, (s.fetch n).1, ?_⟩
  cases e : (s.fetch n).2 with
  | ok k => exact ⟨k, Prod.ext rfl e⟩
  | fault c k => rw [e] at h4; cases h4

theorem wit_RegisterInstructionsWriteTheirRegister : Executes 16 State.reset := executes_of_ready (by decide)

theorem wit_SumsAndDifferencesSetFourFlags :
    Executes 16 State.reset ∧ LoadsMem 16 0 0x5FFC 4 0 State.reset := ⟨executes_of_ready (by decide), by decide⟩

theorem wit_ShiftsProductsAndQuotients :
    (Executes 16 (coreIn false { mainCtx with a := 0x80000000, x := 0xFFFFFFFF } up) ∧
      ((coreIn false { mainCtx with a := 0x80000000, x := 0xFFFFFFFF } up).ctx 16).x ≠ 0) ∧
    (Executes 16 up ∧ (up.ctx 16).x = 0) ∧ (31 : Nat) < 32 :=
  ⟨⟨executes_of_ready (by decide), by decide⟩, ⟨executes_of_ready (by decide), by decide⟩, by decide⟩

def testSt : State := coreIn false testCtx up
abbrev testSeg (k : Nat) : BitVec 64 := (testSt.ctx 16).segAt k

theorem wit_LoadsReadTheirSegment :
    Executes 16 testSt ∧ (LoadsMem 16 0 0x5FFC 4 0 testSt ∧ LoadsMem 16 0 0x5FFF 1 0 testSt ∧
      LoadsMem 16 0 0x5FFE 2 0 testSt ∧ LoadsMem 16 7 0xFEFFFC 4 0 testSt) ∧
      (Admits (testSeg 1) .r (testSt.operandEo 16 1 0) 4 4 ∧ testSt.operandAt 16 1 0 = RegKind.PWR_CTL.addr 0 0 ∧
        RegKind.PWR_CTL ∈ plainRegs ∧ RegKind.PWR_CTL.info.maskOf .rc = 0 ∧
        CanRead (coreMaster 16) .PWR_CTL 0 0 testSt ∧ RegKind.PWR_CTL.addr 0 0 ∉ bookRegs 16) ∧
      segValid (testSeg 13) = false ∧ (segValid (testSeg 8) = true ∧ segR (testSeg 8) = false) ∧
      (segValid (testSeg 0) = true ∧ segR (testSeg 0) = true ∧ testSt.operandEo 16 0 0x5FFE % 4 ≠ 0) ∧
      (testSt.operandEo 16 12 0 % 4 = 0 ∧ segR (testSeg 12) = true ∧ segValid (testSeg 12) = true ∧
        segLimit (testSeg 12) < testSt.operandEo 16 12 0 + 4) := by
  refine ⟨executes_of_ready ?_, ?_, ?_, ?_⟩ <;> decide

theorem wit_LoadsReadTheirSegmentMemory :
    (let s := coreIn false testCtx State.reset
     Admits ((s.ctx 16).segAt 7) .r (s.operandEo 16 7 0) 4 4 ∧ inAon 16 (s.operandAt 16 7 0) = false ∧
       s.operandAt 16 7 0 < 0x1000000 ∧ s.pondOn (s.operandAt 16 7 0) 4 = false) ∧
    (let s := (coreIn false testCtx up).setEcc 0 (.two 64 65)
     s.pondOn (s.operandAt 16 7 0) 4 = true ∧ ∃ w ∈ wordsOf (s.operandAt 16 7 0) 4, (s.eccOf w).ue = true) := by decide

theorem wit_StoresWriteTheirBytesOnly :
    let s := coreIn false { testCtx with s := 0xFFC } up
    let d := fun k => (s.ctx 16).segAt k
    Executes 16 s ∧ (Admits (d 0) .w (s.operandEo 16 0 0x5FFC) 4 4 ∧ MemOk 16 (s.operandAt 16 0 0x5FFC) 4 s) ∧
      (Admits (d 7) .r 0 4 4 ∧ segValid (d 15) = true ∧ segW (d 15) = false) ∧
      (segW (d 0) = true ∧ s.operandEo 16 0 0x5FFE % 4 ≠ 0) ∧ segValid (d 13) = false ∧
      (segW (d 12) = true ∧ s.operandEo 16 12 0 % 4 = 0 ∧ segLimit (d 12) < s.operandEo 16 12 0 + 4) ∧
      (Admits (d 1) .w (s.operandEo 16 1 0) 4 4 ∧ s.operandAt 16 1 0 = RegKind.PWR_CTL.addr 0 0 ∧
        CanWrite (coreMaster 16) .PWR_CTL 0 0 s ∧ codesBad .PWR_CTL (s.ctx 16).a = false) ∧
      (Admits (d 14) .w ((s.ctx 16).s - 4).toNat 4 4 ∧ MemOk 16 (addrOf (d 14) ((s.ctx 16).s - 4).toNat) 4 s) ∧
      Admits (d 14) .r (s.ctx 16).s.toNat 4 4 ∧ MemOk 16 (addrOf (d 14) (s.ctx 16).s.toNat) 4 s := by
  refine ⟨executes_of_ready ?_, ?_⟩ <;> decide

theorem wit_TransfersSetThePc :
    (let s := coreIn false { mainCtx with a := 0xFFFFFC, s := 0xFFC } up
     Executes 16 s ∧ (BitVec.setWidth 24 (s.ctx 16).a).toNat % 4 = 0 ∧
       (Admits ((s.ctx 16).segAt 14) .w ((s.ctx 16).s - 4).toNat 4 4 ∧
         MemOk 16 (addrOf ((s.ctx 16).segAt 14) ((s.ctx 16).s - 4).toNat) 4 s) ∧
       Admits ((s.ctx 16).segAt 14) .r (s.ctx 16).s.toNat 4 4 ∧
       (BitVec.setWidth 24 (s.memWord 16 (addrOf ((s.ctx 16).segAt 14) (s.ctx 16).s.toNat) 4)).toNat % 4 = 0) ∧
    (let s := (coreIn false { mainCtx with a := 2, s := 0xFFC } up).setAonBytes 0xFFEFFC [1]
     Executes 16 s ∧ (BitVec.setWidth 24 (s.ctx 16).a).toNat % 4 ≠ 0 ∧
       (BitVec.setWidth 24 (s.memWord 16 (addrOf ((s.ctx 16).segAt 14) (s.ctx 16).s.toNat) 4)).toNat % 4 ≠ 0) := by
  refine ⟨⟨executes_of_ready ?_, ?_⟩, ⟨executes_of_ready ?_, ?_⟩⟩ <;> decide

theorem wit_HandlerIsEnteredAndLeft :
    (let s := { (coreIn false { mainCtx with f := 16 } up).setReg .CORE_IRQ_SRC 0x800003FF 16 7 with
       pend := [(16 * 1024 + 1023, some 5)] }
     s.rst.held = false ∧ s.corePg 16 = true ∧ (s.core 16).st = .run ∧ (s.core 16).inHandler = false ∧
       (s.core 16).main.f.getLsbD 4 = true ∧ (s.core 16).afterReti = false ∧
       (s.core 16).stepping = false ∧ (s.core 16).part = 0 ∧ s.pendList 16 = [(1023, 5)] ∧
       s.irqOf 16 1023 = some 7) ∧
    (Executes 16 up ∧ undefinedWord 0x62000000 = true ∧ undefinedWord 0x2E000000 = true ∧
      (up.core 16).inHandler = false) ∧
    (Executes 16 (coreIn true eftBoot.hand up) ∧ ((coreIn true eftBoot.hand up).core 16).inHandler = true) := by
  refine ⟨?_, ⟨executes_of_ready ?_, ?_⟩, ⟨executes_of_ready ?_, ?_⟩⟩ <;> decide

theorem wit_UndefinedFieldsAreIllegal :
    Executes 16 up ∧ (15 : BitVec 4) ≠ 0 ∧ 32 ≤ (32 : BitVec 21).toNat ∧ (1 : BitVec 21) ≠ 0 ∧ 4 ≤ (4 : BitVec 21).toNat ∧
      64 ≤ (64 : BitVec 21).toNat ∧ 2 ≤ (2 : BitVec 21).toNat ∧ 6 ≤ (6 : BitVec 21).toNat ∧ (1 : BitVec 15) ≠ 0 := by
  refine ⟨executes_of_ready ?_, ?_⟩ <;> decide

theorem wit_PairsRunBothHalves :
    let s := coreIn false testCtx up
    let o := fun (w : BitVec 31) => (Short.of ((w >>> 16).setWidth 15), Short.of (w.setWidth 15))
    let dep := fun (w : BitVec 31) =>
      dependent (o w).1 (o w).2 ((s.ctx 16).segAt (o w).1.seg) ((s.ctx 16).segAt (o w).2.seg)
    Executes 16 s ∧ ((⟨31, 1023⟩ : Short).legal = true) ∧
      ((0x48058C06 : BitVec 31).getLsbD 15 = true ∧ (o 0x00010000).1.legal = false) ∧
      ((0x48050001 : BitVec 31).getLsbD 15 = false ∧ (o 0x48050001).1.legal = true ∧ (o 0x48050001).2.legal = false) ∧
      ((o 0x04000800).1.legal = true ∧ (o 0x04000800).2.legal = true ∧ dep 0x04000800 = true) ∧
      ((o 0x48054C06).1.legal = true ∧ (o 0x48054C06).2.legal = true ∧ dep 0x48054C06 = false ∧
        (o 0x48054C06).1.mem = false ∧ (o 0x48054C06).2.mem = false) ∧
      (dep 0x04004C06 = false ∧ (o 0x04004C06).1.loads = true ∧ LoadsMem 16 0 0 4 0 s) ∧
      (dep 0x4C060800 = false ∧ (o 0x4C060800).2.stores = true ∧ Admits ((s.ctx 16).segAt 0) .w (s.operandEo 16 0 0) 4 4 ∧
        MemOk 16 (s.operandAt 16 0 0) 4 s) ∧
      (dep 0x07404C06 = false ∧ (o 0x07404C06).1.mem = true ∧ segValid ((s.ctx 16).segAt (o 0x07404C06).1.seg) = false) := by
  refine ⟨executes_of_ready ?_, ?_⟩ <;> decide

theorem wit_FabricInstructionsActOnShadowState :
    let s := coreIn false testCtx up
    let d := fun k => (s.ctx 16).segAt k
    Executes 16 s ∧ (s.fabUp = true ∧ s.coreOwner 16 < 16) ∧ (segValid (d 0) = true ∧ segFW (d 0) = false) ∧
      (Admits (d 9) .fw (s.operandEo 16 9 0xFFFC) 4 4 ∧ s.operandAt 16 9 0xFFFC = connAddr 16383 ∧
        fieldOf (s.ctx 16).a 26 5 = 0 ∧ fieldOf (s.ctx 16).a 24 2 = 0 ∧ s.slotOwner 16383 = s.coreOwner 16 ∧
        fieldOf (s.ctx 16).a 14 2 ≠ 2 ∧ (s.change (connAddr 16383)).isPending = false) ∧
      ((s.setChange (connAddr 16383) (.pending 0)).change (connAddr 16383)).isPending = true ∧
      (Admits (d 10) .fw (s.operandEo 16 10 0xFFC) 4 4 ∧ s.operandAt 16 10 0xFFC = selAddr 1023 ∧
        fieldOf (s.ctx 16).a 29 2 = 0 ∧ s.selOwner 1023 = s.coreOwner 16 ∧ (s.change (selAddr 1023)).isPending = false) ∧
      (Admits (d 11) .fw (s.operandEo 16 11 0x10000) 4 4 ∧ 0x0100FFFF < s.operandAt 16 11 0x10000) ∧
      ((63 : BitVec 21).toNat < 64 ∧ (s.ten 0).st = .run ∧ ((s.ctx 16).a - s.frame).toNat = 0) ∧
      ((coreIn false { testCtx with a := 0x7FFFFFFF } up).ctx 16).a.toNat < 0x80000000 ∧
      (s.pendingOf 0).length < 64 ∧ s.covers 0 63 = [] := by
  refine ⟨executes_of_ready ?_, ?_⟩ <;> decide

/-- Queue 16383: two entries of 8 bytes at 0x100, `fill` of them used. -/
def queueOf (fill : BitVec 17) (cfg : Word) : Queue := { Queue.init with base := 0x100, cfg := cfg, tail := fill }
def queueSt (fill : BitVec 17) (cfg : Word) : State :=
  (coreIn false { mainCtx with x := 16383 } up).setQueue 16383 (queueOf fill cfg)

theorem wit_QueueInstructionsMoveOneEntry :
    (let s := queueSt 1 0x101
     let e := s.queue 16383
     Executes 16 s ∧ s.queueOwner 16383 = s.coreOwner 16 ∧ qEn e = true ∧ qEsize e = 8 ∧ qDepth e = 2 ∧
       s.operandAt 16 7 0x200 = 0x200 ∧ inAon 16 0x200 = false ∧ s.pondOn 0x200 8 = true ∧
       Admits ((s.ctx 16).segAt 7) .w (s.operandEo 16 7 0x200) 8 8 ∧
       Admits ((s.ctx 16).segAt 7) .r (s.operandEo 16 7 0x200) 8 8 ∧ s.qLive 16383 e = true ∧ qFill e ≠ 0 ∧
       qFill e ≠ qDepth e ∧ qHeld e = 0 ∧ e.base % 8 = 0 ∧ (∀ w ∈ wordsOf 0x100 16, (s.eccOf w).ue = false)) ∧
    (qEn ((queueSt 0 0).queue 16383) = false ∧ qFill (queueOf 0 0x101) = 0) ∧
    (let s := queueSt 2 0x103
     let e := s.queue 16383
     s.qLive 16383 e = true ∧ qFill e = qDepth e ∧ qDrops e = true ∧ qDrops (queueOf 2 0x101) = false) ∧
    (put (queueSt 0 0) [(F.TEN_QRANGE_FIRST, 15, 16383), (F.TEN_QRANGE_COUNT, 15, 1)]).queueOwner 16383 = 15 := by
  refine ⟨⟨executes_of_ready ?_, ?_⟩, ?_⟩ <;> decide

theorem wit_SegmentLoadsAndEventWaits :
    (Executes 16 up ∧ fieldOf ((0x4F00 : BitVec 21).setWidth 32) 6 2 = 0 ∧ (0x4F00 : BitVec 21).toNat < 65536 ∧
      segValid (up.segEntry 0 0) = true ∧ segWellFormed true (up.segEntry 0 0) = true ∧
      segValid (up.segEntry 0 63) = false) ∧
    Executes 16 (coreIn true eftBoot.hand up) ∧
    (let s := { up with pend := [(16 * 1024, some 5), (16 * 1024 + 1023, some 5)] }
     s.pendList 16 = [(0, 5), (1023, 5)] ∧ s.irqOf 16 0 = none ∧ s.irqOf 16 1023 = none) ∧ up.pendList 16 = [] := by
  refine ⟨⟨executes_of_ready ?_, ?_⟩, executes_of_ready ?_, ?_⟩ <;> decide

def eftAs (st : CoreSt) (s : State) : State := s.setCore 16 { eftBoot with st := st }

theorem wit_DebugUnitHaltsStepsAndResumes :
    (let s := eftAs .wait up
     s.rst.held = false ∧ s.corePg 16 = true ∧ s.nvm.dbgLock.getLsbD 0 = false ∧ (s.core 16).st = .wait) ∧
    ((up.core 16).st = .run ∧ (up.core 16).part = 0) ∧
    ({ up with nvm := { Nvm.init with dbgLock := 1 } } : State).nvm.dbgLock.getLsbD (up.coreOwner 16) = true ∧
    ((eftAs .dbg up).core 16).st = .dbg ∧ ∃ u j, (eftAs .dbg up).fetch 16 = (u, .ok j) :=
  ⟨by decide, by decide, by decide, by decide, _, _, rfl⟩

/-- The newts have power too. -/
def newts : State := put up [(F.PWR_DOM_STATUS_NEWT_PG, 0, 1)]

theorem wit_RestartAndCacheCommands :
    (CanWrite eft .CORE_CTL 15 0 newts ∧ newts.corePg 15 = true ∧ (newts.ten (newts.coreOwner 15)).st = .run ∧
      newts.coreOwner 15 = 0) ∧
    (let s := (eftAs .stopped up).setTen 0 { Tenant.init with st := .shed }
     CanWrite .jtag .CORE_CTL 16 0 s ∧ (s.ten (s.coreOwner 16)).st = .shed ∧ (s.core 16).st ≠ .off) ∧
    (CanWrite eft .CORE_CTL 15 0 State.reset ∧ State.reset.corePg 15 = false ∧ State.reset.dev ≠ 2) ∧
    (CanWrite eft .CORE_ICACHE_LOAD 16 0 up ∧ fieldOf 128#32 0 9 = 128 ∧
      up.f F.CORE_ICACHE_LOAD_BASE_BASE 16 * 32 + 128 * 32 ≤ 0x00FF0000 ∧ (up.core 16).load = none ∧ fieldOf 129#32 0 9 = 129) ∧
    (let s := up.setCore 16 { eftBoot with load := some ⟨0, 128, 127, 0⟩ }
     (s.core 16).load = some ⟨0, 128, 127, 0⟩ ∧ 128 ≤ cacheSets 16 ∧ s.corePg 16 = true) ∧
    CanWrite eft .CORE_ICACHE_CTL 16 0 up ∧
    (let s := up.setCore 16 { eftBoot with lb := some ⟨0, 24, []⟩ }
     s.corePg 16 = true ∧ (s.core 16).lb = some ⟨0, 24, []⟩ ∧ s.pondOn 0 32 = true ∧ NoUe 0 32 s ∧
       ¬(NoUe 0 32 (s.setEcc 3 (.two 64 65))) ∧ (s.setBankSt 0 0).pondOn 0 32 = false) ∧
    (up.core 16).lb = none ∧ ({ eftBoot with lb := some ⟨0, 0, []⟩ } : Core).lb = some ⟨0, 0, []⟩ := by decide

/-! ### The frame boundary, audio and HDLC -/

/-- Outputs 0 to 3 with IDLE, DIRECT, SELECT and TEST entries of mailbox bytes, output 4 with wrong parity. -/
def routing : State :=
  let conn := fun (v : Word) => (⟨withPar v, 0, false⟩ : Copies)
  { up with fab := { Fabric.init with
    conn := [(0, conn 0x00550000), (1, conn 0x00007FFF), (2, conn 0x03FFBFFF), (3, conn 0x00AAFFFF),
      (4, ⟨withPar 0 ^^^ 0x80000000, 0, false⟩)] } }

theorem wit_FrameBoundaryRoutesAndCounts :
    routing.fabUp = true ∧ routing.rst.held = false ∧
    (let w := fun n => (routing.conn n).active
     let v := (routing.sel 1023).active
     (parOk (w 0) = true ∧ fieldOf (w 0) 14 2 = 0) ∧
     (parOk (w 1) = true ∧ fieldOf (w 1) 14 2 = 1 ∧ fieldOf (w 1) 0 14 = 16383) ∧
     (parOk (w 2) = true ∧ fieldOf (w 2) 14 2 = 2 ∧ fieldOf (w 2) 16 10 = 1023 ∧ parOk v = true ∧ fieldOf v 0 14 = 0 ∧
       v.getLsbD 28 = false) ∧
     (parOk (w 3) = true ∧ fieldOf (w 3) 14 2 = 3) ∧ parOk (w 4) = false ∧
     (∀ e ∈ routing.fab.conn, e.1 ≠ 16383)) := by decide

def running17 (s : State) : State := { s with pwr := { s.pwr with running := 0x20000 } }
/-- Audio port 7 with one DMA channel, 16-bit samples and queue 16383 both ways. -/
def audOn (a : Audio) (q : Queue) : State :=
  let s := putA ((running17 up).setAud 7 { a with on := true }) [(F.AUD_QUEUE_RXQ, 7, 16383), (F.AUD_QUEUE_TXQ, 7, 16383)]
  (s.setAct .AUD_CHMAP (withField 0 F.AUD_CHMAP_DEST.lo 2 2) 7 0).setQueue 16383 q
/-- Entries of 32 bytes at 0x200. -/
def audQueue (fill : BitVec 17) : Queue := { Queue.init with base := 0x200, cfg := 0x121, tail := fill }

theorem wit_AudioPortsMoveBlocks :
    (CanWrite eft .AUD_FRAME 7 0 up ∧ (up.aud 7).on = false ∧ fieldOf 0x0100#32 0 2 ≤ 2 ∧ fieldOf 0x0100#32 8 5 = 1 ∧
      audF (16 + 8 * 0) (1 + 1) * audRate (up.fa F.AUD_CFG_RATE 7) ≤ 3072 ∧ up.fa F.AUD_CFG_FORMAT 7 ≠ 2 ∧
      fieldOf 0x0200#32 8 5 ≠ 1 ∧ up.fabUp = true) ∧
    (let s := audOn { Audio.init with txDry := true, rxDry := true } (audQueue 0)
     CanWrite eft .AUD_FRAME 7 0 s ∧ s.domRun 17 = true ∧ (s.aud 7).on = true ∧ s.audPos 7 ≠ 0 ∧ (s.aud 7).tx = [] ∧
       (s.aud 7).underNow = false ∧ (s.aud 7).quiet = false ∧ (s.aud 7).txDry = true ∧ (s.aud 7).rxDry = true ∧
       (s.aud 7).overNow = false) ∧
    (audOn Audio.init (audQueue 0)).qNothing 16383 = true ∧
    (let s := audOn { Audio.init with rxDone := some { AudBlock.init with samples := [0xFFFF0000] } } (audQueue 1)
     (s.aud 7).rxDone.isSome = true ∧ s.fa F.AUD_QUEUE_RXQ 7 = 16383 ∧ s.qLive 16383 (s.queue 16383) = true ∧
       qFill (s.queue 16383) ≠ qDepth (s.queue 16383) ∧ NoUe 0x220 18 s) ∧
    (let s := audOn { Audio.init with rxDone := some AudBlock.init } (audQueue 2)
     qFill (s.queue 16383) = qDepth (s.queue 16383) ∧ (s.aud 7).rxDone ≠ none ∧ s.qNoRoom 16383 = true) ∧
    (let s := audOn Audio.init (audQueue 1)
     (s.aud 7).txDry = false ∧ (s.aud 7).underNow = false ∧ s.audPos 7 ≠ 0 ∧ s.fa F.AUD_QUEUE_TXQ 7 = 16383 ∧ s.qLive 16383 (s.queue 16383) = true ∧
       qFill (s.queue 16383) ≠ 0 ∧ qHeld (s.queue 16383) = 0 ∧ NoUe 0x200 (qEsize (s.queue 16383)) s) := by decide

/-- Channel 255 with queue 16383 both ways and closed frames. -/
def hdlcOn (h : Hdlc) (q : Queue) (s : State) : State :=
  (s.setHd 255 { h with on := true, que := 0x3FFF3FFF }).setQueue 16383 q

theorem wit_HdlcChannelsCheckAndCarryFrames :
    (up.fabUp = true ∧ CanWrite eft .HDLC_CH_CFG 255 0 up ∧ up.b F.HDLC_CH_CFG_EN 255 = false ∧
      (put up [(F.HDLC_CH_CFG_EN, 255, 1)]).b F.HDLC_CH_CFG_EN 255 = true) ∧
    (let f := fun (n : Nat) (ab : Bool) => (⟨[], n, ab, 5, false⟩ : HdlcRx)
     let s := hdlcOn { Hdlc.init with done := [f 16 true] } (audQueue 0) up
     let h := s.hd 255
     h.done = f 16 true :: [] ∧ (f 7 false).count % 8 ≠ 0 ∧
       ((f 16 false).count % 8 = 0 ∧ (f 16 false).count / 8 ≤ h.fcsLen) ∧
       ((f 16408 false).count % 8 = 0 ∧ h.maxLen + h.fcsLen < (f 16408 false).count / 8) ∧
       (h.fcsLen < (f 24 false).count / 8 ∧ (f 24 false).count / 8 ≤ h.maxLen + h.fcsLen ∧
         fcsOf (h.cfg.getLsbD 4) ([0xFF, 0, 0].take 1) ≠ [0xFF, 0, 0].drop 1)) ∧
    (let s := hdlcOn Hdlc.init (audQueue 1) up
     let data : List Byte := List.replicate 24 0xFF
     s.hdlcHeld 255 = false ∧ 1 ≤ data.length ∧ data.length ≤ (s.hd 255).maxLen ∧ (s.hd 255).lim.getLsbD 24 = false ∧
       (s.hd 255).cfg.getLsbD 10 = false ∧ (s.hd 255).rxq = 16383 ∧ s.qLive 16383 (s.queue 16383) = true ∧
       qFill (s.queue 16383) < qDepth (s.queue 16383) ∧ 16 ≤ qEsize (s.queue 16383) ∧
       data.length + 8 ≤ qEsize (s.queue 16383) ∧ NoUe 0x220 32 s) ∧
    (hdlcOn Hdlc.init Queue.init up).qLive 16383 Queue.init = false ∧
    ((hdlcOn Hdlc.init (audQueue 1) up).setTen 0 { Tenant.init with st := .run, cut := true }).hdlcHeld 255 = true ∧
    (let s := (hdlcOn { Hdlc.init with ready := 1, frames := [(8, 40)] } (audQueue 1) up).setBytes 0x200 [1, 0, 3]
     s.hdlcHeld 255 = false ∧ ((s.hd 255).ready - (s.queue 16383).head).toNat = 1 ∧
       s.qLive 16383 (s.queue 16383) = true ∧ (s.hd 255).frames.getLast? = some (8, 40) ∧ (s.hd 255).on = true ∧ (s.hd 255).txq = 16383 ∧ qFill (s.queue 16383) = 1 ∧ qHeld (s.queue 16383) = 0 ∧
       NoUe 0x200 32 s ∧ ((s.bytes 0x200 32).getD 2 0).getLsbD 0 = true ∧
       ((s.bytes 0x200 32).getD 2 0).getLsbD 1 = true ∧ ((s.bytes 0x200 32).getD 2 0).getLsbD 2 = false) ∧
    (let e := (hdlcOn Hdlc.init (audQueue 1) up).bytes 0x200 32
     (e.getD 2 0).getLsbD 0 = false ∧ (e.getD 2 0).getLsbD 2 = false) ∧
    (let e := ((hdlcOn Hdlc.init (audQueue 1) up).setBytes 0x200 [1, 0, 6]).bytes 0x200 32
     (e.getD 2 0).getLsbD 0 = false ∧ (e.getD 2 0).getLsbD 2 = true) := by decide

/-! ### Tenants, events and queues -/

theorem wit_TenantStatesFollowTheirCommands :
    (CanWrite eft .TEN_CTL 15 0 up ∧ up.tenantOf eft = 0 ∧ up.dev ≠ 2 ∧ (up.ten 15).st = .off ∧ (up.ten 15).st ≠ .shed ∧
      (up.ten 15).st ≠ .run) ∧
    ((up.setTen 15 { Tenant.init with st := .shed }).ten 15).st = .shed ∧ (up.ten 0).st = .run ∧
    (let s := (up.setTen 15 { Tenant.init with st := .run }).setReg .TEN_LINKS 8 15
     CanWrite (.link 3 15) .TEN_CTL 15 0 s ∧ s.tenantOf (.link 3 15) ≠ 0 ∧ (s.ten 15).st = .run) ∧
    (let s := up.setTen 15 { Tenant.init with st := .shedding, age := 1 }
     s.fabUp = true ∧ s.rst.held = false ∧ (s.ten 15).st = .shedding ∧ 1 ≤ (s.ten 15).age ∧ (s.ten 14).st ≠ .shedding) := by
  decide

theorem wit_EventsReachUnmaskedCores :
    (let s := { (up.setReg .CORE_EVT_EN 0x80000000 16 31) with raised := [⟨1023, none, 5⟩] }
     s.fabUp = true ∧ s.rst.held = false ∧ (∀ r ∈ s.raised, r.num < 1024) ∧ (s.core 16).st ≠ .wait ∧
       (s.reg .TEN_EVT_MASK (s.coreOwner 16) 31).getLsbD 31 = true ∧ (s.reg .CORE_EVT_EN 16 31).getLsbD 31 = true ∧
       tabGet (fun _ => none) s.pend (16 * 1024 + 1023) = none) ∧
    (let s := eftAs .wait up
     s.pendList 16 = [] ∧ (s.core 16).st = .wait ∧ s.irqOf 16 1023 = none ∧ s.corePg 16 = true ∧
       (s.core 16).stepping = false) ∧
    State.reset.fabUp = false ∧
    (CanWrite eft .TEN_MBX_DOOR 15 0 up ∧ up.tenantOf eft = 0) ∧
    (let s := (up.setTen 1 { Tenant.init with st := .run }).setReg .TEN_LINKS 8 1
     CanWrite (.link 3 1) .TEN_MBX_DOOR 0 0 s ∧ s.tenantOf (.link 3 1) = 1 ∧
       (s.reg .TEN_LINKS 0).getLsbD 3 = false ∧ (s.reg .TEN_MBX_ALLOW 0).getLsbD 1 = false) := by decide

/-- A segment of tenant 0 over the first bank, for its queues and rings. -/
def seg63 (s : State) : State := (s.setReg .TEN_SEG_W0 3 0 63).setReg .TEN_SEG_W1 0x80100000 0 63

theorem wit_QueueDescriptorsAreChecked :
    (let s := seg63 (up.setQueue 16383 { Queue.init with base := 0xFFF00 })
     let v : Word := 0x551
     CanWrite eft .Q_CFG 16383 0 s ∧ qEn (s.queue 16383) = false ∧ ¬(5 < fieldOf v 4 3 ∨ 16 < fieldOf v 8 5) ∧
       fieldOf v 4 3 = 5 ∧ fieldOf 0x061#32 4 3 = 6 ∧ fieldOf 0x1101#32 8 5 = 17 ∧
       (s.queue 16383).base % (8 * 2 ^ 5) = 0 ∧ (s.queue 16383).base % (8 * 2 ^ 0) = 0 ∧
       ¬(0x1000000 < 0xFFF00 + 256) ∧ ¬(0xFFF00 / 0x100000 ≠ (0xFFF00 + 256 - 1) / 0x100000) ∧
       0xFFF00 / 0x100000 ≠ (0xFFF00 + 512 - 1) / 0x100000 ∧
       s.segCovers (s.queueOwner 16383) 0xFFF00 256 true = true) ∧
    up.segCovers 15 0xFFF00 256 true = false ∧ 0x1 % (8 * 2 ^ 0) ≠ 0 ∧
    (let s := up.setQueue 16383 (queueOf 1 0x101)
     CanWrite eft .Q_CFG 16383 0 s ∧ qEn (s.queue 16383) = true ∧
       (0x107 : Word) &&& 0x1F70 = (s.queue 16383).cfg &&& 0x1F70 ∧
       (0x207 : Word) &&& 0x1F70 ≠ (s.queue 16383).cfg &&& 0x1F70) ∧
    CanWrite eft .QSUM 63 7 up := by decide

/-! ### Pond memory and counters -/

theorem wit_PondIsScrubbedRaisedAndInjected :
    (let s := put up [(F.POND_SCRUB_CTL_EN, 0, 1), (F.POND_SCRUB_STATUS_LINE, 0, 0x7FFFF)]
     s.divRun = true ∧ s.b F.POND_SCRUB_CTL_EN = true ∧ s.f F.POND_SCRUB_STATUS_LINE = 0x7FFFF ∧
       s.bankSt (0x7FFFF / 32768) = 2 ∧ (∀ w ∈ [4 * 0x7FFFF, 4 * 0x7FFFF + 3], (s.eccOf w).ue = false)) ∧
    ((up.setEcc (4 * 0x7FFFF + 3) (.two 0 71)).eccOf (4 * 0x7FFFF + 3)).ue = true ∧
    (let s := up.setBankSt 15 3
     s.bankSt 15 = 3 ∧ s.bankCode 15 = 2 ∧ s.divRun = true) ∧
    (CanWrite eft .POND_ECC_INJECT 0 0 up ∧ up.bankSt (fieldOf 0x10FFFFF8#32 3 21 / 0x20000) = 2 ∧
      (up.setBankSt 15 0).bankSt (fieldOf 0x10FFFFF8#32 3 21 / 0x20000) ≠ 2) ∧
    ({ up with eccJobs := [(0x1FFFFF, 2)] } : State).eccJobs = (0x1FFFFF, 2) :: [] ∧ up.divRun = true := by decide

theorem wit_CountersWrapHoldAndLoad :
    (let s := up.setPctr 16 3 { PCtr.init with val := 2 ^ 48 }
     3 ∈ ctrNums 16 ∧ 2 ^ 48 ≤ (s.pctr 16 3).val ∧ (s.pctr 16 3).holders = [] ∧ (s.pctr 16 2).val < 2 ^ 48) ∧
    (up.setPctr 17 7 { PCtr.init with val := 2 ^ 48, holders := [16], held := true } |>.pctr 17 7).holders ≠ [] ∧
    (up.setPctr 17 7 { PCtr.init with val := 2 ^ 48, holders := [16], held := true } |>.pctr 17 7).held = true ∧
    (up.setPctr 17 7 { PCtr.init with holders := [16, 3], held := true } |>.pctr 17 7).holders.tail = [3] ∧
    (∀ j ∈ ctrNums 16, (up.pctr 16 j).val < 2 ^ 48) ∧
    CanRead eft .PERF_CNT_LO 16 3 up ∧ CanWrite eft .PERF_CNT_LO 16 3 up ∧ CanWrite eft .PERF_CNT_HI 16 3 up ∧
    CanRead eft .FPERF_CNT_LO 7 0 up ∧ CanWrite eft .FPERF_CNT_LO 7 0 up ∧ CanWrite eft .FPERF_CNT_HI 7 0 up ∧
    (CanWrite eft .PERF_CTL 16 3 up ∧ fieldOf 21#32 0 6 = 21 ∧ fieldOf 20#32 0 6 = 20) ∧
    (CanWrite eft .FPERF_CTL 7 0 up ∧ fieldOf 8#32 0 5 = 8 ∧ fieldOf 7#32 0 5 = 7) := by decide

/-- A ring of 16 records at 0x100 with a record that waits. -/
def ring (wr : Nat) : State :=
  (put up [(F.PERF_SBUF_CFG_EN, 16, 1), (F.PERF_SBUF_CFG_SIZE_LOG2, 16, 4), (F.PERF_SBUF_BASE_BASE, 16, 16),
    (F.PERF_SBUF_WR_WR, 16, wr)]).setPctr 16 0 { PCtr.init with wait := some (List.replicate 16 0xFF) }

theorem wit_SamplesExecute : Executes 16 (up.setPctr 16 3 { PCtr.init with due := some (0, 12287) }) :=
  executes_of_ready (by decide)

theorem wit_SamplesAreCapturedAndStored :
    (let s := up.setPctr 16 3 { PCtr.init with due := some (0, 12287) }
     (s.pctr 16 3).due = some (0, 12287) ∧ (s.pctr 16 3).ready = none ∧ (s.core 16).st = .run ∧ s.fabUp = true) ∧
    ((up.pctr 16 3).due = none ∧ State.reset.fabUp = false) ∧
    (let s := up.setPctr 16 3 { PCtr.init with due := some (0, 12287), ready := some 0x1A000000 }
     (s.pctr 16 3).due = some (0, 12287) ∧ (s.pctr 16 3).ready = some 0x1A000000 ∧ (s.pctr 16 3).wait = none) ∧
    (let s := (eftAs .wait up).setPctr 16 3 { PCtr.init with due := some (0, 12287), wait := some [] }
     (s.pctr 16 3).due = some (0, 12287) ∧ (s.pctr 16 3).ready = none ∧ (s.core 16).st ≠ .run ∧ s.fabUp = true ∧
       (s.pctr 16 3).wait ≠ none) ∧
    (let s := ring 15
     s.divRun = true ∧ (s.pctr 16 0).wait = some (List.replicate 16 0xFF) ∧ s.b F.PERF_SBUF_CFG_EN 16 = true ∧
       ¬(2 ^ 4 ≤ (s.f F.PERF_SBUF_WR_WR 16 + 2 ^ 17 - s.f F.PERF_SBUF_RD_RD 16) % 2 ^ 17) ∧
       s.pondOn (16 * s.f F.PERF_SBUF_BASE_BASE 16 + 16 * 15) 16 = true ∧
       (s.setBankSt 0 0).pondOn (16 * s.f F.PERF_SBUF_BASE_BASE 16 + 16 * 15) 16 = false) ∧
    2 ^ 4 ≤ ((ring 16).f F.PERF_SBUF_WR_WR 16 + 2 ^ 17 - (ring 16).f F.PERF_SBUF_RD_RD 16) % 2 ^ 17 ∧
    (let s := seg63 (put up [(F.PERF_SBUF_BASE_BASE, 16, 0xFFF0)])
     CanWrite eft .PERF_SBUF_CFG 16 0 s ∧ s.b F.PERF_SBUF_CFG_EN 16 = false ∧
       ¬(fieldOf 0x41#32 4 5 < 4 ∨ 16 < fieldOf 0x41#32 4 5) ∧ 16 * s.f F.PERF_SBUF_BASE_BASE 16 = 0xFFF00 ∧
       s.segCovers (s.coreOwner 16) 0xFFF00 256 false = true ∧ fieldOf 0x31#32 4 5 = 3) := by decide

/-! ### Host links and maintenance -/

def hdr0 : PktHdr := ⟨0, true, false, 0, 4095⟩
/-- Link 3 runs for T0 with DIAG_EN; queue 16383 has `fill` of two 8-byte entries. -/
def linkOn (l : Link) (q : Queue) : State :=
  ((put up [(F.HL_CFG_T0_OK, 3, 1), (F.HL_CFG_DIAG_EN, 3, 1)]).setLink 3 l).setQueue 16383 q
def pkt (seq : BitVec 12) : Pkt := ⟨8, 0, false, seq, 0, []⟩
def ask (q most : Nat) : List Byte := leBytes 2 q ++ leBytes 2 most
/-- A NULL header that acknowledges up to `ack`. -/
def nullHdr (ack : BitVec 12) (nak : Bool) : PktHdr := ⟨0, false, nak, 0, ack⟩

theorem wit_LinkRequestsAreServedAndAnswered :
    (up.fabUp = true ∧ up.rst.held = false ∧ up.bankIn 5 = true ∧ (unfed up).bankIn 5 = false) ∧
    (let s := linkOn { Link.init with replay := List.replicate 63 (pkt 0) } Queue.init
     let l := s.link 3
     ¬(1 ≤ (hdr0.ack - l.last).toNat) ∧ 64 < l.replay.length + 2 ∧ l.replay.length + 1 ≤ 64) ∧
    (let s := linkOn { Link.init with replay := [pkt 0, pkt 1], txNext := 2 } (queueOf 1 0x101)
     let l := s.link 3
     1 ≤ ((nullHdr 0 false).ack - l.last).toNat ∧ ((nullHdr 1 false).ack - l.last).toNat ≤ l.replay.length ∧
       ¬(1 ≤ ((nullHdr 4095 true).ack - l.last).toNat) ∧ ¬(((nullHdr 2 false).ack - l.last).toNat ≤ l.replay.length) ∧
       l.pages = [] ∧ l.replay ≠ []) ∧
    (let s := linkOn { Link.init with replay := [pkt 0], pages := [⟨0, 16383, 8, false⟩] } (queueOf 1 0x101)
     (s.link 3).pages = [⟨0, 16383, 8, false⟩] ∧ (0 : BitVec 12) ∈ ((s.link 3).replay.take 1).map fun p => p.seq) ∧
    (let s := linkOn Link.init (queueOf 1 0x101)
     let l := s.link 3
     let d := fun (seq : BitVec 12) => (seq - l.exp).toNat
     (6 ≤ (14 : BitVec 4).toNat ∧ (14 : BitVec 4).toNat ≤ 14) ∧ (1 ≤ d 1 ∧ d 2047 ≤ 2047 ∧ 2048 ≤ d 2048 ∧ d hdr0.seq = 0) ∧
       ¬(1 ≤ (hdr0.ack - l.last).toNat) ∧ l.replay.length < 64 ∧ s.b F.HL_CFG_T0_OK 3 = true ∧
       s.b F.HL_CFG_DIAG_EN 3 = true ∧ (put up [(F.HL_CFG_DIAG_EN, 3, 0)]).b F.HL_CFG_DIAG_EN 3 = false ∧
       (put up [(F.HL_CFG_T0_OK, 3, 0)]).b F.HL_CFG_T0_OK 3 = false ∧
       (put up [(F.TEN_QRANGE_FIRST, 15, 16383), (F.TEN_QRANGE_COUNT, 15, 1)]).queueOwner 16383 ≠ 0 ∧
       leField (ask 16383 504) 0 2 % 16384 = 16383 ∧ leField (ask 16383 504) 2 2 = 504 ∧ (ask 16383 504).length = 4 ∧
       s.queueOwner 16383 = 0) ∧
    (let s := linkOn Link.init (queueOf 1 0x101)
     let e := s.queue 16383
     qEsize e = 8 ∧ s.qLive 16383 e = true ∧ qFill e ≠ qDepth e ∧ NoUe 0x108 8 s ∧ (s.link 3).holds = [] ∧
       min 504 (qFill e * qEsize e - (e.sent - BitVec.ofNat 32 (qHeadPos e)).toNat) = 8 ∧
       NoUe 0x100 8 s ∧ ∀ j < 4, (s.link j).pages = []) ∧
    (((linkOn Link.init (queueOf 1 0x101)).setEcc 0x20 (.two 64 65)).eccOf (0x100 / 8)).ue = true ∧
    (qFill (queueOf 2 0x101) = qDepth (queueOf 2 0x101) ∧ qDrops (queueOf 2 0x101) = false ∧
      qDrops (queueOf 2 0x103) = true ∧ qFill (queueOf 0 0x101) = 0) ∧
    (let x : Hold := ⟨16383, List.replicate 8 0, true, 0, 0⟩
     let s := linkOn { Link.init with holds := [x] } (queueOf 1 0x101)
     ((s.link 3).holds.find? fun y => !(s.qNoRoom y.queue) && (!y.rspq || decide ((s.link 3).replay.length < 64))) =
         some x ∧ NoUe 0x108 8 s ∧ x.entry.length = qEsize (s.queue 16383)) ∧
    (let s := linkOn { Link.init with holds := (List.range 4).map fun q => ⟨q, [], false, 0, 0⟩ } (queueOf 2 0x101)
     4 ≤ (s.link 3).holds.length ∧ ∀ x ∈ (s.link 3).holds, x.queue ≠ 16383) ∧
    (up.pondOn 0xFFFFFC 4 = true ∧ NoUe 0xFFFFFC 4 up ∧ 0xFFFFFC % 4 = 0 ∧ (up.setBankSt 15 0).pondOn 0xFFFFFC 4 = false) := by
  decide

/-- A page that has been answered and one declared void. -/
theorem wit_LinkPages :
    (∃ j < 4, ∃ x ∈ ((linkOn { Link.init with pages := [⟨0, 16383, 8, false⟩] } (queueOf 1 0x101)).link j).pages,
      x.queue = 16383 ∧ x.dead = false) ∧ (⟨0, 16383, 8, true⟩ : Page).dead = true := by decide

/-- The header of a NULL with correct and with wrong CRC-8. -/
def goodHdr : BitVec 64 := crc8 (leBytes 7 0xA0) ++ 0xA0#56

set_option maxRecDepth 20000 in
theorem wit_LinkErrorsTimeoutsAndResets :
    ((goodHdr.extractLsb' 4 4).toNat = 0xA ∧ crc8 (leBytes 7 goodHdr.toNat) = goodHdr.extractLsb' 56 8 ∧
      ¬512 < (goodHdr.extractLsb' 40 10).toNat ∧ (goodHdr.extractLsb' 14 2).toNat = 0 ∧
      (goodHdr.extractLsb' 50 6).toNat = 0 ∧ ([] : List Byte).length = (goodHdr.extractLsb' 40 10).toNat) ∧
    (((goodHdr ^^^ 1 <<< 63).extractLsb' 4 4).toNat = 0xA ∧
      crc8 (leBytes 7 (goodHdr ^^^ 1 <<< 63).toNat) ≠ (goodHdr ^^^ 1 <<< 63).extractLsb' 56 8) ∧
    crc32c (leBytes 8 goodHdr.toNat) ≠ 0 ∧ up.bankIn 5 = true ∧
    hdrFails (leBytes 8 (goodHdr ^^^ 1 <<< 63).toNat ++ [0xA0, 0, 0, 0, 0, 0, 0, 0]) ≠ 0 ∧
    ({ Link.init with ackDue := true } : Link).ackDue = true ∧
    (let l : Link := { Link.init with wait := [pkt 0, pkt 1] }
     l.cfg.getLsbD 0 = true ∧ 1 ≤ l.wait.length ∧ ((l.wait.take 1).map fun p => p.bytes.length).sum ≤ 23 ∧
       23 < ((l.wait.take 2).map fun p => p.bytes.length).sum) ∧
    (let s := put (linkOn { Link.init with replay := [pkt 0], noAck := 1 } Queue.init) [(F.HL_CFG_REPLAY_FR, 3, 0)]
     (s.link 3).replay ≠ [] ∧ max 1 (s.f F.HL_CFG_REPLAY_FR 3) ≤ (s.link 3).noAck ∧ (s.link 3).cfg.getLsbD 0 = true) ∧
    (let s := put (linkOn { Link.init with pages := [⟨0, 16383, 8, false⟩], idle := 1 } Queue.init) [(F.HL_CFG_IDLE_FR, 3, 0)]
     (s.link 3).pages = [⟨0, 16383, 8, false⟩] ∧ max 1 (s.f F.HL_CFG_IDLE_FR 3) ≤ (s.link 3).idle) ∧
    ({ Link.init with cfg := 0 } : Link).cfg.getLsbD 0 = false ∧
    (up.fabUp = true ∧ up.rst.held = false ∧ (up.link 3).pages = [] ∧ CanWrite eft .HL_CTL 3 0 up) := by decide

set_option maxRecDepth 20000 in
theorem wit_MaintenancePortsActAsTenantZero :
    (up.masterLive .i2c = true ∧ up.fabUp = true ∧ up.masterLive .jtag = true ∧ up.rst.held = false) ∧
    (let bs := leBytes 4 (RegKind.PWR_CTL.addr 0 0) ++ leBytes 4 2
     let pec := crc8 (0x60 :: bs)
     up.f F.STRAP_STATUS_I2C_A = 0 ∧ (bs ++ [pec]).length = 9 ∧ (bs ++ [pec]).getD 8 0 = crc8 (0x60 :: (bs ++ [pec]).take 8) ∧
       (bs ++ [pec]).take 8 = leBytes 4 (0x01200000 : Word).toNat ++ leBytes 4 (2 : Word).toNat ∧
       crc8 (0x60 :: (bs ++ [pec + 1]).take 8) ≠ (bs ++ [pec + 1]).getD 8 0 ∧ RegKind.PWR_CTL ∈ plainRegs ∧
       codesBad .PWR_CTL 2 = false ∧ (0x01200000 : Word) = BitVec.ofNat 32 (RegKind.PWR_CTL.addr 0 0) ∧
       CanWrite .i2c .PWR_CTL 0 0 up ∧ CanWrite .jtag .PWR_CTL 0 0 up) ∧
    (0x1000000 ≤ (0x01200001 : Word).toNat ∧ (0x01200001 : Word).toNat % 4 ≠ 0) ∧
    (up.pondOn 0xFFFFFC 4 = true ∧ NoUe 0xFFFFFC 4 up) ∧
    (let s := { up with maint := { Maint.init with csaWrite := true, csaAddr := 0x01200000 } }
     s.maint.csaWrite = true ∧ up.maint.csaWrite = false) ∧
    ({ up with nvm := { Nvm.init with dbgLock := 1 } } : State).dbgLocked 16 = true ∧
    (let s := up.setCore 16 { eftBoot with st := .dbg, regSel := 21 }
     s.dbgLocked 16 = false ∧ s.dbgOpen 16 = true ∧ (s.core 16).st = .dbg ∧ fieldOf (s.core 16).regSel 0 5 = 6 + 15) ∧
    (0x31 : BitVec 7).toNat ≠ 0x30 + up.f F.STRAP_STATUS_I2C_A := by decide

/-! ### Power, reset and the stores -/

/-- Brumation: the device sleeps, and only the AON domain has power. -/
def asleep : State := put State.reset [(F.PWR_STATUS_STATE, 0, 3), (F.PWR_DOM_STATUS_EFT_PG, 0, 0)]

theorem wit_DomainsPadsAndWakeSources :
    (let s := (up.setReg .PWR_DOM_CTL 0x8000).setAct .PWR_RUN 0x8000
     CanWrite eft .PWR_DOM_CTL 0 0 s ∧ (0x8000 : Word) &&& ~~~(0 &&& 0x3FFFF) &&& s.act .PWR_RUN ≠ 0) ∧
    (let s := up.setReg .PWR_DOM_CTL 0x8000
     s.reg .PWR_DOM_CTL &&& ~~~((0x18000 : Word) &&& 0x3FFFF) = 0 ∧
       s.reg .PWR_DOM_CTL &&& ~~~((0 : Word) &&& 0x3FFFF) = BitVec.ofNat 32 (2 ^ 15) ∧
       BitVec.ofNat 32 (2 ^ 15) &&& s.act .PWR_RUN = 0 ∧ (s.reg .PWR_DOM_CTL).getLsbD 15 = true ∧
       (s.reg .PWR_DOM_CTL).getLsbD 17 = false) ∧
    CanWrite eft .PWR_PAD_REL 0 0 up ∧
    (CanWrite eft .PWR_BUDGET 15 0 up ∧ (∃ c < 4, 3 < fieldOf 0x4000#32 (4 * c) 4) ∧
      ∀ c < 4, fieldOf 0x13333#32 (4 * c) 4 ≤ 3) ∧
    (CanWrite eft .PWR_RTC_ALARM_LO 0 0 up ∧ CanWrite eft .PWR_RTC_ALARM_HI 0 0 up) ∧
    (let s := asleep.setReg .PWR_WAKE_EN 0x3FF
     s.dev = 3 ∧ s.fabUp = false ∧ s.fabPg = false ∧ (s.reg .PWR_WAKE_EN).getLsbD 9 = true ∧
       (asleep.reg .PWR_WAKE_EN).getLsbD 9 = false ∧ s.bankIn 5 = true) ∧
    (up.bankIn 5 = true ∧ up.fabPg = true ∧ up.dev ≠ 3 ∧ (unfed up).bankIn 5 = false) ∧
    (let s := put up [(F.PWR_RTC_ALARM_HI_EN, 0, 1)]
     s.b F.PWR_RTC_ALARM_HI_EN = true ∧
       s.rtc.toNat = s.f F.PWR_RTC_ALARM_HI_ALARM_HI * 2 ^ 32 + s.alarmLo.toNat ∧ s.fabUp = true ∧ s.dev ≠ 3) ∧
    (0x30 : BitVec 7).toNat = 0x30 + up.f F.STRAP_STATUS_I2C_A ∧
    (let s := put up [(F.PWR_CMP_EN, 3, 1), (F.PWR_CMP_THRESH, 3, 150), (F.PWR_CMP_DIR, 3, 1)]
     s.b F.PWR_CMP_EN 3 = true ∧ s.pwr.cmpRaw.getLsbD 3 = false ∧ (s.reg .PWR_CMP_STATUS).getLsbD 3 = false ∧
       10 * min 150 (s.f F.PWR_CMP_THRESH 3) < 1501 ∧ 1500 ≤ 10 * min 150 (s.f F.PWR_CMP_THRESH 3) ∧
       max 1 (s.f F.PWR_CMP_FILTER 3) ≤ 255 ∧ s.b F.PWR_CMP_DIR 3 = true ∧ up.b F.PWR_CMP_EN 3 = false) ∧
    (let s := { (put up [(F.PWR_CMP_EN, 0, 1), (F.PWR_CMP_THRESH, 0, 1)]).setReg .PWR_CMP_STATUS 1 with
       pwr := { Power.init with cmpRaw := 1 } }
     s.pwr.cmpRaw.getLsbD 0 = true ∧ (s.reg .PWR_CMP_STATUS).getLsbD 0 = true ∧
       0 + 10 * s.f F.PWR_CMP_HYST 0 < 10 * min 150 (s.f F.PWR_CMP_THRESH 0) ∧ s.b F.PWR_CMP_DIR 0 = false) := by decide

theorem wit_TorporAndBrumationAreEnteredAndLeft :
    (let s := put up [(F.PWR_STATUS_STATE, 0, 1), (F.PWR_STATUS_GOAL, 0, 3)]
     s.fabUp = true ∧ s.dev = 1 ∧ s.raised = [] ∧ s.f F.PWR_STATUS_GOAL = 3 ∧ s.nvBusyWriting = false) ∧
    up.f F.PWR_STATUS_GOAL < 2 ∧
    (let s := { put up [(F.PWR_STATUS_STATE, 0, 2), (F.PWR_STATUS_ALLOWED, 0, 3)] with pend := [(16 * 1024 + 1023, some 0)] }
     s.dev = 2 ∧ s.pwr.waking = false ∧ s.pendList 16 ≠ []) ∧
    (let s := put up [(F.PWR_STATUS_STATE, 0, 2)]
     s.dev = 2 ∧ s.f F.PWR_STATUS_ALLOWED < 2) ∧
    (let s := { put up [(F.PWR_STATUS_STATE, 0, 2)] with pwr := { Power.init with waking := true } }
     s.fabUp = true ∧ s.rst.held = false ∧ s.dev = 2 ∧ s.pwr.waking = true ∧ (∀ b < 16, s.bankLevel b = 2 → s.bankSt b = 2) ∧
       (∀ n < 17, (s.core n).restart = false) ∧ (s.ten 0).st = .run ∧ ∀ n < 16, (s.core n).wasRun = false) ∧
    (let s := { asleep with pwr := { Power.init with deferred := 0x200 } }
     s.dev = 3 ∧ s.fabUp = false ∧ s.rst.held = false ∧ s.pwr.deferred.getLsbD 9 = true ∧ s.pwr.deferred.getLsbD 0 = false) := by
  decide

def busyNvm (j : NvmJob) (s : State) : State := { s with nvm := { s.nvm with job := some j } }

theorem wit_ResetsBootAndWatchdog :
    (16 ≤ 16 ∧ up.nvBusyWriting = false ∧ (busyNvm ⟨4, 0, 0, 0, 0⟩ up).nvBusyWriting = true) ∧
    (CanWrite eft .RST_CTL 0 0 up ∧ fieldOf 0xB0070001#32 16 16 = 0xB007 ∧ (0xB0070001 : Word).getLsbD 0 = true ∧
      (0xB0070000 : Word).getLsbD 0 = false) ∧
    (let s := put up [(F.WDT_CTL_EN, 0, 1)]
     s.b F.WDT_CTL_EN = true ∧ s.corePg 16 = true ∧ (s.core 16).st ≠ .dbg ∧
       s.rst.wdt = 8000 ∧ max 1 (s.f F.WDT_CTL_TIMEOUT) / 2 < 8000 ∧
       s.rst.wdt = max 1 (s.f F.WDT_CTL_TIMEOUT) / 2 + 4000 ∧ s.fabUp = true) ∧
    ¬(up.b F.WDT_CTL_EN = true ∧ up.rst.wdt = 7999) ∧
    (let s := { up with th := { Thermal.init with shut := true } }
     s.rst.sources.getLsbD 4 = false ∧ s.th.abort = false ∧ s.th.shut = true ∧ s.nvBusyWriting = false ∧
       up.th.shut = false ∧ { up with th := { Thermal.init with abort := true } }.th.abort = true) ∧
    (let s := busyNvm ⟨12, 0, 0, 0, 0⟩ { up with th := { Thermal.init with shut := true } }
     s.nvBusyWriting = true ∧ s.nvm.job = some ⟨12, 0, 0, 0, 0⟩ ∧ 9 ≤ (⟨12, 0, 0, 0, 0⟩ : NvmJob).op ∧
       ¬5000 ≤ (4999 : Nat)) ∧
    (CanWrite eft .WDT_KICK 0 0 up ∧ (0xA5C3 : Word) ≠ 0xA5C2) ∧
    (State.dead.rst.held = false ∧
      ({ State.dead with rst := { Rst.init with sources := 1, held := true } } : State).rst.held = true ∧
      ({ State.dead with rst := { Rst.init with sources := 1, held := true } } : State).rst.sources.getLsbD 4 = false ∧
      ({ State.dead with rst := { Rst.init with sources := 1, held := true } } : State).rst.sources.getLsbD 0 = true ∧
      ({ State.dead with rst := { Rst.init with sources := 2, held := true } } : State).rst.sources.getLsbD 0 = false ∧
      ¬16000 ≤ (15999 : Nat)) := by
  decide

set_option maxRecDepth 20000 in
theorem wit_NvmCommandsStartAndEnd :
    (up.fabUp = true ∧ CanWrite eft .NVM_CMD 0 0 up ∧ up.nvm.job = none ∧ (busyNvm ⟨1, 0, 0, 0, 0⟩ up).nvm.job ≠ none) ∧
    (up.flashSize false = 0x200000 ∧ up.b F.XF_STATUS_READY = false ∧
      (put up [(F.NVM_ADDR_ADDR, 0, 0x1FF000)]).f F.NVM_ADDR_ADDR + 4096 = up.flashSize false ∧
      (put up [(F.NVM_ADDR_ADDR, 0, 0x1FFFFF), (F.NVM_LEN_LEN, 0, 2)]).f F.NVM_ADDR_ADDR + 2 > up.flashSize false ∧
      up.f F.NVM_ADDR_ADDR = 0 ∧ up.b F.NVM_CTL_FROG_UNLOCK0 = false ∧ up.b F.NVM_CTL_FROG_UNLOCK1 = false) ∧
    (let j : NvmJob := ⟨1, 0, 0xFFFF00, 256, 0⟩
     let s := busyNvm j up
     s.nvm.job = some j ∧ s.rst.waiting = 0 ∧ s.divRun = true ∧ s.th.shut = false ∧
       (∀ i < 256, s.pondOn (j.pond + i) 1 = true) ∧ NoUe j.pond 256 s) ∧
    ((⟨9, 0, 0, 0, 7⟩ : NvmJob).err ≠ 0 ∧ (⟨9, 0, 0, 0, 7⟩ : NvmJob).err < 16) ∧
    (put up [(F.XF_CTL_EN, 0, 1)]).b F.XF_CTL_EN = true ∧
    (let bs : List Byte := leBytes 4 0x50444653 ++ [6, 1, 0, 0xFF, 0, 6, 1, 2, 0x10, 0, 0, 0xFF] ++ leBytes 4 0xFFF120E5 ++
       leBytes 4 0x07FFFFFF
     leNat (bs.take 4) = 0x50444653 ∧ (bs.getD 10 0xFF).toNat = 1 ∧ bfpt bs 1 % 4 = 1 ∧ sfdpDensity bs = 27 ∧
       leNat (([] : List Byte).take 4) ≠ 0x50444653) := by decide

/-! ### Images

A manifest of KIND 2 with a payload of one byte 0, signed by the key whose private scalar is 1 with the nonce 1: both the
key and R are the base point of RFC 8032, and S = 1 + k. -/

def edKey : List Byte := 0x58 :: List.replicate 31 0x66
def manifest : List Byte :=
  leBytes 4 0x4D495A47 ++ [1, 0, 2, 0] ++ leBytes 4 0 ++ leBytes 4 1 ++ leBytes 4 1 ++ leBytes 4 1 ++ leBytes 8 0 ++
    List.replicate 32 0 ++ sha512 [0] ++ edKey ++ List.replicate 96 0
def signature : List Byte := edKey ++ leBytes 32 ((1 + leNat (sha512 (edKey ++ edKey ++ manifest))) % edL)
/-- Slot 3 holds the key, slot 2 another. -/
def imageSt (bs : List Byte) (pay : List Byte) : State :=
  let slot := ((sha512 edKey).take 32).mapIdx fun i b => (96 + i, b)
  ({ up with nvm := { Nvm.init with check := some (0x1000, 0xFFFFFF, false), slots := slot, slotSt := [(2, 1), (3, 1)] } }
    |>.setBytes 0x1000 bs).setBytes 0xFFFFFF pay

theorem wit_ImagesAreCheckedAndKeysBurned :
    (up.fabUp = true ∧ CanWrite eft .UPD_CMD 0 0 up ∧ up.nvm.check = none ∧ (imageSt [] []).nvm.check ≠ none) ∧
    (let s := imageSt [] []
     s.nvm.check = some (0x1000, 0xFFFFFF, false) ∧ s.pondOn 0x1000 0x140 = true ∧ NoUe 0x1000 0x140 s ∧
       manifestOk (s.bytes 0x1000 0x140) = false) ∧
    (CanWrite eft .UPD_KEYPROG 0 0 up ∧ up.slotState 3 = 0 ∧ up.nvm.fuse = none ∧ fieldOf 3#32 0 2 = 3) ∧
    (let s := imageSt [] []
     CanWrite eft .UPD_REVOKE 0 0 s ∧ fieldOf 0x5E7A03#32 8 16 = 0x5E7A ∧ s.slotState 3 = 1 ∧ s.nvm.fuse = none ∧
       (∃ i < 4, i ≠ 3 ∧ s.slotState i = 1) ∧ fieldOf 3#32 8 16 ≠ 0x5E7A) ∧
    ({ up with nvm := { Nvm.init with fuse := some (3, []) } } : State).nvm.fuse = some (3, []) ∧
    (sha512 edKey).length = 64 := by decide +kernel

theorem wit_ImagesAreSigned :
    (let s := imageSt (manifest ++ signature) []
     let m := s.bytes 0x1000 0x140
     NoUe 0x1000 0x140 s ∧ manifestOk m = true ∧ s.keyUsable m false = some (some 3) ∧ manField m 0x14 4 = 1 ∧
       edVerify ((m.drop 0x80).take 32) (m.take 0x100) ((m.drop 0x100).take 64) = true ∧
       (∀ i < 1, s.pondOn (0xFFFFFF + i) 1 = true) ∧ NoUe 0xFFFFFF 1 s ∧
       sha512 (s.bytes 0xFFFFFF 1) = (m.drop 0x40).take 64) ∧
    (let s := imageSt (manifest ++ signature) [1]
     sha512 (s.bytes 0xFFFFFF 1) ≠ ((s.bytes 0x1000 0x140).drop 0x40).take 64) ∧
    (let s := imageSt (manifest ++ signature.set 40 0) []
     let m := s.bytes 0x1000 0x140
     manifestOk m = true ∧ s.keyUsable m false = some (some 3) ∧
       edVerify ((m.drop 0x80).take 32) (m.take 0x100) ((m.drop 0x100).take 64) = false) ∧
    (let s := { imageSt manifest [] with nvm := Nvm.init }
     manifestOk (s.bytes 0x1000 0x140) = true ∧ s.keyUsable (s.bytes 0x1000 0x140) false = none) := by decide +kernel

/-! ### Panel, temperature and fans -/

/-- The panel scans its row 63 of 64, with slot 3 active: one row of two bytes at the corner of the panel. -/
def panelIn (st : Nat) (p : Panel) (d : PDesc) : State :=
  { put (running17 up) [(F.PNL_STATUS_STATE, 0, st), (F.PNL_DESC_STATUS_STATE, 3, 2), (F.PNL_GEOM_ROWS, 0, 63),
      (F.PNL_GEOM_COLS, 0, 255), (F.PNL_GEOM_VBLANK, 0, 1)] with
    pnl := { p with descs := [(3, d)] } }
def corner : PDesc := { PDesc.init with src := 0xFFFFFE, x2 := 126, y := 63, w2 := 1 }

theorem wit_PanelStatesScanAndDescriptors :
    (let s := running17 up
     s.fabUp = true ∧ CanWrite eft .PNL_CTL 0 0 s ∧ s.f F.PNL_STATUS_STATE = 0 ∧ s.domRun 17 = true) ∧
    (let s := panelIn 1 Panel.init corner
     s.f F.PNL_STATUS_STATE = 1 ∧ s.pnl.wait = 0) ∧
    (let s := panelIn 2 { Panel.init with period := 62 } corner
     CanWrite eft .PNL_CTL 0 0 s ∧ s.f F.PNL_STATUS_STATE = 2 ∧ s.pnl.period + 1 < s.f F.PNL_GEOM_ROWS + 1) ∧
    (let s := panelIn 2 { Panel.init with period := 63 } corner
     s.f F.PNL_GEOM_ROWS + 1 ≤ s.pnl.period + 1 ∧
       s.pnl.period + 1 < s.f F.PNL_GEOM_ROWS + 1 + s.f F.PNL_GEOM_VBLANK) ∧
    (let s := panelIn 2 { Panel.init with period := 64 } corner
     s.f F.PNL_GEOM_ROWS + 1 + s.f F.PNL_GEOM_VBLANK ≤ s.pnl.period + 1) ∧
    (panelIn 3 Panel.init corner).f F.PNL_STATUS_STATE = 3 ∧
    (let s := put up [(F.PNL_DESC_RECT_X2, 3, 127), (F.PNL_DESC_RECT_Y, 3, 63), (F.PNL_DESC_SRC_SRC, 3, 0xFFFFFF)]
     CanWrite eft .PNL_DESC_CTL 3 0 s ∧ s.f F.PNL_DESC_STATUS_STATE 3 = 0 ∧
       ¬(64 < s.f F.PNL_DESC_RECT_Y 3 + (s.f F.PNL_DESC_RECT_H1 3 + 1) ∨
         127 < s.f F.PNL_DESC_RECT_X2 3 + s.f F.PNL_DESC_RECT_W2 3) ∧
       ¬(0x1000000 < s.f F.PNL_DESC_SRC_SRC 3 + 0 + (s.f F.PNL_DESC_RECT_W2 3 + 1))) ∧
    (let s := put up [(F.PNL_DESC_RECT_W2, 3, 1), (F.PNL_DESC_SRC_SRC, 3, 0xFFFFFF), (F.PNL_DESC_STATUS_STATE, 0, 1)]
     0x1000000 < s.f F.PNL_DESC_SRC_SRC 3 + 0 + (s.f F.PNL_DESC_RECT_W2 3 + 1) ∧ s.f F.PNL_DESC_STATUS_STATE 0 = 1) ∧
    (let s := put (running17 up) [(F.PNL_DESC_STATUS_STATE, 3, 1)]
     s.f F.PNL_DESC_STATUS_STATE 3 = 1 ∧ (s.pdesc 3).vsync = false ∧
       ∀ j < 4, (s.pdesc j).order < (s.pdesc 3).order → (s.pdesc j).shares (s.pdesc 3) = false) ∧
    (let s := panelIn 2 Panel.init corner
     let d := s.pdesc 3
     s.domRun 17 = true ∧ s.pnlServe = some 3 ∧ d.y + d.h1 < 64 ∧ d.x2 + d.w2 ≤ 127 ∧ d.row ≤ d.h1 ∧ d.byte ≤ d.w2 ∧
       s.pondOn d.src 2 = true ∧ NoUe d.src 2 s ∧ (s.setBankSt 15 0).pondOn d.src 2 = false ∧
       ¬(NoUe d.src 2 (s.setEcc 0x1FFFFF (.two 64 65))) ∧ min (d.w2 + 1) (32 - d.src % 32) = 2 ∧ d.vsync = false) ∧
    (let d : PDesc := { corner with src := 0xFFFFFF - 32, w2 := 1, h1 := 1, y := 62 }
     min (d.w2 + 1) (32 - d.src % 32) = 1 ∧ d.row < d.h1) := by decide

/-- The active views that act in thermal control, with one register set. -/
def acts (k : RegKind) (i j : Nat) (v : Word) (s : State) : State :=
  { s with th := { s.th with acting := tabPut (fun _ => k.resetAt i) s.th.acting (k.actAddr i j) v } }

theorem wit_TemperaturesAndDemandsFollowTheTick :
    (let s := acts .TH_CFG 0 0 0xFF (acts .TH_LIMITS 0 0 0x0FEF0010 (running17 up))
     s.fabUp = true ∧ s.domRun 17 = true ∧ s.tf F.TH_CFG_EN / 2 ^ 7 % 2 = 1 ∧
       (15 < s.tf F.TH_LIMITS_SHORT_LIM ∧ ¬16 < s.tf F.TH_LIMITS_SHORT_LIM) ∧
       (¬s.tf F.TH_LIMITS_OPEN_LIM < 4079 ∧ s.tf F.TH_LIMITS_OPEN_LIM < 4080) ∧ (s.therm 7).due = false ∧
       s.b F.TH_TEMP_FAULT 7 = false) ∧
    (let s := (running17 up).setTherm 7 ⟨[16, 4079, 16], 3, true⟩
     (s.therm 7).due = true ∧ 3 ≤ (s.therm 7).good ∧ ((16 : Nat) :: (s.therm 7).last).length = 4 ∧
       ((16 : Nat) :: (s.therm 7).last).sum ≤ 4 * 4095) ∧
    ((up.setTherm 7 ⟨[16], 2, true⟩).therm 7).good < 3 ∧
    (acts .TH_CFG 0 0 0 up).tf F.TH_CFG_EN / 2 ^ 7 % 2 = 0 ∧
    (up.nvm.job = none ∧ ∀ k < 4, up.fanSt k ≠ 5) ∧
    (let s := { up with th := { Thermal.init with shut := true, cool := 1024 }, rst := { Rst.init with sources := 16 } }
     s.rst.sources.getLsbD 4 = true ∧ 1024 ≤ s.th.cool ∧ up.th.cool < 1024) ∧
    (let s := running17 up
     s.frame.toNat % 8 = 0 ∧ s.th.tickDone = false ∧ s.domRun 17 = true) ∧
    (let s := { running17 up with frame := 7 }
     s.frame.toNat % 8 ≠ 0) := by decide

/-- Fan channel 0 or 3 in a state. -/
def fanIn (k st : Nat) (x : Fan) : State := put ((running17 up).setFan k x) [(F.FAN_STATUS_STATE, k, st)]

theorem wit_FanChannelsMoveBetweenTheirStates :
    (up.fabUp = true ∧ CanWrite eft .FAN_MODE 3 0 up ∧ up.fanSt 3 = 0 ∧ (fieldOf 0x22#32 0 2 = 2 ∧ fieldOf 0x22#32 4 2 = 2) ∧
      (fieldOf 0x11#32 0 2 = 1 ∧ fieldOf 0x11#32 4 2 = 1 ∧ ¬(3 : Nat) < 2) ∧ (up.fan 3).mode = 0 ∧ (up.fan 3).pin = 0) ∧
    (let s := acts .FAN_BLDC 1 0 0 (fanIn 1 1 { Fan.init with mode := 1, pin := 1 })
     s.domRun 17 = true ∧ s.fanSt 1 = 1 ∧ s.tf F.FAN_BLDC_ALIGN_MS 1 ≤ (s.fan 1).stTicks) ∧
    (let s := acts .FAN_BLDC 1 0 0 (fanIn 1 2 { Fan.init with mode := 1, pin := 1, attempt := 3 })
     s.fanSt 1 = 2 ∧ (s.fan 1).pause = false ∧ s.tf F.FAN_BLDC_RAMP_MS 1 * 8 ≤ (s.fan 1).stTicks ∧ 3 ≤ (s.fan 1).attempt) ∧
    ({ Fan.init with attempt := 2 } : Fan).attempt < 3 ∧
    (let s := fanIn 1 2 { Fan.init with mode := 1, pause := true, stTicks := 500 }
     s.fanSt 1 = 2 ∧ (s.fan 1).pause = true ∧ 500 ≤ (s.fan 1).stTicks) ∧
    (let s := fanIn 1 2 { Fan.init with mode := 1, zc := 11 }
     (s.fan 1).mode = 1 ∧ (s.fan 1).pause = false ∧ 100 ≤ 4 * 25 ∧ 4 * 75 ≤ 3 * 100 ∧ 12 ≤ (s.fan 1).zc + 1) ∧
    (let s := acts .FAN_BLDC 1 0 0xFFFFFFFF (fanIn 1 3 { Fan.init with mode := 1, steps := 5 })
     s.fanSt 1 = 3 ∧ ((s.fan 1).steps + 1) % 6 = 0 ∧ s.tf F.FAN_BLDC_POLE_PAIRS 1 ≠ 0) ∧
    (let s := fanIn 3 4 { Fan.init with mode := 2, stTicks := 10000, demand := 1 }
     s.fanSt 3 = 4 ∧ 10000 ≤ (s.fan 3).stTicks ∧ (s.fan 3).demand ≠ 0 ∧ (s.fan 3).mode = 2) ∧
    (let s := acts .FAN_TACH 3 0 0 (fanIn 3 6 { Fan.init with mode := 2 })
     s.fanSt 3 = 6 ∧ s.tf F.FAN_TACH_KICK_MS 3 * 10 ≤ (s.fan 3).kickTicks ∧ (s.fan 3).seen = false) ∧
    ({ Fan.init with seen := true } : Fan).seen = true ∧
    (let s := acts .FAN_TACH 3 0 0 (fanIn 3 3 { Fan.init with mode := 2, edgeTicks := 1000, demand := 255 })
     s.fanSt 3 = 3 ∧ 1000 ≤ (s.fan 3).edgeTicks ∧ s.tf F.FAN_TACH_SPINUP 3 * 10 ≤ (s.fan 3).kickTicks) ∧
    (let s := fanIn 3 3 Fan.init
     CanWrite eft .FAN_AGE_CTL 3 0 s ∧ s.fanSt 3 = 3) ∧
    (let s := fanIn 3 5 { Fan.init with mode := 2, ageGood := 1000, ageSum := 255000, ageTicks := 60000 }
     s.fanSt 3 = 5 ∧ 1000 ≤ (s.fan 3).ageGood ∧ (s.fan 3).ageSum ≤ 255000 ∧ 60000 ≤ (s.fan 3).ageTicks) := by decide

/-! ### Runs against the manual's worked examples -/

set_option maxRecDepth 20000 in
/-- The header of the QREAD of spec/16's worked example, and the entries and selectors of spec/04's and spec/08's. -/
theorem test_crc8_and_parity :
    crc8 [0xA2, 0x02, 0x05, 0x30, 0x00, 0x04, 0x00] = 0xD0 ∧ withPar 0x00288000 = 0x80288000 ∧
      withPar 0x00288001 = 0x00288001 ∧ withPar 0x06111064 = 0x06111064 ∧ withPar 0x16111064 = 0x96111064 ∧
      withPar 0x000077A8 = 0x800077A8 := by decide

/-- FIPS 180's digest of "abc", its first bytes. -/
theorem test_sha512_abc : (sha512 [0x61, 0x62, 0x63]).take 4 = [0xDD, 0xAF, 0x35, 0xA1] := by decide +kernel

/-- Temperature and duties of spec/21's worked example. -/
theorem test_temperature_and_table :
    (let s := acts .TH_LIN 0 3 (BitVec.ofNat 32 (1645 + 65536 * 1530)) up
     s.linearise 0 1664 = 1587) ∧
    (let t := [(1424, 0), (1504, 0), (1584, 64), (1664, 96), (1744, 128), (1824, 176), (1904, 224), (1984, 255)]
     [1624, 1600, 1552, 1504].map (tableDuty t) = [80, 70, 38, 0]) := by decide

def afterExec (i : Instr) (s : State) : State := match exec i s with | .next t => t | _ => s

/-- `mvay | addx 4` and `addy -1 | bnz` of spec/10's worked example: Z from Y before the step. -/
theorem test_pairs_of_the_rebuild_loop :
    (let t := afterExec (.pair 16 0x5C003804) (coreIn false { mainCtx with x := 0x4000, y := 0 } State.reset)
     (t.ctx 16).a = 0 ∧ (t.ctx 16).x = 0x4004 ∧ (t.ctx 16).f = 2 ∧ (t.ctx 16).pc = 4) ∧
    (let t := afterExec (.pair 16 0x3FFF77FC) (coreIn false { mainCtx with y := 1, pc := 0x100 } State.reset)
     (t.ctx 16).y = 0 ∧ (t.ctx 16).pc = 0x100 + 4 - 16) := by decide

/-- `seta 0x19` and `setah 0x2000` give 0x01000019 (spec/10). -/
theorem test_seta_setah :
    ((afterExec (.setah 16 0 0x2000) (afterExec (.seta 16 0 0x19) State.reset)).ctx 16).a = 0x01000019 := by decide

/-- A half carry out and a signed overflow of addi: 0x7FFFFFFF + 1. -/
theorem test_addi_overflow :
    (let t := afterExec (.addi 16 0 1) (coreIn false { mainCtx with a := 0x7FFFFFFF } State.reset)
     (t.ctx 16).a = 0x80000000 ∧ (t.ctx 16).f = 0b01100) := by decide

/-- Selector 40 of spec/04's worked example is written with its parity, in the inactive copy only. -/
theorem test_selector_write :
    (let t := afterExec (.fabSelWrite eft 40 0x16111064) up
     (t.sel 40).inactive = 0x96111064 ∧ (t.sel 40).active = 0 ∧ t.change (selAddr 40) = .dirty 0 ∧ t.last.err = false) := by
  decide

/-- A commit with a lead of 0 is LATE, one with a lead of 4 is accepted (R36, R39). -/
theorem test_commit_lead :
    (afterExec (.fabCommitFrameWrite eft 0) up).commits = [] ∧
      ((afterExec (.fabCommitFrameWrite eft 4) up).commits.map fun c => c.target) = [4] := by decide

end Sys2Proof.Tests
end

section
/-!
PROOFS. Accesses to control space: reset values, refused accesses, plain writes and reads that clear.
-/
namespace Sys2Proof.Machine

/-! ### Addresses that the logic after a command writes -/

/-- QSUM fills its addresses: an aligned address in its range is one of its words. -/
theorem qsum_addr_of_range {a : Nat} (h4 : a % 4 = 0) (h1 : 0x011C4000 ≤ a) (h2 : a < 0x011C4800) :
    ∃ i j, RegKind.QSUM.has i j ∧ RegKind.QSUM.addr i j = a := by
  refine ⟨(a - 0x011C4000) / 32, (a - 0x011C4000) % 32 / 4, ⟨?_, ?_⟩, ?_⟩
  · show _ < 64; omega
  · show _ < 8; omega
  · show 0x011C4000 + (a - 0x011C4000) / 32 * 32 + (a - 0x011C4000) % 32 / 4 * 4 = a
    omega

/-- Only PWR_STATUS and QSUM stand where the logic after every command writes. -/
theorem not_settles {k : RegKind} {i j : Nat} (hi : k.has i j) (h1 : k ≠ .PWR_STATUS) (h2 : k ≠ .QSUM) :
    ¬settles (k.addr i j) := by
  rintro (h | ⟨hl, hu⟩)
  · exact addr_ne hi (k' := .PWR_STATUS) (i' := 0) (j' := 0) (by decide) (.inl h1) h
  · obtain ⟨i', j', hq, he⟩ := qsum_addr_of_range (addr_aligned k i j) hl hu
    exact addr_ne hi hq (.inl h2) he.symm

/-! ### Answers -/

theorem toNat_addr {k : RegKind} {i j : Nat} (h : k.has i j) : (BitVec.ofNat 32 (k.addr i j)).toNat = k.addr i j := by
  rw [BitVec.toNat_ofNat, Nat.mod_eq_of_lt (addr_lt h)]

/-- What the master saw is not touched by the logic after the command. -/
theorem Settling.answered {s t : State} {m : Master} {v : Word} {e : Bool} (h : Settling (s.seen m v e) t) :
    Answered m v e t := h.1 .last (by simp)

/-- A command that only reports an answer. -/
theorem ends_seen {c : Instr} {s : State} {m : Master} {v : Word} {e : Bool} {f : State → State}
    (hc : exec c s = run f s) (hf : f s = s.seen m v e) :
    Ends c s fun t => Answered m v e t ∧ Only [.last] [] [] s t :=
  ends_run hc fun t ht => by
    rw [hf] at ht
    exact ⟨ht.answered, (Only.seen s m v e).settled ht⟩

/-- A command that changes one register, not one that settles, and reports an answer. -/
theorem ends_setReg_seen {c : Instr} {s : State} {m : Master} {k : RegKind} {i j : Nat} {w v : Word} {e : Bool}
    {f : State → State} (hc : exec c s = run f s) (hf : f s = (s.setReg k w i j).seen m v e)
    (hk : ¬settles (k.addr i j)) :
    Ends c s fun t => t.reg k i j = w ∧ Answered m v e t ∧ Only [.last] [k.addr i j] [] s t :=
  ends_run hc fun t ht => by
    rw [hf] at ht
    refine ⟨?_, ht.answered, ?_⟩
    · rw [ht.reg k i j hk]; exact s.setReg_reg k w i j
    · exact ((Only.setReg s k w i j [.last] (.inl (by simp))).trans
        ((Only.seen _ m v e).mono (by simp) (by simp))).settled ht

theorem busWrite_live {s : State} {m : Master} (h : s.masterLive m = true) (size : AccessSize) (a : Nat) (v : Word) :
    s.busWrite m size a v = (s.ctlWrite m size a v).1.seen m 0 (s.ctlWrite m size a v).2 := by
  unfold State.busWrite; rw [if_pos h]

/-- A read that is refused shows its master a 0 and an access error. -/
theorem busRead_refused {s : State} {m : Master} {a : Nat} (h : s.masterLive m = true)
    (hr : s.ctlRead m .word a = (s, none)) : s.busRead m a = s.seen m 0 true := by
  unfold State.busRead; rw [if_pos h, hr]

/-! ### Accesses that are refused (R4 to R6) -/

theorem ctlRead_misshapen {size : AccessSize} {a : Nat} (h : size ≠ .word ∨ a % 4 ≠ 0) (m : Master) (s : State) :
    s.ctlRead m size a = (s, none) := by
  unfold State.ctlRead; rw [if_pos h]

theorem ctlWrite_misshapen {size : AccessSize} {a : Nat} (h : size ≠ .word ∨ a % 4 ≠ 0) (m : Master) (v : Word)
    (s : State) : s.ctlWrite m size a v = (s, true) := by
  unfold State.ctlWrite; rw [if_pos h]

theorem ctlRead_unassigned {m : Master} {a : Nat} {s : State} (ha : regAt a = none)
    (hw : (inTestWindow a && s.testMode) = false) (size : AccessSize) : s.ctlRead m size a = (s, none) := by
  unfold State.ctlRead State.ctlWordRead
  simp [ha, hw]

theorem ctlWrite_unassigned {m : Master} {a : Nat} {s : State} (ha : regAt a = none)
    (hw : (inTestWindow a && s.testMode) = false) (size : AccessSize) (v : Word) :
    s.ctlWrite m size a v = (s, true) := by
  unfold State.ctlWrite State.ctlWord
  simp [ha, hw]

theorem ends_write_refused {m : Master} {size : AccessSize} {a v : Word} {s : State} (hl : s.masterLive m = true)
    (h : s.ctlWrite m size a.toNat v = (s, true)) :
    Ends (.registerWrite m size a v) s fun t => Answered m 0 true t ∧ Only [.last] [] [] s t :=
  ends_seen (f := fun s => s.busWrite m size a.toNat v) rfl (by rw [busWrite_live hl, h])

theorem ends_read_refused {m : Master} {a : Word} {s : State} (hl : s.masterLive m = true)
    (h : s.ctlRead m .word a.toNat = (s, none)) :
    Ends (.rcFieldRead m a) s fun t => Answered m 0 true t ∧ Only [.last] [] [] s t :=
  ends_seen (f := fun s => s.busRead m a.toNat) rfl (busRead_refused hl h)

/-- Settles O6: the access is refused before a register is looked at (width, alignment), or because none is found. -/
theorem misshapenOrUnassignedAccessRefused : Obligations.MisshapenOrUnassignedAccessRefused := by
  refine ⟨fun m size a v s hl h => ?_, fun m a s hl h => ?_, fun m size a v s h => ?_,
    fun m a v s hl _ ha hw => ⟨?_, ?_⟩⟩
  · exact ends_write_refused hl (ctlWrite_misshapen h m v s)
  · exact ends_read_refused hl (ctlRead_misshapen (.inr h) m s)
  · exact ⟨ctlRead_misshapen h m s, ctlWrite_misshapen h m v s⟩
  · exact ends_write_refused hl (ctlWrite_unassigned ha hw _ v)
  · exact ends_read_refused hl (ctlRead_unassigned ha hw _)

/-! ### The reset state (R14, R702) -/

/-- The registers that the boot sequencer and the power-good of the eft set. -/
def bootKinds : List RegKind := [.TEN_SEG_W0, .TEN_SEG_W1, .PWR_DOM_STATUS]

/-- What the boot sequencer's writes leave at an address that is in no segment table. -/
theorem tabGet_bootSegRegs (d : Nat → Word) {a : Nat} (h0 : ∀ e < 64, a ≠ RegKind.TEN_SEG_W0.addr 0 e)
    (h1 : ∀ e < 64, a ≠ RegKind.TEN_SEG_W1.addr 0 e) : tabGet d (bootSegRegs []) a = d a := by
  have fold : ∀ (l : List (Nat × Word × Word)) (t : Tab Word), (∀ e ∈ l, e.1 < 64) →
      tabGet d (l.foldl (fun t e =>
        tabPut (fun _ => 0) (tabPut (fun _ => 0) t (RegKind.TEN_SEG_W0.addr 0 e.1) e.2.1)
          (RegKind.TEN_SEG_W1.addr 0 e.1) e.2.2) t) a = tabGet d t a := by
    intro l
    induction l with
    | nil => exact fun _ _ => rfl
    | cons e l ih =>
      intro t hl
      have he := hl e (by simp)
      rw [List.foldl_cons, ih _ fun x hx => hl x (by simp [hx]), tabGet_put_ne _ _ _ _ (h1 _ he),
        tabGet_put_ne _ _ _ _ (h0 _ he)]
  exact fold bootSegs [] (by decide)

/-- At an address of none of the registers of `bootKinds`, the reset state holds no value of its own. -/
theorem tabGet_reset_regs (d : Nat → Word) {a : Nat}
    (h : ∀ k ∈ bootKinds, ∀ i j, k.has i j → a ≠ k.addr i j) : tabGet d State.reset.regs a = d a := by
  show tabGet d (tabPut (fun _ => 0) (bootSegRegs []) (RegKind.PWR_DOM_STATUS.addr 0 0) 0x00100000) a = d a
  rw [tabGet_put_ne _ _ _ _ (h .PWR_DOM_STATUS (by decide) 0 0 (by decide))]
  refine tabGet_bootSegRegs d (fun e he => ?_) (fun e he => ?_)
  · exact h .TEN_SEG_W0 (by decide) 0 e ⟨by decide, he⟩
  · exact h .TEN_SEG_W1 (by decide) 0 e ⟨by decide, he⟩

/-- Only a shadowed register has an active view (R31). -/
theorem act_eq_none_of_scope (k : RegKind) : k.info.scope = none → k.info.act = none := by cases k <;> decide

theorem actAddr_eq_addr {k : RegKind} (h : k.info.scope = none) (i j : Nat) : k.actAddr i j = k.addr i j := by
  unfold RegKind.actAddr
  rw [h, act_eq_none_of_scope k h]

/-- Settles O3: the reset state lists only the segment table and PWR_DOM_STATUS, which stand at no other register's
address and at no active copy's. -/
theorem resetLeavesResetColumn : Obligations.ResetLeavesResetColumn := by
  refine ⟨fun k i j hk h0 h1 h2 => ?_, by decide, by decide⟩
  have hne : ∀ k' ∈ bootKinds, k ≠ k' := by
    simp only [bootKinds, List.mem_cons, List.not_mem_nil, or_false]
    rintro k' (rfl | rfl | rfl) <;> assumption
  have hreg : State.reset.reg k i j = k.resetAt i :=
    tabGet_reset_regs _ fun k' hk' i' j' h' => addr_ne hk h' (.inl (hne k' hk'))
  refine ⟨hreg, ?_⟩
  by_cases hs : k.info.scope.isSome = true
  · exact tabGet_reset_regs _ fun k' _ i' j' h' => actAddr_ne hk h' hs
  · unfold State.act
    rw [actAddr_eq_addr (by simpa using hs)]
    exact hreg

/-! ### Writes of plain registers (R8, R847) -/

/-- Bit by bit: an RW bit is the bit written, a W1C bit is cleared by a 1, any other stays (R8). -/
theorem merge_getLsbD (r : RegInfo) (old v : Word) {b : Nat} (hb : b < 32) :
    (r.merge old v).getLsbD b = if (r.maskOf .rw).getLsbD b then v.getLsbD b
      else old.getLsbD b && !((r.maskOf .w1c).getLsbD b && v.getLsbD b) := by
  unfold RegInfo.merge
  simp only [BitVec.getLsbD_or, BitVec.getLsbD_and, BitVec.getLsbD_not, hb, decide_true, Bool.true_and]
  cases (r.maskOf .rw).getLsbD b <;> simp

theorem plainRegs_ne_active {k : RegKind} : k ∈ plainRegs → k.info.wr ≠ .active := by
  intro hk; fin_cases hk <;> decide

theorem plainRegs_not_settles {k : RegKind} (hk : k ∈ plainRegs) {i j : Nat} (hi : k.has i j) :
    ¬settles (k.addr i j) :=
  not_settles hi (by rintro rfl; exact absurd hk (by decide)) (by rintro rfl; exact absurd hk (by decide))

/-- No block of control space has an action for a plain register. -/
theorem blocks_plain {k : RegKind} (hk : k ∈ plainRegs) (s : State) (m : Master) (i j : Nat) (v : Word) :
    let r : RegRef := ⟨k, i, j, false⟩
    let plain : State × Bool := (s.setReg k (k.info.merge (s.reg k i j) v) i j, false)
    s.writeFab m r v = plain ∧ s.writePort m r v = plain ∧ s.writeTen m r v = plain ∧ s.writeCore m r v = plain ∧
      s.writeClk r v = plain ∧ s.writeApf r v = plain ∧ s.writeAon r v = plain := by
  fin_cases hk <;> exact ⟨rfl, rfl, rfl, rfl, rfl, rfl, rfl⟩

theorem plainRegs_scope {k : RegKind} : k ∈ plainRegs → k.info.scope.isSome ≠ true := by
  intro hk; fin_cases hk <;> decide

theorem writeReg_plain {k : RegKind} (hk : k ∈ plainRegs) (s : State) (m : Master) (i j : Nat) (v : Word) :
    s.writeReg m ⟨k, i, j, false⟩ v = (s.setReg k (k.info.merge (s.reg k i j) v) i j, false) := by
  obtain ⟨hfab, hport, hten, hcore, hclk, hapf, haon⟩ := blocks_plain hk s m i j v
  unfold State.writeReg
  rw [if_neg (plainRegs_scope hk)]
  simp only [hfab, hport, hten, hcore, hclk, hapf, haon, ite_self]
  split <;> rfl

/-- Settles O8: a plain register takes the merged word, and the logic after the command does not write it. -/
theorem writeChangesWritableFieldsOnly : Obligations.WriteChangesWritableFieldsOnly := by
  intro m k i j v s hk hi hw hv
  have hf : s.busWrite m .word (BitVec.ofNat 32 (k.addr i j)).toNat v =
      (s.setReg k (k.info.merge (s.reg k i j) v) i j).seen m 0 false := by
    rw [toNat_addr hi, ← State.regWrite, regWrite_ok hw hi (plainRegs_ne_active hk) hv, writeReg_plain hk]
  obtain ⟨t, ht, hreg, hans, honly⟩ := ends_setReg_seen
    (c := .registerWrite m .word (BitVec.ofNat 32 (k.addr i j)) v) rfl hf (plainRegs_not_settles hk hi)
  exact ⟨t, ht, fun b hb => by rw [hreg, merge_getLsbD _ _ _ hb], hans, honly⟩

/-! ### Reads that clear (R9) -/

/-- A served read by command. -/
theorem busRead_addr {m : Master} {k : RegKind} {i j : Nat} {s : State} (h : CanRead m k i j s) (hi : k.has i j) :
    s.busRead m (BitVec.ofNat 32 (k.addr i j)).toNat =
      (s.readReg m ⟨k, i, j, false⟩).1.seen m (s.readReg m ⟨k, i, j, false⟩).2 false := by
  rw [toNat_addr hi, busRead_ok h hi]

/-- A served read answers with the value that the register reads as. -/
theorem ends_read_answered {m : Master} {k : RegKind} {i j : Nat} {s : State} (h : CanRead m k i j s)
    (hi : k.has i j) : Ends (.rcFieldRead m (BitVec.ofNat 32 (k.addr i j))) s fun t => ∃ v, Answered m v false t :=
  ends_run (f := fun s => s.busRead m (BitVec.ofNat 32 (k.addr i j)).toNat) rfl fun t ht => by
    rw [busRead_addr h hi] at ht
    exact ⟨_, ht.answered⟩

/-- A served read that does no more than clear bits of its register. -/
theorem ends_read_clears {m : Master} {k : RegKind} {i j : Nat} {s : State} {w v : Word} (h : CanRead m k i j s)
    (hi : k.has i j) (hr : s.readReg m ⟨k, i, j, false⟩ = (s.setReg k w i j, v)) (hk : ¬settles (k.addr i j)) :
    Ends (.rcFieldRead m (BitVec.ofNat 32 (k.addr i j))) s fun t =>
      t.reg k i j = w ∧ Answered m v false t ∧ Only [.last] [k.addr i j] [] s t :=
  ends_setReg_seen (f := fun s => s.busRead m (BitVec.ofNat 32 (k.addr i j)).toNat) rfl
    (by rw [busRead_addr h hi, hr]) hk

theorem rcRegs_readReg {k : RegKind} (hk : k ∈ rcRegs) (s : State) (m : Master) (i j : Nat) :
    s.readReg m ⟨k, i, j, false⟩ = (s.setReg k (s.reg k i j &&& ~~~(k.info.maskOf .rc)) i j, s.reg k i j) := by
  fin_cases hk <;> rfl

theorem rcRegs_not_settles {k : RegKind} (hk : k ∈ rcRegs) {i j : Nat} (hi : k.has i j) : ¬settles (k.addr i j) :=
  not_settles hi (by rintro rfl; exact absurd hk (by decide)) (by rintro rfl; exact absurd hk (by decide))

/-- A read of a register of `rcRegs`. -/
theorem ends_read_rcRegs {m : Master} {k : RegKind} {i j : Nat} {s : State} (hk : k ∈ rcRegs) (hi : k.has i j)
    (h : CanRead m k i j s) : Ends (.rcFieldRead m (BitVec.ofNat 32 (k.addr i j))) s fun t =>
      Answered m (s.reg k i j) false t ∧
      (∀ b < 32, (t.reg k i j).getLsbD b = ((s.reg k i j).getLsbD b && !(k.info.maskOf .rc).getLsbD b)) ∧
      Only [.last] [k.addr i j] [] s t := by
  obtain ⟨t, ht, hreg, hans, honly⟩ := ends_read_clears h hi (rcRegs_readReg hk s m i j) (rcRegs_not_settles hk hi)
  exact ⟨t, ht, hans, fun b hb => by rw [hreg]; simp [hb], honly⟩

theorem readReg_qDrop (s : State) (m : Master) (q : Nat) : s.readReg m ⟨.Q_DROP, q, 0, false⟩ =
    (s.setQueue q { s.queue q with drop := 0 },
      (s.queue q).drop.setWidth 32 ||| if (s.queue q).dropSat then 0x10000 else 0) := rfl

theorem readReg_tenMbx (s : State) (m : Master) (n : Nat) : s.readReg m ⟨.TEN_MBX, n, 0, false⟩ =
    ((s.setTen n { s.ten n with mbxFull := false }).setReg .TEN_MBX 0 n, s.reg .TEN_MBX n) := rfl

theorem readReg_tenStatus (s : State) (m : Master) (n : Nat) : s.readReg m ⟨.TEN_STATUS, n, 0, false⟩ =
    (s.setReg .TEN_STATUS (s.reg .TEN_STATUS n &&& 0xFFFF) n,
      (s.reg .TEN_STATUS n &&& 0xFFFF0000) ||| BitVec.ofNat 32 (s.ten n).st.code) := by
  have hrc : ~~~(RegKind.TEN_STATUS.info.maskOf .rc) = 0xFFFF := by decide
  rw [← hrc]
  rfl

/-- A read of Q_DROP clears the count of its queue and of no other. -/
theorem ends_read_qDrop {m : Master} {q : Nat} {s : State} (hq : q < 16384) (h : CanRead m .Q_DROP q 0 s) :
    Ends (.rcFieldRead m (BitVec.ofNat 32 (RegKind.Q_DROP.addr q 0))) s fun t =>
      Answered m ((s.queue q).drop.setWidth 32 ||| if (s.queue q).dropSat then 0x10000 else 0) false t ∧
      t.queue q = { s.queue q with drop := 0 } ∧ (∀ p, p ≠ q → t.queue p = s.queue p) ∧
      Only [.last, .queues] [] [] s t := by
  refine ends_run (f := fun s => s.busRead m (BitVec.ofNat 32 (RegKind.Q_DROP.addr q 0)).toNat) rfl fun t ht => ?_
  rw [busRead_addr h ⟨hq, by decide⟩, readReg_qDrop] at ht
  have hqueues : t.queues = (s.setQueue q { s.queue q with drop := 0 }).queues := ht.1 .queues (by simp)
  have hqueue : ∀ p, t.queue p = (s.setQueue q { s.queue q with drop := 0 }).queue p := fun p => by
    rw [State.queue, hqueues]; rfl
  refine ⟨ht.answered, ?_, fun p hp => ?_, Only.settled ?_ ht⟩
  · rw [hqueue, State.setQueue_queue]
  · rw [hqueue, State.setQueue_queue_ne _ _ hp]
  · refine Only.trans (t := s.setQueue q { s.queue q with drop := 0 }) ?_ ((Only.seen _ _ _ _).mono (by simp) (by simp))
    exact .of_kept (s := s) (t := s.setQueue q _) (fun p hp => by cases p <;> simp_all [Part.same]) rfl rfl rfl _

/-- A read of TEN_MBX empties the mailbox of its tenant and of no other. -/
theorem ends_read_tenMbx {m : Master} {n : Nat} {s : State} (hn : n < 16) (h : CanRead m .TEN_MBX n 0 s) :
    Ends (.rcFieldRead m (BitVec.ofNat 32 (RegKind.TEN_MBX.addr n 0))) s fun t =>
      Answered m (s.reg .TEN_MBX n) false t ∧ t.reg .TEN_MBX n = 0 ∧
      t.ten n = { s.ten n with mbxFull := false } ∧ (∀ k, k ≠ n → t.ten k = s.ten k) ∧
      Only [.last, .tenants] [RegKind.TEN_MBX.addr n 0] [] s t := by
  have hi : RegKind.TEN_MBX.has n 0 := ⟨hn, by decide⟩
  refine ends_run (f := fun s => s.busRead m (BitVec.ofNat 32 (RegKind.TEN_MBX.addr n 0)).toNat) rfl fun t ht => ?_
  rw [busRead_addr h hi, readReg_tenMbx] at ht
  have htens : t.tenants = (s.setTen n { s.ten n with mbxFull := false }).tenants := ht.1 .tenants (by simp)
  have hten : ∀ p, t.ten p = (s.setTen n { s.ten n with mbxFull := false }).ten p := fun p => by
    rw [State.ten, htens]; rfl
  refine ⟨ht.answered, ?_, ?_, fun p hp => ?_, Only.settled ?_ ht⟩
  · rw [ht.reg .TEN_MBX n 0 (not_settles hi (by decide) (by decide))]
    exact State.setReg_reg (s.setTen n _) .TEN_MBX 0 n 0
  · rw [hten, State.setTen_ten]
  · rw [hten, State.setTen_ten_ne _ _ hp]
  · refine Only.trans (t := s.setTen n { s.ten n with mbxFull := false }) ?_ ?_
    · exact .of_kept (s := s) (t := s.setTen n _) (fun p hp => by cases p <;> simp_all [Part.same]) rfl rfl rfl _
    · exact (Only.setReg _ .TEN_MBX 0 n 0 _ (.inl (by simp))).trans ((Only.seen _ _ _ _).mono (by simp) (by simp))

/-- A read of TEN_STATUS shows the tenant's state and clears its count of sheds. -/
theorem ends_read_tenStatus {m : Master} {n : Nat} {s : State} (hn : n < 16) (h : CanRead m .TEN_STATUS n 0 s) :
    Ends (.rcFieldRead m (BitVec.ofNat 32 (RegKind.TEN_STATUS.addr n 0))) s fun t =>
      Answered m ((s.reg .TEN_STATUS n &&& 0xFFFF0000) ||| BitVec.ofNat 32 (s.ten n).st.code) false t ∧
      t.reg .TEN_STATUS n = s.reg .TEN_STATUS n &&& 0xFFFF ∧
      Only [.last] [RegKind.TEN_STATUS.addr n 0] [] s t := by
  have hi : RegKind.TEN_STATUS.has n 0 := ⟨hn, by decide⟩
  obtain ⟨t, ht, hreg, hans, honly⟩ := ends_read_clears h hi (readReg_tenStatus s m n)
    (not_settles hi (by decide) (by decide))
  exact ⟨t, ht, hans, hreg, honly⟩

/-- Settles O10, register by register. -/
theorem readClearsReadClearFields : Obligations.ReadClearsReadClearFields :=
  ⟨fun _ _ _ _ _ hk hi h => ends_read_rcRegs hk hi h, fun _ _ _ hq h => ends_read_qDrop hq h,
    fun _ _ _ hn h => ends_read_tenMbx hn h, fun _ _ _ hn h => ends_read_tenStatus hn h,
    fun _ _ _ _ _ hi h => ends_read_answered h hi⟩

end Sys2Proof.Machine
end

section
/-!
PROOFS. What an access depends on: domains, clocks, banks, ownership and rights are read from a few registers, which
the cycles of a core leave as they are.
-/
namespace Sys2Proof.Machine

/-- The registers that say what can be reached and who may reach it: clocks, domains, banks and ownership. -/
def govKinds : List RegKind :=
  [.CLK_ROOT_STATUS, .PWR_DOM_STATUS, .POND_BANK_STATUS, .TEN_CORES, .TEN_QRANGE, .TEN_SEL_OWN, .TEN_SLOT_OWN,
    .TRK_OWNER, .AUD_OWNER, .HDLC_CH_OWNER, .TEN_CTL]

/-- None of these addresses is one of those registers'. -/
def SparesGov (but : List Nat) : Prop := ∀ k ∈ govKinds, ∀ i j, k.has i j → k.addr i j ∉ but

/-- A register at one of the addresses of a list, each of which is a register of some kind listed. -/
theorem not_mem_of_kinds {ks : List RegKind} {but : List Nat}
    (hb : ∀ a ∈ but, ∃ k ∈ ks, ∃ i j, k.has i j ∧ a = k.addr i j) {k : RegKind} (hk : k ∉ ks) {i j : Nat}
    (hi : k.has i j) : k.addr i j ∉ but := by
  intro hm
  obtain ⟨k', hk', i', j', hi', he⟩ := hb _ hm
  exact addr_ne hi hi' (.inl (by rintro rfl; exact hk hk')) he

/-- The registers that the cycles of a core may change. -/
def bookKinds : List RegKind :=
  [.POND_ECC_CE_COUNT, .POND_ECC_UE_COUNT, .POND_ECC_UE_ADDR, .POND_ECC_UE_INFO, .CORE_ICACHE_LOAD, .PERF_STATUS]

theorem bookRegs_kinds {n : Nat} (hn : n < 17) :
    ∀ a ∈ bookRegs n, ∃ k ∈ bookKinds, ∃ i j, k.has i j ∧ a = k.addr i j := by
  simp only [bookRegs, List.mem_cons, List.not_mem_nil, or_false]
  rintro a (rfl | rfl | rfl | rfl | rfl | rfl)
  · exact ⟨.POND_ECC_CE_COUNT, by decide, 0, 0, by decide, rfl⟩
  · exact ⟨.POND_ECC_UE_COUNT, by decide, 0, 0, by decide, rfl⟩
  · exact ⟨.POND_ECC_UE_ADDR, by decide, 0, 0, by decide, rfl⟩
  · exact ⟨.POND_ECC_UE_INFO, by decide, 0, 0, by decide, rfl⟩
  · exact ⟨.CORE_ICACHE_LOAD, by decide, n, 0, ⟨hn, by decide⟩, rfl⟩
  · exact ⟨.PERF_STATUS, by decide, n, 0, ⟨hn, by decide⟩, rfl⟩

/-- A register of a kind that is not in `bookKinds` is not among those of core `n`. -/
theorem not_mem_bookRegs {n : Nat} (hn : n < 17) {k : RegKind} (hk : k ∉ bookKinds) {i j : Nat} (hi : k.has i j) :
    k.addr i j ∉ bookRegs n := not_mem_of_kinds (bookRegs_kinds hn) hk hi

theorem govKinds_not_book : ∀ k ∈ govKinds, k ∉ bookKinds := by decide

theorem sparesGov_bookRegs {n : Nat} (hn : n < 17) : SparesGov (bookRegs n) := fun k hk _ _ hi =>
  not_mem_bookRegs hn (govKinds_not_book k hk) hi

theorem SparesGov.append {b c : List Nat} (hb : SparesGov b) (hc : SparesGov c) : SparesGov (b ++ c) :=
  fun k hk i j hi hm => (List.mem_append.mp hm).elim (hb k hk i j hi) (hc k hk i j hi)

/-! ### What is read from those registers -/

theorem others_lt : ∀ t ∈ others, t < 16 := by decide

/-- A register that a slot, selector, line, trunk, audio port or channel owns has no more instances than these have
owners. -/
theorem owned_bound (k : RegKind) :
    (k.info.wr = .slot → k.info.n1 ≤ 16384) ∧ (k.info.wr = .sel → k.info.n1 ≤ 1024) ∧
    (k.info.wr = .line → k.info.n1 ≤ 512) ∧ (k.info.wr = .trk → k.info.n1 ≤ 4) ∧
    (k.info.wr = .aud → k.info.n1 ≤ 8) ∧ (k.info.wr = .hdlc → k.info.n1 ≤ 256) := by
  cases k <;> decide

section
variable {but : List Nat} {s t : State} (h : RegsKept but s t) (hb : SparesGov but)
include h hb

theorem RegsKept.gov {k : RegKind} (hk : k ∈ govKinds) {i j : Nat} (hi : k.has i j) : t.reg k i j = s.reg k i j :=
  h.reg k i j (hb k hk i j hi) (not_settles hi (by rintro rfl; revert hk; decide) (by rintro rfl; revert hk; decide))

theorem RegsKept.govField (f : FieldRef) (hk : f.k ∈ govKinds) {i j : Nat} (hi : f.k.has i j) :
    t.f f i j = s.f f i j := by
  unfold State.f; rw [h.gov hb hk hi]

theorem RegsKept.divRun : t.divRun = s.divRun := by
  unfold State.divRun State.b; rw [h.govField hb F.CLK_ROOT_STATUS_DIV_RUN (by decide) (by decide)]

theorem RegsKept.fabUp : t.fabUp = s.fabUp := by
  unfold State.fabUp State.fabPg State.b
  rw [h.govField hb F.PWR_DOM_STATUS_FAB_PG (by decide) (by decide), h.divRun hb]

theorem RegsKept.corePg (n : Nat) : t.corePg n = s.corePg n := by
  unfold State.corePg State.b
  rw [h.govField hb F.PWR_DOM_STATUS_EFT_PG (by decide) (by decide),
    h.govField hb F.PWR_DOM_STATUS_NEWT_PG (by decide) (by decide)]

theorem RegsKept.domPg (d : Nat) : t.domPg d = s.domPg d := by
  unfold State.domPg; rw [h.gov hb (by decide) (by decide)]

theorem RegsKept.pondOn (a len : Nat) : t.pondOn a len = s.pondOn a len := by
  unfold State.pondOn State.bankSt
  rw [h.divRun hb, h.gov (k := .POND_BANK_STATUS) hb (by decide) (by decide)]

theorem RegsKept.reach (r : RegRef) : t.reach r = s.reach r := by
  unfold State.reach; rw [h.fabUp hb, h.corePg hb, h.corePg hb, h.divRun hb, h.domPg hb]

theorem RegsKept.coreOwner (n : Nat) : t.coreOwner n = s.coreOwner n := by
  unfold State.coreOwner
  rw [List.find?_congr (p₂ := fun x => (s.reg .TEN_CORES x).getLsbD n) fun x hx => by
    rw [h.gov hb (by decide) ⟨others_lt x hx, by decide⟩]]

theorem RegsKept.slotOwner {n : Nat} (hn : n < 16384) : t.slotOwner n = s.slotOwner n := by
  have hw : n / 32 < 512 := by omega
  unfold State.slotOwner
  rw [List.find?_congr (p₂ := fun x => (s.reg .TEN_SLOT_OWN x (n / 32)).getLsbD (n % 32)) fun x hx => by
    rw [h.gov hb (by decide) ⟨others_lt x hx, hw⟩]]

theorem RegsKept.selOwner {n : Nat} (hn : n < 1024) : t.selOwner n = s.selOwner n := by
  have hw : n / 32 < 32 := by omega
  unfold State.selOwner
  rw [List.find?_congr (p₂ := fun x => (s.reg .TEN_SEL_OWN x (n / 32)).getLsbD (n % 32)) fun x hx => by
    rw [h.gov hb (by decide) ⟨others_lt x hx, hw⟩]]

theorem RegsKept.queueOwner (q : Nat) : t.queueOwner q = s.queueOwner q := by
  unfold State.queueOwner
  rw [List.find?_congr (p₂ := fun x => s.hasQueue x q) fun x hx => by
    unfold State.hasQueue
    rw [h.govField hb F.TEN_QRANGE_FIRST (by decide) ⟨others_lt x hx, by decide⟩,
      h.govField hb F.TEN_QRANGE_COUNT (by decide) ⟨others_lt x hx, by decide⟩]]

theorem RegsKept.tenantOf (m : Master) : t.tenantOf m = s.tenantOf m := by
  cases m <;> simp only [State.tenantOf, h.coreOwner hb]

theorem RegsKept.mayWrite (m : Master) {k : RegKind} {i j : Nat} (hi : k.has i j) :
    t.mayWrite m ⟨k, i, j, false⟩ = s.mayWrite m ⟨k, i, j, false⟩ := by
  obtain ⟨hslot, hsel, hline, htrk, haud, hhdlc⟩ := owned_bound k
  have hi1 := hi.1
  unfold State.mayWrite State.tenantMay
  rw [h.tenantOf hb]
  congr 1
  cases hw : k.info.wr <;> dsimp only
  case slot => rw [h.slotOwner hb (Nat.lt_of_lt_of_le hi1 (hslot hw))]
  case sel => rw [h.selOwner hb (Nat.lt_of_lt_of_le hi1 (hsel hw))]
  case line => rw [h.slotOwner hb (by have := hline hw; omega)]
  case trk => rw [h.govField hb F.TRK_OWNER_TENANT (by decide) ⟨Nat.lt_of_lt_of_le hi1 (htrk hw), by decide⟩]
  case aud => rw [h.govField hb F.AUD_OWNER_TENANT (by decide) ⟨Nat.lt_of_lt_of_le hi1 (haud hw), by decide⟩]
  case hdlc => rw [h.govField hb F.HDLC_CH_OWNER_TENANT (by decide) ⟨Nat.lt_of_lt_of_le hi1 (hhdlc hw), by decide⟩]
  case core => rw [h.coreOwner hb]
  case queue => rw [h.queueOwner hb]

theorem RegsKept.mayRead (m : Master) (r : RegRef) : t.mayRead m r = s.mayRead m r := by
  unfold State.mayRead
  simp only [h.tenantOf hb, h.coreOwner hb, h.queueOwner hb]

end

end Sys2Proof.Machine
end

section
/-!
PROOFS. What holds along the cycles and the fetch of a core: they are made of a few elementary changes, and whatever
these keep, the whole keeps.
-/
namespace Sys2Proof.Machine

/-- A relation that the elementary changes of core `n`'s cycles and fetches keep. -/
structure CycleSteps (n : Nat) (R : State → State → Prop) : Prop where
  refl : ∀ s, R s s
  trans : ∀ {s t u}, R s t → R t u → R s u
  setCore : ∀ s c, R s (s.setCore n c)
  setPctr : ∀ s m k c, R s (s.setPctr m k c)
  eccRead : ∀ s m p ws, R s (s.eccRead m p ws).1
  setF : ∀ s f x, R s (s.setF f x n)
  free : ∀ s, R s s.free.2

namespace CycleSteps

variable {n : Nat} {R : State → State → Prop} (h : CycleSteps n R)
include h

omit h in
theorem ite {c : Prop} [Decidable c] {s t u : State} (ht : R s t) (hu : R s u) : R s (if c then t else u) := by
  split <;> assumption

theorem foldl {α : Type} {f : State → α → State} (hf : ∀ s a, R s (f s a)) (l : List α) (s : State) :
    R s (l.foldl f s) := by
  induction l generalizing s with
  | nil => exact h.refl s
  | cons a l ih => exact h.trans (hf s a) (ih _)

theorem perfOne (s : State) (k : Nat) (hold : Bool) (v : List (Nat × Nat)) (t : Nat) :
    R s (s.perfOne n k hold v t) := by
  unfold State.perfOne
  extract_lets ctl sel total
  exact ite (h.refl s) (ite (h.setPctr _ _ _ _) (h.refl s))

theorem perf (s : State) (v : List (Nat × Nat)) (t : Nat) : R s (s.perf n v t) :=
  h.foldl (fun s k => h.perfOne s k _ v t) _ s

/-- A read of a line, if its bank is on. -/
theorem lineRead (s : State) (line : Nat) :
    R s (if s.pondOn (line * 32) 32 then s.eccRead (fetchCode n) 1 (wordsOf (line * 32) 32) else (s, false)).1 := by
  split
  · exact h.eccRead _ _ _ _
  · exact h.refl s

theorem loadLines (k : Nat) (s : State) : R s (s.loadLines n k) := by
  induction k generalizing s with
  | zero => exact h.refl s
  | succ k ih =>
    unfold State.loadLines
    extract_lets c
    split
    · exact h.refl s
    · split
      · extract_lets line set ok r l' c' s1 s2
        have h1 : R s s1 := h.trans (h.lineRead s line) (h.setCore _ _)
        have h2 : R s s2 := ite h1 (h.trans h1 (h.setF _ _ _))
        exact h.trans (ite (h.trans h2 (h.setF _ _ _)) h2) (ih _)
      · exact h.refl s

theorem lbDone (s : State) (line : Nat) : R s (s.lbDone n line) := h.trans (h.lineRead s line) (h.setCore _ _)

theorem lbPass (s : State) (k : Nat) : R s (s.lbPass n k) := by
  unfold State.lbPass
  extract_lets c
  split
  · exact h.refl s
  · exact ite (h.refl s) (ite (h.lbDone _ _) (h.setCore _ _))

theorem pass (s : State) (k : Nat) : R s (s.pass n k) := by
  unfold State.pass
  extract_lets c s1
  have h1 : R s s1 := h.trans (h.setCore _ _) (h.lbPass _ _)
  split
  · exact h1
  · exact h.trans h1 (h.loadLines _ _)

theorem spend (s : State) (st k : Nat) (p : List (Nat × Nat)) : R s (s.spend n st k p) := by
  unfold State.spend
  extract_lets t v
  exact ite (h.refl s) (h.trans (h.perf _ _ _) (h.pass _ _))

theorem endLoad (s : State) : R s (s.endLoad n).1 := by
  unfold State.endLoad
  extract_lets c
  split
  · exact h.trans (h.setCore _ _) (h.loadLines _ _)
  · exact h.refl s

theorem fillNow (s : State) (line : Nat) (pin : Bool) : R s (s.fillNow n line pin).1 := by
  unfold State.fillNow
  extract_lets c s0
  have h0 : R s s0 := h.trans (h.setCore _ _) (h.perf _ _ _)
  have h1 := h.trans h0 (h.eccRead s0 (fetchCode n) 1 (wordsOf (line * 32) 32))
  split
  · exact h0
  · split <;> rename_i s1 heq <;> rw [heq] at h1
    · exact h.trans h1 (h.setCore _ _)
    · exact h1

theorem fillLine (s : State) (line : Nat) (pin : Bool) : R s (s.fillLine n line pin).1 :=
  h.trans (h.endLoad s) (h.fillNow _ _ _)

theorem fetchLine (s : State) (a : Nat) : R s (s.fetchLine n a).1 := by
  unfold State.fetchLine
  split
  · exact h.refl s
  · extract_lets line c pin s1
    have h1 : R s s1 := h.lbDone _ _
    split
    · exact h.setCore _ _
    · split
      · split
        · exact h.fillLine _ _ _
        · split
          · exact h.setCore _ _
          · split
            · exact h.trans h1 (h.setCore _ _)
            · exact h.trans h1 (h.fillLine _ _ _)
      · exact h.fillLine _ _ _

theorem fetch (s : State) : R s (s.fetch n).1 := by
  unfold State.fetch
  extract_lets c d
  split
  · exact h.refl s
  · exact h.fetchLine _ _

theorem prefetch (s : State) (a e : Nat) : R s (s.prefetch n a e) := by
  unfold State.prefetch
  extract_lets c line c' next have_
  exact ite (h.refl s) (ite (h.setCore _ _) (h.trans (h.setCore _ _) (h.perf _ _ _)))

theorem countLeft (s : State) (cost : Nat) : R s (s.countLeft n cost).2 := by
  unfold State.countLeft
  extract_lets p
  split
  · exact h.refl s
  · split
    · exact h.refl s
    · exact h.free s

/-- As `instr_executes`, with whatever else the cycles keep. -/
theorem instr_executes {s : State} (he : Executes n s) (cost : Nat) (pulses : List (Nat × Nat))
    (body : State → State × Option Trap) : ∃ u, Beside n s u ∧ R s u ∧ s.instr n cost pulses body =
      match body u with
      | (v, none) => (if cost = 0 then v else v.perfBoundary n).wrapBlock n
      | (v, some t) => ((v.perfBoundary n).takeTrap n t).wrapBlock n := by
  obtain ⟨hr, hb, u, k, hf⟩ := he
  have hbu : Beside n s u := by have := Beside.fetch s n; rwa [hf] at this
  have hru : R s u := by have := h.fetch s; rwa [hf] at this
  have hgo : (decide ((s.core n).part = 0) && ((s.core n).haltReq || ((s.core n).breaks && !(s.core n).bpSkip))) =
      false := by
    rcases hb with hp | ⟨hh, hb | hb⟩ <;> simp [*]
  have he : s.instr n cost pulses body = u.perform n k cost pulses body := by
    unfold State.instr
    simp only [hr, hgo, hf, Bool.not_true, Bool.false_eq_true, if_false]
  rw [he]
  unfold State.perform
  extract_lets d s1 c s2
  have hb1 : Beside n u s1 := (Beside.spend _ _ _ _ _).trans (.prefetch _ _ _ _)
  have hb2 : Beside n u s2 := (hb1.trans (.countLeft _ _ _)).trans ((Beside.spend _ _ _ _ _).trans (.boundary _ _))
  have hr1 : R u s1 := h.trans (h.spend _ _ _ _) (h.prefetch _ _ _)
  have hr2 : R u s2 := h.trans (h.trans hr1 (h.countLeft _ _)) (h.trans (h.spend _ _ _ _) (h.setCore _ _))
  exact ⟨s2, hbu.trans hb2, h.trans hru hr2, rfl⟩

end CycleSteps

/-! ### Reading words with their check bits -/

/-- Only registers and the marks of errors found change. -/
def RegsMarked (s t : State) : Prop := { s with regs := t.regs, ceGrown := t.ceGrown, ueNew := t.ueNew } = t

theorem RegsMarked.refl (s : State) : RegsMarked s s := rfl

theorem RegsMarked.trans {s t u : State} (h : RegsMarked s t) (g : RegsMarked t u) : RegsMarked s u := by
  unfold RegsMarked at *; rw [← g, ← h]

theorem RegsMarked.setReg (s : State) (k : RegKind) (v : Word) (i j : Nat) : RegsMarked s (s.setReg k v i j) := rfl

theorem RegsMarked.bump (s : State) (f : FieldRef) (x i j : Nat) : RegsMarked s (s.bump f x none i j) := by
  unfold State.bump; dsimp only; split <;> rfl

theorem RegsMarked.ite {c : Prop} [Decidable c] {s t u : State} (h : RegsMarked s t) (g : RegsMarked s u) :
    RegsMarked s (if c then t else u) := by split <;> assumption

/-- A read of words either clears the marks of the correctable ones, or finds an uncorrectable one and leaves them. -/
theorem eccRead_cases (s : State) (m p : Nat) (ws : List Nat) : ∃ u, RegsMarked s u ∧
    ((∀ w ∈ ws, (s.eccOf w).ue = false) ∧
      s.eccRead m p ws = ((ws.filter fun w => (s.eccOf w).ce).foldl (fun s w => s.setEcc w .good) u, true) ∨
    (∃ w ∈ ws, (s.eccOf w).ue = true) ∧ s.eccRead m p ws = (u, false)) := by
  unfold State.eccRead
  extract_lets ce s0 s1 s2 s3
  have h1 : RegsMarked s s1 := .ite (.refl s) ((RegsMarked.bump s _ _ _ _).trans rfl)
  have h2 : RegsMarked s s2 := .ite (h1.trans rfl) h1
  split
  case h_1 hnone => exact ⟨s2, h2, .inl ⟨by simpa using hnone, rfl⟩⟩
  case h_2 w hw =>
    have h3 : RegsMarked s s3 := .ite (h2.trans rfl) (h2.trans (.bump _ _ _ _ _))
    refine ⟨_, ?_, .inr ⟨⟨w, List.mem_of_find?_eq_some hw, by simpa using List.find?_some hw⟩, rfl⟩⟩
    exact ((((h3.trans (.setReg _ _ _ _ _)).trans (.setReg _ _ _ _ _)).trans (.setReg _ _ _ _ _)).trans
      (.setReg _ _ _ _ _)).trans rfl

/-- Clearing marks changes the check bits of the words listed and nothing else. -/
theorem foldl_setEcc (l : List Nat) (s : State) :
    ∃ e, l.foldl (fun s w => s.setEcc w .good) s = { s with ecc := e } ∧
      ∀ w ∉ l, tabGet (fun _ => WordErr.good) e w = s.eccOf w := by
  induction l generalizing s with
  | nil => exact ⟨s.ecc, rfl, fun _ _ => rfl⟩
  | cons x l ih =>
    obtain ⟨e, he, hw⟩ := ih (s.setEcc x .good)
    refine ⟨e, he, fun w hx => ?_⟩
    rw [hw w fun hm => hx (by simp [hm]), s.setEcc_ecc_ne _ fun hm => hx (by simp [hm])]

/-- Uncorrectable words stay uncorrectable. -/
def KeepsUe (s t : State) : Prop := ∀ w, (s.eccOf w).ue = true → (t.eccOf w).ue = true

theorem KeepsUe.of_ecc {s t : State} (h : t.ecc = s.ecc) : KeepsUe s t := fun w hw => by
  unfold State.eccOf; rwa [h]

/-- Events raised stay raised. -/
def KeepsRaised (s t : State) : Prop := ∀ e ∈ s.raised, e ∈ t.raised

theorem KeepsRaised.of_eq {s t : State} (h : t.raised = s.raised) : KeepsRaised s t := fun e he => by rwa [h]

theorem ue_of_ce {e : WordErr} (h : e.ce = true) : e.ue = false := by
  cases e <;> simp_all [WordErr.ce, WordErr.ue]

theorem KeepsUe.eccRead (s : State) (m p : Nat) (ws : List Nat) : KeepsUe s (s.eccRead m p ws).1 := by
  obtain ⟨u, hu, ⟨_, he⟩ | ⟨_, he⟩⟩ := eccRead_cases s m p ws
  · rw [he]
    obtain ⟨e, hf, hw⟩ := foldl_setEcc (ws.filter fun w => (s.eccOf w).ce) u
    intro w hue
    have heq : u.eccOf w = s.eccOf w := by rw [← hu]; rfl
    have hn : w ∉ ws.filter fun w => (s.eccOf w).ce := fun hm => by
      rw [ue_of_ce (List.mem_filter.mp hm).2] at hue; cases hue
    rw [hf]
    show (tabGet _ e w).ue = true
    rwa [hw w hn, heq]
  · rw [he]; exact .of_ecc (by rw [← hu])

theorem cycleSteps_keepsUe (n : Nat) : CycleSteps n KeepsUe where
  refl _ := fun _ h => h
  trans h g := fun w hw => g w (h w hw)
  setCore _ _ := .of_ecc rfl
  setPctr _ _ _ _ := .of_ecc rfl
  eccRead s m p ws := .eccRead s m p ws
  setF _ _ _ := .of_ecc rfl
  free _ := .of_ecc rfl

theorem KeepsRaised.raiseAt (s : State) (e : Nat) (o : Option Nat) (w : Word) : KeepsRaised s (s.raiseAt e o w) := by
  unfold State.raiseAt
  split
  · exact fun _ h => List.mem_append_left _ h
  · split <;> exact fun _ h => h

theorem KeepsRaised.wrapOne (s : State) (n k : Nat) : KeepsRaised s (s.wrapOne n k).1 := by
  unfold State.wrapOne
  extract_lets c free s1
  have hovf : KeepsRaised s1 (s1.setOvf n k) := by unfold State.setOvf; split <;> exact .of_eq rfl
  split
  · exact fun _ h => h
  · split
    · exact hovf
    · exact fun _ h => h

theorem KeepsRaised.wrapBlock (s : State) (n : Nat) : KeepsRaised s (s.wrapBlock n) := by
  unfold State.wrapBlock
  extract_lets r
  have hr : ∀ (l : List Nat) (x : State × Bool), KeepsRaised x.1 (l.foldl (fun (x : State × Bool) k =>
      let y := x.1.wrapOne n k
      (y.1, x.2 || y.2)) x).1 := by
    intro l
    induction l with
    | nil => exact fun _ _ h => h
    | cons k l ih => exact fun x e he => ih _ e (KeepsRaised.wrapOne x.1 n k e he)
  have hfold : KeepsRaised s r.1 := hr (ctrNums n) (s, false)
  split
  · refine fun e he => ?_
    unfold State.ovfEvent State.raise State.raiseTo
    split <;> exact KeepsRaised.raiseAt _ _ _ _ e (hfold e he)
  · exact hfold

theorem Settling.keepsRaised {s t : State} (h : Settling s t) : KeepsRaised s t := by
  obtain ⟨⟨l, _, hl⟩, _⟩ := h.3
  intro e he
  rw [hl]
  simp [he]

end Sys2Proof.Machine
end

section
/-!
PROOFS. How an instruction of a core ends: completed, with the context that its body gave (`ends_done`), or with
a fault (`ends_trapped`).
-/
namespace Sys2Proof.Machine

/-! ### Changes that leave the other cores and most registers alone -/

/-- Every part that an instruction of core `n` may not touch is as it was, every register but those listed, and every
other core. -/
structure CoreOnly (regs : List Nat) (n : Nat) (s t : State) : Prop where
  kept : Kept [.regs, .events, .cores, .counters, .ecc, .free] s t
  regs : RegsKept regs s t
  others : ∀ m, m ≠ n → t.core m = s.core m

namespace CoreOnly

variable {regs : List Nat} {n : Nat}

theorem trans {s t u : State} (h : CoreOnly regs n s t) (g : CoreOnly regs n t u) : CoreOnly regs n s u :=
  ⟨h.kept.trans g.kept, h.regs.trans g.regs, fun m hm => (g.others m hm).trans (h.others m hm)⟩

theorem beside {s t : State} (h : Beside n s t) (hr : bookRegs n ⊆ regs) : CoreOnly regs n s t :=
  ⟨h.completes.around.kept, h.completes.around.regs.mono hr, h.completes.around.others⟩

theorem settling {s t : State} (h : Settling s t) : CoreOnly regs n s t :=
  ⟨h.1.mono (by simp), h.2.mono (by simp), fun m _ => by
    have hc : t.cores = s.cores := h.1 .cores (by simp)
    unfold State.core; rw [hc]⟩

theorem setReg (s : State) (k : RegKind) (v : Word) (i j : Nat) (h : k.addr i j ∈ regs) :
    CoreOnly regs n s (s.setReg k v i j) :=
  ⟨(Kept.setReg s k v i j).mono (by simp), RegsKept.setReg s k v i j _ (.inl h), fun _ _ => rfl⟩

theorem bump (s : State) (f : FieldRef) (x i j : Nat) (h : f.k.addr i j ∈ regs) :
    CoreOnly regs n s (s.bump f x none i j) := by
  unfold State.bump
  dsimp only
  split <;> exact setReg _ _ _ _ _ h

theorem setCore (s : State) (c : Core) : CoreOnly regs n s (s.setCore n c) :=
  ⟨fun p hp => by cases p <;> simp_all [Part.same], RegsKept.of_eq rfl _, fun _ hm => s.setCore_core_ne c hm⟩

theorem raiseAt (s : State) (e : Nat) (o : Option Nat) (w : Word) : CoreOnly regs n s (s.raiseAt e o w) :=
  ⟨(Kept.raiseAt s e o w).mono (by simp), RegsKept.of_eq (by simp) _, fun m _ => by simp [State.core]⟩

end CoreOnly

/-! ### The core's two contexts -/

/-- What cycles leave of a core. -/
theorem Beside.core_kept {n : Nat} {s t : State} (h : Beside n s t) :
    (t.core n).st = (s.core n).st ∧ (t.core n).inHandler = (s.core n).inHandler ∧
      (t.core n).main = (s.core n).main ∧ (t.core n).hand = (s.core n).hand := by
  obtain ⟨hst, hin, hother, _⟩ := h.completes.core
  have hctx : (t.core n).ctx = (s.core n).ctx := h.completes.ctx
  unfold Core.otherCtx at hother
  unfold Core.ctx at hctx
  rw [hin] at hother hctx
  cases hh : (s.core n).inHandler <;> simp_all

theorem Settling.core {s t : State} (h : Settling s t) (n : Nat) : t.core n = s.core n := by
  have hc : t.cores = s.cores := h.1 .cores (by simp)
  unfold State.core; rw [hc]

/-! ### The record of a fault -/

/-- The registers of a fault's record. -/
def faultKinds : List RegKind := [.CORE_FAULT_INFO, .CORE_FAULT_PC, .CORE_FAULT_ADDR, .CORE_FAULT_FRAME]

theorem faultRegs_kinds {n : Nat} (hn : n < 17) :
    ∀ a ∈ faultRegs n, ∃ k ∈ faultKinds, ∃ i j, k.has i j ∧ a = k.addr i j := by
  simp only [faultRegs, List.mem_cons, List.not_mem_nil, or_false]
  rintro a (rfl | rfl | rfl | rfl)
  · exact ⟨.CORE_FAULT_INFO, by decide, n, 0, ⟨hn, by decide⟩, rfl⟩
  · exact ⟨.CORE_FAULT_PC, by decide, n, 0, ⟨hn, by decide⟩, rfl⟩
  · exact ⟨.CORE_FAULT_ADDR, by decide, n, 0, ⟨hn, by decide⟩, rfl⟩
  · exact ⟨.CORE_FAULT_FRAME, by decide, n, 0, ⟨hn, by decide⟩, rfl⟩

theorem govKinds_not_fault : ∀ k ∈ govKinds, k ∉ faultKinds := by decide

theorem sparesGov_fault {n : Nat} (hn : n < 17) : SparesGov (bookRegs n ++ faultRegs n) :=
  (sparesGov_bookRegs hn).append fun k hk _ _ hi => not_mem_of_kinds (faultRegs_kinds hn) (govKinds_not_fault k hk) hi

/-- None of these addresses is of core `n`'s fault record. -/
def SparesRecord (n : Nat) (but : List Nat) : Prop := ∀ k ∈ faultKinds, k.addr n 0 ∉ but

theorem faultKinds_has {n : Nat} (hn : n < 17) {k : RegKind} : k ∈ faultKinds → k.has n 0 := by
  simp only [faultKinds, List.mem_cons, List.not_mem_nil, or_false]
  rintro (rfl | rfl | rfl | rfl) <;> exact ⟨hn, by decide⟩

theorem faultKinds_not_book : ∀ k ∈ faultKinds, k ∉ bookKinds := by decide

theorem sparesRecord_bookRegs {n : Nat} (hn : n < 17) : SparesRecord n (bookRegs n) := fun k hk =>
  not_mem_bookRegs hn (faultKinds_not_book k hk) (faultKinds_has hn hk)

theorem RegsKept.record {but : List Nat} {n : Nat} {s t : State} (h : RegsKept but s t) (hb : SparesRecord n but)
    (hn : n < 17) {k : RegKind} (hk : k ∈ faultKinds) : t.reg k n = s.reg k n :=
  h.reg k n 0 (hb k hk) (not_settles (faultKinds_has hn hk) (by rintro rfl; revert hk; decide)
    (by rintro rfl; revert hk; decide))

/-- The record of a fault of core `n` from the state `s`, as `t` holds it (R436, R459). -/
def Recorded (n code addr : Nat) (half pair : Bool) (s t : State) : Prop :=
  t.f F.CORE_FAULT_INFO_CODE n = code ∧
    t.f F.CORE_FAULT_INFO_CTX n = (if (s.core n).inHandler then 1 else 0) ∧
    t.f F.CORE_FAULT_INFO_HALF n = (if half then 1 else 0) ∧ t.f F.CORE_FAULT_INFO_PAIR n = (if pair then 1 else 0) ∧
    t.f F.CORE_FAULT_INFO_COUNT n = min (s.f F.CORE_FAULT_INFO_COUNT n + 1) 0xFFFF ∧
    t.reg .CORE_FAULT_PC n = (s.ctx n).pc.setWidth 32 ∧ t.reg .CORE_FAULT_ADDR n = BitVec.ofNat 32 addr ∧
    t.reg .CORE_FAULT_FRAME n = s.frame

section
variable {n code addr : Nat} {half pair : Bool}

/-- Cycles before the fault do not show in the record. -/
theorem Recorded.of_beside {s v t : State} (h : Recorded n code addr half pair v t) (hb : Beside n s v)
    (hn : n < 17) : Recorded n code addr half pair s t := by
  have hcount : v.f F.CORE_FAULT_INFO_COUNT n = s.f F.CORE_FAULT_INFO_COUNT n := by
    unfold State.f; rw [hb.completes.around.regs.record (sparesRecord_bookRegs hn) hn (by decide)]
  have hframe : v.frame = s.frame := (hb.completes.around.kept .time (by simp)).1
  unfold Recorded at *
  rwa [hb.core_kept.2.1, hcount, hb.completes.ctx, hframe] at h

/-- Nor does what comes after it and leaves the record's registers alone. -/
theorem Recorded.kept {but : List Nat} {s t u : State} (h : Recorded n code addr half pair s t)
    (hr : RegsKept but t u) (hb : SparesRecord n but) (hn : n < 17) : Recorded n code addr half pair s u := by
  unfold Recorded State.f at *
  rwa [hr.record hb hn (k := .CORE_FAULT_INFO) (by decide), hr.record hb hn (k := .CORE_FAULT_PC) (by decide),
    hr.record hb hn (k := .CORE_FAULT_ADDR) (by decide), hr.record hb hn (k := .CORE_FAULT_FRAME) (by decide)]

/-- DOUBLE stands beside the fields of the record. -/
theorem Recorded.setDouble {s t : State} (h : Recorded n code addr half pair s t) (hn : n < 17) (x : Nat) :
    Recorded n code addr half pair s (t.setF F.CORE_FAULT_INFO_DOUBLE x n) := by
  have hne : ∀ k ∈ faultKinds, k ≠ .CORE_FAULT_INFO → (t.setF F.CORE_FAULT_INFO_DOUBLE x n).reg k n = t.reg k n :=
    fun k hk hk' => t.setReg_reg_ne _ _ _ _ (addr_ne (faultKinds_has hn hk) (faultKinds_has hn (by decide)) (.inl hk'))
  have hf : ∀ g : FieldRef, g.k = .CORE_FAULT_INFO → g.lo + g.w ≤ 7 ∨ 8 ≤ g.lo →
      (t.setF F.CORE_FAULT_INFO_DOUBLE x n).f g n = t.f g n := fun g hk hl => t.setF_f_ne _ g _ _ _ hk hl
  unfold Recorded at *
  rwa [hf F.CORE_FAULT_INFO_CODE rfl (by decide), hf F.CORE_FAULT_INFO_CTX rfl (by decide),
    hf F.CORE_FAULT_INFO_HALF rfl (by decide), hf F.CORE_FAULT_INFO_PAIR rfl (by decide),
    hf F.CORE_FAULT_INFO_COUNT rfl (by decide), hne .CORE_FAULT_PC (by decide) (by decide),
    hne .CORE_FAULT_ADDR (by decide) (by decide), hne .CORE_FAULT_FRAME (by decide) (by decide)]

/-- A saturating field after it was counted up. -/
theorem bump_f (s : State) (f : FieldRef) (x i j : Nat) (h : f.lo + f.w ≤ 32) :
    (s.bump f x none i j).f f i j = min (s.f f i j + x) (2 ^ f.w - 1) := by
  have hpos := Nat.two_pow_pos f.w
  unfold State.bump
  dsimp only
  split <;> rw [State.setF_f _ _ _ _ _ h, Nat.mod_eq_of_lt (by omega)] <;> omega

theorem bump_f_ne (s : State) (f g : FieldRef) (x i j : Nat) (hk : g.k = f.k)
    (h : g.lo + g.w ≤ f.lo ∨ f.lo + f.w ≤ g.lo) : (s.bump f x none i j).f g i j = s.f g i j := by
  unfold State.bump
  dsimp only
  split <;> exact State.setF_f_ne _ _ _ _ _ _ hk h

/-- The fields that a fault puts into CORE_FAULT_INFO: CODE, CTX, HALF and PAIR; a field above them is as it was. -/
theorem fieldOf_faultInfo (w : Word) (c x p q : Nat) :
    let u := withField (withField (withField (withField w 0 4 c) 4 1 x) 5 1 p) 6 1 q
    fieldOf u 0 4 = c % 2 ^ 4 ∧ fieldOf u 4 1 = x % 2 ^ 1 ∧ fieldOf u 5 1 = p % 2 ^ 1 ∧ fieldOf u 6 1 = q % 2 ^ 1 ∧
      fieldOf u 16 16 = fieldOf w 16 16 := by
  refine ⟨?_, ?_, ?_, ?_, ?_⟩
  · rw [fieldOf_withField_ne _ _ _ _ _ _ (by decide), fieldOf_withField_ne _ _ _ _ _ _ (by decide),
      fieldOf_withField_ne _ _ _ _ _ _ (by decide), fieldOf_withField _ _ _ _ (by decide)]
  · rw [fieldOf_withField_ne _ _ _ _ _ _ (by decide), fieldOf_withField_ne _ _ _ _ _ _ (by decide),
      fieldOf_withField _ _ _ _ (by decide)]
  · rw [fieldOf_withField_ne _ _ _ _ _ _ (by decide), fieldOf_withField _ _ _ _ (by decide)]
  · rw [fieldOf_withField _ _ _ _ (by decide)]
  · rw [fieldOf_withField_ne _ _ _ _ _ _ (by decide), fieldOf_withField_ne _ _ _ _ _ _ (by decide),
      fieldOf_withField_ne _ _ _ _ _ _ (by decide), fieldOf_withField_ne _ _ _ _ _ _ (by decide)]

/-- The record that a fault writes. -/
theorem recorded_recordFault (s : State) (hn : n < 17) (hc : code < 16) :
    Recorded n code addr half pair s (s.recordFault n code addr half pair) := by
  unfold State.recordFault
  extract_lets c s1 s2
  have hi : ∀ k ∈ faultKinds, k.has n 0 := fun k hk => faultKinds_has hn hk
  have hne : ∀ k ∈ faultKinds, ∀ k' ∈ faultKinds, k ≠ k' → k.addr n 0 ≠ k'.addr n 0 :=
    fun k hk k' hk' h => addr_ne (hi k hk) (hi k' hk') (.inl h)
  obtain ⟨hcode, hctx, hhalf, hpair, hcount⟩ := fieldOf_faultInfo (s.reg .CORE_FAULT_INFO n) code
    (if c.inHandler then 1 else 0) (if half then 1 else 0) (if pair then 1 else 0)
  have h1 : s1.reg .CORE_FAULT_INFO n = _ := State.setReg_reg _ _ _ _ _
  have hf : ∀ g : FieldRef, g.k = .CORE_FAULT_INFO → g.lo + g.w ≤ 16 → s2.f g n = s1.f g n :=
    fun g hk hl => bump_f_ne _ _ _ _ _ _ hk (.inl hl)
  have hr : ∀ g : FieldRef, g.k = .CORE_FAULT_INFO →
      (((s2.setReg .CORE_FAULT_PC (c.ctx.pc.setWidth 32) n).setReg .CORE_FAULT_ADDR (BitVec.ofNat 32 addr) n).setReg
        .CORE_FAULT_FRAME s.frame n).f g n = s2.f g n := by
    intro g hk
    unfold State.f
    rw [hk, State.setReg_reg_ne _ _ _ _ _ (hne _ (by decide) _ (by decide) (by decide)),
      State.setReg_reg_ne _ _ _ _ _ (hne _ (by decide) _ (by decide) (by decide)),
      State.setReg_reg_ne _ _ _ _ _ (hne _ (by decide) _ (by decide) (by decide))]
  refine ⟨?_, ?_, ?_, ?_, ?_, ?_, ?_, ?_⟩
  · rw [hr _ rfl, hf _ rfl (by decide), State.f, h1, hcode]; exact Nat.mod_eq_of_lt hc
  · rw [hr _ rfl, hf _ rfl (by decide), State.f, h1, hctx]; split <;> rfl
  · rw [hr _ rfl, hf _ rfl (by decide), State.f, h1, hhalf]; split <;> rfl
  · rw [hr _ rfl, hf _ rfl (by decide), State.f, h1, hpair]; split <;> rfl
  · rw [hr _ rfl, bump_f _ _ _ _ _ (by decide), State.f, h1, hcount]; rfl
  · rw [State.setReg_reg_ne _ _ _ _ _ (hne _ (by decide) _ (by decide) (by decide)),
      State.setReg_reg_ne _ _ _ _ _ (hne _ (by decide) _ (by decide) (by decide)), State.setReg_reg]
    rfl
  · rw [State.setReg_reg_ne _ _ _ _ _ (hne _ (by decide) _ (by decide) (by decide)), State.setReg_reg]
  · rw [State.setReg_reg]

end

/-- Recording a fault touches its registers only. -/
theorem coreOnly_recordFault {regs : List Nat} {n : Nat} (h : faultRegs n ⊆ regs) (s : State) (code addr : Nat)
    (half pair : Bool) : CoreOnly regs n s (s.recordFault n code addr half pair) := by
  unfold State.recordFault
  extract_lets c s1 s2
  exact ((((CoreOnly.setReg _ _ _ _ _ (h (by simp [faultRegs]))).trans
    (.bump _ _ _ _ _ (h (by simp [faultRegs])))).trans (.setReg _ _ _ _ _ (h (by simp [faultRegs])))).trans
    (.setReg _ _ _ _ _ (h (by simp [faultRegs])))).trans (.setReg _ _ _ _ _ (h (by simp [faultRegs])))

theorem regsMarked_recordFault (s : State) (n code addr : Nat) (half pair : Bool) :
    RegsMarked s (s.recordFault n code addr half pair) := by
  unfold State.recordFault
  extract_lets c s1 s2
  exact ((((RegsMarked.setReg _ _ _ _ _).trans (.bump _ _ _ _ _)).trans (.setReg _ _ _ _ _)).trans
    (.setReg _ _ _ _ _)).trans (.setReg _ _ _ _ _)

/-! ### Taking a fault -/

theorem coreOwner_lt (s : State) (n : Nat) : s.coreOwner n < 16 := by
  unfold State.coreOwner
  split
  · decide
  · cases h : others.find? fun t => (s.reg .TEN_CORES t).getLsbD n with
    | none => decide
    | some t => exact others_lt t (List.mem_of_find?_eq_some h)

section
variable {n code addr : Nat} {half pair : Bool}

/-- A fault after cycles is a fault of the instruction that they belong to. -/
theorem Trapped.of_beside {s v t : State} (h : Trapped n code addr half pair v t) (hb : Beside n s v) (hn : n < 17) :
    Trapped n code addr half pair s t := by
  obtain ⟨_, hin, hmain, hhand⟩ := hb.core_kept
  have hregs := hb.completes.around.regs
  have hgov := sparesGov_bookRegs hn
  have hframe : v.frame = s.frame := (hb.completes.around.kept .time (by simp)).1
  have hown : v.coreOwner n = s.coreOwner n := hregs.coreOwner hgov n
  have hshed : v.b F.TEN_CTL_SHED_ON_DOUBLE (s.coreOwner n) = s.b F.TEN_CTL_SHED_ON_DOUBLE (s.coreOwner n) := by
    unfold State.b; rw [hregs.govField hgov _ (by decide) ⟨coreOwner_lt s n, by decide⟩]
  have hpre : CoreOnly (bookRegs n ++ faultRegs n) n s v := .beside hb (by simp)
  obtain ⟨hentry, hstop, hrec, hevent, hothers⟩ := h
  rw [hin, hmain, hhand, hframe] at hentry
  rw [hin, hmain, hhand] at hstop
  rw [hin, hown, hframe, hregs.fabUp hgov] at hevent
  rw [hin, hown, hshed] at hothers
  refine ⟨hentry, hstop, Recorded.of_beside hrec hb hn, hevent, fun hs => ?_⟩
  obtain ⟨hk, hr, ho⟩ := hothers hs
  have hall := hpre.trans ⟨hk, hr, ho⟩
  exact ⟨hall.kept, hall.regs, hall.others⟩

/-- What follows a fault and leaves the core's contexts, its record and the events raised does not show. -/
theorem Trapped.after {s t u : State} (h : Trapped n code addr half pair s t) (hn : n < 17)
    (hc : (u.core n).st = (t.core n).st ∧ (u.core n).inHandler = (t.core n).inHandler ∧
      (u.core n).main = (t.core n).main ∧ (u.core n).hand = (t.core n).hand)
    (ho : CoreOnly (bookRegs n) n t u) (hr : KeepsRaised t u) : Trapped n code addr half pair s u := by
  obtain ⟨hst, hin, hmain, hhand⟩ := hc
  have hspare := sparesRecord_bookRegs hn
  obtain ⟨hentry, hstop, hrec, hevent, hothers⟩ := h
  rw [← hst, ← hin, ← hmain, ← hhand] at hentry
  rw [← hst, ← hmain, ← hhand] at hstop
  refine ⟨hentry, fun hs => ?_, Recorded.kept hrec ho.regs hspare hn, fun hf => hr _ (hevent hf), fun hs => ?_⟩
  · obtain ⟨h1, h2, h3, h4⟩ := hstop hs
    refine ⟨h1, h2, h3, ?_⟩
    unfold State.f at *
    rwa [ho.regs.record hspare hn (by decide)]
  · obtain ⟨h1, h2, h3⟩ := hothers hs
    exact ⟨h1.trans ho.kept, h2.trans (ho.regs.mono (by simp)), fun m hm => (ho.others m hm).trans (h3 m hm)⟩

theorem Trapped.beside {s t u : State} (h : Trapped n code addr half pair s t) (hn : n < 17) (hb : Beside n t u)
    (hr : KeepsRaised t u) : Trapped n code addr half pair s u :=
  h.after hn hb.core_kept (.beside hb (by simp)) hr

theorem Trapped.settling {s t u : State} (h : Trapped n code addr half pair s t) (hn : n < 17) (hs : Settling t u) :
    Trapped n code addr half pair s u :=
  h.after hn (by rw [hs.core]; exact ⟨rfl, rfl, rfl, rfl⟩) (.settling hs) hs.keepsRaised

/-- An event raised while the fabric runs is among those raised. -/
theorem mem_raiseTo {s : State} (h : s.fabUp = true) (e o : Nat) : ⟨e, some o, s.frame⟩ ∈ (s.raiseTo e o).raised := by
  unfold State.raiseTo State.raiseAt
  rw [if_pos h]
  simp

/-- The state in which a fault is recorded and counted, before the core leaves its context. -/
theorem faultCounted (s : State) (hn : n < 17) (hc : code < 16) :
    let u := (s.recordFault n code addr half pair).perf n [(15, 1)]
    Recorded n code addr half pair s u ∧ CoreOnly (bookRegs n ++ faultRegs n) n s u ∧
      (u.core n).st = (s.core n).st ∧ (u.core n).main = (s.core n).main ∧ (u.core n).hand = (s.core n).hand := by
  have hb := Beside.perf (s.recordFault n code addr half pair) n [(15, 1)] 0
  have hcore : (s.recordFault n code addr half pair).core n = s.core n := by
    have := regsMarked_recordFault s n code addr half pair
    unfold RegsMarked at this
    rw [← this]; rfl
  obtain ⟨hst, _, hmain, hhand⟩ := hb.core_kept
  rw [hcore] at hst hmain hhand
  exact ⟨Recorded.kept (recorded_recordFault s hn hc) hb.completes.around.regs (sparesRecord_bookRegs hn) hn,
    (coreOnly_recordFault (by simp) s code addr half pair).trans (.beside hb (by simp)), hst, hmain, hhand⟩

/-- What the events of a fault depend on is as it was when the fault is recorded. -/
theorem CoreOnly.event_kept {s t : State} (h : CoreOnly (bookRegs n ++ faultRegs n) n s t) (hn : n < 17) :
    t.fabUp = s.fabUp ∧ t.frame = s.frame :=
  ⟨h.regs.fabUp (sparesGov_fault hn), (h.kept .time (by simp)).1⟩

/-- The core as it starts HANDLER after a fault from MAIN (R436). -/
def Core.faulted (c : Core) (code addr : Nat) (frame : Word) : Core :=
  { c with
    inHandler := true, afterReti := false
    hand := { c.hand with a := BitVec.ofNat 32 code, x := BitVec.ofNat 32 addr, y := frame, pc := 4 } }

theorem takeFault_main (s : State) (hin : (s.core n).inHandler = false) : s.takeFault n code addr half pair =
    let u := (s.recordFault n code addr half pair).perf n [(15, 1)]
    ((u.setCore n ((u.core n).faulted code addr s.frame)).spend n 0 10 []).raiseTo (840 + 4 * n) (s.coreOwner n) := by
  unfold State.takeFault
  simp only [hin]
  rfl

theorem takeFault_handler (s : State) (hin : (s.core n).inHandler = true) : s.takeFault n code addr half pair =
    let u := (s.recordFault n code addr half pair).perf n [(15, 1)]
    let v := ((u.setF F.CORE_FAULT_INFO_DOUBLE 1 n).setCore n { u.core n with st := .faultStop }).raiseTo
      (840 + 4 * n + 1) (s.coreOwner n)
    if v.b F.TEN_CTL_SHED_ON_DOUBLE (s.coreOwner n) then v.shedRequest (s.coreOwner n) 3 else v := by
  unfold State.takeFault
  simp only [hin, if_true]

/-- From MAIN a core enters HANDLER (R436). -/
theorem trapped_takeFault_main (s : State) (hn : n < 17) (hc : code < 16) (hrun : (s.core n).st = .run)
    (hin : (s.core n).inHandler = false) :
    Trapped n code addr half pair s (s.takeFault n code addr half pair) := by
  rw [takeFault_main s hin]
  obtain ⟨hrec, honly, hst, hmain, hhand⟩ := faultCounted (addr := addr) (half := half) (pair := pair) s hn hc
  generalize (s.recordFault n code addr half pair).perf n [(15, 1)] = u at *
  dsimp only
  have hb := Beside.spend (u.setCore n ((u.core n).faulted code addr s.frame)) n 0 10 []
  obtain ⟨hst2, hin2, hmain2, hhand2⟩ := hb.core_kept
  rw [State.setCore_core] at hst2 hin2 hmain2 hhand2
  generalize (u.setCore n ((u.core n).faulted code addr s.frame)).spend n 0 10 [] = w at *
  have hw : CoreOnly (bookRegs n ++ faultRegs n) n s w := (honly.trans (.setCore u _)).trans (.beside hb (by simp))
  obtain ⟨hup, hframe⟩ := hw.event_kept hn
  have hall := hw.trans (.raiseAt w (840 + 4 * n) (some (s.coreOwner n)) w.frame)
  have hcore : (w.raiseTo (840 + 4 * n) (s.coreOwner n)).core n = w.core n := by simp [State.raiseTo, State.core]
  have hr : RegsKept (bookRegs n) u (w.raiseTo (840 + 4 * n) (s.coreOwner n)) :=
    (RegsKept.of_eq rfl _).trans (hb.completes.around.regs.trans (RegsKept.of_eq (by simp [State.raiseTo]) _))
  refine ⟨fun _ => ?_, fun h => by simp [hin] at h, Recorded.kept hrec hr (sparesRecord_bookRegs hn) hn,
    fun hf => ?_, fun _ => ⟨hall.kept, hall.regs, hall.others⟩⟩
  · rw [hcore, hst2, hin2, hmain2, hhand2, ← hhand]
    exact ⟨hst.trans hrun, rfl, hmain, rfl⟩
  · rw [← hframe, if_neg (by simp [hin])]
    exact mem_raiseTo (hup.trans hf) _ _

/-! ### A tail shed that a fault asks for (R440, R527) -/

/-- The registers that a request of a tail shed writes. -/
def shedRegs (t : Nat) : List Nat :=
  [RegKind.TEN_SHED_FRAME.addr t 0, RegKind.TEN_SHED_CAUSE.addr t 0, RegKind.TEN_STATUS.addr t 0]

theorem sparesRecord_shedRegs {t : Nat} (ht : t < 16) (hn : n < 17) : SparesRecord n (shedRegs t) := by
  intro k hk
  refine not_mem_of_kinds (ks := [.TEN_SHED_FRAME, .TEN_SHED_CAUSE, .TEN_STATUS]) ?_ (by revert k; decide)
    (faultKinds_has hn hk)
  simp only [shedRegs, List.mem_cons, List.not_mem_nil, or_false]
  rintro a (rfl | rfl | rfl)
  · exact ⟨.TEN_SHED_FRAME, by decide, t, 0, ⟨ht, by decide⟩, rfl⟩
  · exact ⟨.TEN_SHED_CAUSE, by decide, t, 0, ⟨ht, by decide⟩, rfl⟩
  · exact ⟨.TEN_STATUS, by decide, t, 0, ⟨ht, by decide⟩, rfl⟩

/-- What a request of a tail shed leaves: registers but its own, the events raised, every core's contexts, and that a
core stands in FAULT_STOP. -/
structure ShedKept (regs : List Nat) (s t : State) : Prop where
  regs : RegsKept regs s t
  raised : KeepsRaised s t
  cores : ∀ m, (t.core m).main = (s.core m).main ∧ (t.core m).hand = (s.core m).hand ∧
    ((s.core m).st = .faultStop → (t.core m).st = .faultStop)

theorem ShedKept.refl (regs : List Nat) (s : State) : ShedKept regs s s :=
  ⟨RegsKept.refl _ _, fun _ h => h, fun _ => ⟨rfl, rfl, id⟩⟩

theorem ShedKept.trans {regs : List Nat} {s t u : State} (h : ShedKept regs s t) (g : ShedKept regs t u) :
    ShedKept regs s u :=
  ⟨h.regs.trans g.regs, fun e he => g.raised e (h.raised e he), fun m =>
    ⟨(g.cores m).1.trans (h.cores m).1, (g.cores m).2.1.trans (h.cores m).2.1,
      fun q => (g.cores m).2.2 ((h.cores m).2.2 q)⟩⟩

theorem ShedKept.of_cores {regs : List Nat} {s t : State} (h : RegsKept regs s t) (hr : KeepsRaised s t)
    (hc : t.cores = s.cores) : ShedKept regs s t :=
  ⟨h, hr, fun m => by unfold State.core; rw [hc]; exact ⟨rfl, rfl, id⟩⟩

/-- A core that a shed stops. -/
theorem ShedKept.stopCore (regs : List Nat) (s : State) (m : Nat) (b : Bool) :
    ShedKept regs s (s.setCore m { s.core m with
      wasRun := b
      st := if (s.core m).st = .off ∨ (s.core m).st = .faultStop then (s.core m).st else .stopped }) := by
  refine ⟨RegsKept.of_eq (by simp) _, .of_eq rfl, fun m' => ?_⟩
  by_cases hm : m' = m
  · subst hm
    rw [State.setCore_core]
    exact ⟨rfl, rfl, fun h => by simp [h]⟩
  · rw [State.setCore_core_ne _ _ hm]
    exact ⟨rfl, rfl, id⟩

theorem ShedKept.foldl {regs : List Nat} {f : State → Nat → State} (hf : ∀ s m, ShedKept regs s (f s m))
    (l : List Nat) (s : State) : ShedKept regs s (l.foldl f s) := by
  induction l generalizing s with
  | nil => exact .refl _ s
  | cons m l ih => exact (hf s m).trans (ih _)

theorem ShedKept.setReg {regs : List Nat} (s : State) (k : RegKind) (v : Word) (i j : Nat) (h : k.addr i j ∈ regs) :
    ShedKept regs s (s.setReg k v i j) := .of_cores (RegsKept.setReg s k v i j _ (.inl h)) (.of_eq rfl) rfl

theorem ShedKept.bump {regs : List Nat} (s : State) (f : FieldRef) (x i j : Nat) (h : f.k.addr i j ∈ regs) :
    ShedKept regs s (s.bump f x none i j) := by
  unfold State.bump; dsimp only; split <;> exact .setReg _ _ _ _ _ h

theorem shedKept_shedRequest (s : State) (t cause : Nat) : ShedKept (shedRegs t) s (s.shedRequest t cause) := by
  unfold State.shedRequest
  split
  · have hpre : ShedKept (shedRegs t) s
        (s.setTen t { s.ten t with st := .shedding, age := 0, returnAt := false, cut := true }) :=
      .of_cores (RegsKept.of_eq rfl _) (.of_eq rfl) rfl
    refine (((hpre.trans (.setReg _ _ _ _ _ (by simp [shedRegs]))).trans (.setReg _ _ _ _ _ (by simp [shedRegs]))).trans
      (.bump _ _ _ _ _ (by simp [shedRegs]))).trans (ShedKept.foldl (fun u m => ?_) _ _)
    split
    · exact .stopCore _ u m _
    · exact .refl _ u
  · exact .refl _ s

/-- From HANDLER a core stops in FAULT_STOP, and its tenant may be shed (R439, R440). -/
theorem trapped_takeFault_handler (s : State) (hn : n < 17) (hc : code < 16) (hin : (s.core n).inHandler = true) :
    Trapped n code addr half pair s (s.takeFault n code addr half pair) := by
  rw [takeFault_handler s hin]
  obtain ⟨hrec, honly, hst, hmain, hhand⟩ := faultCounted (addr := addr) (half := half) (pair := pair) s hn hc
  generalize (s.recordFault n code addr half pair).perf n [(15, 1)] = u at *
  dsimp only
  have hw : CoreOnly (bookRegs n ++ faultRegs n) n s
      ((u.setF F.CORE_FAULT_INFO_DOUBLE 1 n).setCore n { u.core n with st := .faultStop }) :=
    (honly.trans (.setReg u _ _ _ _ (by simp [faultRegs]))).trans (.setCore _ _)
  obtain ⟨hup, hframe⟩ := hw.event_kept hn
  have hrec2 : Recorded n code addr half pair s
      ((u.setF F.CORE_FAULT_INFO_DOUBLE 1 n).setCore n { u.core n with st := .faultStop }) :=
    Recorded.kept (Recorded.setDouble hrec hn 1) (RegsKept.of_eq rfl []) (fun _ _ => by simp) hn
  have hdouble2 : ((u.setF F.CORE_FAULT_INFO_DOUBLE 1 n).setCore n { u.core n with st := .faultStop }).f
      F.CORE_FAULT_INFO_DOUBLE n = 1 := u.setF_f F.CORE_FAULT_INFO_DOUBLE 1 n 0 (by decide)
  have hcore2 : ((u.setF F.CORE_FAULT_INFO_DOUBLE 1 n).setCore n { u.core n with st := .faultStop }).core n =
      { u.core n with st := .faultStop } := State.setCore_core _ _ _
  generalize (u.setF F.CORE_FAULT_INFO_DOUBLE 1 n).setCore n { u.core n with st := .faultStop } = w at *
  have hall : CoreOnly (bookRegs n ++ faultRegs n) n s (w.raiseTo (840 + 4 * n + 1) (s.coreOwner n)) :=
    hw.trans (.raiseAt _ _ _ _)
  have hevent := fun hf : s.fabUp = true => mem_raiseTo (hup.trans hf) (840 + 4 * n + 1) (s.coreOwner n)
  have hraise : ShedKept (shedRegs (s.coreOwner n)) w (w.raiseTo (840 + 4 * n + 1) (s.coreOwner n)) :=
    .of_cores (RegsKept.of_eq (by simp [State.raiseTo]) _) (.raiseAt _ _ _ _) (by simp [State.raiseTo])
  have hshed : (w.raiseTo (840 + 4 * n + 1) (s.coreOwner n)).b F.TEN_CTL_SHED_ON_DOUBLE (s.coreOwner n) =
      s.b F.TEN_CTL_SHED_ON_DOUBLE (s.coreOwner n) := by
    unfold State.b
    rw [hall.regs.govField (sparesGov_fault hn) _ (by decide) ⟨coreOwner_lt s n, by decide⟩]
  rw [hshed]
  generalize w.raiseTo (840 + 4 * n + 1) (s.coreOwner n) = v at *
  have hlast : ShedKept (shedRegs (s.coreOwner n)) v
      (if s.b F.TEN_CTL_SHED_ON_DOUBLE (s.coreOwner n) then v.shedRequest (s.coreOwner n) 3 else v) := by
    split
    · exact shedKept_shedRequest _ _ _
    · exact .refl _ _
  have hspare := sparesRecord_shedRegs (coreOwner_lt s n) hn
  have hend := hraise.trans hlast
  obtain ⟨hm, hh, hs⟩ := hend.cores n
  rw [hcore2] at hm hh hs
  refine ⟨fun h => by simp [hin] at h, fun _ => ⟨hs rfl, hm.trans hmain, hh.trans hhand, ?_⟩,
    Recorded.kept hrec2 hend.regs hspare hn, fun hf => ?_, fun h => ?_⟩
  · unfold State.f at *
    rwa [hend.regs.record hspare hn (by decide)]
  · rw [← hframe, if_pos hin]
    exact hlast.raised _ (hevent hf)
  · rw [if_neg (by rw [h hin]; decide)]
    exact ⟨hall.kept, hall.regs, hall.others⟩

/-- An instruction whose fetch and cycles have left the state `v` and that faults. -/
theorem trapped_takeFault (s : State) (hn : n < 17) (hc : code < 16) (hrun : (s.core n).st = .run) :
    Trapped n code addr half pair s (s.takeFault n code addr half pair) := by
  cases hin : (s.core n).inHandler with
  | false => exact trapped_takeFault_main s hn hc hrun hin
  | true => exact trapped_takeFault_handler s hn hc hin

end

/-! ### How an instruction ends -/

theorem Executes.run {n : Nat} {s : State} (h : Executes n s) : (s.core n).st = .run := by
  have := h.1
  unfold State.canRun at this
  simp only [Bool.and_eq_true, decide_eq_true_eq] at this
  exact this.1.1.2

/-- An instruction faults if its body does, whatever the cycles before it left (R438). -/
theorem ends_trapped {c : Instr} {n : Nat} {s : State} {f : State → State} {cost : Nat}
    {pulses : List (Nat × Nat)} {body : State → State × Option Trap} {code addr : Nat} {half pair : Bool}
    (he : Executes n s) (hn : n < 17) (hcode : code < 16) (hc : exec c s = Sys2Proof.Machine.run f s)
    (hf : f s = s.instr n cost pulses body)
    (hbody : ∀ u, Beside n s u → KeepsUe s u → ∃ v, Beside n u v ∧ body u = (v, some ⟨code, addr, half, pair⟩)) :
    Ends c s (Trapped n code addr half pair s) := by
  refine ends_run hc fun t ht => ?_
  obtain ⟨u, hu, hk, hi⟩ := (cycleSteps_keepsUe n).instr_executes he cost pulses body
  obtain ⟨v, hv, hb⟩ := hbody u hu hk
  rw [hf, hi, hb] at ht
  have hsv : Beside n s (v.perfBoundary n) := (hu.trans hv).trans (.perfBoundary v n)
  have htake := trapped_takeFault (code := code) (addr := addr) (half := half) (pair := pair) (v.perfBoundary n)
    hn hcode
    (hsv.core_kept.1.trans he.run)
  exact ((htake.beside hn (.wrapBlock _ n (by omega)) (.wrapBlock _ n)).settling hn ht).of_beside hsv hn

/-- What an instruction of core `n` that completes leaves of the core but its context, and of all else but the parts
and registers that it names. -/
structure Done (but : List Part) (regs : List Nat) (n : Nat) (s t : State) (c : Ctx) : Prop where
  kept : Kept (but ++ [.regs, .events, .cores, .counters, .ecc, .free]) s t
  regs : RegsKept (bookRegs n ++ regs) s t
  others : ∀ m, m ≠ n → t.core m = s.core m
  core : CoreKept n s t
  ctx : t.ctx n = c

namespace Done

variable {but : List Part} {regs : List Nat} {n : Nat} {c : Ctx}

theorem of_beside {s u t : State} (h : Done but regs n u t c) (hb : Beside n s u) : Done but regs n s t c :=
  ⟨(hb.completes.around.kept.mono (by simp)).trans h.kept, (hb.completes.around.regs.mono (by simp)).trans h.regs,
    fun m hm => (h.others m hm).trans (hb.completes.around.others m hm), hb.completes.core.trans h.core, h.ctx⟩

theorem beside {s t u : State} (h : Done but regs n s t c) (hb : Beside n t u) : Done but regs n s u c :=
  ⟨h.kept.trans (hb.completes.around.kept.mono (by simp)), h.regs.trans (hb.completes.around.regs.mono (by simp)),
    fun m hm => (hb.completes.around.others m hm).trans (h.others m hm), h.core.trans hb.completes.core,
    hb.completes.ctx.trans h.ctx⟩

theorem settling {s t u : State} (h : Done but regs n s t c) (hs : Settling t u) : Done but regs n s u c :=
  ⟨h.kept.trans (hs.1.mono (by simp)), h.regs.trans (hs.2.mono (by simp)),
    fun m hm => (hs.core m).trans (h.others m hm), h.core.trans (.of_eq (hs.core n)),
    by unfold State.ctx; rw [hs.core]; exact h.ctx⟩

theorem completes {s t : State} (h : Done but [] n s t c) : Completes but n s t c :=
  ⟨⟨h.kept, by have := h.regs; rwa [List.append_nil] at this, h.others⟩, h.core, h.ctx⟩

end Done

/-- An instruction completes if its body does. What the body's end state has, and the boundary after it keeps, holds
at the end (`P`). -/
theorem ends_done {c : Instr} {n : Nat} {s : State} {f : State → State} {cost : Nat}
    {pulses : List (Nat × Nat)} {body : State → State × Option Trap} {but : List Part} {regs : List Nat} {d : Ctx}
    (he : Executes n s) (hn : n < 17) (hc : exec c s = Sys2Proof.Machine.run f s)
    (hf : f s = s.instr n cost pulses body) {P : State → Prop}
    (hbody : ∀ u, Beside n s u → ∃ v, Done but regs n u v d ∧ body u = (v, none) ∧
      ∀ x t, Beside n v x → Settling x t → P t) :
    Ends c s fun t => Done but regs n s t d ∧ P t := by
  refine ends_run hc fun t ht => ?_
  obtain ⟨u, hu, hi⟩ := instr_executes he cost pulses body
  obtain ⟨v, hv, hb, hP⟩ := hbody u hu
  rw [hf, hi, hb] at ht
  have hw : Beside n v ((if cost = 0 then v else v.perfBoundary n).wrapBlock n) :=
    (Beside.ite (.refl n v) (.perfBoundary v n)).trans (.wrapBlock _ n (by omega))
  exact ⟨((hv.beside hw).settling ht).of_beside hu, hP _ _ hw ht⟩

end Sys2Proof.Machine
end

section
/-!
PROOFS. Loads: what a data access reads, how a load ends, and O30.
-/
namespace Sys2Proof.Machine

/-! ### Cycles and what an access depends on -/

section
variable {n : Nat} {s u : State} (h : Beside n s u)
include h

theorem Beside.mem : u.mem = s.mem := h.completes.around.kept .mem (by simp)

theorem Beside.aon : u.aon = s.aon := h.completes.around.kept .aon (by simp)

theorem Beside.byte (b : Nat) : u.byte b = s.byte b := by unfold State.byte; rw [h.mem]

theorem Beside.aonByte (b : Nat) : u.aonByte b = s.aonByte b := by unfold State.aonByte; rw [h.aon]

theorem Beside.seenByte (a b : Nat) : u.seenByte n a b = s.seenByte n a b := by
  unfold State.seenByte; rw [h.byte, h.aonByte]

theorem Beside.memWord (a size : Nat) : u.memWord n a size = s.memWord n a size := by
  unfold State.memWord
  simp only [h.seenByte]

theorem Beside.not_ue {w : Nat} (hw : (s.eccOf w).ue = false) : (u.eccOf w).ue = false := by
  cases hu : (u.eccOf w).ue with
  | false => rfl
  | true => rw [h.ecc w hu] at hw; cases hw

variable (hn : n < 17)
include hn

theorem Beside.pondOn (a len : Nat) : u.pondOn a len = s.pondOn a len :=
  h.completes.around.regs.pondOn (sparesGov_bookRegs hn) a len

theorem Beside.memOk {a size : Nat} (hm : MemOk n a size s) : MemOk n a size u := by
  rcases hm with hm | ⟨hlt, hon, hue⟩
  · exact .inl hm
  · exact .inr ⟨hlt, (h.pondOn hn a size).trans hon, fun w hw => h.not_ue (hue w hw)⟩

end

/-! ### Step 5 of a load (R365, R366) -/

/-- A load of memory that step 5 lets through reads the bytes that stand there. -/
theorem dataRead_memOk {n a size : Nat} {s : State} (hn : n < 17) (h : MemOk n a size s) :
    ∃ v, Beside n s v ∧
      s.dataRead n a size = (v, .ok (leNat ((List.range size).map fun i => s.seenByte n a (a + i)))) := by
  have hp := Beside.perf s n [(8, 1)] 0
  unfold State.dataRead
  cases ha : inAon n a with
  | true => exact ⟨_, hp, by simp [State.seenByte, ha]⟩
  | false =>
    obtain ⟨hlt, hon, hue⟩ := h.resolve_left (by simp [ha])
    rw [if_neg (by simp), if_pos hlt]
    have hr := Beside.eccRead n (s.perf n [(8, 1)]) (dataCode n) (dataPort n) (wordsOf a size)
    obtain ⟨u, _, ⟨_, he⟩ | ⟨⟨w, hw, hbad⟩, _⟩⟩ :=
      eccRead_cases (s.perf n [(8, 1)]) (dataCode n) (dataPort n) (wordsOf a size)
    · rw [he] at hr
      refine ⟨_, hp.trans hr, ?_⟩
      simp only [hp.pondOn hn, hon, State.pondRead, he, Bool.not_true, Bool.false_eq_true, if_false]
      simp only [State.bytes, (hp.trans hr).byte, State.seenByte, ha, Bool.false_eq_true, if_false]
    · rw [hp.not_ue (hue w hw)] at hbad; cases hbad

/-- A bank that is not on refuses a load with code 7. -/
theorem dataRead_off {n a size : Nat} {s : State} (hn : n < 17) (ha : inAon n a = false) (hlt : a < 0x1000000)
    (h : s.pondOn a size = false) : ∃ v, Beside n s v ∧ s.dataRead n a size = (v, .error 7) := by
  have hp := Beside.perf s n [(8, 1)] 0
  refine ⟨_, hp, ?_⟩
  unfold State.dataRead
  rw [if_neg (by simp [ha]), if_pos hlt]
  simp [hp.pondOn hn, h]

/-- An uncorrectable word refuses it with code 8. -/
theorem dataRead_ue {n a size : Nat} {s : State} (hn : n < 17) (ha : inAon n a = false) (hlt : a < 0x1000000)
    (h : s.pondOn a size = true) (hue : ∃ w ∈ wordsOf a size, (s.eccOf w).ue = true) :
    ∃ v, Beside n s v ∧ s.dataRead n a size = (v, .error 8) := by
  have hp := Beside.perf s n [(8, 1)] 0
  have hr := Beside.eccRead n (s.perf n [(8, 1)]) (dataCode n) (dataPort n) (wordsOf a size)
  obtain ⟨w, hw, hbad⟩ := hue
  have hbad' := (cycleSteps_keepsUe n).perf s [(8, 1)] 0 w hbad
  obtain ⟨u, _, ⟨hgood, _⟩ | ⟨_, he⟩⟩ :=
    eccRead_cases (s.perf n [(8, 1)]) (dataCode n) (dataPort n) (wordsOf a size)
  · rw [hgood w hw] at hbad'; cases hbad'
  · rw [he] at hr
    refine ⟨_, hp.trans hr, ?_⟩
    unfold State.dataRead
    rw [if_neg (by simp [ha]), if_pos hlt]
    simp [hp.pondOn hn, h, State.pondRead, he]

/-! ### Loads of a register -/

/-- The registers of the queue descriptors stand in two windows (R506). -/
theorem queue_addr_eq {k : RegKind} (h : k.noQueue = false) (i j : Nat) :
    k.addr i j = if i < 8192 then k.info.base + i * 32 else k.info.base - 0x100000 + (i - 8192) * 32 := by
  have hk : k ∈ [RegKind.Q_BASE, .Q_CFG, .Q_WM, .Q_HEAD, .Q_TAIL, .Q_FILL, .Q_DROP, .Q_STAT] := by
    revert h; cases k <;> decide
  fin_cases hk <;> rfl

/-- Control space lies above pond memory and AON RAM (R837). -/
theorem addr_ge (k : RegKind) (i j : Nat) : 0x1000000 ≤ k.addr i j := by
  have hbase : 0x1000000 ≤ k.info.base ∧ (k.noQueue = false → 0x1100000 ≤ k.info.base) := by cases k <;> decide
  obtain ⟨hlow, hwindow⟩ := hbase
  cases hk : k.noQueue with
  | true => rw [RegKind.addr_eq hk]; omega
  | false =>
    have hhigh := hwindow hk
    rw [queue_addr_eq hk]
    split <;> omega

theorem not_inAon_addr (n : Nat) (k : RegKind) (i j : Nat) : inAon n (k.addr i j) = false := by
  have := addr_ge k i j
  unfold inAon
  simp only [decide_eq_false_iff_not]
  omega

/-- A plain register reads as it stands, but for the two that show more. -/
theorem plainRegs_readReg {k : RegKind} (hk : k ∈ plainRegs) (hrc : k.info.maskOf .rc = 0) (h1 : k ≠ .HL_STATUS)
    (h2 : k ≠ .I2C_CFG) (s : State) (m : Master) (i j : Nat) :
    s.readReg m ⟨k, i, j, false⟩ = (s, s.reg k i j) := by
  have hread : s.readReg m ⟨k, i, j, false⟩ = (s.clearRc ⟨k, i, j, false⟩, s.regValue m ⟨k, i, j, false⟩) := by
    fin_cases hk <;> rfl
  have hclear : s.clearRc ⟨k, i, j, false⟩ =
      if k.info.maskOf .rc = 0 then s else s.setReg k (s.reg k i j &&& ~~~(k.info.maskOf .rc)) i j := by
    fin_cases hk <;> rfl
  have hvalue : k = .HL_STATUS ∨ k = .I2C_CFG ∨ s.regValue m ⟨k, i, j, false⟩ = s.reg k i j := by
    fin_cases hk <;> simp [State.regValue]
  rw [hread, hclear, if_pos hrc, (hvalue.resolve_left h1).resolve_left h2]

/-- A core's load of a plain register. -/
theorem dataRead_plain {n : Nat} {k : RegKind} {i j : Nat} {s : State} (hn : n < 17) (hk : k ∈ plainRegs)
    (hrc : k.info.maskOf .rc = 0) (h1 : k ≠ .HL_STATUS) (h2 : k ≠ .I2C_CFG) (hi : k.has i j)
    (hreach : s.reach ⟨k, i, j, false⟩ = true)
    (hmay : s.mayRead (coreMaster n) ⟨k, i, j, false⟩ = true) (hb : k.addr i j ∉ bookRegs n) :
    ∃ v, Beside n s v ∧ s.dataRead n (k.addr i j) 4 = (v, .ok (s.reg k i j).toNat) := by
  have hp := Beside.perf s n [(9, 1)] 0
  have hr := hp.completes.around.regs
  have hgov := sparesGov_bookRegs hn
  have hread : (s.perf n [(9, 1)]).ctlRead (coreMaster n) .word (k.addr i j) =
      (s.perf n [(9, 1)], some (s.reg k i j)) := by
    unfold State.ctlRead State.ctlWordRead
    rw [if_neg (by simp [addr_aligned]), regAt_has hi]
    simp only [hr.reach hgov, hr.mayRead hgov, hreach, hmay, Bool.not_true, Bool.or_self, Bool.false_eq_true, if_false,
      plainRegs_readReg hk hrc h1 h2, hr.reg k i j hb (plainRegs_not_settles hk hi)]
  refine ⟨_, hp, ?_⟩
  unfold State.dataRead
  rw [if_neg (by simp [not_inAon_addr]), if_neg (by have := addr_ge k i j; omega)]
  show (match (s.perf n [(9, 1)]).ctlRead (coreMaster n) .word (k.addr i j) with
    | (s1, some v) => (s1, Except.ok v.toNat)
    | (s1, none) => (s1, Except.error 7)) = _
  rw [hread]

/-! ### How a load ends -/

/-- The context of a completed instruction stands in place of the old one. -/
theorem done_putCtx (but : List Part) (regs : List Nat) (n : Nat) (s : State) (c : Ctx) :
    Done but regs n s (s.putCtx n c) c := by
  have hcore : (s.putCtx n c).core n = (s.core n).setCtx c := State.setCore_core _ _ _
  refine ⟨fun p hp => by cases p <;> simp_all [Part.same], RegsKept.of_eq (by simp) _,
    fun m hm => State.setCore_core_ne _ _ hm, ?_, ?_⟩
  · unfold CoreKept
    rw [hcore]
    unfold Core.setCtx Core.otherCtx
    cases hh : (s.core n).inHandler <;> simp
  · unfold State.ctx
    rw [hcore]
    unfold Core.setCtx Core.ctx
    cases hh : (s.core n).inHandler <;> simp

/-- The instruction is a load of `size` bytes through segment `sm`. -/
def IsLoad (c : Instr) (n : Nat) (sm : BitVec 4) (x : BitVec 21) (size : Nat) (f : Ctx → Word → Ctx) : Prop :=
  ∃ extra, ∀ s, exec c s = run (fun s => s.loadInstr n sm x size extra f) s

theorem Beside.operandEo {n : Nat} {s u : State} (h : Beside n s u) (k off : Nat) :
    u.operandEo n k off = s.operandEo n k off := by
  unfold State.operandEo; rw [h.completes.ctx]

theorem Beside.operandAt {n : Nat} {s u : State} (h : Beside n s u) (k off : Nat) :
    u.operandAt n k off = s.operandAt n k off := by
  unfold State.operandAt; rw [h.operandEo, h.completes.ctx]

theorem checkSeg_admits {d : BitVec 64} {right : Right} {eo size align : Nat} (h : Admits d right eo size align) :
    checkSeg d right eo size align = none := by
  obtain ⟨hv, hr, ha, hl⟩ := h
  simp [checkSeg, hv, hr, ha, hl]

/-- Steps 1 to 4 refuse with the code of the first that fails (R365, R369). -/
theorem checkSeg_refuses (d : BitVec 64) (right : Right) (eo size align : Nat) :
    (segValid d = false → checkSeg d right eo size align = some 3) ∧
    (segValid d = true → right.on d = false → checkSeg d right eo size align = some 4) ∧
    (segValid d = true → right.on d = true → eo % align ≠ 0 → checkSeg d right eo size align = some 5) ∧
    (segValid d = true → right.on d = true → eo % align = 0 → segLimit d < eo + size →
      checkSeg d right eo size align = some 6) := by
  refine ⟨fun hv => ?_, fun hv hr => ?_, fun hv hr ha => ?_, fun hv hr ha hl => ?_⟩ <;> simp [checkSeg, *]

section
variable {n k off size : Nat} {f : Ctx → Word → Ctx} {s : State}

theorem loadBody_refused {code : Nat}
    (h : checkSeg ((s.ctx n).segAt k) .r (s.operandEo n k off) size size = some code) :
    s.loadBody n k off size f = (s, trap code (s.operandAt n k off)) := by
  unfold State.operandEo at h
  simp only [State.loadBody, h, State.operandAt, State.operandEo]

theorem loadBody_read {w : State} {m : Nat} (ha : Admits ((s.ctx n).segAt k) .r (s.operandEo n k off) size size)
    (h : s.dataRead n (s.operandAt n k off) size = (w, .ok m)) :
    s.loadBody n k off size f = (w.putCtx n (f (s.ctx n) (BitVec.ofNat 32 m)), none) := by
  have hk := checkSeg_admits ha
  unfold State.operandAt at h
  unfold State.operandEo at h hk
  simp only [State.loadBody, hk, h]

theorem loadBody_failed {w : State} {code : Nat}
    (ha : Admits ((s.ctx n).segAt k) .r (s.operandEo n k off) size size)
    (h : s.dataRead n (s.operandAt n k off) size = (w, .error code)) :
    s.loadBody n k off size f = (w, trap code (s.operandAt n k off)) := by
  have hk := checkSeg_admits ha
  unfold State.operandAt at h
  unfold State.operandEo at h hk
  simp only [State.loadBody, hk, h, State.operandAt, State.operandEo]

end

section
variable {c : Instr} {n : Nat} {sm : BitVec 4} {x : BitVec 21} {size : Nat} {f : Ctx → Word → Ctx} {s : State}
variable (hc : IsLoad c n sm x size f) (he : Executes n s) (hn : n < 17)
include hc he hn

/-- A load whose access is served. -/
theorem ends_load {v : Word} (ha : Admits ((s.ctx n).segAt sm.toNat) .r (s.operandEo n sm.toNat x.toNat) size size)
    (hread : ∀ u, Beside n s u → ∃ w, Beside n u w ∧
      ∃ m, u.dataRead n (s.operandAt n sm.toNat x.toNat) size = (w, .ok m) ∧ BitVec.ofNat 32 m = v) :
    Ends c s fun t => Completes [] n s t (f (s.ctx n) v).next := by
  obtain ⟨extra, hx⟩ := hc
  obtain ⟨t, ht, hd, _⟩ := ends_done (P := fun _ => True) (but := []) (regs := []) (d := (f (s.ctx n) v).next)
    he hn (hx s) rfl fun u hu => by
      obtain ⟨w, hw, m, hm, hv⟩ := hread u hu
      refine ⟨w.putCtx n (f (s.ctx n) v).next, (done_putCtx _ _ _ _ _).of_beside hw, ?_, fun _ _ _ _ => trivial⟩
      rw [loadBody_read (by rwa [hu.completes.ctx, hu.operandEo]) (by rwa [hu.operandAt]), hu.completes.ctx, hv]
  exact ⟨t, ht, hd.completes⟩

/-- A load that steps 1 to 4 refuse. -/
theorem ends_load_refused {code : Nat} (hcode : code < 16)
    (hk : checkSeg ((s.ctx n).segAt sm.toNat) .r (s.operandEo n sm.toNat x.toNat) size size = some code) :
    Ends c s (Trapped n code (s.operandAt n sm.toNat x.toNat) false false s) := by
  obtain ⟨extra, hx⟩ := hc
  refine ends_trapped he hn hcode (hx s) rfl fun u hu _ => ⟨u, .refl n u, ?_⟩
  rw [loadBody_refused (by rwa [hu.completes.ctx, hu.operandEo]), hu.operandAt]
  rfl

/-- A load that step 5 refuses. -/
theorem ends_load_failed {code : Nat} (hcode : code < 16)
    (ha : Admits ((s.ctx n).segAt sm.toNat) .r (s.operandEo n sm.toNat x.toNat) size size)
    (hread : ∀ u, Beside n s u → KeepsUe s u → ∃ w, Beside n u w ∧
      u.dataRead n (s.operandAt n sm.toNat x.toNat) size = (w, .error code)) :
    Ends c s (Trapped n code (s.operandAt n sm.toNat x.toNat) false false s) := by
  obtain ⟨extra, hx⟩ := hc
  refine ends_trapped he hn hcode (hx s) rfl fun u hu hk => ?_
  obtain ⟨w, hw, hm⟩ := hread u hu hk
  refine ⟨w, hw, ?_⟩
  rw [loadBody_failed (by rwa [hu.completes.ctx, hu.operandEo]) (by rwa [hu.operandAt]), hu.operandAt]
  rfl

/-- A load of memory. -/
theorem ends_load_mem {v : Word} (h : LoadsMem n sm.toNat x.toNat size v s) :
    Ends c s fun t => Completes [] n s t (f (s.ctx n) v).next := by
  obtain ⟨ha, hm, hv⟩ := h
  refine ends_load hc he hn ha fun u hu => ?_
  obtain ⟨w, hw, hr⟩ := dataRead_memOk hn (hu.memOk hn hm)
  exact ⟨w, hw, _, hr, by rw [hv, ← hu.memWord]; rfl⟩

/-- The faults of a load, in the order of the checks (R365, R366, R369). -/
theorem ends_load_faults :
    let d := (s.ctx n).segAt sm.toNat
    let eo := s.operandEo n sm.toNat x.toNat
    let a := s.operandAt n sm.toNat x.toNat
    (segValid d = false → Ends c s (Trapped n 3 a false false s)) ∧
    (segValid d = true → segR d = false → Ends c s (Trapped n 4 a false false s)) ∧
    (segValid d = true → segR d = true → eo % size ≠ 0 → Ends c s (Trapped n 5 a false false s)) ∧
    (segValid d = true → segR d = true → eo % size = 0 → segLimit d < eo + size →
      Ends c s (Trapped n 6 a false false s)) ∧
    (Admits d .r eo size size → inAon n a = false → a < 0x1000000 → s.pondOn a size = false →
      Ends c s (Trapped n 7 a false false s)) ∧
    (Admits d .r eo size size → inAon n a = false → a < 0x1000000 → s.pondOn a size = true →
      (∃ w ∈ wordsOf a size, (s.eccOf w).ue = true) → Ends c s (Trapped n 8 a false false s)) := by
  intro d eo a
  obtain ⟨h3, h4, h5, h6⟩ := checkSeg_refuses d .r eo size size
  have hrefused {code : Nat} (hcode : code < 16) (hk : checkSeg d .r eo size size = some code) :=
    ends_load_refused hc he hn hcode hk
  refine ⟨fun hv => hrefused (by decide) (h3 hv), fun hv hr => hrefused (by decide) (h4 hv hr),
    fun hv hr ha => hrefused (by decide) (h5 hv hr ha), fun hv hr ha hl => hrefused (by decide) (h6 hv hr ha hl),
    fun ha hna hlt hoff => ?_, fun ha hna hlt hon hue => ?_⟩
  · exact ends_load_failed hc he hn (by decide) ha fun u hu _ =>
      dataRead_off hn hna hlt ((hu.pondOn hn _ _).trans hoff)
  · obtain ⟨w, hw, hbad⟩ := hue
    exact ends_load_failed hc he hn (by decide) ha fun u hu hk =>
      dataRead_ue hn hna hlt ((hu.pondOn hn _ _).trans hon) ⟨w, hw, hk w hbad⟩

end

/-! ### O30 -/

/-- The model's Z and N are those of the statements (R390). -/
theorem znOf_eq_flagsZN (f : BitVec 5) (r : Word) : znOf f r = flagsZN f r := by
  have h : ∀ (f : BitVec 5) (z n : Bool), putZN f z n = flagsOf f (f.getLsbD 0) z n (f.getLsbD 3) := by decide
  exact h f _ _

section
variable (n : Fin 17) (sm : BitVec 4) (x : BitVec 21)

theorem isLoad_gaw : IsLoad (.gaw n sm x) n.val sm x 4 fun c v => c.setA v := ⟨2, fun _ => rfl⟩
theorem isLoad_gab : IsLoad (.gab n sm x) n.val sm x 1 fun c v => c.setA v := ⟨2, fun _ => rfl⟩
theorem isLoad_gah : IsLoad (.gah n sm x) n.val sm x 2 fun c v => c.setA v := ⟨2, fun _ => rfl⟩
theorem isLoad_gxw : IsLoad (.gxw n sm x) n.val sm x 4 fun c v => c.setX v := ⟨2, fun _ => rfl⟩
theorem isLoad_gyw : IsLoad (.gyw n sm x) n.val sm x 4 fun c v => c.setY v := ⟨2, fun _ => rfl⟩

/-- The loads, and the arithmetic and logic that loads its operand. -/
theorem isLoad_of_mem : ∀ e ∈ [(Instr.gaw n sm x, 4), (.gab n sm x, 1), (.gah n sm x, 2), (.gxw n sm x, 4),
    (.gyw n sm x, 4), (.add n sm x, 4), (.adc n sm x, 4), (.sub n sm x, 4), (.sbc n sm x, 4), (.and n sm x, 4),
    (.or n sm x, 4), (.xor n sm x, 4), (.cmp n sm x, 4)], ∃ f, IsLoad e.1 n.val sm x e.2 f := by
  intro e he
  simp only [List.mem_cons, List.not_mem_nil, or_false] at he
  rcases he with rfl | rfl | rfl | rfl | rfl | rfl | rfl | rfl | rfl | rfl | rfl | rfl | rfl
  · exact ⟨_, isLoad_gaw n sm x⟩
  · exact ⟨_, isLoad_gab n sm x⟩
  · exact ⟨_, isLoad_gah n sm x⟩
  · exact ⟨_, isLoad_gxw n sm x⟩
  · exact ⟨_, isLoad_gyw n sm x⟩
  all_goals exact ⟨_, 3, fun _ => rfl⟩

end

/-- A takes a word: Z and N follow it, and the PC moves on. -/
theorem setA_next (c : Ctx) (v : Word) : (c.setA v).next = { c with pc := c.pc + 4, a := v, f := flagsZN c.f v } := by
  rw [← znOf_eq_flagsZN]; rfl

/-- Settles O30: every one of the instructions is `State.loadInstr`, whose access reads memory or a register, or fails
at the first check. -/
theorem loadsReadTheirSegment : Obligations.LoadsReadTheirSegment := by
  intro n sm x s he c next gives d eo a
  have hn := n.isLt
  have toA : ∀ {i : Instr} {size : Nat} {v : Word}, IsLoad i n.val sm x size (fun c v => c.setA v) →
      LoadsMem n.val sm.toNat x.toNat size v s → gives i { next with a := v, f := flagsZN c.f v } := by
    intro i size v hi h
    have := ends_load_mem hi he hn h
    rwa [setA_next] at this
  refine ⟨fun v h => ⟨toA (isLoad_gaw n sm x) h, ends_load_mem (isLoad_gxw n sm x) he hn h,
      ends_load_mem (isLoad_gyw n sm x) he hn h⟩,
    fun v h => toA (isLoad_gab n sm x) h, fun v h => toA (isLoad_gah n sm x) h, ?_, fun e hmem => ?_⟩
  · intro k i j ha ha' hk hrc h1 h2 hi hc hb
    obtain ⟨_, hreach, hmay⟩ := hc
    replace hb : k.addr i j ∉ bookRegs n.val := ha' ▸ hb
    have hend := ends_load (v := s.reg k i j) (isLoad_gaw n sm x) he hn ha fun u hu => by
      have hr := hu.completes.around.regs
      have hgov := sparesGov_bookRegs hn
      obtain ⟨w, hw, hread⟩ := dataRead_plain hn hk hrc h1 h2 hi ((hr.reach hgov _).trans hreach)
        ((hr.mayRead hgov _ _).trans hmay) hb
      exact ⟨w, hw, _, ha' ▸ hread, by simp [hr.reg k i j hb (plainRegs_not_settles hk hi)]⟩
    rwa [setA_next] at hend
  · obtain ⟨f, hf⟩ := isLoad_of_mem n sm x e hmem
    exact ends_load_faults hf he hn

end Sys2Proof.Machine
end

section
/-!
PROOFS. Stores, pushes and pops: what a data access writes, how a store ends, and O31.
-/
namespace Sys2Proof.Machine

/-! ### Little-endian bytes (R1) -/

theorem leBytes_length (n v : Nat) : (leBytes n v).length = n := by
  induction n generalizing v with
  | zero => rfl
  | succ n ih => simp [leBytes, ih]

theorem leBytes_getD {n k : Nat} (v : Nat) (h : k < n) :
    (leBytes n v).getD k 0 = BitVec.ofNat 8 (v / 256 ^ k) := by
  induction n generalizing v k with
  | zero => omega
  | succ n ih =>
    cases k with
    | zero => simp [leBytes]
    | succ k =>
      rw [Nat.pow_succ', ← Nat.div_div_eq_div_mul]
      exact ih (v / 256) (by omega)

/-- The byte at `b` after the bytes of a number are written from `a` on. -/
theorem leBytes_at (a b size v : Nat) (old : Byte) :
    (if a ≤ b ∧ b < a + size then (leBytes size v).getD (b - a) 0 else old) =
      if a ≤ b ∧ b < a + size then BitVec.ofNat 8 (v / 256 ^ (b - a)) else old := by
  split
  · exact leBytes_getD v (by omega)
  · rfl

/-! ### The bytes of a store -/

theorem setBytes_eq (s : State) (a : Nat) (bs : List Byte) : ∃ m, s.setBytes a bs = { s with mem := m } := by
  induction bs generalizing s a with
  | nil => exact ⟨s.mem, rfl⟩
  | cons v t ih => exact ih (s.setByte a v) (a + 1)

theorem setAonBytes_eq (s : State) (a : Nat) (bs : List Byte) : ∃ m, s.setAonBytes a bs = { s with aon := m } := by
  induction bs generalizing s a with
  | nil => exact ⟨s.aon, rfl⟩
  | cons v t ih => exact ih { s with aon := tabPut (fun _ => (0 : Byte)) s.aon a v } (a + 1)

/-- Only the two memories count. -/
theorem Stored.congr {n a size : Nat} {x : Word} {s s' t t' : State} (h : Stored n a size x s t)
    (hs : s'.mem = s.mem ∧ s'.aon = s.aon) (ht : t'.mem = t.mem ∧ t'.aon = t.aon) : Stored n a size x s' t' := by
  unfold Stored State.aonByte State.byte at *
  rwa [hs.1, hs.2, ht.1, ht.2]

theorem Beside.memory {n : Nat} {s u : State} (h : Beside n s u) : u.mem = s.mem ∧ u.aon = s.aon := ⟨h.mem, h.aon⟩

theorem Settling.memory {s t : State} (h : Settling s t) : t.mem = s.mem ∧ t.aon = s.aon :=
  ⟨h.1 .mem (by simp), h.1 .aon (by simp)⟩

section
variable {n a : Nat}

theorem stored_setAonBytes (s : State) (h : inAon n a = true) (size : Nat) (x : Word) :
    Stored n a size x s (s.setAonBytes a (leBytes size x.toNat)) := by
  have hb : ∀ b, (s.setAonBytes a (leBytes size x.toNat)).byte b = s.byte b := fun b => by
    obtain ⟨m, hm⟩ := setAonBytes_eq s a (leBytes size x.toNat)
    rw [hm]; rfl
  refine ⟨fun b => ?_, fun b => by rw [hb, if_pos h]⟩
  rw [aonByte_setAonBytes, leBytes_length, leBytes_at, if_pos h]

theorem stored_setBytes (s : State) (h : inAon n a = false) (size : Nat) (x : Word) :
    Stored n a size x s (s.setBytes a (leBytes size x.toNat)) := by
  have hb : ∀ b, (s.setBytes a (leBytes size x.toNat)).aonByte b = s.aonByte b := fun b => by
    obtain ⟨m, hm⟩ := setBytes_eq s a (leBytes size x.toNat)
    rw [hm]; rfl
  have hna : ¬inAon n a = true := by simp [h]
  refine ⟨fun b => by rw [hb, if_neg hna], fun b => ?_⟩
  rw [byte_setBytes, leBytes_length, leBytes_at, if_neg hna]

theorem done_setBytes (s : State) (bs : List Byte) : Done [.mem, .aon] [] n s (s.setBytes a bs) (s.ctx n) := by
  obtain ⟨m, hm⟩ := setBytes_eq s a bs
  rw [hm]
  exact ⟨fun p hp => by cases p <;> simp_all [Part.same], RegsKept.of_eq rfl _, fun _ _ => rfl, .of_eq rfl, rfl⟩

theorem done_setAonBytes (s : State) (bs : List Byte) :
    Done [.mem, .aon] [] n s (s.setAonBytes a bs) (s.ctx n) := by
  obtain ⟨m, hm⟩ := setAonBytes_eq s a bs
  rw [hm]
  exact ⟨fun p hp => by cases p <;> simp_all [Part.same], RegsKept.of_eq rfl _, fun _ _ => rfl, .of_eq rfl, rfl⟩

end

theorem Done.trans {but : List Part} {regs : List Nat} {n : Nat} {s t u : State} {c d : Ctx}
    (h : Done but regs n s t c) (g : Done but regs n t u d) : Done but regs n s u d :=
  ⟨h.kept.trans g.kept, h.regs.trans g.regs, fun m hm => (g.others m hm).trans (h.others m hm), h.core.trans g.core,
    g.ctx⟩

theorem Done.setReg {but : List Part} {regs : List Nat} {n : Nat} {s t : State} {c : Ctx}
    (h : Done but regs n s t c) (k : RegKind) (v : Word) (i j : Nat) (hk : k.addr i j ∈ regs) :
    Done but regs n s (t.setReg k v i j) c :=
  ⟨h.kept.trans ((Kept.setReg t k v i j).mono (by simp)),
    h.regs.trans (RegsKept.setReg t k v i j _ (.inl (List.mem_append_right _ hk))), h.others, h.core, h.ctx⟩

/-! ### Step 5 of a store (R365, R366, R475, R476) -/

/-- A store to memory that step 5 lets through writes its bytes. -/
theorem dataWrite_memOk {n a size : Nat} {s : State} (hn : n < 17) (h : MemOk n a size s) (x : Word) :
    ∃ v, s.dataWrite n a size x.toNat = (v, none) ∧ Done [.mem, .aon] [] n s v (s.ctx n) ∧ Stored n a size x s v := by
  have hp := Beside.perf s n [(8, 1)] 0
  unfold State.dataWrite
  cases ha : inAon n a with
  | true =>
    refine ⟨_, by simp, ?_, (stored_setAonBytes _ ha size x).congr (And.imp .symm .symm hp.memory) ⟨rfl, rfl⟩⟩
    have := (done_setAonBytes (n := n) (a := a) (s.perf n [(8, 1)]) (leBytes size x.toNat)).of_beside hp
    rwa [hp.completes.ctx] at this
  | false =>
    obtain ⟨hlt, hon, hue⟩ := h.resolve_left (by simp [ha])
    rw [if_neg (by simp), if_pos hlt]
    simp only [hp.pondOn hn, hon, State.pondWrite, leBytes_length, Bool.not_true, Bool.false_eq_true, if_false]
    generalize hpart : (wordsOf a size).filter (fun w => !decide (a ≤ w * 8 ∧ w * 8 + 8 ≤ a + size)) = part
    generalize (wordsOf a size).filter (fun w => decide (a ≤ w * 8 ∧ w * 8 + 8 ≤ a + size)) = whole
    have hr := Beside.eccRead n (s.perf n [(8, 1)]) (dataCode n) (dataPort n) part
    obtain ⟨u, _, ⟨_, he⟩ | ⟨⟨w, hw, hbad⟩, _⟩⟩ := eccRead_cases (s.perf n [(8, 1)]) (dataCode n) (dataPort n) part
    · rw [he] at hr ⊢
      have hq := (hp.trans hr).trans (.eccClear n whole _)
      refine ⟨_, rfl, ?_, (stored_setBytes _ ha size x).congr (And.imp .symm .symm hq.memory) ⟨rfl, rfl⟩⟩
      have := (done_setBytes (n := n) (a := a) _ (leBytes size x.toNat)).of_beside hq
      rwa [hq.completes.ctx] at this
    · rw [← hpart] at hw
      rw [hp.not_ue (hue w (List.mem_of_mem_filter hw))] at hbad; cases hbad

/-- A core's store to a plain register of control space. -/
theorem dataWrite_plain {n : Nat} {k : RegKind} {i j : Nat} {s : State} (hn : n < 17) (hk : k ∈ plainRegs)
    (hi : k.has i j) (hreach : s.reach ⟨k, i, j, false⟩ = true)
    (hmay : s.mayWrite (coreMaster n) ⟨k, i, j, false⟩ = true) (x : Word) (hcodes : codesBad k x = false)
    (hb : k.addr i j ∉ bookRegs n) :
    s.dataWrite n (k.addr i j) 4 x.toNat =
      ((s.perf n [(9, 1)]).setReg k (k.info.merge (s.reg k i j) x) i j, none) := by
  have hr := (Beside.perf s n [(9, 1)] 0).completes.around.regs
  have hgov := sparesGov_bookRegs hn
  have hwrite : (s.perf n [(9, 1)]).ctlWrite (coreMaster n) .word (k.addr i j) x =
      ((s.perf n [(9, 1)]).setReg k (k.info.merge (s.reg k i j) x) i j, false) := by
    unfold State.ctlWrite State.ctlWord
    rw [if_neg (by simp [addr_aligned]), regAt_has hi]
    simp only [hr.reach hgov, hr.mayWrite hgov _ hi, hreach, hmay, plainRegs_ne_active hk, hcodes, decide_false,
      Bool.not_true, Bool.or_self, Bool.false_eq_true, if_false, writeReg_plain hk,
      hr.reg k i j hb (plainRegs_not_settles hk hi)]
  unfold State.dataWrite
  rw [if_neg (by simp [not_inAon_addr]), if_neg (by have := addr_ge k i j; omega)]
  simp only [BitVec.ofNat_toNat, BitVec.setWidth_eq, show sizeOf 4 = .word from rfl, hwrite]
  rfl

theorem storeAt_of_dataWrite {s v : State} {n a size x : Nat} {c : Ctx}
    (h : (s.putCtx n c).dataWrite n a size x = (v, none)) : s.storeAt n a size x c = (v, none) := by
  unfold State.storeAt; rw [h]

/-- The same after the context of the completed instruction is in place. -/
theorem storeAt_memOk {n a size : Nat} {s : State} (hn : n < 17) (h : MemOk n a size s) (x : Word) (c : Ctx) :
    ∃ v, s.storeAt n a size x.toNat c = (v, none) ∧ Done [.mem, .aon] [] n s v c ∧ Stored n a size x s v := by
  have hput : Done [.mem, .aon] [] n s (s.putCtx n c) c := done_putCtx _ _ _ _ _
  obtain ⟨v, hv, hd, hst⟩ := dataWrite_memOk (s := s.putCtx n c) hn h x
  rw [hput.ctx] at hd
  exact ⟨v, storeAt_of_dataWrite hv, hput.trans hd, hst⟩

/-! ### How a store ends -/

/-- An instruction whose body is a store to memory. -/
theorem ends_storeAt {c : Instr} {n a size : Nat} {s : State} {f : State → State} {cost : Nat}
    {pulses : List (Nat × Nat)} {body : State → State × Option Trap} {d : Ctx} {x : Word}
    (he : Executes n s) (hn : n < 17) (hc : exec c s = run f s) (hf : f s = s.instr n cost pulses body)
    (hm : MemOk n a size s) (hbody : ∀ u, Beside n s u → body u = u.storeAt n a size x.toNat d) :
    Ends c s fun t => Completes [.mem, .aon] n s t d ∧ Stored n a size x s t := by
  obtain ⟨t, ht, hd, hst⟩ := ends_done (P := fun t => Stored n a size x s t) (but := [.mem, .aon]) (regs := []) (d := d)
    he hn hc hf fun u hu => by
      obtain ⟨v, hv, hd, hst⟩ := storeAt_memOk hn (hu.memOk hn hm) x d
      refine ⟨v, hd, (hbody u hu).trans hv, fun y t hy hs => ?_⟩
      exact hst.congr (And.imp .symm .symm hu.memory)
        ⟨hs.memory.1.trans hy.mem, hs.memory.2.trans hy.aon⟩
  exact ⟨t, ht, hd.completes, hst⟩

/-- The instruction is a store of `size` bytes of what `g` gives through segment `sm`. -/
def IsStore (c : Instr) (n : Nat) (sm : BitVec 4) (x : BitVec 21) (size : Nat) (g : Ctx → Word) : Prop :=
  ∀ s, exec c s = run (fun s => s.storeInstr n sm x size g) s

section
variable {n k off size v : Nat} {right : Right} {c : Ctx} {s : State}

theorem storeBody_refused {code : Nat}
    (h : checkSeg ((s.ctx n).segAt k) right (s.operandEo n k off) size size = some code) :
    s.storeBody n k off size right v c = (s, trap code (s.operandAt n k off)) := by
  unfold State.operandEo at h
  simp only [State.storeBody, h, State.operandAt, State.operandEo]

theorem storeBody_admitted (h : Admits ((s.ctx n).segAt k) right (s.operandEo n k off) size size) :
    s.storeBody n k off size right v c = s.storeAt n (s.operandAt n k off) size v c := by
  have hk := checkSeg_admits h
  unfold State.operandEo at hk
  simp only [State.storeBody, hk, State.operandAt, State.operandEo]

end

section
variable {c : Instr} {n : Nat} {sm : BitVec 4} {x : BitVec 21} {size : Nat} {g : Ctx → Word} {s : State}
variable (hc : IsStore c n sm x size g) (he : Executes n s) (hn : n < 17)
include hc he hn

/-- A store of memory. -/
theorem ends_store_mem (ha : Admits ((s.ctx n).segAt sm.toNat) .w (s.operandEo n sm.toNat x.toNat) size size)
    (hm : MemOk n (s.operandAt n sm.toNat x.toNat) size s) :
    Ends c s fun t => Completes [.mem, .aon] n s t (s.ctx n).next ∧
      Stored n (s.operandAt n sm.toNat x.toNat) size (g (s.ctx n)) s t := by
  refine ends_storeAt he hn (hc s) rfl hm fun u hu => ?_
  rw [storeBody_admitted (by rwa [hu.completes.ctx, hu.operandEo]), hu.operandAt, hu.completes.ctx]

/-- The faults of a store, in the order of the checks (R365, R369). -/
theorem ends_store_faults :
    let d := (s.ctx n).segAt sm.toNat
    let eo := s.operandEo n sm.toNat x.toNat
    let a := s.operandAt n sm.toNat x.toNat
    (segValid d = false → Ends c s (Trapped n 3 a false false s)) ∧
    (segValid d = true → segW d = false → Ends c s (Trapped n 4 a false false s)) ∧
    (segValid d = true → segW d = true → eo % size ≠ 0 → Ends c s (Trapped n 5 a false false s)) ∧
    (segValid d = true → segW d = true → eo % size = 0 → segLimit d < eo + size →
      Ends c s (Trapped n 6 a false false s)) := by
  intro d eo a
  obtain ⟨h3, h4, h5, h6⟩ := checkSeg_refuses d .w eo size size
  have hrefused {code : Nat} (hcode : code < 16) (hk : checkSeg d .w eo size size = some code) :
      Ends c s (Trapped n code a false false s) := by
    refine ends_trapped he hn hcode (hc s) rfl fun u hu _ => ⟨u, .refl n u, ?_⟩
    rw [storeBody_refused (by rwa [hu.completes.ctx, hu.operandEo]), hu.operandAt]
    rfl
  exact ⟨fun hv => hrefused (by decide) (h3 hv), fun hv hw => hrefused (by decide) (h4 hv hw),
    fun hv hw ha => hrefused (by decide) (h5 hv hw ha), fun hv hw ha hl => hrefused (by decide) (h6 hv hw ha hl)⟩

end

/-- A store to a plain register of control space (R366, R396). -/
theorem ends_store_plain {c : Instr} {n : Nat} {sm : BitVec 4} {x : BitVec 21} {g : Ctx → Word} {s : State}
    (hc : IsStore c n sm x 4 g) (he : Executes n s) (hn : n < 17) {k : RegKind} {i j : Nat}
    (ha : Admits ((s.ctx n).segAt sm.toNat) .w (s.operandEo n sm.toNat x.toNat) 4 4)
    (hat : s.operandAt n sm.toNat x.toNat = k.addr i j) (hk : k ∈ plainRegs) (hi : k.has i j)
    (hreach : s.reach ⟨k, i, j, false⟩ = true) (hmay : s.mayWrite (coreMaster n) ⟨k, i, j, false⟩ = true)
    (hcodes : codesBad k (g (s.ctx n)) = false) (hb : k.addr i j ∉ bookRegs n) :
    Ends c s fun t => Done [] [k.addr i j] n s t (s.ctx n).next ∧
      t.reg k i j = k.info.merge (s.reg k i j) (g (s.ctx n)) := by
  have hfix := plainRegs_not_settles hk hi
  have hgov := sparesGov_bookRegs hn
  refine ends_done he hn (hc s) rfl fun u hu => ?_
  have hr := hu.completes.around.regs
  have hput : Done [] [k.addr i j] n u (u.putCtx n (s.ctx n).next) (s.ctx n).next := done_putCtx _ _ _ _ _
  have hwrite := dataWrite_plain (s := u.putCtx n (s.ctx n).next) hn hk hi ((hr.reach hgov _).trans hreach)
    ((hr.mayWrite hgov _ hi).trans hmay) (g (s.ctx n)) hcodes hb
  refine ⟨_, (hput.beside (.perf _ n [(9, 1)] 0)).setReg k (k.info.merge (u.reg k i j) (g (s.ctx n))) i j
    (by simp), ?_, fun y t hy hs => ?_⟩
  · rw [storeBody_admitted (by rwa [hu.completes.ctx, hu.operandEo]), hu.operandAt, hu.completes.ctx, hat]
    exact storeAt_of_dataWrite hwrite
  · rw [hs.2.reg k i j (by simp) hfix, hy.completes.around.regs.reg k i j hb hfix, State.setReg_reg]
    exact congrArg (k.info.merge · _) (hr.reg k i j hb hfix)

/-! ### The stack (R381, R389) -/

theorem pushBody_admitted {n : Nat} {s : State}
    (h : Admits ((s.ctx n).segAt 14) .w ((s.ctx n).s - 4).toNat 4 4) (v : Word) (f : Ctx → Ctx) :
    s.pushBody n v f = s.storeAt n (addrOf ((s.ctx n).segAt 14) ((s.ctx n).s - 4).toNat) 4 v.toNat
      (f { s.ctx n with s := (s.ctx n).s - 4 }) := by
  simp only [State.pushBody, checkSeg_admits h]

theorem popBody_read {n m : Nat} {s w : State} {c : Ctx} {f : Ctx → Word → Except Trap Ctx}
    (h : Admits ((s.ctx n).segAt 14) .r (s.ctx n).s.toNat 4 4)
    (hread : s.dataRead n (addrOf ((s.ctx n).segAt 14) (s.ctx n).s.toNat) 4 = (w, .ok m))
    (hf : f { s.ctx n with s := (s.ctx n).s + 4 } (BitVec.ofNat 32 m) = .ok c) :
    s.popBody n f = (w.putCtx n c, none) := by
  simp only [State.popBody, checkSeg_admits h, hread, hf]

theorem fWord_eq (f : BitVec 5) (h : Bool) : fWord f h = (0 : BitVec 26) ++ (BitVec.ofBool h ++ f) := by
  have : ∀ (f : BitVec 5) (h : Bool), fWord f h = (0 : BitVec 26) ++ (BitVec.ofBool h ++ f) := by decide
  exact this f h

/-- The word that push stores. -/
theorem pushed_eq (c : Ctx) (h : Bool) {r : Nat} (hr : r < 4) :
    c.pushed h r = [c.a, c.x, c.y, (0 : BitVec 26) ++ (BitVec.ofBool h ++ c.f)].getD r 0 := by
  interval_cases r
  · rfl
  · rfl
  · rfl
  · exact fWord_eq c.f h

theorem toNat_ofNat_lt_four {r : Nat} (hr : r < 4) : (BitVec.ofNat 21 r).toNat = r := by
  rw [BitVec.toNat_ofNat, Nat.mod_eq_of_lt (by omega)]

section
variable {n : Fin 17} {s : State} (he : Executes n.val s) {r : Nat} (hr : r < 4)
include he hr

theorem ends_push (ha : Admits ((s.ctx n).segAt 14) .w ((s.ctx n).s - 4).toNat 4 4)
    (hm : MemOk n (addrOf ((s.ctx n).segAt 14) ((s.ctx n).s - 4).toNat) 4 s) :
    Ends (.push n 0 (BitVec.ofNat 21 r)) s fun t =>
      Completes [.mem, .aon] n s t { s.ctx n with pc := (s.ctx n).pc + 4, s := (s.ctx n).s - 4 } ∧
      Stored n (addrOf ((s.ctx n).segAt 14) ((s.ctx n).s - 4).toNat) 4
        ((s.ctx n).pushed (s.core n).inHandler r) s t := by
  refine ends_storeAt he n.isLt (f := fun s => s.iPush n 0 (BitVec.ofNat 21 r)) rfl rfl hm fun u hu => ?_
  dsimp only
  rw [toNat_ofNat_lt_four hr, if_neg (by simp [hr]), hu.core_kept.2.1,
    pushBody_admitted (by rwa [hu.completes.ctx]), hu.completes.ctx]
  rfl

theorem ends_pop (ha : Admits ((s.ctx n).segAt 14) .r (s.ctx n).s.toNat 4 4)
    (hm : MemOk n (addrOf ((s.ctx n).segAt 14) (s.ctx n).s.toNat) 4 s) :
    Ends (.pop n 0 (BitVec.ofNat 21 r)) s fun t => Completes [] n s t
      (({ s.ctx n with s := (s.ctx n).s + 4 } : Ctx).popped r
        (s.memWord n (addrOf ((s.ctx n).segAt 14) (s.ctx n).s.toNat) 4)).next := by
  obtain ⟨t, ht, hd, _⟩ := ends_done (c := .pop n 0 (BitVec.ofNat 21 r)) (P := fun _ => True) (but := [])
    (regs := []) (d := (({ s.ctx n with s := (s.ctx n).s + 4 } : Ctx).popped r
      (s.memWord n (addrOf ((s.ctx n).segAt 14) (s.ctx n).s.toNat) 4)).next)
    he n.isLt (f := fun s => s.iPop n 0 (BitVec.ofNat 21 r)) rfl rfl fun u hu => by
      obtain ⟨w, hw, hread⟩ := dataRead_memOk n.isLt (hu.memOk n.isLt hm)
      refine ⟨_, (done_putCtx _ _ _ _ _).of_beside hw, ?_, fun _ _ _ _ => trivial⟩
      dsimp only
      rw [toNat_ofNat_lt_four hr, if_neg (by simp [hr]),
        popBody_read (by rwa [hu.completes.ctx]) (by rwa [hu.completes.ctx]) rfl, hu.completes.ctx, ← hu.memWord]
      rfl
  exact ⟨t, ht, hd.completes⟩

end

/-! ### O31 -/

section
variable (n : Fin 17) (sm : BitVec 4) (x : BitVec 21) (c : Ctx)

/-- The five stores, with the size and what they store. -/
theorem isStore_of_mem : ∀ e ∈ [(Instr.paw n sm x, 4, c.a), (.pab n sm x, 1, c.a), (.pah n sm x, 2, c.a),
    (.pxw n sm x, 4, c.x), (.pyw n sm x, 4, c.y)], ∃ g, IsStore e.1 n.val sm x e.2.1 g ∧ e.2.2 = g c := by
  intro e he
  simp only [List.mem_cons, List.not_mem_nil, or_false] at he
  rcases he with rfl | rfl | rfl | rfl | rfl
  · exact ⟨Ctx.a, fun _ => rfl, rfl⟩
  · exact ⟨Ctx.a, fun _ => rfl, rfl⟩
  · exact ⟨Ctx.a, fun _ => rfl, rfl⟩
  · exact ⟨Ctx.x, fun _ => rfl, rfl⟩
  · exact ⟨Ctx.y, fun _ => rfl, rfl⟩

end

/-- Settles O31: every store is `State.storeInstr` and push `State.pushBody`, which write through `State.storeAt`; pop
reads as a load does. -/
theorem storesWriteTheirBytesOnly : Obligations.StoresWriteTheirBytesOnly := by
  intro n s he c next
  have hn := n.isLt
  refine ⟨fun sm x => ⟨fun e hmem => ?_, fun k i j ha hat hk hi hc hcodes hb => ?_⟩, ?_, ?_⟩
  · obtain ⟨g, hg, hval⟩ := isStore_of_mem n sm x c e hmem
    rw [hval]
    exact ⟨ends_store_mem hg he hn, ends_store_faults hg he hn⟩
  · obtain ⟨_, hreach, hmay⟩ := hc
    obtain ⟨t, ht, hd, hreg⟩ := ends_store_plain (c := .paw n sm x) (g := Ctx.a) (fun _ => rfl) he hn ha hat hk hi
      hreach hmay hcodes (hat ▸ hb)
    refine ⟨t, ht, fun b hlt => by rw [hreg, merge_getLsbD _ _ _ hlt], hd.ctx, hd.core, hd.others, hd.kept, ?_⟩
    exact hat ▸ hd.regs
  · intro sp a ha hm r hr
    rw [← pushed_eq _ _ hr]
    exact ends_push he hr ha hm
  · intro a v ha hm r hr
    have hend := ends_pop he hr ha hm
    interval_cases r <;> exact hend

end Sys2Proof.Machine
end

section
/-!
PROOFS. Shadow views: what a write of a shadowed register changes, when it is refused, and O9.
-/
namespace Sys2Proof.Machine

/-! ### Where active copies stand -/

theorem act_aligned (k : RegKind) : (k.info.act.getD 0) % 4 = 0 := by cases k <;> decide

theorem actAddr_aligned (k : RegKind) (i j : Nat) : k.actAddr i j % 4 = 0 := by
  have ha := addr_aligned k i j
  have hd := act_aligned k
  unfold RegKind.actAddr
  split
  next d h => rw [h] at hd; simp only [Option.getD_some] at hd; omega
  · omega
  · exact ha

/-- The logic after every command writes no active copy. -/
theorem not_settles_actAddr {k : RegKind} {i j : Nat} (hi : k.has i j) (hs : k.info.scope.isSome = true) :
    ¬settles (k.actAddr i j) := by
  rintro (h | ⟨hl, hu⟩)
  · exact actAddr_ne hi (k' := .PWR_STATUS) (i' := 0) (j' := 0) (by decide) hs h
  · obtain ⟨i', j', hq, he⟩ := qsum_addr_of_range (actAddr_aligned k i j) hl hu
    exact actAddr_ne hi hq hs he.symm

/-- An active copy that no change lists is as it was. -/
theorem RegsKept.act {but : List Nat} {s t : State} (h : RegsKept but s t) {k : RegKind} {i j : Nat}
    (hi : k.has i j) (hs : k.info.scope.isSome = true) (hb : k.actAddr i j ∉ but) : t.act k i j = s.act k i j :=
  h _ _ hb (not_settles_actAddr hi hs)

/-! ### Writes to shadow views -/

theorem scoped_ne_active {k : RegKind} : k.info.scope.isSome = true → k.info.wr ≠ .active := by
  cases k <;> decide

theorem scoped_not_settles {k : RegKind} (hs : k.info.scope.isSome = true) {i j : Nat} (hi : k.has i j) :
    ¬settles (k.addr i j) :=
  not_settles hi (by rintro rfl; exact absurd hs (by decide)) (by rintro rfl; exact absurd hs (by decide))

/-- What a served write puts into the shadow view of a register: the merged word, and the WO bits for the commit. -/
def RegKind.shadowWord (k : RegKind) (old v : Word) : Word :=
  (k.info.merge old v &&& ~~~(k.info.maskOf .wo)) ||| (v &&& k.info.maskOf .wo)

theorem writeReg_scoped {k : RegKind} (hs : k.info.scope.isSome = true) (s : State) (m : Master) (i j : Nat) (v : Word) :
    s.writeReg m ⟨k, i, j, false⟩ v =
      s.shadowWrite (s.tenantOf m) ⟨k, i, j, false⟩ (k.shadowWord (s.reg k i j) v) := by
  unfold State.writeReg
  rw [if_pos hs]
  rfl

theorem shadowWrite_free {s : State} {r : RegRef} (h : (s.change (r.k.addr r.i r.j)).isPending = false) (t : Nat)
    (v : Word) : s.shadowWrite t r v =
      ((s.setReg r.k v r.i r.j).setChange (r.k.addr r.i r.j) (.dirty t), false) := by
  unfold State.shadowWrite
  rw [if_neg (by simp [h])]

theorem shadowWrite_held {s : State} {r : RegRef} (h : (s.change (r.k.addr r.i r.j)).isPending = true) (t : Nat)
    (v : Word) : s.shadowWrite t r v = (s, true) := by
  unfold State.shadowWrite
  rw [if_pos h]

theorem change_setChange_ne (s : State) {a b : Nat} (c : Change) (h : b ≠ a) : (s.setChange a c).change b = s.change b :=
  tabGet_put_ne (fun _ => Change.clean) (fun _ => Change.clean) s.chg c h

theorem Only.setChange (s : State) (a : Nat) (c : Change) : Only [.changes] [] [] s (s.setChange a c) :=
  .of_kept (s := s) (t := s.setChange a c) (fun p hp => by cases p <;> simp_all [Part.same]) rfl rfl rfl _

/-! ### Writes that are refused -/

theorem writeReg_fab {k : RegKind} (hs : ¬k.info.scope.isSome = true)
    (hb : k.info.base / 0x10000 = 0x100 ∨ k.info.base / 0x10000 = 0x102 ∨ k.info.base / 0x10000 = 0x103)
    (s : State) (m : Master) (i j : Nat) (v : Word) :
    s.writeReg m ⟨k, i, j, false⟩ v = s.writeFab m ⟨k, i, j, false⟩ v := by
  unfold State.writeReg
  rw [if_neg hs]
  rcases hb with h | h | h <;> simp only [h]

/-- A change that a pending commit holds: the write of its register, entry or selector does nothing (R33, R150). -/
theorem writeReg_held {k : RegKind} (hk : k.info.scope.isSome = true ∨ k = .FAB_CONN ∨ k = .FAB_SEL) {s : State}
    {i j : Nat} (hi : k.has i j) (h : (s.change (k.addr i j)).isPending = true) (m : Master) (v : Word) :
    s.writeReg m ⟨k, i, j, false⟩ v = (s, true) := by
  rcases hk with hs | rfl | rfl
  · rw [writeReg_scoped hs]
    exact shadowWrite_held h _ _
  · obtain rfl : j = 0 := Nat.lt_one_iff.mp hi.2
    rw [writeReg_fab (by decide) (by decide)]
    show s.writeConn (s.tenantOf m) i v = (s, true)
    unfold State.writeConn
    rw [if_pos (by simp [connAddr, h])]
  · obtain rfl : j = 0 := Nat.lt_one_iff.mp hi.2
    rw [writeReg_fab (by decide) (by decide)]
    show s.writeSel (s.tenantOf m) i v = (s, true)
    unfold State.writeSel
    rw [if_pos (by simp [selAddr, h])]

/-- A write of a named register that is refused, or that reaches the register and is refused there. -/
theorem regWrite_discarded {m : Master} {k : RegKind} {i j : Nat} {s : State} {v : Word} (hl : s.masterLive m = true)
    (hi : k.has i j) (h : s.writeReg m ⟨k, i, j, false⟩ v = (s, true)) : s.regWrite m k i j v = s.seen m 0 true := by
  by_cases hr : s.reach ⟨k, i, j, false⟩ = false ∨ s.mayWrite m ⟨k, i, j, false⟩ = false ∨ k.info.wr = .active ∨
      codesBad k v = true
  · exact regWrite_refused hl hi hr
  · simp only [not_or, Bool.not_eq_true, Bool.not_eq_false] at hr
    obtain ⟨hreach, hmay, hact, hcodes⟩ := hr
    rw [regWrite_ok ⟨hl, hreach, hmay⟩ hi hact hcodes, h]

/-- No view of the active copies takes a write. -/
theorem ctlWrite_active {a : Nat} {r : RegRef} (hr : regAt a = some r) (h : r.act = true ∨ r.k.info.wr = .active)
    (m : Master) (v : Word) (s : State) : s.ctlWrite m .word a v = (s, true) := by
  unfold State.ctlWrite State.ctlWord
  rw [hr]
  rcases h with h | h <;> simp [h]

/-! ### O9 -/

/-- A served write of a shadowed register that no pending commit holds. -/
theorem ends_write_scoped {m : Master} {k : RegKind} {i j : Nat} {v : Word} {s : State}
    (hs : k.info.scope.isSome = true) (hi : k.has i j) (hw : CanWrite m k i j s) (hv : codesBad k v = false)
    (hp : (s.change (k.addr i j)).isPending = false) :
    Ends (.registerWrite m .word (BitVec.ofNat 32 (k.addr i j)) v) s fun t =>
      t.reg k i j = k.shadowWord (s.reg k i j) v ∧ t.act k i j = s.act k i j ∧
      t.change (k.addr i j) = .dirty (s.tenantOf m) ∧ (∀ a, a ≠ k.addr i j → t.change a = s.change a) ∧
      Answered m 0 false t ∧ Only [.last, .changes] [k.addr i j] [] s t := by
  refine ends_run (f := fun s => s.busWrite m .word (BitVec.ofNat 32 (k.addr i j)).toNat v) rfl fun t ht => ?_
  rw [toNat_addr hi, ← State.regWrite, regWrite_ok hw hi (scoped_ne_active hs) hv, writeReg_scoped hs,
    shadowWrite_free hp] at ht
  dsimp only at ht
  generalize k.shadowWord (s.reg k i j) v = w at ht ⊢
  have honly : Only [.last, .changes] [k.addr i j] [] s t :=
    (((Only.setReg s k w i j _ (.inl (by simp))).trans ((Only.setChange _ _ _).mono (by simp) (by simp))).trans
      ((Only.seen _ m 0 false).mono (by simp) (by simp))).settled ht
  have hchg : t.chg = (s.setChange (k.addr i j) (.dirty (s.tenantOf m))).chg := ht.1 .changes (by simp)
  have hchange : ∀ a, t.change a = (s.setChange (k.addr i j) (.dirty (s.tenantOf m))).change a := fun a => by
    unfold State.change; rw [hchg]
  refine ⟨?_, ?_, ?_, fun a ha => ?_, ht.answered, honly⟩
  · rw [ht.reg k i j (scoped_not_settles hs hi)]; exact State.setReg_reg s k w i j
  · exact honly.regs.act hi hs (by simpa using actAddr_ne hi hi hs)
  · rw [hchange]; exact State.setChange_change s _ _
  · rw [hchange]; exact change_setChange_ne s _ ha

/-- Settles O9. -/
theorem shadowWriteHeldUntilCommit : Obligations.ShadowWriteHeldUntilCommit := by
  refine ⟨fun m k i j v s hs hi hw hv hp => ends_write_scoped hs hi hw hv hp, fun m k i j v s hk hi hl hp => ?_,
    fun m a v s hl ⟨r, hr, hact⟩ => ?_⟩
  · refine ends_seen (f := fun s => s.busWrite m .word (BitVec.ofNat 32 (k.addr i j)).toNat v) rfl ?_
    rw [toNat_addr hi, ← State.regWrite]
    exact regWrite_discarded hl hi (writeReg_held hk hi hp m v)
  · exact ends_write_refused hl (ctlWrite_active hr hact m v s)

end Sys2Proof.Machine
end

section
/-!
PROOFS. The arrival of a commit: what its acceptance and its rejection change, and O19.
-/
namespace Sys2Proof.Machine

/-! ### Changes that a commit holds (R161) -/

/-- The changes at these addresses become PENDING on the commit that is queued next. -/
def State.holdAll (s : State) (as : List Nat) : State := as.foldl (fun s a => s.setChange a (.pending s.nextId)) s

theorem Only.holdAll (s : State) (as : List Nat) : Only [.changes] [] [] s (s.holdAll as) := by
  induction as generalizing s with
  | nil => exact Only.refl _ _ s
  | cons a as ih => exact (Only.setChange s a _).trans (ih _)

theorem holdAll_change (s : State) (as : List Nat) (a : Nat) :
    (s.holdAll as).change a = if a ∈ as then .pending s.nextId else s.change a := by
  induction as generalizing s with
  | nil => rfl
  | cons b as ih =>
    show ((s.setChange b (.pending s.nextId)).holdAll as).change a = _
    rw [ih]
    by_cases hb : a = b
    · subst hb; simp
    · simp [hb, change_setChange_ne s _ hb]

/-! ### Rows that power up (R172) -/

theorem Only.rowUps (s : State) (l : List Nat) : Only [.fabric] [] [] s (l.foldl State.rowUp s) := by
  induction l generalizing s with
  | nil => exact Only.refl _ _ s
  | cons n l ih =>
    exact (Only.of_kept (s := s) (t := s.rowUp n)
      (fun p hp => by cases p <;> simp_all [Part.same, State.rowUp]) rfl rfl rfl _).trans (ih _)

theorem rowUps_fab (s : State) (l : List Nat) :
    (l.foldl State.rowUp s).fab = { s.fab with rowsDown := (l.foldl State.rowUp s).fab.rowsDown } := by
  induction l generalizing s with
  | nil => rfl
  | cons n l ih =>
    rw [List.foldl_cons, ih]
    rfl

/-! ### Banks that rise (R485) -/

theorem Only.setBankSt (s : State) (b v : Nat) :
    Only [.power] [RegKind.POND_BANK_STATUS.addr 0 0] [] s (s.setBankSt b v) :=
  Only.setReg s .POND_BANK_STATUS _ 0 0 _ (.inl (by simp))

theorem Only.setBankCode (s : State) (b c : Nat) (r : List Nat) : Only [.power] r [] s (s.setBankCode b c) :=
  .of_kept (s := s) (t := s.setBankCode b c) (fun p hp => by cases p <;> simp_all [Part.same, State.setBankCode])
    rfl rfl rfl _

theorem Only.bankRaise (s : State) (b : Nat) :
    Only [.power] [RegKind.POND_BANK_STATUS.addr 0 0] [] s (s.bankRaise b) := by
  unfold State.bankRaise
  split
  · exact (Only.setBankSt s b 3).trans (Only.setBankCode _ b 2 _)
  · exact (Only.setBankSt s b 3).trans (Only.setBankCode _ b 1 _)
  · exact Only.refl _ _ s

theorem Only.foldl {α : Type} {b : List Part} {r : List Nat} {f : State → α → State}
    (h : ∀ s a, Only b r [] s (f s a)) (l : List α) (s : State) : Only b r [] s (l.foldl f s) := by
  induction l generalizing s with
  | nil => exact Only.refl _ _ s
  | cons a l ih => exact (h s a).trans (ih _)

theorem Only.banksAccept (s : State) :
    Only [.power] [RegKind.POND_BANK_STATUS.addr 0 0] [] s s.banksAccept := by
  unfold State.banksAccept
  split
  · exact Only.refl _ _ s
  · refine Only.foldl (fun s b => ?_) _ s
    split
    · exact Only.bankRaise s b
    · exact Only.refl _ _ s

/-! ### Acceptance -/

/-- The commit stands last in the queue, under the number that is next. -/
def State.enqueue (s : State) (t : Nat) (target : Word) (scope : BitVec 6) (up : List Nat) : State :=
  { s with commits := s.commits ++ [⟨s.nextId, t, target, scope, up⟩], nextId := s.nextId + 1 }

theorem Only.enqueue (s : State) (t : Nat) (target : Word) (scope : BitVec 6) (up : List Nat) :
    Only [.commits] [] [] s (s.enqueue t target scope up) :=
  .of_kept (s := s) (t := s.enqueue t target scope up)
    (fun p hp => by cases p <;> simp_all [Part.same, State.enqueue]) rfl rfl rfl _

/-- The steps of an acceptance, in order. -/
theorem accept_eq (s : State) (t : Nat) (target : Word) (scope : BitVec 6) :
    ∃ up : List Nat, s.accept t target scope =
      let s3 := (up.foldl State.rowUp (s.holdAll (s.covers t scope))).enqueue t target scope up
      if t = 0 ∧ scope.getLsbD 5 then s3.banksAccept else s3 := ⟨_, rfl⟩

/-- An accepted commit (R28, R41, R161, R172, R485). -/
theorem accept_effect (s : State) (t : Nat) (target : Word) (scope : BitVec 6) :
    let u := s.accept t target scope
    (∃ up, u.commits = s.commits ++ [⟨s.nextId, t, target, scope, up⟩]) ∧ u.nextId = s.nextId + 1 ∧
      (∀ a, u.change a = if a ∈ s.covers t scope then .pending s.nextId else s.change a) ∧
      u.fab = { s.fab with rowsDown := u.fab.rowsDown } ∧
      Only [.fabric, .changes, .commits, .power] [RegKind.POND_BANK_STATUS.addr 0 0] [] s u := by
  obtain ⟨up, hu⟩ := accept_eq s t target scope
  have h1 := Only.holdAll s (s.covers t scope)
  have hc1 := holdAll_change s (s.covers t scope)
  generalize s.holdAll (s.covers t scope) = s1 at hu h1 hc1
  have h2 := Only.rowUps s1 up
  have hf2 := rowUps_fab s1 up
  generalize up.foldl State.rowUp s1 = s2 at hu h2 hf2
  have h3 := Only.enqueue s2 t target scope up
  have h4 : Only [.power] [RegKind.POND_BANK_STATUS.addr 0 0] [] (s2.enqueue t target scope up)
      (s.accept t target scope) := by
    rw [hu]
    dsimp only
    split
    · exact Only.banksAccept _
    · exact Only.refl _ _ _
  generalize s.accept t target scope = u at h4
  obtain ⟨hq1, hn1⟩ := h1.kept .commits (by simp)
  obtain ⟨hq2, hn2⟩ := h2.kept .commits (by simp)
  obtain ⟨hq4, hn4⟩ := h4.kept .commits (by simp)
  have hc2 : s2.chg = s1.chg := h2.kept .changes (by simp)
  have hc4 : u.chg = s2.chg := h4.kept .changes (by simp)
  have hf1 : s1.fab = s.fab := h1.kept .fabric (by simp)
  have hf4 : u.fab = s2.fab := h4.kept .fabric (by simp)
  refine ⟨⟨up, ?_⟩, ?_, fun a => ?_, ?_, ?_⟩
  · rw [hq4, ← hq1, ← hn1, ← hq2, ← hn2]; rfl
  · rw [hn4, ← hn1, ← hn2]; rfl
  · rw [← hc1]; unfold State.change; rw [hc4, hc2]
  · rw [hf4, hf2, hf1]
  · exact (((h1.mono (by simp) (by simp)).trans (h2.mono (by simp) (by simp))).trans
      (h3.mono (by simp) (by simp))).trans (h4.mono (by simp) (by simp))

/-! ### Rejection -/

/-- The two registers that record a rejection of a tenant's commit (R44). -/
def rejRegs (t : Nat) : List Nat := [RegKind.FAB_CMT_REJ_FRAME.addr t 0, RegKind.FAB_CMT_REJ_INFO.addr t 0]

theorem sparesGov_rejRegs {t : Nat} (ht : t < 16) : SparesGov (rejRegs t) := fun _ hk _ _ hi =>
  not_mem_of_kinds (ks := [.FAB_CMT_REJ_FRAME, .FAB_CMT_REJ_INFO])
    (by
      simp only [rejRegs, List.mem_cons, List.not_mem_nil, or_false]
      rintro a (rfl | rfl)
      · exact ⟨.FAB_CMT_REJ_FRAME, by simp, t, 0, ⟨ht, by decide⟩, rfl⟩
      · exact ⟨.FAB_CMT_REJ_INFO, by simp, t, 0, ⟨ht, by decide⟩, rfl⟩)
    (by rintro hm; revert hk; fin_cases hm <;> decide) hi

/-- The record of a rejection. -/
def State.rejRecord (s : State) (t : Nat) (target info : Word) : State :=
  (s.setReg .FAB_CMT_REJ_FRAME target t).setReg .FAB_CMT_REJ_INFO info t

theorem Only.rejRecord (s : State) (t : Nat) (target info : Word) :
    Only [] (rejRegs t) [] s (s.rejRecord t target info) :=
  (Only.setReg s .FAB_CMT_REJ_FRAME target t 0 [] (.inl (by simp [rejRegs]))).trans
    (Only.setReg _ .FAB_CMT_REJ_INFO info t 0 [] (.inl (by simp [rejRegs])))

/-- One more commit of the tenant was rejected. -/
def State.countRej (s : State) (t : Nat) : State :=
  { s with fab := { s.fab with
      rejected := tabPut (fun _ => 0) s.fab.rejected t (tabGet (fun _ => 0) s.fab.rejected t + 1) } }

theorem Only.countRej (s : State) (t : Nat) (r : List Nat) : Only [.fabric] r [] s (s.countRej t) :=
  .of_kept (s := s) (t := s.countRej t) (fun p hp => by cases p <;> simp_all [Part.same, State.countRej])
    rfl rfl rfl _

theorem rejectNote_eq (s : State) (t : Nat) (target : Word) (scope : BitVec 6) (reason : Nat) :
    s.rejectNote t target scope reason =
      ((s.rejRecord t target (BitVec.ofNat 32 (scope.toNat + reason * 256))).raiseTo 641 t).countRej t := rfl

/-- A rejected commit (R39, R40, R43, R44). -/
theorem rejectNote_effect {s : State} {t : Nat} (hu : s.fabUp = true) (ht : t < 16) (target : Word) (scope : BitVec 6)
    (reason : Nat) :
    let u := s.rejectNote t target scope reason
    u.reg .FAB_CMT_REJ_FRAME t = target ∧
      u.reg .FAB_CMT_REJ_INFO t = BitVec.ofNat 32 (scope.toNat + reason * 256) ∧
      u.fab = { s.fab with rejected := u.fab.rejected } ∧
      Only [.fabric] (rejRegs t) [⟨641, some t, s.frame⟩] s u := by
  rw [rejectNote_eq]
  generalize BitVec.ofNat 32 (scope.toNat + reason * 256) = info
  have hrec := Only.rejRecord s t target info
  have hup : (s.rejRecord t target info).fabUp = true := (hrec.regs.fabUp (sparesGov_rejRegs ht)).trans hu
  have hne : RegKind.FAB_CMT_REJ_FRAME.addr t 0 ≠ RegKind.FAB_CMT_REJ_INFO.addr t 0 :=
    addr_ne (k := .FAB_CMT_REJ_FRAME) (k' := .FAB_CMT_REJ_INFO) ⟨ht, by decide⟩ ⟨ht, by decide⟩ (.inl (by decide))
  have hregs : ((s.rejRecord t target info).raiseTo 641 t).regs = (s.rejRecord t target info).regs :=
    State.raiseAt_regs _ _ _ _
  refine ⟨?_, ?_, ?_, ?_⟩
  · show tabGet _ ((s.rejRecord t target info).raiseTo 641 t).regs _ = _
    rw [hregs]
    exact (State.setReg_reg_ne _ _ _ _ _ hne).trans (State.setReg_reg s _ _ _ _)
  · show tabGet _ ((s.rejRecord t target info).raiseTo 641 t).regs _ = _
    rw [hregs]
    exact State.setReg_reg (s.setReg .FAB_CMT_REJ_FRAME target t) .FAB_CMT_REJ_INFO info t 0
  · simp [State.countRej, State.raiseTo, State.rejRecord]
  · exact (((hrec.raiseAt rfl rfl 641 (some t) s.frame hup).mono (by simp) (by simp))).trans (Only.countRej _ t _)

/-! ### O19 -/

theorem arrival_shed {s : State} {t : Nat} (h : (s.ten t).st = .shedding ∨ (s.ten t).st = .shed) (v : Word)
    (scope : BitVec 6) : s.arrival t v scope = 4 := by
  unfold State.arrival; simp [h]

theorem after_eq_false (a b : Word) : after a b = false ↔ (a - b).toNat = 0 ∨ 0x80000000 ≤ (a - b).toNat := by
  unfold after
  rw [decide_eq_false_iff_not]
  omega

section
variable {s : State} {t : Nat} {v : Word} {scope : BitVec 6}
  (hs : ¬((s.ten t).st = .shedding ∨ (s.ten t).st = .shed))
include hs

theorem arrival_late (h : (v - s.frame).toNat = 0 ∨ 0x80000000 ≤ (v - s.frame).toNat) :
    s.arrival t v scope = 1 := by
  unfold State.arrival
  dsimp only
  rw [if_neg hs, (after_eq_false _ _).mpr h, if_pos (by decide)]

variable (hl : ¬((v - s.frame).toNat = 0 ∨ 0x80000000 ≤ (v - s.frame).toNat))
include hl

theorem arrival_full (h : 64 ≤ (s.pendingOf t).length) : s.arrival t v scope = 2 := by
  have ha : after v s.frame = true := by rw [← Bool.not_eq_false, after_eq_false]; exact hl
  unfold State.arrival
  dsimp only
  rw [if_neg hs, ha, if_neg (by decide), if_pos h]

variable (hf : ¬64 ≤ (s.pendingOf t).length)
include hf

theorem arrival_timely : s.arrival t v scope =
    if (s.covers t scope).any fun a => !(s.changeOk t a) then 3 else 0 := by
  have ha : after v s.frame = true := by rw [← Bool.not_eq_false, after_eq_false]; exact hl
  unfold State.arrival
  dsimp only
  rw [if_neg hs, ha, if_neg (by decide), if_neg hf]

theorem arrival_denied (h : ∃ a ∈ s.covers t scope, s.changeOk t a = false) : s.arrival t v scope = 3 := by
  rw [arrival_timely hs hl hf, if_pos (by simpa using h)]

theorem arrival_accepts (h : ¬∃ a ∈ s.covers t scope, s.changeOk t a = false) : s.arrival t v scope = 0 := by
  rw [arrival_timely hs hl hf, if_neg (by simpa using h)]

end

/-- A served write of FAB_COMMIT_FRAME issues a commit of the scope that its master wrote. -/
theorem ends_commitFrame {m : Master} {v : Word} {s : State} {P : State → Prop}
    (hw : CanWrite m .FAB_COMMIT_FRAME 0 0 s)
    (h : ∀ t, Settling ((s.issueCommit (s.tenantOf m) v
      ((s.latch m (RegKind.FAB_COMMIT_SCOPE.addr 0 0)).setWidth 6)).seen m 0 false) t → P t) :
    Ends (.fabCommitFrameWrite m v) s P :=
  ends_run (f := fun s => s.regWrite m .FAB_COMMIT_FRAME 0 0 v) rfl fun t ht => h t <| by
    rw [regWrite_ok hw (by decide) (by decide) rfl, writeReg_fab (by decide) (by decide)] at ht
    exact ht

theorem issueCommit_accept {s : State} {t : Nat} {v : Word} {scope : BitVec 6} (h : s.arrival t v scope = 0) :
    s.issueCommit t v scope = s.accept t v scope := by
  unfold State.issueCommit; simp only [h]

theorem issueCommit_reject {s : State} {t : Nat} {v : Word} {scope : BitVec 6} {e : Nat}
    (h : s.arrival t v scope = e) (he : e ≠ 0) : s.issueCommit t v scope = s.rejectNote t v scope e := by
  unfold State.issueCommit; rw [h]
  split
  · contradiction
  · rfl

/-- Settles O19. -/
theorem commitArrivalAcceptsOrRejects : Obligations.CommitArrivalAcceptsOrRejects := by
  intro m v s hw hu ht tn scope lead shed late full denied
  refine ⟨fun hs hl hf hd => ends_commitFrame hw fun t hset => ?_,
    fun reason hr => ends_commitFrame hw fun t hset => ?_⟩
  · have hacc : s.arrival tn v scope = 0 := arrival_accepts hs hl hf hd
    rw [issueCommit_accept hacc] at hset
    obtain ⟨⟨up, hq⟩, hn, hc, hfab, honly⟩ := accept_effect s tn v scope
    obtain ⟨hq', hn'⟩ := hset.1 .commits (by simp)
    have hc' : ∀ a, t.change a = (s.accept tn v scope).change a := fun a => by
      unfold State.change; rw [hset.1 .changes (by simp)]; rfl
    have hf' : t.fab = (s.accept tn v scope).fab := hset.1 .fabric (by simp)
    refine ⟨⟨up, hq'.trans hq⟩, hn'.trans hn, fun a ha => ?_, fun a ha => ?_, ?_, hset.answered, ?_⟩
    · rw [hc', hc, if_pos ha]
    · rw [hc', hc, if_neg ha]
    · rw [hf']; exact hfab
    · exact ((honly.mono (by simp) (by simp)).trans ((Only.seen _ _ _ _).mono (by simp) (by simp))).settled hset
  · have hrej : s.arrival tn v scope = reason ∧ reason ≠ 0 := by
      rcases hr with ⟨rfl, h⟩ | ⟨rfl, hs, h⟩ | ⟨rfl, hs, hl, h⟩ | ⟨rfl, hs, hl, hf, h⟩
      · exact ⟨arrival_shed h v scope, by decide⟩
      · exact ⟨arrival_late hs h, by decide⟩
      · exact ⟨arrival_full hs hl h, by decide⟩
      · exact ⟨arrival_denied hs hl hf h, by decide⟩
    rw [issueCommit_reject hrej.1 hrej.2] at hset
    obtain ⟨hframe, hinfo, hfab, honly⟩ := rejectNote_effect hu ht v scope reason
    have hf' : t.fab = (s.rejectNote tn v scope reason).fab := hset.1 .fabric (by simp)
    refine ⟨?_, ?_, ?_, hset.answered, ?_⟩
    · rw [hset.reg _ _ _ (not_settles (k := .FAB_CMT_REJ_FRAME) ⟨ht, by decide⟩ (by decide) (by decide))]
      exact hframe
    · rw [hset.reg _ _ _ (not_settles (k := .FAB_CMT_REJ_INFO) ⟨ht, by decide⟩ (by decide) (by decide))]
      exact hinfo
    · rw [hf']; exact hfab
    · exact ((honly.mono (by simp) (List.Subset.refl _)).trans ((Only.seen _ _ _ _).mono (by simp) (by simp))).settled hset

end Sys2Proof.Machine
end

section
/-!
PROOFS. O20 fails: the number of a commit's tenant is not bounded, and the record of an applied commit is written at an
address that it gives.
-/
namespace Sys2Proof.Machine

/-- A fabric that runs, with a commit that is due at this boundary and whose tenant is none of the sixteen: the second
word of its record stands where CLK_ROOT_STATUS does. -/
def strayCommit : State :=
  { (State.reset.setF F.PWR_DOM_STATUS_FAB_PG 1).setF F.CLK_ROOT_STATUS_DIV_RUN 1 with
    commits := [⟨0, 114624, 0, 0, []⟩] }

/-- The record of the application stops the derived clocks, so that the router takes no event 640. -/
theorem strayCommit_raises_nothing : strayCommit.commitApply.settle.raised = [] := by decide +kernel

theorem exec_commitApply {s : State} (hu : s.fabUp = true) (hr : s.rst.held = false) :
    exec .commitApply s = .next { s.commitApply.settle with pending := s.pending } := by
  show run _ s = _
  unfold run
  rw [if_pos (by simp [hu, hr])]

/-- Refutes O20. -/
theorem not_commitAppliesTogetherAtTargetFrame : ¬ Obligations.CommitAppliesTogetherAtTargetFrame := by
  intro h
  obtain ⟨t, ht, -, happ, -⟩ := h strayCommit (by decide) (by decide)
  obtain ⟨-, -, hev⟩ := happ ⟨0, 114624, 0, 0, []⟩ (by decide) (by decide) (by decide)
  rw [exec_commitApply (by decide) (by decide)] at ht
  obtain rfl := Host.Outcome.next.inj ht
  rw [strayCommit_raises_nothing] at hev
  exact List.not_mem_nil hev

end Sys2Proof.Machine
end

section
/-!
PROOFS. What a frame boundary routes, counts and leaves alone, and that the work of the ports is aside of it: primitive
updates, the reference selector and the line ports.
-/
namespace Sys2Proof.Machine

/-- The registers of the message slots between the fabric and the cores. -/
def mbxKinds : List RegKind := [.CORE_MBX_RX, .CORE_MBX_TX, .CORE_MBX_FRAME]

/-- What the boundary routes from and to, what it counts, and what it leaves alone. -/
structure RoutingView where
  frame : Word
  sys : BitVec 64
  clk : Clocks
  conn : Tab Copies
  sel : Tab Copies
  src : Tab Byte
  out : Tab Byte
  routed : Tab Byte
  mbx : RegKind → Nat → Nat → Word
  rtc : BitVec 48
  latches : Tab Word
  chg : Tab Change
  commits : List Commit
  nextId : Nat
  pend : Tab (Option Word)
  maint : Maint
  nvm : Nvm
  aon : Tab Byte
  scrub : Nat
  last : Access

def State.mbxReg (s : State) (k : RegKind) (i j : Nat) : Word := if k ∈ mbxKinds ∧ k.has i j then s.reg k i j else 0

def State.routingView (s : State) : RoutingView :=
  { frame := s.frame, sys := s.sys, clk := s.clk, conn := s.fab.conn, sel := s.fab.sel, src := s.fab.src
    out := s.fab.out, routed := s.fab.routed, mbx := s.mbxReg, rtc := s.rtc, latches := s.latches, chg := s.chg
    commits := s.commits, nextId := s.nextId, pend := s.pend, maint := s.maint, nvm := s.nvm, aon := s.aon
    scrub := s.scrub, last := s.last }

theorem mbxKinds_not_book : ∀ k ∈ mbxKinds, k ∉ bookKinds ∧ k ≠ .PWR_STATUS ∧ k ≠ .QSUM := by decide

theorem mbxReg_eq (s : State) {k : RegKind} (hk : k ∈ mbxKinds) {i j : Nat} (hi : k.has i j) :
    s.mbxReg k i j = s.reg k i j := if_pos ⟨hk, hi⟩

theorem mbxReg_congr {s t : State} (h : ∀ k ∈ mbxKinds, ∀ i j, k.has i j → t.reg k i j = s.reg k i j) :
    t.mbxReg = s.mbxReg := by
  funext k i j
  unfold State.mbxReg
  split
  next hc => exact h k hc.1 i j hc.2
  next => rfl

/-- The parts of the machine of which the view shows anything but registers. -/
def viewParts : List Part :=
  [.time, .commits, .clocks, .fabric, .rtc, .latches, .changes, .pend, .maint, .nvm, .aon, .scrub, .last]

/-- A change of other parts leaves all of the view but the message registers. -/
theorem Kept.routingView {but : List Part} {s t : State} (h : Kept but s t) (hb : ∀ p ∈ viewParts, p ∉ but) :
    t.routingView = { s.routingView with mbx := t.mbxReg } := by
  have hp (p : Part) (hv : p ∈ viewParts) : p.same s t := h p (hb p hv)
  obtain ⟨hframe, hsys, -, -⟩ := hp .time (by decide)
  obtain ⟨hcommits, hnext⟩ := hp .commits (by decide)
  have hclk : t.clk = s.clk := hp .clocks (by decide)
  have hfab : t.fab = s.fab := hp .fabric (by decide)
  have hrtc : t.rtc = s.rtc := hp .rtc (by decide)
  have hlatches : t.latches = s.latches := hp .latches (by decide)
  have hchg : t.chg = s.chg := hp .changes (by decide)
  have hpend : t.pend = s.pend := hp .pend (by decide)
  have hmaint : t.maint = s.maint := hp .maint (by decide)
  have hnvm : t.nvm = s.nvm := hp .nvm (by decide)
  have haon : t.aon = s.aon := hp .aon (by decide)
  have hscrub : t.scrub = s.scrub := hp .scrub (by decide)
  have hlast : t.last = s.last := hp .last (by decide)
  unfold State.routingView
  simp only [hframe, hsys, hcommits, hnext, hclk, hfab, hrtc, hlatches, hchg, hpend, hmaint, hnvm, haon, hscrub, hlast]

/-- Such a change that leaves the message registers too leaves the view. -/
theorem Kept.routingView_eq {but : List Part} {s t : State} (h : Kept but s t) (hb : ∀ p ∈ viewParts, p ∉ but)
    (hm : t.mbxReg = s.mbxReg) : t.routingView = s.routingView := by
  rw [h.routingView hb, hm]
  rfl

/-- A register, one of its kind, that is none of those. -/
abbrev Spare (k : RegKind) (i j : Nat) : Prop := k ∉ mbxKinds ∧ k.has i j

/-- A change aside of all that. -/
def Aside (s t : State) : Prop := t.routingView = s.routingView

theorem Aside.refl (s : State) : Aside s s := rfl

theorem Aside.trans {s t u : State} (h : Aside s t) (g : Aside t u) : Aside s u := Eq.trans g h

namespace Aside

section
variable {s t : State} (h : Aside s t)
include h

/-- A further change that is seen to be aside by unfolding it. -/
theorem like {u : State} (hu : u.routingView = t.routingView) : Aside s u := hu.trans h

theorem ite {c : Prop} [Decidable c] {u : State} (g : Aside s u) : Aside s (if c then t else u) := by
  split <;> assumption

theorem foldl {α : Type} {f : State → α → State} {l : List α} (hf : ∀ u, ∀ a ∈ l, Aside s u → Aside s (f u a)) :
    Aside s (l.foldl f t) := by
  induction l generalizing t with
  | nil => exact h
  | cons a l ih => exact ih (hf t a (by simp) h) fun u b hb => hf u b (by simp [hb])

/-! ### Registers and events -/

theorem setReg {k : RegKind} {v : Word} {i j : Nat} (hi : Spare k i j) :
    Aside s (t.setReg k v i j) := by
  refine h.like ((Kept.setReg t k v i j).routingView_eq (by decide) (mbxReg_congr fun k' hk' i' j' hi' => ?_))
  exact State.setReg_reg_ne t k v i j (addr_ne hi' hi.2 (.inl (by rintro rfl; exact hi.1 hk')))

theorem setF {f : FieldRef} {n i j : Nat} (hi : Spare f.k i j) :
    Aside s (t.setF f n i j) := h.setReg hi

theorem setB {f : FieldRef} {b : Bool} {i j : Nat} (hi : Spare f.k i j) :
    Aside s (t.setB f b i j) := h.setReg hi

theorem setBit {k : RegKind} {n i j : Nat} (hi : Spare k i j) :
    Aside s (t.setBit k n i j) := h.setReg hi

theorem bump {f : FieldRef} {n i j : Nat} (hi : Spare f.k i j) :
    Aside s (t.bump f n none i j) := .ite (h.setF hi) (h.setF hi)

theorem raiseAt {n : Nat} {o : Option Nat} {w : Word} : Aside s (t.raiseAt n o w) := by
  unfold State.raiseAt
  split
  · exact h.like rfl
  · split
    · exact h.like rfl
    · exact h

theorem raise {n : Nat} : Aside s (t.raise n) := h.raiseAt

theorem raiseTo {n o : Nat} : Aside s (t.raiseTo n o) := h.raiseAt

/-! ### The reference selector (R97 to R118) -/

theorem setCand {n : Nat} {c : Cand} : Aside s (t.setCand n c) := h.like rfl

theorem setDpllRec {d : Dpll} : Aside s { t with dpll := d } := h.like rfl

theorem candMarker {n : Nat} {e : Int} : Aside s (t.candMarker n e) := h.setCand

theorem sourceMarker {typ i : Nat} {e : Int} : Aside s (t.sourceMarker typ i e) :=
  h.foldl fun _ _ _ g => .ite g.candMarker g

theorem sourceLost {typ i : Nat} : Aside s (t.sourceLost typ i) := h.foldl fun _ _ _ g => .ite g.setCand g

theorem setQl {n c : Nat} (hn : n < 8) : Aside s (t.setQl n c) :=
  .ite h (.raise (.ite (.setF (.setF h ⟨by decide, hn, by decide⟩) (by decide)) (.setF h ⟨by decide, hn, by decide⟩)))

theorem candQl {n c : Nat} (hn : n < 8) : Aside s (t.candQl n c) := .ite (.setQl h.setCand hn) h.setCand

theorem setQual {n : Nat} {q : Bool} (hn : n < 8) : Aside s (t.setQual n q) :=
  .ite h (.raise (.setB h ⟨by decide, hn, by decide⟩))

end

theorem candNums_lt : ∀ n ∈ candNums, n < 8 := by decide

section
variable {s t : State} (h : Aside s t)
include h

theorem sourceQl {typ i sa c : Nat} : Aside s (t.sourceQl typ i sa c) :=
  h.foldl fun _ n hn g => .ite (g.candQl (candNums_lt n hn)) g

theorem candEval {n : Nat} (hn : n < 8) : Aside s (t.candEval n) := by
  have hi : Spare .REF_CAND_STATUS n 0 := ⟨by decide, hn, by decide⟩
  have h2 {c : Cand} {d : Dpll} {a b e : Bool} : Aside s
      { (((t.setB F.REF_CAND_STATUS_FAIL_DEF a n).setB F.REF_CAND_STATUS_FAIL_FREQ b n).setB
          F.REF_CAND_STATUS_FAIL_CFG e n).setCand n c with dpll := d } :=
    .setDpllRec (.setCand (.setB (.setB (.setB h hi) hi) hi))
  unfold State.candEval
  exact .setB (.ite (.ite (.setQl (.setF (.setB (.ite (h2.setQual hn) h2) hi) hi) hn)
    (.setF (.setB (.ite (h2.setQual hn) h2) hi) hi)) (.setQl (.setF (.setB (.ite (h2.setQual hn) h2) hi) hi) hn)) hi

theorem candFail {n : Nat} (hn : n < 8) : Aside s (t.candFail n) :=
  .candEval (.setF (.setB h.setCand ⟨by decide, hn, by decide⟩) ⟨by decide, hn, by decide⟩) hn

theorem wtrDone {n : Nat} (hn : n < 8) : Aside s (t.wtrDone n) := .ite (.setQual h.setCand hn) h

theorem candFrame {n : Nat} (hn : n < 8) : Aside s (t.candFrame n) :=
  .ite (h.candFail hn) (.wtrDone (.candEval (.ite (.setB h.setCand ⟨by decide, hn, by decide⟩) h.setCand) hn) hn)

theorem selEval : Aside s t.selEval := by
  have h1 : Aside s (candNums.foldl (fun s n => s.setB F.REF_CAND_STATUS_SELECTABLE (s.selectable n) n) t) :=
    h.foldl fun _ n hn g => .setB g ⟨by decide, candNums_lt n hn, by decide⟩
  exact .ite h1.setDpllRec.raise h1.setDpllRec

theorem steer {i : Int} : Aside s (t.steer i) := .setF h (by decide)

theorem refTake : Aside s t.refTake := h.like rfl

theorem refFrame : Aside s t.refFrame := by
  have h2 {d : Dpll} {c : Prop} [Decidable c] : Aside s (if c then { t.refTake with dpll := d } else t.refTake) :=
    .ite h.refTake.setDpllRec h.refTake
  have h3 {d : Dpll} {c : Prop} [Decidable c] : Aside s
      (candNums.foldl State.candFrame (if c then { t.refTake with dpll := d } else t.refTake)).selEval :=
    .selEval (h2.foldl fun _ n hn g => g.candFrame (candNums_lt n hn))
  unfold State.refFrame
  exact .ite h3.steer h3

/-! ### Line ports (spec/05) -/

theorem setLine {p : Nat} {l : Line} : Aside s (t.setLine p l) := h.like rfl

theorem lineCount {p i n : Nat} : Aside s (t.lineCount p i n) := h.setLine

theorem storeFrame {p : Nat} {bs : List Bool} {mf : Option Nat} : Aside s (t.storeFrame p bs mf) := h.setLine

end

/-! What follows reads and writes the registers of one port. -/
section
variable {s t : State} (h : Aside s t) {p : Nat} (hp : p < 128)
include h hp

theorem lineDef {k : Nat} {b : Bool} : Aside s (t.lineDef p k b) :=
  .ite (.setLine (.setReg h ⟨by decide, hp, by decide⟩)) (.setLine (.setReg h ⟨by decide, hp, by decide⟩))

theorem lofDeclare : Aside s (t.lofDeclare p) := by
  have h2 : Aside s (((((t.sourceLost 0 p).setLine p (t.line p).unalign).lineDef p 2 true).lineDef p 4 false).lineDef
      p 5 false) := .lineDef (.lineDef (.lineDef (.setLine h.sourceLost) hp) hp) hp
  exact .ite (.ite (h2.lineDef hp) h2) h

theorem lineRecentre : Aside s (t.lineRecentre p) := .setF h.setLine ⟨by decide, hp, by decide⟩

theorem lineStart : Aside s (t.lineStart p) := .setReg (.setLine h.sourceLost) ⟨by decide, hp, by decide⟩

theorem lineStop : Aside s (t.lineStop p) := .setReg h.setLine ⟨by decide, hp, by decide⟩

theorem lineOff : Aside s (t.lineOff p) :=
  .setReg (.setReg (.setReg (.setReg h.setLine ⟨by decide, hp, by decide⟩) ⟨by decide, hp, by decide⟩) ⟨by decide, hp, by decide⟩) ⟨by decide, hp, by decide⟩

theorem lineA {a : Bool} : Aside s (t.lineA p a) := .ite (.lineDef h.setLine hp) h.setLine

theorem mfSearch {b : Bool} : Aside s (t.mfSearch p b) :=
  .ite (.ite (.ite (.lineDef h.setLine hp) h.setLine) h.setLine) h

theorem lineSa {bs : List Bool} : Aside s (t.lineSa p bs) :=
  .lineA (.setB (.setF h.setLine ⟨by decide, hp, by decide⟩) ⟨by decide, hp, by decide⟩) hp

theorem lineNibbles {ws : List (BitVec 5)} : Aside s (t.lineNibbles p ws) :=
  .foldl (.setF h.setLine ⟨by decide, hp, by decide⟩) fun _ _ _ g => g.sourceQl

theorem smfEnd : Aside s (t.smfEnd p) := by
  have hbad {l : Line} {b : Prop} [Decidable b] : Aside s
      (if b then (t.setLine p l).lineCount p 1 1 else t.setLine p l) := .ite h.setLine.lineCount h.setLine
  unfold State.smfEnd
  cases hc : (t.line p).crcPrev with
  | none =>
    simp only [hc]
    exact .ite (.lineNibbles h.setLine hp) (.setLine h.setLine)
  | some c =>
    simp only [hc]
    exact .ite (.lineNibbles (.ite (hbad.lofDeclare hp) (.ite hbad.setLine hbad.setLine)) hp)
      (.setLine (.ite (hbad.lofDeclare hp) (.ite hbad.setLine hbad.setLine)))

theorem lineMf {fas : Bool} {bs : List Bool} : Aside s (t.lineMf p fas bs) := by
  unfold State.lineMf
  dsimp only
  split
  · exact h
  · have h2 {l : Line} {c : Prop} [Decidable c] : Aside s
        (if c then (t.setLine p l).lineCount p 2 1 else t.setLine p l) := .ite h.setLine.lineCount h.setLine
    exact .setLine (.ite (h2.smfEnd hp) h2)

theorem lineFrame {bs : List Bool} : Aside s (t.lineFrame p bs) := by
  have h0 : Aside s (t.storeFrame p bs (t.line p).mfPos) := h.storeFrame
  have h1 : Aside s (if !(isFas bs) then (t.storeFrame p bs (t.line p).mfPos).lineCount p 0 1
      else t.storeFrame p bs (t.line p).mfPos) := .ite h0.lineCount h0
  exact .ite (.ite (h1.lofDeclare hp) (.lineMf h1.setLine hp))
    (.ite (h0.lofDeclare hp) (.setLine (.lineMf (.mfSearch (.lineSa h0.setLine hp) hp) hp)))

theorem alignFound : Aside s (t.alignFound p) := by
  have h2 : Aside s (((t.setLine p { (t.line p).unalign with aligned := true, recentre := true, sb := [], skip := 0
      }).lineDef p 2 false).lineDef p 1 false) := .lineDef (.lineDef h.setLine hp) hp
  exact .ite h2 (h2.lineDef hp)

theorem lineFramer {e : Int} {fuel : Nat} : Aside s (t.lineFramer p e fuel) := by
  induction fuel generalizing t with
  | zero => exact h
  | succ fuel ih =>
    exact .ite (.ite h (ih (.lineFrame (.sourceMarker h.setLine) hp)))
      (.ite (ih (.alignFound h.setLine hp)) h.setLine)

omit hp in
theorem lineSplit {fuel : Nat} : Aside s (t.lineSplit p fuel) := by
  induction fuel generalizing t with
  | zero => exact h
  | succ fuel ih => exact .ite h (ih (.storeFrame h.setLine))

theorem lineBits {bs : List Bool} {phase : Int} : Aside s (t.lineBits p bs phase) := by
  have h0 : Aside s (t.setLine p ((t.line p).took phase)) := h.setLine
  unfold State.lineBits
  exact .ite (.lineFramer (.setLine (.ite h0 (.lineSplit h0.setLine))) hp) (.ite h0 (.lineSplit h0.setLine))

theorem linePop : Aside s (t.linePop p) := by
  unfold State.linePop
  dsimp only
  split
  · exact .ite (.setF h.setLine ⟨by decide, hp, by decide⟩) h.setLine
  · exact h.setLine

theorem lineSlip : Aside s (t.lineSlip p) :=
  .ite (h.lineRecentre hp) (.ite (.raise (.lineCount h.setLine)) (.ite (.raise (.lineCount h.setLine)) h.setLine))

end

end Aside

end Sys2Proof.Machine
end

section
/-!
PROOFS. The work of the line ports at a boundary, and that of the trunks, is aside of what the boundary routes.
-/
namespace Sys2Proof.Machine
namespace Aside

/-! ### Line ports at a boundary -/

section
variable {s t : State} (h : Aside s t) {p : Nat} (hp : p < 128)
include h hp

theorem timeslot0 {f : Nat} : Aside s (t.timeslot0 p f).2 := by
  unfold State.timeslot0
  dsimp only
  split
  · split
    · exact h.setLine
    · exact h
  · split
    · split
      · split
        · exact h.setF ⟨by decide, hp, by decide⟩
        · exact h
      · exact h
    · exact h

theorem lineTxBits {f : Nat} : Aside s (t.lineTxBits p f).2 := by
  unfold State.lineTxBits
  dsimp only
  split
  · exact h.setLine
  · split
    · exact h.setLine
    · exact (h.timeslot0 hp).setLine

omit hp in
theorem lineDrive {bs : List Bool} : Aside s (t.lineDrive p bs) := .ite h.setLine h.setLine

theorem lineEnd : Aside s (t.lineEnd p) := by
  have h2 : Aside s (((t.linePop p).lineTxBits p t.frame.toNat).2.lineDrive p
      ((t.linePop p).lineTxBits p t.frame.toNat).1) := ((h.linePop hp).lineTxBits hp).lineDrive
  exact .ite (.ite (h2.lineBits hp) h2) h

theorem lineBegin : Aside s (t.lineBegin p) := by
  unfold State.lineBegin
  extract_lets l s0 now frames level _ s1 s2 s3 thr _ cleared s4 _ s5
  have h0 : Aside s s0 := h.setLine
  have h1 : Aside s s1 := (h0.foldl fun _ _ _ g => .ite g.lineCount g).setLine
  have h2 : Aside s s2 := .ite h1.raise h1
  have h3 : Aside s s3 := .ite h2.raise h2
  have h4 : Aside s s4 := .ite (.ite (.raise h3.setLine) h3.setLine) h3
  have h5 : Aside s s5 := h4.setLine
  exact .ite (.lineSlip (h5.setF ⟨by decide, hp, by decide⟩) hp) h0

theorem lineSync : Aside s (t.lineSync p) :=
  .ite (.lineRecentre (h.lineStart hp) hp) (.ite (h.lineStop hp) h)

end

/-! ### Trunks (spec/06) -/

section
variable {s t : State} (h : Aside s t)
include h

omit h in
/-- The state beside an answer, whichever of two it is. -/
theorem ite_snd {α : Type} {c : Prop} [Decidable c] {a b : α × State} (ha : Aside s a.2) (hb : Aside s b.2) :
    Aside s (if c then a else b).2 := by split <;> assumption

theorem setTrunk {k : Nat} {x : Trunk} : Aside s (t.setTrunk k x) := h.like rfl

theorem setPair {k : Nat} {x : Pair} : Aside s (t.setPair k x) := h.like rfl

theorem trunkCount {k i n : Nat} : Aside s (t.trunkCount k i n) := .ite h h.setTrunk

theorem trunkEvt {k i : Nat} : Aside s (t.trunkEvt k i) := h.raise

theorem deliver {k : Nat} {p : Byte} : Aside s (t.deliver k p) := h.setTrunk

theorem trunkSlipped {k i : Nat} : Aside s (t.trunkSlipped k i) := h.trunkCount.trunkEvt

theorem trunkUnpaired {k : Nat} : Aside s (t.trunkUnpaired k) := by
  unfold State.trunkUnpaired
  dsimp only
  split
  · exact h
  · exact .ite (.deliver h.setTrunk) (.ite (.trunkSlipped h.setTrunk)
      (.ite (.trunkSlipped (.deliver h.setTrunk)) (.deliver h.setTrunk)))

theorem trunkBuffer {k : Nat} {bs : List Byte} : Aside s (t.trunkBuffer k bs) := h.setTrunk

theorem traceTake {k f : Nat} : Aside s (t.traceTake k f) := .ite h.setTrunk h

end

/-! What follows reads and writes the registers of one trunk. -/
section
variable {s t : State} (h : Aside s t) {k : Nat} (hk : k < 4)
include h hk

theorem trunkDef {d : Nat} {b : Bool} : Aside s (t.trunkDef k d b) :=
  .ite (.setTrunk (h.setReg ⟨by decide, hk, by decide⟩)) (.setTrunk (h.setReg ⟨by decide, hk, by decide⟩))

theorem setTrace {bs : List Byte} : Aside s (t.setTrace k bs) :=
  h.foldl fun _ i hi g => g.setReg ⟨by decide, hk, by fin_cases hi <;> decide⟩

theorem trunkTim : Aside s (t.trunkTim k) := .ite (.ite (h.trunkDef hk) h) (.ite (h.trunkDef hk) h)

theorem trunkLof : Aside s (t.trunkLof k) := by
  unfold State.trunkLof
  exact .trunkDef (.trunkDef (.setTrunk h.sourceLost) hk) hk

theorem trunkFn {fn : Byte} : Aside s (t.trunkFn k fn) := by
  unfold State.trunkFn
  dsimp only
  split
  · exact h.setTrunk
  · exact .ite (.ite (h.setTrunk.trunkDef hk) h.setTrunk) (.ite (.trunkDef h.setTrunk.setTrunk hk) h.setTrunk)

theorem trunkOverhead {bytes : List Byte} : Aside s (t.trunkOverhead k bytes) := by
  unfold State.trunkOverhead
  extract_lets x ql pc rei qlN pcN s1 s2 old s3 s4
  have h2 : Aside s s2 := .ite (.trunkEvt (h.setTrunk.setF ⟨by decide, hk, by decide⟩)) h.setTrunk
  have h3 : Aside s s3 := .ite (.trunkEvt (.setF (h2.setF ⟨by decide, hk, by decide⟩) ⟨by decide, hk, by decide⟩)) h2
  exact .sourceQl (.trunkCount (h3.setF ⟨by decide, hk, by decide⟩))

theorem trunkTrace {b : Byte} : Aside s (t.trunkTrace k b) :=
  .ite h (.ite h.setTrunk (.ite h.setTrunk (.ite (.ite (.trunkEvt (h.setTrunk.setTrace hk)) h.setTrunk) h.setTrunk)))

theorem trunkFrame {bs : List Bool} : Aside s (t.trunkFrame k bs).1 := by
  unfold State.trunkFrame
  extract_lets x d s1 bad bytes fn sent errs s2 _ s3
  have h1 : Aside s s1 := h.trunkCount
  split
  · exact h1.trunkLof hk
  · have h3 : Aside s s3 := h1.trunkCount.trunkBuffer.setTrunk
    exact .trunkTim (.trunkTrace (.trunkOverhead (h3.trunkFn hk) hk) hk) hk

theorem trunkFound {f0 f1 : List Bool} : Aside s (t.trunkFound k f0 f1) :=
  .trunkDef h.trunkBuffer.trunkBuffer.setTrunk hk

theorem trunkFramer {e : Int} {fuel : Nat} : Aside s (t.trunkFramer k e fuel) := by
  induction fuel generalizing t with
  | zero => exact h
  | succ fuel ih =>
    have hf {x : Trunk} {bs : List Bool} : Aside s (((t.setTrunk k x).sourceMarker 1 k e).trunkFrame k bs).1 :=
      h.setTrunk.sourceMarker.trunkFrame hk
    exact .ite (.ite h (ih (.ite hf hf.setTrunk))) (.ite (ih (h.setTrunk.trunkFound hk)) h.setTrunk)

theorem trunkBits {bs : List Bool} {e : Int} : Aside s (t.trunkBits k bs e) := h.setTrunk.trunkFramer hk

theorem pairMember {p : Byte} {moved aligned : Bool} {d : Option Int} {slip : Option Nat} :
    Aside s (t.pairMember k p moved aligned d slip) := by
  unfold State.pairMember
  extract_lets _ s1 s2
  have h2 : Aside s s2 := h.setTrunk.trunkDef hk
  cases slip with
  | none => exact .ite (.ite h2.deliver h2) h2.setTrunk
  | some i => exact .ite (.ite h2.trunkSlipped.deliver h2.trunkSlipped) h2.setTrunk

theorem trunkTxFrame {f : Nat} {dcc : List Byte} : Aside s (t.trunkTxFrame k f dcc).2 := h.setF ⟨by decide, hk, by decide⟩

theorem trunkEnd {dcc : List Byte} : Aside s (t.trunkEnd k dcc) := by
  unfold State.trunkEnd
  extract_lets u raw _ r x s1
  have hu : Aside s u := h.traceTake
  have hr : Aside s r.2 := ite_snd hu.setTrunk (hu.trunkTxFrame hk)
  have h1 : Aside s s1 := hr.setTrunk
  exact .ite (.ite (h1.trunkBits hk) h1) hu

theorem trunkSd : Aside s (t.trunkSd k) := by
  have h2 {i n : Nat} {x : Trunk} : Aside s ((t.trunkCount k i n).setTrunk k x) := h.trunkCount.setTrunk
  exact .ite (h2.trunkDef hk) (.ite (h2.trunkDef hk) h2)

theorem trunkBegin : Aside s (t.trunkBegin k) := by
  unfold State.trunkBegin
  extract_lets x s0 s1
  have h0 : Aside s s0 := h.setTrunk
  have h1 : Aside s s1 := .trunkTim (.ite (h0.trunkSd hk) h0) hk
  exact .ite (h1.foldl fun _ _ _ g => g.trunkCount) h0

omit hk in
theorem trunkReport : Aside s (t.trunkReport k) := .ite (.ite h.setTrunk.trunkEvt h.setTrunk) h

theorem trunkPhase : Aside s (t.trunkPhase k) :=
  .ite (.ite (.setF (h.setF ⟨by decide, hk, by decide⟩) ⟨by decide, hk, by decide⟩) (h.setF ⟨by decide, hk, by decide⟩)) h

theorem trunkStart : Aside s (t.trunkStart k) := h.sourceLost.setTrunk.setReg ⟨by decide, hk, by decide⟩

theorem trunkStop : Aside s (t.trunkStop k) := .setF (h.setTrunk.setReg ⟨by decide, hk, by decide⟩) ⟨by decide, hk, by decide⟩

theorem trunkOff : Aside s (t.trunkOff k) := by
  have h1 {x : Trunk} : Aside s ([0, 1, 2, 3].foldl (fun s i => s.setReg .TRK_RX_TRACE 0 k i) (t.setTrunk k x)) :=
    h.setTrunk.foldl fun _ i hi g => g.setReg ⟨by decide, hk, by fin_cases hi <;> decide⟩
  exact .setReg (.setReg (.setReg (.setReg (h1.setReg ⟨by decide, hk, by decide⟩) ⟨by decide, hk, by decide⟩) ⟨by decide, hk, by decide⟩)
    ⟨by decide, hk, by decide⟩) ⟨by decide, hk, by decide⟩

theorem trunkSync : Aside s (t.trunkSync k) := .ite (h.trunkStart hk) (.ite (h.trunkStop hk) h)

end

/-! ### Pairs of trunks -/

/-- The members of a pair. -/
theorem pair_lt {k : Nat} (hk : k < 2) : ∀ x ∈ [2 * k, 2 * k + 1], x < 4 := by
  intro x hx
  simp only [List.mem_cons, List.not_mem_nil, or_false] at hx
  omega

section
variable {s t : State} (h : Aside s t)
include h

theorem pairFrame {k : Nat} (hk : k < 2) : Aside s (t.pairFrame k) :=
  .foldl (.pairMember (.pairMember h.setPair (by omega)) (by omega)) fun _ x hx g =>
    have hx := pair_lt hk x hx
    .setF (.setF (.setB (g.setB ⟨by decide, hx, by decide⟩) ⟨by decide, hx, by decide⟩) ⟨by decide, hx, by decide⟩) ⟨by decide, hx, by decide⟩

theorem pairSync {k : Nat} (hk : k < 2) : Aside s (t.pairSync k) :=
  .ite h.setPair (.ite (h.setPair.foldl fun _ x hx g =>
    have hx := pair_lt hk x hx
    .setF (.setF (.trunkDef (.ite g.setTrunk g) hx) ⟨by decide, hx, by decide⟩) ⟨by decide, hx, by decide⟩) h)

theorem trunksDeliver {k : Nat} (hk : k < 2) : Aside s (t.trunksDeliver k) :=
  .foldl (.ite (h.pairFrame hk) (h.foldl fun _ _ _ g => .ite g.trunkUnpaired g)) fun _ x hx g =>
    g.trunkPhase (pair_lt hk x hx)

theorem trunksBegin : Aside s t.trunksBegin :=
  .foldl (.foldl (h.foldl fun _ k hk g => g.trunkBegin (by fin_cases hk <;> decide)) fun _ k hk g =>
    .ite g (g.trunksDeliver (by fin_cases hk <;> decide))) fun _ _ _ g => g.trunkReport

end

end Aside

end Sys2Proof.Machine
end

section
/-!
PROOFS. Pond memory, queues, audio ports and HDLC channels: their work at a boundary is aside of what it routes.
-/
namespace Sys2Proof.Machine
namespace Aside

/-! ### Pond memory and queues -/

section
variable {s t : State} (h : Aside s t)
include h

omit h in
/-- The state of an answer. -/
theorem of_fst {α : Type} {r : State × α} {u : State} {x : α} (hr : Aside s r.1) (he : r = (u, x)) : Aside s u := by
  rw [he] at hr; exact hr

theorem setEcc {w : Nat} {e : WordErr} : Aside s (t.setEcc w e) := h.like rfl

theorem setByte {a : Nat} {v : Byte} : Aside s (t.setByte a v) := h.like rfl

theorem setBytes {a : Nat} {bs : List Byte} : Aside s (t.setBytes a bs) := by
  induction bs generalizing t a with
  | nil => exact h
  | cons b bs ih => exact ih h.setByte

theorem setCeGrown {b : Bool} : Aside s { t with ceGrown := b } := h.like rfl

theorem setUeNew {b : Bool} : Aside s { t with ueNew := b } := h.like rfl

theorem eccRead {m p : Nat} {ws : List Nat} : Aside s (t.eccRead m p ws).1 := by
  unfold State.eccRead
  extract_lets ce _ s1 s2
  have hce : Aside s (t.bump F.POND_ECC_CE_COUNT_COUNT ce.length none) := h.bump (by decide)
  have h1 : Aside s s1 := .ite h hce.setCeGrown
  have h2 : Aside s s2 := .ite (h1.setF (by decide)) h1
  split
  · exact h2.foldl fun _ _ _ g => g.setEcc
  · have h3 : Aside s (if decide (s2.f F.POND_ECC_UE_COUNT_COUNT = 0xFFFF) then s2.setF F.POND_ECC_UE_INFO_UE_SAT 1
        else s2.bump F.POND_ECC_UE_COUNT_COUNT 1 none) := .ite (h2.setF (by decide)) (h2.bump (by decide))
    exact .setUeNew (.setF (.setF (.setF (h3.setReg (by decide)) (by decide)) (by decide)) (by decide))

theorem pondRead {m p a n : Nat} : Aside s (t.pondRead m p a n).1 := by
  unfold State.pondRead
  split
  next he => exact of_fst h.eccRead he
  next he => exact of_fst h.eccRead he

theorem pondWrite {m p a : Nat} {bs : List Byte} : Aside s (t.pondWrite m p a bs).1 := by
  unfold State.pondWrite
  dsimp only
  split
  next he => exact .setBytes ((of_fst h.eccRead he).foldl fun _ _ _ g => g.setEcc)
  next he => exact of_fst h.eccRead he

theorem setQueue {q : Nat} {v : Queue} : Aside s (t.setQueue q v) := h.like rfl

theorem qPut {m q : Nat} {bs : List Byte} : Aside s (t.qPut m q bs).1 := by
  unfold State.qPut
  dsimp only
  split
  next he => exact (of_fst h.pondWrite he).setQueue
  next he => exact of_fst h.pondWrite he

/-! ### Audio ports (spec/07) -/

theorem setAud {p : Nat} {a : Audio} : Aside s (t.setAud p a) := h.like rfl

theorem audEvt {p i : Nat} : Aside s (t.audEvt p i) := h.raise

theorem audStore {p : Nat} {b : AudBlock} : Aside s (t.audStore p b).1 := by
  unfold State.audStore
  dsimp only
  split
  · exact h
  · exact h.qPut

theorem audRxBlock {p : Nat} : Aside s (t.audRxBlock p) := by
  unfold State.audRxBlock
  dsimp only
  split
  · exact h
  · split
    next he => exact of_fst h.setAud.audStore he
    next he => exact (of_fst h.setAud.audStore he).setAud

theorem audRxFrame {p : Nat} {din : List Bool} : Aside s (t.audRxFrame p din) :=
  .ite h (.ite (.ite h h.setAud) (.ite h.audRxBlock.setAud h.setAud))

theorem audBegin {p : Nat} : Aside s (t.audBegin p) := .ite h.setAud h

theorem audFlush {p : Nat} : Aside s (t.audFlush p) := by
  unfold State.audFlush
  extract_lets a s1 s2
  have h1 : Aside s s1 := by
    unfold s1
    split
    · exact h.audStore
    · exact h
  have h2 : Aside s s2 := .ite h1 h1.audStore
  exact h2.setAud

theorem audDmaReset {p : Nat} : Aside s (t.audDmaReset p) := h.audFlush.setAud

end

section
variable {s t : State} (h : Aside s t) {p : Nat} (hp : p < 8)
include h hp

theorem audEnd {din : List Bool} : Aside s (t.audEnd p din) := by
  have h2 {a : Audio} : Aside s ((t.audRxFrame p din).setAud p a) := h.audRxFrame.setAud
  exact .ite h (.ite h2 (.foldl (h2.setF ⟨by decide, hp, by decide⟩) fun _ _ _ g => g.audEvt))

theorem audStop : Aside s (t.audStop p) := .audEvt (.setF h.audDmaReset.setAud ⟨by decide, hp, by decide⟩)

theorem audStart : Aside s (t.audStart p) := by
  unfold State.audStart
  dsimp only
  split
  · exact .audEvt (.setF (.setF (.setAud (.ite h.audDmaReset h)) ⟨by decide, hp, by decide⟩) ⟨by decide, hp, by decide⟩)
  · exact .audEvt (.setF (.ite (h.audStop hp) h) ⟨by decide, hp, by decide⟩)

theorem audLose : Aside s (t.audLose p) := by
  have h2 {a : Audio} : Aside s ((((t.setAud p a).setF F.AUD_STATUS_RUN 0 p).setF F.AUD_UNDER_CNT_COUNT 0 p).setF
      F.AUD_OVER_CNT_COUNT 0 p) :=
    .setF (.setF (h.setAud.setF ⟨by decide, hp, by decide⟩) ⟨by decide, hp, by decide⟩) ⟨by decide, hp, by decide⟩
  exact .ite h2.audEvt h2

theorem audSync : Aside s (t.audSync p) := .ite (h.audStart hp) h

end

/-! ### HDLC channels (spec/08) -/

section
variable {s t : State} (h : Aside s t)
include h

theorem setHd {c : Nat} {x : Hdlc} : Aside s (t.setHd c x) := h.like rfl

theorem hdlcWrite {c q n i : Nat} {w : Word} {ds : List (List Byte)} : Aside s (t.hdlcWrite c q n w i ds).1 := by
  induction ds generalizing t i with
  | nil => exact h
  | cons d ds ih =>
    unfold State.hdlcWrite
    dsimp only
    split
    next he => exact ih (of_fst h.pondWrite he)
    next he => exact of_fst h.pondWrite he

theorem hdlcArrive {c : Nat} : Aside s (t.hdlcArrive c) := .ite h h.hdlcWrite.setHd

theorem hdlcStore {c : Nat} {f : HdlcRx} {data : List Byte} : Aside s (t.hdlcStore c f data).1 := by
  unfold State.hdlcStore
  dsimp only
  split
  · exact h
  · exact h.hdlcWrite

theorem hdlcGroup {g : Nat} : Aside s (t.hdlcGroup g) := .ite (h.foldl fun _ _ _ g => .ite g.raiseTo g) h

end

/-- The registers that count a channel's frames. -/
def hdlcCounters : List RegKind :=
  [.HDLC_CNT_RX_FRAMES, .HDLC_CNT_TX_FRAMES, .HDLC_CNT_FCS_ABORT, .HDLC_CNT_SHORT_LONG, .HDLC_CNT_ALIGN_NOBUF]

theorem hdlcCounters_spare {k : RegKind} (hk : k ∈ hdlcCounters) {c : Nat} (hc : c < 256) : Spare k c 0 := by
  fin_cases hk <;> exact ⟨by decide, hc, by decide⟩

/-! What follows reads and writes the registers of one channel. -/
section
variable {s t : State} (h : Aside s t) {c : Nat} (hc : c < 256)
include h hc

theorem hdlcCount {bit : Nat} {f : FieldRef} (hf : f.k ∈ hdlcCounters) :
    Aside s (t.hdlcCount c bit f) := by
  have h1 : Aside s ((t.setBit .HDLC_CH_STATUS bit c).bump f 1 none c) :=
    .bump (h.setBit ⟨by decide, hc, by decide⟩) (hdlcCounters_spare hf hc)
  have h2 {d : Prop} [Decidable d] : Aside s
      (if d then ((t.setBit .HDLC_CH_STATUS bit c).bump f 1 none c).setF F.HDLC_CH_STATUS_SAT 1 c
        else (t.setBit .HDLC_CH_STATUS bit c).bump f 1 none c) := .ite (h1.setF ⟨by decide, hc, by decide⟩) h1
  exact .ite h2.setHd h2

theorem hdlcGood {f : FieldRef} (hf : f.k ∈ hdlcCounters) :
    Aside s (t.hdlcGood c f) := by
  have h1 : Aside s (t.bump f 1 none c) := h.bump (hdlcCounters_spare hf hc)
  exact .ite (.ite (h1.setF ⟨by decide, hc, by decide⟩) (.setHd (h1.setF ⟨by decide, hc, by decide⟩))) h1

theorem hdlcPublish {data : List Byte} : Aside s (t.hdlcPublish c data) :=
  h.setQueue.hdlcGood hc (by decide)

theorem hdlcCheck {f : HdlcRx} : Aside s (t.hdlcCheck c f) := by
  unfold State.hdlcCheck
  extract_lets x n all data body r
  have hr : Aside s r.1 := h.hdlcStore
  exact .ite (h.hdlcCount hc (by decide)) (.ite (h.hdlcCount hc (by decide))
    (.ite (h.hdlcCount hc (by decide)) (.ite (h.hdlcCount hc (by decide))
    (.ite (hr.hdlcCount hc (by decide)) (.ite hr
    (.ite (hr.hdlcPublish hc) (hr.hdlcCount hc (by decide))))))))

theorem hdlcReceive : Aside s (t.hdlcReceive c) := by
  unfold State.hdlcReceive
  dsimp only
  split
  · exact h
  · exact h.setHd.hdlcCheck hc

theorem hdlcFlush : Aside s (t.hdlcFlush c) := h.foldl fun _ _ _ g => g.hdlcReceive hc

theorem hdlcNext {x : Hdlc} : Aside s (t.hdlcNext c x) :=
  h.setHd.foldl fun _ _ _ g => g.hdlcGood hc (by decide)

theorem hdlcEnd : Aside s (t.hdlcEnd c) := .ite (h.hdlcFlush hc).setHd.hdlcArrive h

theorem hdlcStart {x : Hdlc} : Aside s (t.hdlcStart c x) := by
  unfold State.hdlcStart
  split
  · exact .setF (.setF (h.hdlcNext hc) ⟨by decide, hc, by decide⟩) ⟨by decide, hc, by decide⟩
  · exact h.setHd.setF ⟨by decide, hc, by decide⟩

theorem hdlcStop : Aside s (t.hdlcStop c) := (h.hdlcFlush hc).setHd.setF ⟨by decide, hc, by decide⟩

theorem hdlcStops : Aside s (t.hdlcStops c) := .ite (h.hdlcStop hc) h

theorem hdlcBegin : Aside s (t.hdlcBegin c) := .ite (h.hdlcStart hc) (.ite (h.hdlcNext hc) h.setHd)

end

theorem hdlcChannels_lt : ∀ c ∈ hdlcChannels, c < 256 := fun _ h => List.mem_range.mp h

theorem hdlcsBegin {s t : State} (h : Aside s t) : Aside s t.hdlcsBegin :=
  .foldl (.foldl (h.foldl fun _ c hc g => g.hdlcStops (hdlcChannels_lt c hc)) fun _ _ _ g => g.hdlcGroup)
    fun _ c hc g => g.hdlcBegin (hdlcChannels_lt c hc)

end Aside

end Sys2Proof.Machine
end

section
/-!
PROOFS. The panel, fans, domains, counters, checkers, tenants and cores: their work at a boundary is aside of what it
routes.
-/
namespace Sys2Proof.Machine
namespace Aside

/-! ### Panel and fans (spec/19, spec/20) -/

section
variable {s t : State} (h : Aside s t)
include h

theorem setPnl {st : Nat} : Aside s (t.setPnl st) := .ite h (.raise (h.setF (by decide)))

theorem setPnlRec {x : Panel} : Aside s { t with pnl := x } := h.like rfl

theorem pnlFrame : Aside s t.pnlFrame := h.setPnlRec

theorem pnlDark : Aside s t.pnlDark := .setPnlRec (.setF (h.setF (by decide)) (by decide))

theorem pnlOff : Aside s t.pnlOff := .setPnl h.pnlDark.setPnlRec

theorem pdEnd {k e : Nat} (hk : k < 4) : Aside s (t.pdEnd k e) :=
  .raise (.setF (h.setF ⟨by decide, hk, by decide⟩) ⟨by decide, hk, by decide⟩)

theorem pnlStop : Aside s t.pnlStop := h.pnlOff.foldl fun _ k hk g => .ite (g.pdEnd (by fin_cases hk <;> decide)) g

theorem setTherm {i : Nat} {x : Therm} : Aside s (t.setTherm i x) := h.like rfl

theorem thFault {i : Nat} {b : Bool} (hi : i < 8) : Aside s (t.thFault i b) :=
  .ite h (.raise (.setF (h.setB ⟨by decide, hi, by decide⟩) (by decide)))

theorem thIdle {i : Nat} (hi : i < 8) : Aside s (t.thIdle i) := .setF (h.setTherm.thFault hi) ⟨by decide, hi, by decide⟩

theorem setFan {k : Nat} {x : Fan} : Aside s (t.setFan k x) := h.like rfl

theorem setFanSt {k st : Nat} (hk : k < 4) : Aside s (t.setFanSt k st) :=
  .ite h (.raise (.setFan (h.setF ⟨by decide, hk, by decide⟩)))

theorem setDuty {k d : Nat} (hk : k < 4) : Aside s (t.setDuty k d) := h.setF ⟨by decide, hk, by decide⟩

theorem fansStop : Aside s t.fansStop :=
  .foldl (h.foldl fun _ k hk g =>
    have hk : k < 4 := by fin_cases hk <;> decide
    .setFan (.setReg ((g.setFanSt hk).setDuty hk) ⟨by decide, hk, by decide⟩)) fun _ i hi g =>
    g.thIdle (by fin_cases hi <;> decide)

/-! ### Port domains (R649 to R652) -/

omit h in
theorem groupPorts_lt {g : Nat} (hg : g < 16) : ∀ p ∈ groupPorts g, p < 128 := by
  intro p hp
  obtain ⟨i, hi, rfl⟩ := List.mem_map.mp hp
  have := List.mem_range.mp hi
  omega

omit h in
theorem audPorts_lt : ∀ p ∈ audPorts, p < 8 := by decide

theorem domStop {d : Nat} : Aside s (t.domStop d) := by
  unfold State.domStop
  split
  next hd => exact h.foldl fun _ p hp g => g.lineOff (groupPorts_lt hd p hp)
  next =>
    exact .ite
      (.foldl (h.foldl fun _ k hk g => g.trunkOff (by fin_cases hk <;> decide)) fun _ k hk g =>
        g.pairSync (by fin_cases hk <;> decide))
      (.fansStop (.pnlStop (h.foldl fun _ p hp g => g.audLose (audPorts_lt p hp))))

theorem domStart {d : Nat} : Aside s (t.domStart d) := by
  unfold State.domStart
  split
  next hd => exact h.foldl fun _ p hp g => g.lineSync (groupPorts_lt hd p hp)
  next =>
    exact .ite
      (.foldl (h.foldl fun _ k hk g => g.trunkSync (by fin_cases hk <;> decide)) fun _ k hk g =>
        g.pairSync (by fin_cases hk <;> decide))
      (h.foldl fun _ p hp g => g.audSync (audPorts_lt p hp))

theorem setPwr {x : Power} : Aside s { t with pwr := x } := h.like rfl

theorem runUpdate : Aside s t.runUpdate :=
  .foldl (.setPwr (h.foldl fun _ _ _ g => g.domStop)) fun _ _ _ g => g.domStart

theorem lateRun : Aside s t.lateRun := .ite (.raise (h.runUpdate.setF (by decide))) h.runUpdate

/-! ### Counters (spec/15) -/

theorem setPctr {n k : Nat} {c : PCtr} : Aside s (t.setPctr n k c) := h.like rfl

theorem fperf {n : Nat} {vs : List (Nat × Nat × Nat)} : Aside s (t.fperf n vs) :=
  h.foldl fun _ _ _ g => .ite g (.ite g g.setPctr)

theorem setOvf {n k : Nat} (hn : n < 18) : Aside s (t.setOvf n k) := by
  unfold State.setOvf
  split
  · exact h.setBit (by decide)
  next hne => exact h.setBit ⟨by decide, show n < 17 by omega, by decide⟩

theorem wrapOne {n k : Nat} (hn : n < 18) : Aside s (t.wrapOne n k).1 := by
  unfold State.wrapOne
  dsimp only
  split
  · exact h
  · split
    · exact h.setPctr.setOvf hn
    · exact h.setPctr

omit h in
theorem wrapAll {n : Nat} (hn : n < 18) {l : List Nat} {x : State × Bool} (hx : Aside s x.1) :
    Aside s (l.foldl (fun (x : State × Bool) k => ((x.1.wrapOne n k).1, x.2 || (x.1.wrapOne n k).2)) x).1 := by
  induction l generalizing x with
  | nil => exact hx
  | cons k l ih => exact ih (x := ((x.1.wrapOne n k).1, x.2 || (x.1.wrapOne n k).2)) (hx.wrapOne hn)

theorem wrapBlock {n : Nat} (hn : n < 18) : Aside s (t.wrapBlock n) := by
  have hw := wrapAll hn (l := ctrNums n) (x := (t, false)) h
  exact .ite (.ite hw.raise hw.raiseTo) hw

end

/-! ### Cores -/

/-- What the cycles of a core do. -/
theorem of_beside {n : Nat} (hn : n < 17) {s t : State} (h : Beside n s t) : Aside s t := by
  have ha := h.completes.around
  refine ha.kept.routingView_eq (by decide) (mbxReg_congr fun k hk i j hi => ?_)
  obtain ⟨hb, h1, h2⟩ := mbxKinds_not_book k hk
  exact ha.regs.reg k i j (not_mem_bookRegs hn hb hi) (not_settles hi h1 h2)

section
variable {s t : State} (h : Aside s t)
include h

theorem perf {n : Nat} (hn : n < 17) {vs : List (Nat × Nat)} {k : Nat} : Aside s (t.perf n vs k) :=
  h.trans (of_beside hn (Beside.perf t n vs k))

theorem spend {n : Nat} (hn : n < 17) {st k : Nat} {ps : List (Nat × Nat)} : Aside s (t.spend n st k ps) :=
  h.trans (of_beside hn (Beside.spend t n st k ps))

theorem setCore {n : Nat} {c : Core} : Aside s (t.setCore n c) := h.like rfl

theorem setTen {n : Nat} {x : Tenant} : Aside s (t.setTen n x) := h.like rfl

theorem setRst {x : Rst} : Aside s { t with rst := x } := h.like rfl

theorem restOfFrame {n : Nat} (hn : n < 17) : Aside s (t.restOfFrame n) := by
  unfold State.restOfFrame
  extract_lets r s1
  have hr : Aside s r.2 := ite_snd (h.like rfl) h
  exact .ite (.setCore ((hr.spend hn).wrapBlock (by omega))) h

theorem strobePulses {vs : List (Nat × Nat × Nat)} : Aside s (t.strobePulses vs) := by
  have h1 : Aside s ((List.range 17).foldl (fun s n =>
      if s.corePg n then (s.perf n [(20, 1)]).wrapBlock n else s) t) := by
    refine h.foldl fun u n hn g => ?_
    have hn : n < 17 := List.mem_range.mp hn
    exact .ite ((g.perf hn).wrapBlock (by omega)) g
  unfold State.strobePulses
  exact h1.fperf.wrapBlock (by decide)

theorem coreStart {n : Nat} : Aside s (t.coreStart n) := by
  unfold State.coreStart
  extract_lets o pc s0 _ _ s1
  have h1 : Aside s s1 := .setCore (.ite h.setTen h)
  exact .ite h1.setRst h1

theorem startOrWait {n : Nat} : Aside s (t.startOrWait n) := .ite h.coreStart h.setCore

theorem startDue : Aside s t.startDue := h.foldl fun _ _ _ g => .ite g.startOrWait g

theorem returnDue {n : Nat} : Aside s (t.returnDue n) :=
  .ite (.raiseTo (h.setTen.foldl fun _ _ _ g => g.startOrWait)) h

theorem tenantsFrame : Aside s t.tenantsFrame :=
  .startDue (.foldl (h.foldl fun _ _ _ g => .ite g.setTen g) fun _ _ _ g => g.returnDue)

theorem setLink {k : Nat} {l : Link} : Aside s (t.setLink k l) := h.like rfl

theorem linkFrame {k : Nat} : Aside s (t.linkFrame k) := h.setLink

theorem eccEvents : Aside s t.eccEvents := by
  have h1 {c : Prop} [Decidable c] {b : Bool} : Aside s (if c then { t with ceGrown := b }.raise 1004 else t) :=
    .ite h.setCeGrown.raise h
  exact .ite h1.setUeNew.raise h1

/-! ### What the walk finds (R166, R170, R177) -/

theorem setChecker {k : Nat} {c : Checker} : Aside s (t.setChecker k c) := h.like rfl

theorem runChecker {k : Nat} {x : Byte} (hk : k < 16) : Aside s (t.runChecker k x) := by
  unfold State.runChecker
  extract_lets r s1 n s2 s3 mode _ s4
  have h2 : Aside s s2 := .ite h.setChecker (.ite (h.setChecker.setF ⟨by decide, hk, by decide⟩)
    (.setF (h.setChecker.setF ⟨by decide, hk, by decide⟩) ⟨by decide, hk, by decide⟩))
  have h3 : Aside s s3 := .ite (.raise (h2.setB ⟨by decide, hk, by decide⟩)) h2
  have h4 : Aside s s4 := h3.setChecker
  exact .ite h3 (.ite (.raise (h4.setF ⟨by decide, hk, by decide⟩)) h4)

theorem parity {bad : List (Nat × Bool)} : Aside s (t.parity bad) := by
  unfold State.parity
  split
  · exact h
  · extract_lets s1 s2 s3
    have h1 : Aside s s1 := .setF (h.bump (by decide)) (by decide)
    have h2 : Aside s s2 := .ite (h1.setF (by decide)) h1
    have h3 : Aside s s3 := .ite (.raise (h2.setF (by decide))) h2
    exact .ite (.raise (h3.setF (by decide))) h3

theorem walkFound {bad : List (Nat × Bool)} : Aside s (t.walkFound bad) :=
  h.parity.foldl fun _ _ hk g => g.runChecker (List.mem_range.mp hk)

theorem setCapture {w : Bool} {r : Option Nat} :
    Aside s { t with fab := { t.fab with capWait := w, capRun := r } } := h.like rfl

theorem captureFrame : Aside s t.captureFrame := by
  unfold State.captureFrame
  extract_lets b s1
  have h1 : Aside s s1 := by
    unfold s1
    split
    · split
      next i _ hi => exact .setCapture (h.setReg ⟨by decide, show i / 4 < 2 by omega, by decide⟩)
      · exact h
    · exact h
  exact .ite h1.setCapture h1

theorem setRejected {x : Tab Nat} : Aside s { t with fab := { t.fab with rejected := x } } := h.like rfl

theorem fabCounts {n : Nat} : Aside s (t.fabCounts n) := by
  unfold State.fabCounts
  exact h.strobePulses.setRejected

end

/-! ### The steps of the boundary -/

theorem linePorts_lt : ∀ p ∈ linePorts, p < 128 := fun _ h => List.mem_range.mp h

section
variable {s t : State} (h : Aside s t)
include h

theorem portsEnd {din : List (List Bool)} : Aside s (t.portsEnd din) := by
  have h1 := h.foldl fun _ p hp g => g.lineEnd (linePorts_lt p hp)
  have h2 : Aside s ([0, 1, 2, 3].foldl (fun s k => s.trunkEnd k (s.dccBytes k)) (linePorts.foldl State.lineEnd t)) :=
    h1.foldl fun _ k hk g => g.trunkEnd (by fin_cases hk <;> decide)
  have h3 := h2.foldl (f := fun s p => s.audEnd p (s.dinOf din p)) fun _ p hp g => g.audEnd (audPorts_lt p hp)
  exact h3.foldl fun _ c hc g => g.hdlcEnd (hdlcChannels_lt c hc)

theorem coresRest : Aside s (coreNums.foldl State.restOfFrame t) :=
  h.foldl fun _ _ hn g => g.restOfFrame (List.mem_range.mp hn)

/-- What the boundary does once the inputs of the new frame stand. -/
theorem frameStarts : Aside s (linkNums.foldl State.linkFrame ((audPorts.foldl State.audBegin
    (linePorts.foldl State.lineBegin t.eccEvents.tenantsFrame.hdlcsBegin).trunksBegin).refFrame).pnlFrame).lateRun := by
  have h4 : Aside s (linePorts.foldl State.lineBegin t.eccEvents.tenantsFrame.hdlcsBegin) :=
    h.eccEvents.tenantsFrame.hdlcsBegin.foldl fun _ p hp g => g.lineBegin (linePorts_lt p hp)
  have h5 := h4.trunksBegin.foldl (f := State.audBegin) (l := audPorts) fun _ _ _ g => g.audBegin
  exact .lateRun (h5.refFrame.pnlFrame.foldl fun _ _ _ g => g.linkFrame)

end

end Aside

end Sys2Proof.Machine
end

section
/-!
PROOFS. The frame boundary: the walk over the outputs, the inputs of the frame that begins, the mailboxes, and O41.
-/
namespace Sys2Proof.Machine

/-! ### Tables that a list of entries fills -/

/-- A place of a table at which every entry of a list puts the same value, if it stands there before or one does. -/
theorem tabGet_foldl_put {α : Type} [DecidableEq α] (d : Nat → α) {k : Nat} {v : α} {l : List (Nat × α)} {t : Tab α}
    (hl : ∀ e ∈ l, e.1 = k → e.2 = v) (h : (∃ e ∈ l, e.1 = k) ∨ tabGet d t k = v) :
    tabGet d (l.foldl (fun t e => tabPut d t e.1 e.2) t) k = v := by
  induction l generalizing t with
  | nil => simpa using h
  | cons e l ih =>
    refine ih (fun x hx => hl x (by simp [hx])) ?_
    by_cases hk : e.1 = k
    · exact .inr (by subst hk; rw [tabGet_put_same]; exact hl e (by simp) rfl)
    · rw [tabGet_put_ne d d t e.2 (Ne.symm hk)]
      rcases h with ⟨x, hx, hxk⟩ | h
      · rcases List.mem_cons.mp hx with rfl | hx
        · exact absurd hxk hk
        · exact .inl ⟨x, hx, hxk⟩
      · exact .inr h

/-! ### The walk over the outputs (R149, R175, R176) -/

/-- The walk comes to a connection entry. -/
def State.walkStep (s : State) (inp : Nat → Byte) (x : Tab Byte × List (Nat × Bool)) (e : Nat × Copies) :
    Tab Byte × List (Nat × Bool) :=
  match s.route inp e.1 with
  | (some b, _) => (tabPut (fun _ => (0xFF : Byte)) x.1 e.1 b, x.2)
  | (none, ent) => (x.1, x.2 ++ [(e.1, ent)])

theorem walk_eq (s : State) (inp : Nat → Byte) : s.walk inp = s.fab.conn.foldl (s.walkStep inp) ([], []) := rfl

/-- The bytes that the entries of a list route. -/
def State.routes (s : State) (inp : Nat → Byte) (l : Tab Copies) : List (Nat × Byte) :=
  l.filterMap fun e => (s.route inp e.1).1.map fun b => (e.1, b)

theorem walkSteps_fst (s : State) (inp : Nat → Byte) (l : Tab Copies) (x : Tab Byte × List (Nat × Bool)) :
    (l.foldl (s.walkStep inp) x).1 =
      (s.routes inp l).foldl (fun t e => tabPut (fun _ => (0xFF : Byte)) t e.1 e.2) x.1 := by
  induction l generalizing x with
  | nil => rfl
  | cons e l ih =>
    rw [List.foldl_cons, ih]
    unfold State.walkStep State.routes
    rcases hr : s.route inp e.1 with ⟨_ | b, ent⟩ <;> simp [hr]

theorem mem_routes {s : State} {inp : Nat → Byte} {l : Tab Copies} {x : Nat × Byte} :
    x ∈ s.routes inp l ↔ (∃ e ∈ l, e.1 = x.1) ∧ (s.route inp x.1).1 = some x.2 := by
  unfold State.routes
  rw [List.mem_filterMap]
  constructor
  · rintro ⟨e, he, hx⟩
    obtain ⟨b, hb, rfl⟩ := Option.map_eq_some_iff.mp hx
    exact ⟨⟨e, he, rfl⟩, hb⟩
  · rintro ⟨⟨e, he, hn⟩, hb⟩
    exact ⟨e, he, by rw [hn, hb]; rfl⟩

/-- An output with an entry gets the byte that the entry routes, 0xFF where it routes none. -/
theorem walk_get (s : State) (inp : Nat → Byte) {n : Nat} (hn : ∃ e ∈ s.fab.conn, e.1 = n) :
    tabGet (fun _ => (0xFF : Byte)) (s.walk inp).1 n = (s.route inp n).1.getD 0xFF := by
  rw [walk_eq, walkSteps_fst]
  refine tabGet_foldl_put _ (fun e he hk => ?_) ?_
  · obtain ⟨-, hr⟩ := mem_routes.mp he
    rw [← hk, hr]; rfl
  · cases hr : (s.route inp n).1 with
    | none => exact .inr rfl
    | some b => exact .inl ⟨(n, b), mem_routes.mpr ⟨hn, hr⟩, rfl⟩

/-- An output without an entry gets 0xFF. -/
theorem walk_get_unlisted (s : State) (inp : Nat → Byte) {n : Nat} (hn : ∀ e ∈ s.fab.conn, e.1 ≠ n) :
    tabGet (fun _ => (0xFF : Byte)) (s.walk inp).1 n = 0xFF := by
  rw [walk_eq, walkSteps_fst]
  refine tabGet_foldl_put _ (fun e he hk => ?_) (.inr rfl)
  obtain ⟨⟨x, hx, hxe⟩, -⟩ := mem_routes.mp he
  exact absurd (hxe.trans hk) (hn x hx)

/-! What an entry routes, by its mode. -/
section
variable {s : State} {inp : Nat → Byte} {n : Nat}

theorem route_parity (h : parOk (s.conn n).active = false) : (s.route inp n).1 = none := by
  unfold State.route; simp [h]

variable (h : parOk (s.conn n).active = true)
include h

theorem route_idle (hm : fieldOf (s.conn n).active 14 2 = 0) :
    (s.route inp n).1 = some (BitVec.ofNat 8 (fieldOf (s.conn n).active 16 8)) := by
  unfold State.route entryMode; simp [h, hm]

theorem route_direct (hm : fieldOf (s.conn n).active 14 2 = 1) :
    (s.route inp n).1 = some (inp (fieldOf (s.conn n).active 0 14)) := by
  unfold State.route entryMode; simp [h, hm]

theorem route_select (hm : fieldOf (s.conn n).active 14 2 = 2) :
    let v := (s.sel (fieldOf (s.conn n).active 16 10)).active
    (s.route inp n).1 = if parOk v = true then some (inp
      ((fieldOf v (if v.getLsbD 28 then 14 else 0) 14 + fieldOf (s.conn n).active 0 14) % 16384)) else none := by
  intro v
  unfold State.route entryMode
  simp only [h, hm, Bool.not_true, Bool.false_eq_true, if_false]
  by_cases hv : parOk v = true
  · simp only [v] at hv ⊢
    simp only [hv, Bool.not_true, Bool.false_eq_true, if_false, if_true]
    split <;> rfl
  · simp only [v] at hv ⊢
    simp [hv]

theorem route_test (hm : fieldOf (s.conn n).active 14 2 = 3) : (s.route inp n).1 =
    some (inp (fieldOf (s.conn n).active 0 14) ^^^ BitVec.ofNat 8 (fieldOf (s.conn n).active 16 8)) := by
  unfold State.route entryMode; simp [h, hm]

end

/-- From 15,232 on the inputs are those of tones, patterns and mailboxes. -/
theorem inputByte_source (s : State) (aud : List (Nat × Byte)) {n : Nat} (hn : 15232 ≤ n) :
    s.inputByte aud n = tabGet (fun _ => (0xFF : Byte)) s.fab.src n := by
  unfold State.inputByte
  rw [if_neg (by omega), if_neg (by omega), if_neg (by omega)]

/-! ### The inputs of the frame that begins (R442) -/

theorem mem_mailboxes {s : State} {x : Nat × Byte} (hx : x ∈ s.mailboxes) : ∃ k < 256, ∃ i < 4,
    x = (15360 + 4 * k + i, BitVec.ofNat 8 (fieldOf (s.reg .CORE_MBX_TX (k / 16) (k % 16)) (8 * i) 8)) := by
  unfold State.mailboxes at hx
  obtain ⟨k, hk, hx⟩ := List.mem_flatMap.mp hx
  refine ⟨k, List.mem_range.mp hk, ?_⟩
  dsimp only at hx
  split at hx
  · simp at hx
  · obtain ⟨i, hi, rfl⟩ := List.mem_map.mp hx
    exact ⟨i, by fin_cases hi <;> decide, rfl⟩

theorem mailbox_mem {s : State} {k i : Nat} (hk : k < 256) (hi : i < 4)
    (hw : s.reg .CORE_MBX_TX (k / 16) (k % 16) ≠ 0xFFFFFFFF) :
    (15360 + 4 * k + i, BitVec.ofNat 8 (fieldOf (s.reg .CORE_MBX_TX (k / 16) (k % 16)) (8 * i) 8)) ∈ s.mailboxes := by
  unfold State.mailboxes
  refine List.mem_flatMap.mpr ⟨k, List.mem_range.mpr hk, ?_⟩
  dsimp only
  rw [if_neg hw]
  exact List.mem_map.mpr ⟨i, by interval_cases i <;> simp, rfl⟩

/-- A mailbox slot presents the byte that its core has left there. -/
theorem sources_mailbox (s : State) {k i : Nat} (hk : k < 256) (hi : i < 4) :
    tabGet (fun _ => (0xFF : Byte)) s.sources (15360 + 4 * k + i) =
      BitVec.ofNat 8 (fieldOf (s.reg .CORE_MBX_TX (k / 16) (k % 16)) (8 * i) 8) := by
  unfold State.sources
  refine tabGet_foldl_put _ (fun e he hek => ?_) ?_
  · simp only [List.mem_append, List.mem_map, List.mem_range] at he
    rcases he with (⟨j, hj, rfl⟩ | ⟨j, hj, rfl⟩) | he
    · dsimp only at hek; omega
    · dsimp only at hek; omega
    · obtain ⟨k', hk', i', hi', rfl⟩ := mem_mailboxes he
      dsimp only at hek
      obtain rfl : k' = k := by omega
      obtain rfl : i' = i := by omega
      rfl
  · by_cases hw : s.reg .CORE_MBX_TX (k / 16) (k % 16) = 0xFFFFFFFF
    · refine .inr ?_
      rw [hw]
      interval_cases i <;> rfl
    · exact .inl ⟨_, List.mem_append_right _ (mailbox_mem hk hi hw), rfl⟩

/-! ### The mailboxes of the cores (R441) -/

/-- The bytes that go out on four message slots of newt `n`. -/
def State.mbxWord (s : State) (n j : Nat) : Word :=
  BitVec.ofNat 32 (leNat ([0, 1, 2, 3].map fun i => s.outByte (15360 + 64 * n + 4 * j + i)))

/-- Each byte of a little-endian word. -/
theorem fieldOf_leNat (f : Nat → Byte) {i : Nat} (hi : i < 4) :
    fieldOf (BitVec.ofNat 32 (leNat ([0, 1, 2, 3].map f))) (8 * i) 8 = (f i).toNat := by
  have h0 := (f 0).isLt
  have h1 := (f 1).isLt
  have h2 := (f 2).isLt
  have h3 := (f 3).isLt
  unfold fieldOf
  simp only [List.map_cons, List.map_nil, leNat, BitVec.toNat_ofNat, Nat.shiftRight_eq_div_pow]
  interval_cases i <;> omega

/-- Words of one newt's receive mailbox. -/
theorem mbxWords_reg (s : State) {n : Nat} (hn : n < 16) {l : List Nat} (hl : ∀ j ∈ l, j < 16) {n' j' : Nat}
    (h' : RegKind.CORE_MBX_RX.has n' j') :
    (l.foldl (fun s j => s.setReg .CORE_MBX_RX (s.mbxWord n j) n j) s).reg .CORE_MBX_RX n' j' =
      if n' = n ∧ j' ∈ l then s.mbxWord n j' else s.reg .CORE_MBX_RX n' j' := by
  induction l generalizing s with
  | nil => simp
  | cons j l ih =>
    have hw : (s.setReg .CORE_MBX_RX (s.mbxWord n j) n j).mbxWord n j' = s.mbxWord n j' := rfl
    rw [List.foldl_cons, ih _ fun x hx => hl x (by simp [hx]), hw]
    by_cases hj : n' = n ∧ j' = j
    · obtain ⟨rfl, rfl⟩ := hj
      simp
    · rw [State.setReg_reg_ne _ _ _ _ _ (addr_ne h' ⟨hn, hl j (by simp)⟩ (by tauto))]
      simp only [List.mem_cons]
      by_cases hc : n' = n ∧ j' ∈ l
      · rw [if_pos hc, if_pos ⟨hc.1, .inr hc.2⟩]
      · rw [if_neg hc, if_neg (by tauto)]

theorem Kept.mbxWords (s : State) (n : Nat) (l : List Nat) :
    Kept [.regs] s (l.foldl (fun s j => s.setReg .CORE_MBX_RX (s.mbxWord n j) n j) s) := by
  induction l generalizing s with
  | nil => exact Kept.refl _ s
  | cons j l ih => exact (Kept.setReg s _ _ _ _).trans (ih _)

theorem mailboxIn_eq (s : State) (n : Nat) : s.mailboxIn n =
    ((List.range 16).foldl (fun s j => s.setReg .CORE_MBX_RX (s.mbxWord n j) n j) s).setReg .CORE_MBX_FRAME
      s.frame n := by
  unfold State.mailboxIn State.mbxWord
  rfl

theorem Kept.mailboxIn (s : State) (n : Nat) : Kept [.regs] s (s.mailboxIn n) := by
  rw [mailboxIn_eq]
  exact (Kept.mbxWords s n _).trans (Kept.setReg _ _ _ _ _)

theorem mailboxIn_rx (s : State) {n n' j : Nat} (hn : n < 16) (hn' : n' < 16) (hj : j < 16) :
    (s.mailboxIn n).reg .CORE_MBX_RX n' j = if n' = n then s.mbxWord n j else s.reg .CORE_MBX_RX n' j := by
  have hi : RegKind.CORE_MBX_RX.has n' j := ⟨hn', hj⟩
  rw [mailboxIn_eq, State.setReg_reg_ne _ _ _ _ _ (addr_ne hi (k' := .CORE_MBX_FRAME) ⟨hn, by decide⟩ (.inl (by decide))),
    mbxWords_reg s hn (fun _ h => List.mem_range.mp h) hi]
  simp [List.mem_range.mpr hj]

theorem mbxWords_frameReg (s : State) {n n' : Nat} (hn : n < 16) (hn' : n' < 16) {l : List Nat} (hl : ∀ j ∈ l, j < 16) :
    (l.foldl (fun s j => s.setReg .CORE_MBX_RX (s.mbxWord n j) n j) s).reg .CORE_MBX_FRAME n' =
      s.reg .CORE_MBX_FRAME n' := by
  induction l generalizing s with
  | nil => rfl
  | cons j l ih =>
    rw [List.foldl_cons, ih _ fun x hx => hl x (by simp [hx])]
    exact State.setReg_reg_ne _ _ _ _ _ (addr_ne (k := .CORE_MBX_FRAME) ⟨hn', by decide⟩ ⟨hn, hl j (by simp)⟩
      (.inl (by decide)))

theorem mailboxIn_frame (s : State) {n n' : Nat} (hn : n < 16) (hn' : n' < 16) :
    (s.mailboxIn n).reg .CORE_MBX_FRAME n' = if n' = n then s.frame else s.reg .CORE_MBX_FRAME n' := by
  rw [mailboxIn_eq]
  by_cases h : n' = n
  · subst h
    rw [if_pos rfl, State.setReg_reg]
  · rw [if_neg h, State.setReg_reg_ne _ _ _ _ _ (addr_ne (k := .CORE_MBX_FRAME) ⟨hn', by decide⟩ ⟨hn, by decide⟩
      (.inr (.inl h))), mbxWords_frameReg s hn hn' fun _ h => List.mem_range.mp h]

/-- The mailboxes of the newts of a list. -/
theorem mailboxesIn (l : List Nat) (hl : ∀ n ∈ l, n < 16) (s : State) : Kept [.regs] s (l.foldl State.mailboxIn s) ∧
    ∀ n < 16, (l.foldl State.mailboxIn s).reg .CORE_MBX_FRAME n =
        (if n ∈ l then s.frame else s.reg .CORE_MBX_FRAME n) ∧
      ∀ j < 16, (l.foldl State.mailboxIn s).reg .CORE_MBX_RX n j =
        if n ∈ l then s.mbxWord n j else s.reg .CORE_MBX_RX n j := by
  induction l generalizing s with
  | nil => exact ⟨Kept.refl _ s, fun n _ => ⟨by simp, by simp⟩⟩
  | cons m l ih =>
    have hm := hl m (by simp)
    have hk := Kept.mailboxIn s m
    obtain ⟨hframe, -⟩ := hk .time (by simp)
    have hfab : (s.mailboxIn m).fab = s.fab := hk .fabric (by simp)
    have hword : ∀ n j, (s.mailboxIn m).mbxWord n j = s.mbxWord n j := fun n j => by
      unfold State.mbxWord State.outByte; rw [hfab]
    rw [List.foldl_cons]
    obtain ⟨hkeep, hregs⟩ := ih (fun x hx => hl x (by simp [hx])) (s.mailboxIn m)
    refine ⟨hk.trans hkeep, fun n hn => ?_⟩
    obtain ⟨hf, hr⟩ := hregs n hn
    refine ⟨?_, fun j hj => ?_⟩
    · rw [hf, hframe, mailboxIn_frame s hm hn]
      by_cases h : n ∈ l <;> by_cases h' : n = m <;> simp [h, h']
    · rw [hr j hj, hword, mailboxIn_rx s hm hn hj]
      by_cases h : n ∈ l <;> by_cases h' : n = m <;> simp [h, h']

end Sys2Proof.Machine
end

section
/-!
PROOFS. The frame boundary as a whole, and O41.
-/
namespace Sys2Proof.Machine

/-! ### The frame that ends -/

/-- The bytes that the boundary routes, with the outputs that fail. -/
def State.boundaryWalk (s : State) (din : List (List Bool)) : Tab Byte × List (Nat × Bool) :=
  (s.portsEnd din).walk ((s.portsEnd din).inputByte (audPorts.flatMap fun p => s.audIn p (s.dinOf din p)))

/-- The state in which the frame has ended, its bytes routed. -/
def State.frameEnds (s : State) (din : List (List Bool)) : State :=
  coreNums.foldl State.restOfFrame ((((s.portsEnd din).routeFrame
    (audPorts.flatMap fun p => s.audIn p (s.dinOf din p))).1.fperf 8192 []).wrapBlock 17)

theorem portsEnd_view (s : State) (din : List (List Bool)) : (s.portsEnd din).routingView = s.routingView :=
  (Aside.refl s).portsEnd

theorem routeFrame_view (s : State) (aud : List (Nat × Byte)) : (s.routeFrame aud).1.routingView =
    { s.routingView with out := s.fab.routed, routed := (s.walk (s.inputByte aud)).1 } := by
  have h : s.captureFrame.routingView = s.routingView := (Aside.refl s).captureFrame
  have hr : s.captureFrame.fab.routed = s.fab.routed := congrArg RoutingView.routed h
  rw [← h, ← hr]
  rfl

theorem frameEnds_view (s : State) (din : List (List Bool)) : (s.frameEnds din).routingView =
    { s.routingView with out := s.fab.routed, routed := (s.boundaryWalk din).1 } := by
  have hp := portsEnd_view s din
  have hrouted : (s.portsEnd din).fab.routed = s.fab.routed := by
    simpa only [State.routingView] using congrArg RoutingView.routed hp
  have hend (u : State) : (coreNums.foldl State.restOfFrame ((u.fperf 8192 []).wrapBlock 17)).routingView =
      u.routingView := ((Aside.refl u).fperf.wrapBlock (by decide)).coresRest
  unfold State.frameEnds State.boundaryWalk
  rw [hend, routeFrame_view, hp, hrouted]

/-! ### The frame that begins -/

/-- The state in which the new frame is counted, and what the walk found is reported. -/
def State.counted (s : State) (bad : List (Nat × Bool)) : State := (s.timeOn.walkFound bad).fabCounts bad.length

/-- The same with the inputs of the new frame. -/
def State.withInputs (s : State) (bad : List (Nat × Bool)) : State :=
  { s.counted bad with fab := { (s.counted bad).fab with src := (s.counted bad).sources } }

theorem timeOn_view (s : State) : s.timeOn.routingView =
    { s.routingView with frame := s.frame + 1, sys := s.sys + 3072, clk := { s.clk with into := 0 } } := rfl

theorem counted_view (s : State) (bad : List (Nat × Bool)) : (s.counted bad).routingView =
    { s.routingView with frame := s.frame + 1, sys := s.sys + 3072, clk := { s.clk with into := 0 } } := by
  rw [← timeOn_view]
  exact (Aside.refl s.timeOn).walkFound.fabCounts

theorem withInputs_view (s : State) (bad : List (Nat × Bool)) : (s.withInputs bad).routingView =
    { (s.counted bad).routingView with src := (s.counted bad).sources } := by
  unfold State.withInputs
  generalize s.counted bad = u
  generalize u.sources = x
  rfl

theorem frameBegin_aside (s : State) (bad : List (Nat × Bool)) :
    Aside ((List.range 16).foldl State.mailboxIn (s.withInputs bad)) (s.frameBegin bad) := by
  unfold State.frameBegin State.withInputs State.counted
  dsimp only
  generalize (List.range 16).foldl State.mailboxIn _ = u
  exact (Aside.refl u).frameStarts

theorem frameBoundary_eq {s : State} (hu : s.fabUp = true) (hr : s.rst.held = false) (din : List (List Bool)) :
    s.frameBoundary din = (s.frameEnds din).frameBegin (s.boundaryWalk din).2 := by
  unfold State.frameBoundary State.frameEnds State.boundaryWalk State.routeFrame
  rw [if_pos (by simp [hu, hr])]

/-- The state in which the inputs of the new frame and the received messages stand. -/
def State.boundaryMbx (s : State) (din : List (List Bool)) : State :=
  (List.range 16).foldl State.mailboxIn ((s.frameEnds din).withInputs (s.boundaryWalk din).2)

/-- What the boundary makes of what it routes and counts, and leaves of the rest. -/
theorem frameBoundary_view {s : State} (hu : s.fabUp = true) (hr : s.rst.held = false) (din : List (List Bool)) :
    (s.frameBoundary din).routingView = { s.routingView with
      frame := s.frame + 1, sys := s.sys + 3072, clk := { s.clk with into := 0 }, out := s.fab.routed
      routed := (s.boundaryWalk din).1
      src := ((s.frameEnds din).counted (s.boundaryWalk din).2).sources
      mbx := (s.boundaryMbx din).mbxReg } := by
  have hbegin : (s.frameBoundary din).routingView = (s.boundaryMbx din).routingView := by
    rw [frameBoundary_eq hu hr]
    exact frameBegin_aside _ _
  have hends := frameEnds_view s din
  have hframe : (s.frameEnds din).frame = s.frame := by
    simpa only [State.routingView] using congrArg RoutingView.frame hends
  have hsys : (s.frameEnds din).sys = s.sys := by
    simpa only [State.routingView] using congrArg RoutingView.sys hends
  have hclk : (s.frameEnds din).clk = s.clk := by
    simpa only [State.routingView] using congrArg RoutingView.clk hends
  have hmbx := (mailboxesIn (List.range 16) (fun _ h => List.mem_range.mp h)
    ((s.frameEnds din).withInputs (s.boundaryWalk din).2)).1
  rw [hbegin, State.boundaryMbx, hmbx.routingView (by decide), withInputs_view, counted_view, hframe, hsys, hclk, hends]

end Sys2Proof.Machine
end

section
/-!
PROOFS. O41: what the boundary routes, what the mailboxes show after it, and what it leaves as it was.
-/
namespace Sys2Proof.Machine

/-! ### The bytes that are routed (R149, R175) -/

/-- The byte that an output with the entry `w` and the selector `v` is routed, from the inputs `src` of tones, patterns
and mailboxes. -/
def Routed (w v : Word) (src : Nat → Byte) (b : Byte) : Prop :=
  let mine := fun n => 15232 ≤ n ∧ n < 16384
  let side := (fieldOf v (if v.getLsbD 28 then 14 else 0) 14 + fieldOf w 0 14) % 16384
  (parOk w = false → b = 0xFF) ∧
  (parOk w = true → fieldOf w 14 2 = 0 → b = BitVec.ofNat 8 (fieldOf w 16 8)) ∧
  (parOk w = true → fieldOf w 14 2 = 1 → mine (fieldOf w 0 14) → b = src (fieldOf w 0 14)) ∧
  (parOk w = true → fieldOf w 14 2 = 2 → parOk v = true → mine side → b = src side) ∧
  (parOk w = true → fieldOf w 14 2 = 2 → parOk v = false → b = 0xFF) ∧
  (parOk w = true → fieldOf w 14 2 = 3 → mine (fieldOf w 0 14) →
    b = src (fieldOf w 0 14) ^^^ BitVec.ofNat 8 (fieldOf w 16 8))

theorem route_routed (s : State) {inp src : Nat → Byte} (h : ∀ m, 15232 ≤ m → inp m = src m) (n : Nat) :
    Routed (s.conn n).active (s.sel (fieldOf (s.conn n).active 16 10)).active src ((s.route inp n).1.getD 0xFF) := by
  refine ⟨fun hw => ?_, fun hw hm => ?_, fun hw hm hr => ?_, fun hw hm hv hr => ?_, fun hw hm hv => ?_,
    fun hw hm hr => ?_⟩
  · rw [route_parity hw, Option.getD_none]
  · rw [route_idle hw hm, Option.getD_some]
  · rw [route_direct hw hm, Option.getD_some, h _ hr.1]
  · rw [route_select hw hm, if_pos hv, Option.getD_some, h _ hr.1]
  · rw [route_select hw hm, if_neg (by simp [hv]), Option.getD_none]
  · rw [route_test hw hm, Option.getD_some, h _ hr.1]

theorem portsEnd_fabric (s : State) (din : List (List Bool)) : (s.portsEnd din).fab.conn = s.fab.conn ∧
    (s.portsEnd din).fab.sel = s.fab.sel ∧ (s.portsEnd din).fab.src = s.fab.src := by
  have hp := portsEnd_view s din
  simp only [State.routingView, RoutingView.mk.injEq] at hp
  obtain ⟨-, -, -, hconn, hsel, hsrc, -⟩ := hp
  exact ⟨hconn, hsel, hsrc⟩

theorem boundaryWalk_routed {s : State} (din : List (List Bool)) {n : Nat} (hn : ∃ e ∈ s.fab.conn, e.1 = n) :
    Routed (s.conn n).active (s.sel (fieldOf (s.conn n).active 16 10)).active
      (tabGet (fun _ => (0xFF : Byte)) s.fab.src) (tabGet (fun _ => (0xFF : Byte)) (s.boundaryWalk din).1 n) := by
  obtain ⟨hconn, hsel, hsrc⟩ := portsEnd_fabric s din
  have hc : (s.portsEnd din).conn n = s.conn n := by unfold State.conn; rw [hconn]
  have hs (k : Nat) : (s.portsEnd din).sel k = s.sel k := by unfold State.sel; rw [hsel]
  unfold State.boundaryWalk
  rw [walk_get _ _ (by rwa [hconn]), ← hc, ← hs, ← hsrc]
  exact route_routed _ (fun m hm => inputByte_source _ _ hm) n

theorem boundaryWalk_unlisted {s : State} (din : List (List Bool)) {n : Nat} (hn : ∀ e ∈ s.fab.conn, e.1 ≠ n) :
    tabGet (fun _ => (0xFF : Byte)) (s.boundaryWalk din).1 n = 0xFF :=
  walk_get_unlisted _ _ (by rwa [(portsEnd_fabric s din).1])

/-! ### The mailboxes (R441, R442) -/

/-- CORE_MBX_FRAME gives the new frame, and CORE_MBX_RX the bytes that go out. -/
theorem boundaryMbx_regs (s : State) (din : List (List Bool)) {n : Nat} (hn : n < 16) :
    (s.boundaryMbx din).reg .CORE_MBX_FRAME n = s.frame + 1 ∧ ∀ j < 16, ∀ i < 4,
      fieldOf ((s.boundaryMbx din).reg .CORE_MBX_RX n j) (8 * i) 8 =
        (tabGet (fun _ => (0xFF : Byte)) s.fab.routed (15360 + 64 * n + 4 * j + i)).toNat := by
  have hview := withInputs_view (s.frameEnds din) (s.boundaryWalk din).2
  have hends := frameEnds_view s din
  rw [counted_view] at hview
  simp only [State.routingView, RoutingView.mk.injEq] at hview hends
  obtain ⟨hf, -, -, -, -, -, ho, -⟩ := hview
  obtain ⟨hf', -, -, -, -, -, ho', -⟩ := hends
  obtain ⟨hframe, hrx⟩ := (mailboxesIn (List.range 16) (fun _ h => List.mem_range.mp h)
    ((s.frameEnds din).withInputs (s.boundaryWalk din).2)).2 n hn
  unfold State.boundaryMbx
  refine ⟨?_, fun j hj i hi => ?_⟩
  · rw [hframe, if_pos (List.mem_range.mpr hn), hf, hf']
  · rw [hrx j hj, if_pos (List.mem_range.mpr hn), State.mbxWord, fieldOf_leNat _ hi, State.outByte, ho, ho']

/-- The mailbox slots of the frame that begins present the bytes of CORE_MBX_TX. -/
theorem boundarySources_mailbox (s : State) (din : List (List Bool)) {n j i : Nat} (hn : n < 16) (hj : j < 16)
    (hi : i < 4) : (tabGet (fun _ => (0xFF : Byte)) ((s.frameEnds din).counted (s.boundaryWalk din).2).sources
      (15360 + 64 * n + 4 * j + i)).toNat = fieldOf (s.reg .CORE_MBX_TX n j) (8 * i) 8 := by
  have hview := counted_view (s.frameEnds din) (s.boundaryWalk din).2
  have hends := frameEnds_view s din
  simp only [State.routingView, RoutingView.mk.injEq] at hview hends
  obtain ⟨-, -, -, -, -, -, -, -, hm, -⟩ := hview
  obtain ⟨-, -, -, -, -, -, -, -, hm', -⟩ := hends
  have htx : RegKind.CORE_MBX_TX.has n j := ⟨hn, hj⟩
  have hreg : ((s.frameEnds din).counted (s.boundaryWalk din).2).reg .CORE_MBX_TX n j = s.reg .CORE_MBX_TX n j := by
    rw [← mbxReg_eq _ (by decide) htx, hm, hm', mbxReg_eq _ (by decide) htx]
  have hslot : 15360 + 64 * n + 4 * j + i = 15360 + 4 * (16 * n + j) + i := by omega
  rw [hslot, sources_mailbox _ (by omega) hi, show (16 * n + j) / 16 = n by omega, show (16 * n + j) % 16 = j by omega,
    hreg, BitVec.toNat_ofNat, Nat.mod_eq_of_lt (fieldOf_lt _ _ _)]

/-! ### The command -/

/-- The logic after every command is aside of what the fabric routes. -/
theorem Settling.aside {s t : State} (h : Settling s t) : Aside s t :=
  h.kept.routingView_eq (by decide) (mbxReg_congr fun k hk i j hi =>
    have ⟨_, hstatus, hqsum⟩ := mbxKinds_not_book k hk
    h.reg k i j (not_settles hi hstatus hqsum))

/-- Settles O41: all of the boundary's work but the routing, the count and the mailboxes is aside of them. -/
theorem frameBoundaryRoutesAndCounts : Obligations.FrameBoundaryRoutesAndCounts := by
  unfold Obligations.FrameBoundaryRoutesAndCounts
  intro din s hu hr
  refine ends_run (f := fun s => s.frameBoundary din) rfl fun t ht => ?_
  have hview : t.routingView = _ := Eq.trans ht.aside (frameBoundary_view hu hr din)
  simp only [State.routingView, RoutingView.mk.injEq] at hview
  obtain ⟨hframe, hsys, hclk, hconn, hsel, hsrc, hout, hrouted, hmbx, hrtc, hlatches, hchg, hcommits, hnext, hpend,
    hmaint, hnvm, haon, hscrub, hlast⟩ := hview
  have hreg {k : RegKind} (hk : k ∈ mbxKinds) {i j : Nat} (hi : k.has i j) : t.reg k i j = (s.boundaryMbx din).reg k i j := by
    rw [← mbxReg_eq t hk hi, hmbx, mbxReg_eq _ hk hi]
  refine ⟨hframe, hsys, hout, hclk, hconn, hsel, fun e he => ?_, fun n hn => ?_, fun n hn => ?_, fun p hp => ?_⟩
  · rw [hrouted]
    exact boundaryWalk_routed din ⟨e, he, rfl⟩
  · rw [hrouted]
    exact boundaryWalk_unlisted din hn
  · obtain ⟨hmframe, hrx⟩ := boundaryMbx_regs s din hn
    refine ⟨?_, fun j hj i hi => ⟨?_, ?_⟩⟩
    · rw [hreg (by decide) ⟨hn, by decide⟩, hmframe, hframe]
    · rw [hreg (by decide) ⟨hn, hj⟩, hrx j hj i hi]
    · rw [hsrc, boundarySources_mailbox s din hn hj hi]
  · cases p
    case rtc => exact hrtc
    case latches => exact hlatches
    case changes => exact hchg
    case commits => exact ⟨hcommits, hnext⟩
    case pend => exact hpend
    case maint => exact hmaint
    case nvm => exact hnvm
    case aon => exact haon
    case scrub => exact hscrub
    case last => exact hlast
    all_goals exact absurd (by decide) hp

end Sys2Proof.Machine
end

section
/-!
PROOFS. The time registers: reads and writes of SYS_TIME and the RTC by halves, the measurement of the FRC, and O13.
-/
namespace Sys2Proof.Machine

/-! ### Commands that read or write a named register -/

/-- A command that reads a register which its master may read. -/
theorem ends_read {c : Instr} {m : Master} {k : RegKind} {i j : Nat} {s u : State} {v : Word} {P : State → Prop}
    (hc : exec c s = run (fun s => s.busRead m (k.addr i j)) s) (h : CanRead m k i j s) (hi : k.has i j)
    (hr : s.readReg m ⟨k, i, j, false⟩ = (u, v)) (hP : ∀ t, Settling (u.seen m v false) t → P t) : Ends c s P :=
  ends_run hc fun t ht => by
    rw [busRead_ok h hi, hr] at ht
    exact hP t ht

/-- A command that writes a register which its master may write. -/
theorem ends_write {c : Instr} {m : Master} {k : RegKind} {i j : Nat} {s u : State} {v : Word} {P : State → Prop}
    (hc : exec c s = run (fun s => s.regWrite m k i j v) s) (h : CanWrite m k i j s) (hi : k.has i j)
    (hk : k.info.wr ≠ .active) (hv : codesBad k v = false) (hw : s.writeReg m ⟨k, i, j, false⟩ v = (u, false))
    (hP : ∀ t, Settling (u.seen m 0 false) t → P t) : Ends c s P :=
  ends_run hc fun t ht => by
    rw [regWrite_ok h hi hk hv, hw] at ht
    exact hP t ht

theorem Only.setLatch (s : State) (m : Master) (a : Nat) (v : Word) : Only [.latches] [] [] s (s.setLatch m a v) :=
  .of_kept (s := s) (t := s.setLatch m a v) (fun p hp => by cases p <;> simp_all [Part.same]) rfl rfl rfl _

/-- What a change leaves, its master's answer and the logic after the command leave too. -/
theorem Only.answered {b : List Part} {r : List Nat} {s u t : State} {m : Master} {v : Word} {e : Bool}
    (h : Only b r [] s u) (ht : Settling (u.seen m v e) t) (hb : .last ∈ b) : Only b r [] s t :=
  (h.trans ((Only.seen u m v e).mono (by simpa using hb) (by simp))).settled ht

/-! ### The RTC (R77) -/

/-- A read of RTC_LO. -/
theorem ends_rtcLoRead {m : Master} {s : State} (h : CanRead m .RTC_LO 0 0 s) :
    Ends (.rtcLoRead m) s fun t =>
      Answered m (s.rtc.setWidth 32) false t ∧
      t.latches = (s.setLatch m rtcHiAddr ((s.rtc >>> 32).setWidth 32)).latches ∧
      Only [.last, .latches] [] [] s t :=
  ends_read rfl h (by decide) rfl fun _ ht =>
    ⟨ht.answered, ht.1 .latches (by simp),
      ((Only.setLatch s m rtcHiAddr ((s.rtc >>> 32).setWidth 32)).mono (by simp) (by simp)).answered ht (by simp)⟩

/-- The two halves written, as one number. -/
theorem rtcHalves (hi lo : Word) : BitVec.ofNat 48 ((hi.toNat % 0x10000) * 0x100000000 + lo.toNat) =
    hi.setWidth 16 ++ lo := by
  apply BitVec.eq_of_toNat_eq
  rw [BitVec.toNat_ofNat, BitVec.toNat_append, BitVec.toNat_setWidth, ← Nat.shiftLeft_add_eq_or_of_lt lo.isLt,
    Nat.shiftLeft_eq]
  omega

theorem ends_rtcLoWrite {m : Master} {v : Word} {s : State} (h : CanWrite m .RTC_LO 0 0 s) :
    Ends (.rtcLoWrite m v) s fun t =>
      t.rtc = s.rtc ∧ t.reg .RTC_LO = v ∧ Answered m 0 false t ∧ Only [.last] [RegKind.RTC_LO.addr 0 0] [] s t :=
  ends_write rfl h (by decide) (by decide) rfl (u := s.setReg .RTC_LO v) rfl fun t ht => by
    refine ⟨ht.1 .rtc (by simp), ?_, ht.answered,
      (Only.setReg s .RTC_LO v 0 0 _ (.inl (by simp))).answered ht (by simp)⟩
    rw [ht.reg .RTC_LO 0 0 (by decide)]
    exact s.setReg_reg .RTC_LO v 0 0

theorem writeReg_rtcHi (s : State) (m : Master) (v : Word) :
    s.writeReg m ⟨.RTC_HI, 0, 0, false⟩ v = ({ s with rtc := v.setWidth 16 ++ s.reg .RTC_LO }, false) := by
  rw [← rtcHalves]
  rfl

theorem ends_rtcHiWrite {m : Master} {v : Word} {s : State} (h : CanWrite m .RTC_HI 0 0 s) :
    Ends (.rtcHiWrite m v) s fun t =>
      t.rtc = v.setWidth 16 ++ s.reg .RTC_LO ∧ Answered m 0 false t ∧ Only [.last, .rtc] [] [] s t :=
  ends_write rfl h (by decide) (by decide) rfl (writeReg_rtcHi s m v) fun t ht => by
    have hu (x : BitVec 48) : Only [.last, .rtc] [] [] s { s with rtc := x } :=
      .of_kept (s := s) (t := { s with rtc := x }) (fun p hp => by cases p <;> simp_all [Part.same]) rfl rfl rfl _
    exact ⟨ht.1 .rtc (by simp), ht.answered, (hu _).answered ht (by simp)⟩

/-! ### SYS_TIME (R73, R75) -/

/-- The time is that of the strobe and of the cycles of the frame passed since: the count held while the clocks are
stopped, and otherwise a number not below what was seen before. -/
theorem sysNow_eq (s : State) : ∃ d x, s.sysNow = (s.sys + BitVec.ofNat 64 d,
      { s with clk := { s.clk with into := d }, freeCtr := x }) ∧
    (s.divRun = false → d = s.clk.into) ∧ s.clk.into ≤ d ∧ (s.clk.into < 3072 → d < 3072) := by
  unfold State.sysNow
  split
  next hr =>
    refine ⟨s.intoFrame.1, s.freeCtr + 1, rfl, fun h => absurd (hr.symm.trans h) (by decide), Nat.le_add_right _ _,
      fun hlt => ?_⟩
    have := Nat.mod_lt s.free.1 (Nat.sub_pos_of_lt hlt)
    show s.clk.into + s.free.1 % (3072 - s.clk.into) < 3072
    omega
  next => exact ⟨s.clk.into, s.freeCtr, rfl, fun _ => rfl, Nat.le_refl _, id⟩

theorem ends_sysTimeLoRead {m : Master} {s : State} (h : CanRead m .SYS_TIME_LO 0 0 s) :
    Ends (.sysTimeLoRead m) s fun t =>
      (∃ d : Nat, let x := s.sys + BitVec.ofNat 64 d
        Answered m (x.setWidth 32) false t ∧ t.latch m sysHiAddr = (x >>> 32).setWidth 32 ∧
        (s.divRun = false → d = s.clk.into) ∧ s.clk.into ≤ d ∧ (s.clk.into < 3072 → d < 3072) ∧
        t.clk = { s.clk with into := d }) ∧
      Only [.last, .latches, .free, .clocks] [] [] s t := by
  obtain ⟨d, x, hnow, hstop, hle, hlt⟩ := sysNow_eq s
  let w : State := { s with clk := { s.clk with into := d }, freeCtr := x }
  let time := s.sys + BitVec.ofNat 64 d
  have hr : s.readReg m ⟨.SYS_TIME_LO, 0, 0, false⟩ =
      (w.setLatch m sysHiAddr ((time >>> 32).setWidth 32), time.setWidth 32) := by
    show s.sysTimeLo m = _
    unfold State.sysTimeLo
    rw [hnow]
  have hw : Only [.last, .latches, .free, .clocks] [] [] s w :=
    .of_kept (s := s) (t := w) (fun p hp => by cases p <;> simp_all [Part.same, w]) rfl rfl rfl _
  refine ends_read rfl h (by decide) hr fun t ht => ⟨⟨d, ht.answered, ?_, hstop, hle, hlt, ht.1 .clocks (by simp)⟩,
    (hw.trans ((Only.setLatch w m _ _).mono (by simp) (by simp))).answered ht (by simp)⟩
  have hl : t.latches = (w.setLatch m sysHiAddr ((time >>> 32).setWidth 32)).latches := ht.1 .latches (by simp)
  rw [State.latch, hl]
  exact w.setLatch_latch m sysHiAddr _

/-! ### The FRC (R72) -/

theorem ends_frcMeasure {s : State} (h : s.divRun = true) (hz : BitVec 25) :
    Ends (.frcMeasure hz) s fun t =>
      t.f F.CLK_FRC_MEAS_FRC_HZ = hz.toNat ∧ Only [] [RegKind.CLK_FRC_MEAS.addr 0 0] [] s t :=
  ends_run (f := fun s => s.frcMeasure hz.toNat) rfl fun t ht => by
    rw [State.frcMeasure, if_pos h] at ht
    refine ⟨?_, (Only.setF s F.CLK_FRC_MEAS_FRC_HZ _ 0 0 _ (.inl (by simp))).settled ht⟩
    rw [ht.field _ 0 0 (by decide), State.setF_f _ _ _ _ _ (by decide), Nat.mod_eq_of_lt hz.isLt]

/-- Settles O13: a read of a low half latches the high one, and SYS_TIME is the strobe's time and the cycles since. -/
theorem timeRegistersLatchAndLoad : Obligations.TimeRegistersLatchAndLoad := by
  refine ⟨fun m s h => ?_, fun _ _ _ h => ends_rtcLoWrite h, fun _ _ _ h => ends_rtcHiWrite h,
    fun _ _ h => ends_sysTimeLoRead h, fun hz _ h => ends_frcMeasure h hz⟩
  obtain ⟨t, ht, hans, hl, honly⟩ := ends_rtcLoRead h
  refine ⟨t, ht, hans, ?_, fun _ => rfl, fun a ha => ?_, honly⟩
  · rw [State.latch, hl]
    exact s.setLatch_latch m rtcHiAddr _
  · rw [hl]
    simp only [State.setLatch]
    apply tabGet_put_ne
    exact ha

end Sys2Proof.Machine
end

section
/-!
PROOFS. Changes that stay within some parts of the machine and registers of some kinds, and what the changes of a core,
of ports and of the panel stay within as clocks stop.
-/
namespace Sys2Proof.Machine

/-! ### Parts -/

theorem Kept.clk (s : State) (x : Clocks) : Kept [.clocks] s { s with clk := x } :=
  fun p hp => by cases p <;> simp_all [Part.same]

theorem Kept.freeCtr (s : State) (x : Nat) : Kept [.free] s { s with freeCtr := x } :=
  fun p hp => by cases p <;> simp_all [Part.same]

theorem Kept.audio (s : State) (x : Tab Audio) : Kept [.audio] s { s with audio := x } :=
  fun p hp => by cases p <;> simp_all [Part.same]

theorem Kept.pnl (s : State) (x : Panel) : Kept [.panel] s { s with pnl := x } :=
  fun p hp => by cases p <;> simp_all [Part.same]

theorem Kept.pwr (s : State) (x : Power) : Kept [.power] s { s with pwr := x } :=
  fun p hp => by cases p <;> simp_all [Part.same]

theorem Kept.setCore (s : State) (n : Nat) (c : Core) : Kept [.cores] s (s.setCore n c) :=
  fun p hp => by cases p <;> simp_all [Part.same]

/-! ### Parts and kinds of registers -/

/-- A change of no part but those listed, of no register but those of the kinds listed, and perhaps of events. -/
structure Within (ps : List Part) (ks : List RegKind) (s t : State) : Prop where
  kept : Kept (ps ++ [.regs, .events]) s t
  regs : RegsKept (regsOf ks) s t

theorem mem_regsOf {ks : List RegKind} {k : RegKind} (hk : k ∈ ks) {i j : Nat} (hi : k.has i j) :
    k.addr i j ∈ regsOf ks := by
  obtain ⟨h1, h2⟩ := hi
  simp only [regsOf, List.mem_flatMap, List.mem_map, List.mem_range]
  exact ⟨k, hk, i, h1, j, h2, rfl⟩

theorem regsOf_kinds {ks : List RegKind} : ∀ a ∈ regsOf ks, ∃ k ∈ ks, ∃ i j, k.has i j ∧ a = k.addr i j := by
  intro a ha
  simp only [regsOf, List.mem_flatMap, List.mem_map, List.mem_range] at ha
  obtain ⟨k, hk, i, hi, j, hj, rfl⟩ := ha
  exact ⟨k, hk, i, j, ⟨hi, hj⟩, rfl⟩

theorem regsOf_mono {ks ls : List RegKind} (h : ks ⊆ ls) : regsOf ks ⊆ regsOf ls := by
  intro a ha
  obtain ⟨k, hk, i, j, hi, rfl⟩ := regsOf_kinds a ha
  exact mem_regsOf (h hk) hi

theorem bookRegs_subset {n : Nat} (hn : n < 17) {ks : List RegKind} (h : bookKinds ⊆ ks) : bookRegs n ⊆ regsOf ks := by
  intro a ha
  obtain ⟨k, hk, i, j, hi, rfl⟩ := bookRegs_kinds hn a ha
  exact mem_regsOf (h hk) hi

namespace Within

theorem refl (ps : List Part) (ks : List RegKind) (s : State) : Within ps ks s s := ⟨Kept.refl _ _, RegsKept.refl _ _⟩

theorem mono {ps qs : List Part} {ks ls : List RegKind} {s t : State} (h : Within ps ks s t) (hb : ps ⊆ qs ∧ ks ⊆ ls) :
    Within qs ls s t :=
  ⟨h.kept.mono (List.append_subset.mpr ⟨fun _ hx => List.mem_append_left _ (hb.1 hx), List.subset_append_right _ _⟩),
    h.regs.mono (regsOf_mono hb.2)⟩

section
variable {ps : List Part} {ks : List RegKind} {s t u : State} (h : Within ps ks s t)
include h

theorem trans (g : Within ps ks t u) : Within ps ks s u := ⟨h.kept.trans g.kept, h.regs.trans g.regs⟩

/-- Followed by a change within fewer parts and kinds. -/
theorem next {qs : List Part} {ls : List RegKind} (g : Within qs ls t u) (hb : qs ⊆ ps ∧ ls ⊆ ks) :
    Within ps ks s u := h.trans (g.mono hb)

theorem ite {c : Prop} [Decidable c] (g : Within ps ks s u) : Within ps ks s (if c then t else u) := by
  split <;> assumption

theorem foldl {α : Type} {f : State → α → State} {l : List α} (hf : ∀ v, ∀ a ∈ l, Within ps ks v (f v a)) :
    Within ps ks s (l.foldl f t) := by
  induction l generalizing t with
  | nil => exact h
  | cons a l ih => exact ih (h.trans (hf t a (by simp))) fun v b hb => hf v b (by simp [hb])

/-- Followed by a change of one part. -/
theorem part {p : Part} (g : Kept [p] t u) (hp : p ∈ ps ∧ p ≠ .regs) : Within ps ks s u := by
  have hu : u.regs = t.regs := g .regs (by simpa using Ne.symm hp.2)
  exact h.trans ⟨g.mono (by simp [hp.1]), RegsKept.of_eq hu _⟩

theorem setReg {k : RegKind} {v : Word} {i j : Nat} (hi : k ∈ ks ∧ k.has i j) : Within ps ks s (t.setReg k v i j) :=
  h.trans ⟨(Kept.setReg t k v i j).mono (by simp), RegsKept.setReg t k v i j _ (.inl (mem_regsOf hi.1 hi.2))⟩

theorem setF {f : FieldRef} {n i j : Nat} (hi : f.k ∈ ks ∧ f.k.has i j) : Within ps ks s (t.setF f n i j) := h.setReg hi

theorem setB {f : FieldRef} {b : Bool} {i j : Nat} (hi : f.k ∈ ks ∧ f.k.has i j) : Within ps ks s (t.setB f b i j) :=
  h.setReg hi

theorem raiseAt {n : Nat} {o : Option Nat} {w : Word} : Within ps ks s (t.raiseAt n o w) :=
  h.trans ⟨(Kept.raiseAt t n o w).mono (by simp), RegsKept.of_eq (by simp) _⟩

theorem raise {n : Nat} : Within ps ks s (t.raise n) := h.raiseAt

theorem settling (g : Settling t u) : Within ps ks s u := h.trans ⟨g.1.mono (by simp), g.2.mono (by simp)⟩

/-- The report of an access. -/
theorem seen {m : Master} {v : Word} {e : Bool} (hp : .last ∈ ps) : Within ps ks s (t.seen m v e) := by
  obtain ⟨hkept, hregs, -⟩ := Only.seen t m v e
  exact h.trans ⟨hkept.mono (by simp [hp]), hregs.mono (by simp)⟩

/-- A register of another kind, not one that settles, is as it was. -/
theorem reg {k : RegKind} {i j : Nat} (hi : k.has i j ∧ k ∉ ks ∧ k ≠ .PWR_STATUS ∧ k ≠ .QSUM) :
    t.reg k i j = s.reg k i j := by
  obtain ⟨hi, hk, hstatus, hqsum⟩ := hi
  exact h.regs.reg k i j (not_mem_of_kinds regsOf_kinds hk hi) (not_settles hi hstatus hqsum)

theorem field (f : FieldRef) {i j : Nat} (hi : f.k.has i j ∧ f.k ∉ ks ∧ f.k ≠ .PWR_STATUS ∧ f.k ≠ .QSUM) :
    t.f f i j = s.f f i j := by
  unfold State.f; rw [h.reg hi]

theorem bool (f : FieldRef) {i j : Nat} (hi : f.k.has i j ∧ f.k ∉ ks ∧ f.k ≠ .PWR_STATUS ∧ f.k ≠ .QSUM) :
    t.b f i j = s.b f i j := by
  unfold State.b; rw [h.field f hi]

end

/-- A part that is not listed is as it was. -/
theorem same {ps : List Part} {ks : List RegKind} {s t : State} (h : Within ps ks s t) (p : Part)
    (hp : p ∉ ps ++ [.regs, .events]) : p.same s t := h.kept p hp

end Within

/-! ### Cores -/

/-- The parts that the cycles of cores and a new record of a core change. -/
def coreParts : List Part := [.cores, .counters, .ecc, .free]

theorem CoreOnly.within {regs : List Nat} {n : Nat} {s t : State} (h : CoreOnly regs n s t) {ks : List RegKind}
    (hr : regs ⊆ regsOf ks) : Within coreParts ks s t :=
  ⟨h.kept.mono (by simp [coreParts]), h.regs.mono hr⟩

theorem Beside.within {n : Nat} {s t : State} (h : Beside n s t) (hn : n < 17) : Within coreParts bookKinds s t :=
  (CoreOnly.beside h (List.Subset.refl _)).within (bookRegs_subset hn (List.Subset.refl _))

theorem Beside.free (n : Nat) (s : State) : Beside n s s.free.2 :=
  .of_kept ((Kept.freeCtr s (s.freeCtr + 1)).mono (by simp)) (RegsKept.of_eq rfl _)

theorem keepPlace_within (s : State) {n : Nat} (hn : n < 17) : Within coreParts bookKinds s (s.keepPlace n) := by
  have hs : Within coreParts bookKinds s (s.free.2.spend n 0 (s.free.1 % 33) []) :=
    ((Beside.free n s).trans (Beside.spend _ n 0 _ [])).within hn
  exact .ite (hs.part (Kept.setCore _ n _) (by decide)) (.refl _ _ s)

theorem coreClockStop_within (s : State) {n : Nat} (hn : n < 17) :
    Within coreParts bookKinds s (s.coreClockStop n) := by
  unfold State.coreClockStop
  extract_lets s1 c s2
  have h1 : Within coreParts bookKinds s s1 := .ite (.refl _ _ s) (keepPlace_within s hn)
  have h2 : Within coreParts bookKinds s s2 := h1.part (Kept.setCore _ n _) (by decide)
  exact .ite (.setF (h2.setF ⟨by decide, hn, by decide⟩) ⟨by decide, hn, by decide⟩) h2

/-! ### Audio ports and the panel -/

theorem audLose_within (s : State) {p : Nat} (hp : p < 8) :
    Within [.audio] [.AUD_STATUS, .AUD_UNDER_CNT, .AUD_OVER_CNT] s (s.audLose p) := by
  unfold State.audLose
  extract_lets a _ s1 s2
  have h2 : Within [.audio] [.AUD_STATUS, .AUD_UNDER_CNT, .AUD_OVER_CNT] s s2 :=
    (((Within.refl _ _ s |>.part (Kept.audio s _) (by decide)).setF ⟨by decide, hp, by decide⟩).setF
      ⟨by decide, hp, by decide⟩).setF ⟨by decide, hp, by decide⟩
  exact .ite h2.raise h2

theorem pnlOff_within (s : State) : Within [.panel] [.PNL_STATUS] s s.pnlOff := by
  have hdark : Within [.panel] [.PNL_STATUS] s s.pnlDark :=
    .part (.setF (.setF (.refl _ _ s) (by decide)) (by decide)) (Kept.pnl _ _) (by decide)
  unfold State.pnlOff
  have hoff := hdark.part (Kept.pnl _ { s.pnlDark.pnl with ven := false, venLow := false, wait := 0 }) (by decide)
  exact .ite hoff (.raise (hoff.setF (by decide)))

end Sys2Proof.Machine
end

section
/-!
PROOFS. The stop of the derived clocks, the return of the eft to the FRC.
-/
namespace Sys2Proof.Machine

/-! ### Fields of a word -/

/-- A field that is given the value it has. -/
theorem withField_of_fieldOf {w : Word} {lo width n : Nat} (h : fieldOf w lo width = n) :
    withField w lo width n = w := by
  subst h
  unfold withField fieldOf
  apply BitVec.eq_of_getLsbD_eq
  intro i hi
  simp only [BitVec.getLsbD_or, BitVec.getLsbD_and, BitVec.getLsbD_not, BitVec.getLsbD_ofNat,
    Nat.testBit_shiftLeft, Nat.testBit_two_pow_sub_one, Nat.testBit_mod_two_pow, Nat.testBit_shiftRight, hi]
  by_cases hlo : lo ≤ i
  · rw [Nat.add_sub_cancel' hlo]
    by_cases hw : i - lo < width <;> simp [hlo, hw, BitVec.testBit_toNat]
  · simp [hlo]

theorem State.b_eq {s : State} {f : FieldRef} {w : Word} {i j : Nat} (h : s.reg f.k i j = w) :
    s.b f i j = decide (fieldOf w f.lo f.w ≠ 0) := by
  unfold State.b State.f; rw [h]

/-- The value that `setB` gives to a field. -/
abbrev bit (b : Bool) : Nat := if b then 1 else 0

/-- A field of one bit that has the value already. -/
theorem withField_bit {w : Word} {lo : Nat} {b : Bool} (h : decide (fieldOf w lo 1 ≠ 0) = b) :
    withField w lo 1 (bit b) = w := by
  have hlt := fieldOf_lt w lo 1
  refine withField_of_fieldOf ?_
  subst h
  by_cases h0 : fieldOf w lo 1 = 0
  · simp [bit, h0]
  · simp only [bit, h0, ne_eq, not_false_eq_true, decide_true, if_true]
    omega

theorem decide_bit (b : Bool) : decide (bit b % 2 ^ 1 ≠ 0) = b := by cases b <;> decide

/-! ### The eft's clock source (R80, R81, R86) -/

/-- The registers that a change of the eft's clock may touch. -/
def eftRegs : List Nat := RegKind.CLK_EFT_SRC.addr 0 0 :: bookRegs 16

def eftKinds : List RegKind := .CLK_EFT_SRC :: bookKinds

theorem eftRegs_subset : eftRegs ⊆ regsOf eftKinds :=
  List.cons_subset.mpr ⟨mem_regsOf (by decide) (by decide), bookRegs_subset (by decide) (List.subset_cons_self _ _)⟩

/-- SRC and CUR cleared. -/
theorem withField_src_cur (w : Word) : withField (withField w 0 1 0) 1 1 0 = w &&& 0xFFFFFFFC := by
  simp only [withField, Nat.zero_mod, Nat.zero_shiftLeft, BitVec.ofNat_eq_ofNat, BitVec.or_zero, BitVec.and_assoc]
  congr 1

theorem eftSwitch_coreOnly (s : State) (core : Bool) : CoreOnly eftRegs 16 s (s.eftSwitch core) := by
  have hfree : CoreOnly eftRegs 16 s s.free.2.free.2 :=
    .beside ((Beside.free 16 s).trans (Beside.free 16 _)) (List.subset_cons_self _ _)
  have hset : CoreOnly eftRegs 16 s (s.free.2.free.2.setB F.CLK_EFT_SRC_CUR core) :=
    hfree.trans (.setReg _ _ _ _ _ (by simp [eftRegs]))
  unfold State.eftSwitch
  split
  · exact .beside (Beside.refl 16 s) (List.subset_cons_self _ _)
  · show CoreOnly eftRegs 16 s (if _ then _ else _)
    split
    · exact hset.trans (.beside (Beside.spend _ 16 _ _ _) (List.subset_cons_self _ _))
    · exact hset

theorem eftSwitch_src (s : State) (core : Bool) :
    (s.eftSwitch core).reg .CLK_EFT_SRC = withField (s.reg .CLK_EFT_SRC) 1 1 (bit core) := by
  have hset : (s.free.2.free.2.setB F.CLK_EFT_SRC_CUR core).reg .CLK_EFT_SRC =
      withField (s.reg .CLK_EFT_SRC) 1 1 (bit core) := State.setReg_reg s.free.2.free.2 _ _ _ _
  unfold State.eftSwitch
  split
  next h => exact (withField_bit h).symm
  next h =>
    show (if _ then _ else _ : State).reg _ = _
    split
    · exact (((Beside.spend _ 16 _ _ _).within (by decide)).reg (by decide)).trans hset
    · exact hset

theorem eftToFrc_within (s : State) : Within coreParts eftKinds s s.eftToFrc := by
  have h : Within coreParts eftKinds s (if s.b F.CLK_EFT_SRC_CUR then s.keepPlace 16 else s) :=
    .ite ((keepPlace_within s (by decide)).mono (by decide)) (.refl _ _ s)
  exact (h.setF (by decide)).setF (by decide)

theorem eftToFrc_src (s : State) : s.eftToFrc.reg .CLK_EFT_SRC = s.reg .CLK_EFT_SRC &&& 0xFFFFFFFC := by
  have h : Within coreParts bookKinds s (if s.b F.CLK_EFT_SRC_CUR then s.keepPlace 16 else s) :=
    .ite (keepPlace_within s (by decide)) (.refl _ _ s)
  rw [← withField_src_cur, ← h.reg (k := .CLK_EFT_SRC) (i := 0) (j := 0) (by decide)]
  unfold State.eftToFrc State.setF
  simp only [State.setReg_reg]

/-! ### The derived clocks and the PLL stop (R83, R86, R87, R92) -/

/-- What stops with the derived clocks. -/
def State.halted (s : State) : State := coreNums.foldl State.coreClockStop (audPorts.foldl State.audLose s).pnlOff

def workParts : List Part := [.audio, .panel] ++ coreParts

def workKinds : List RegKind := [.AUD_STATUS, .AUD_UNDER_CNT, .AUD_OVER_CNT, .PNL_STATUS] ++ bookKinds

theorem halted_within (s : State) : Within workParts workKinds s s.halted := by
  have haud : Within workParts workKinds s (audPorts.foldl State.audLose s) :=
    (Within.refl _ _ s).foldl fun v p hp => (audLose_within v (by fin_cases hp <;> decide)).mono (by decide)
  exact (haud.next (pnlOff_within _) (by decide)).foldl fun v n hn =>
    (coreClockStop_within v (List.mem_range.mp hn)).mono (by decide)

theorem stopClocks_stopped {s : State} (h : s.divRun = false) (strobe : Bool) : s.stopClocks strobe = s := by
  unfold State.stopClocks; rw [h]; rfl

/-- What stops with the clocks leaves a state `u`; then DIV_RUN falls, and the count of the frame is held. -/
theorem stopClocks_running {s : State} (h : s.divRun = true) (strobe : Bool) :
    ∃ u d x, Within workParts workKinds s u ∧ s.stopClocks strobe =
      { u.setF F.CLK_ROOT_STATUS_DIV_RUN 0 with
        clk := { u.clk with midFrame := !strobe, into := d }, freeCtr := x } := by
  have hw := halted_within s
  unfold State.stopClocks
  rw [h]
  simp only [Bool.not_true, Bool.false_eq_true, if_false]
  rw [← State.halted]
  generalize s.halted = u at hw
  cases strobe
  · exact ⟨u, u.intoFrame.1, u.freeCtr + 1, hw, rfl⟩
  · exact ⟨u, 0, u.freeCtr, hw, rfl⟩

def haltParts : List Part := .clocks :: workParts

def haltKinds : List RegKind := .CLK_ROOT_STATUS :: workKinds

theorem stopClocks_within (s : State) (strobe : Bool) : Within haltParts haltKinds s (s.stopClocks strobe) := by
  cases h : s.divRun
  · rw [stopClocks_stopped h]; exact .refl _ _ s
  · obtain ⟨u, d, x, hu, he⟩ := stopClocks_running h strobe
    have hd : Within haltParts haltKinds s (u.setF F.CLK_ROOT_STATUS_DIV_RUN 0) :=
      (hu.mono (by decide)).setF (by decide)
    rw [he]
    exact (hd.part (Kept.clk _ { u.clk with midFrame := !strobe, into := d }) (by decide)).part
      (Kept.freeCtr _ x) (by decide)

theorem stopClocks_status (s : State) (strobe : Bool) :
    (s.stopClocks strobe).reg .CLK_ROOT_STATUS = withField (s.reg .CLK_ROOT_STATUS) 2 1 0 := by
  cases h : s.divRun
  · rw [stopClocks_stopped h]; exact (withField_bit h).symm
  · obtain ⟨u, d, x, hu, he⟩ := stopClocks_running h strobe
    rw [he, ← hu.reg (k := .CLK_ROOT_STATUS) (i := 0) (j := 0) (by decide)]
    exact u.setReg_reg .CLK_ROOT_STATUS _ 0 0

theorem stopClocks_oscEn (s : State) (strobe : Bool) : (s.stopClocks strobe).clk.oscEn = s.clk.oscEn := by
  cases h : s.divRun
  · rw [stopClocks_stopped h]
  · obtain ⟨u, d, x, hu, he⟩ := stopClocks_running h strobe
    have hclk : u.clk = s.clk := hu.same .clocks (by decide)
    rw [he, ← hclk]

theorem setLock_within (s : State) (b : Bool) : Within [] [.CLK_ROOT_STATUS] s (s.setLock b) :=
  .ite (.refl _ _ s) (((Within.refl _ _ s).setB (by decide)).raise)

theorem setLock_status (s : State) (b : Bool) :
    (s.setLock b).reg .CLK_ROOT_STATUS = withField (s.reg .CLK_ROOT_STATUS) 1 1 (bit b) := by
  unfold State.setLock
  split
  next h => exact (withField_bit h).symm
  next =>
    have hr := (Within.refl [] [] (s.setB F.CLK_ROOT_STATUS_PLL_LOCK b)).raise (n := 656)
    exact (hr.reg (k := .CLK_ROOT_STATUS) (i := 0) (j := 0) (by decide)).trans
      (State.setReg_reg s .CLK_ROOT_STATUS _ 0 0)

theorem stopPll_within (s : State) : Within [.clocks] [.CLK_ROOT_STATUS] s s.stopPll :=
  ((setLock_within s false).mono (by decide)).part (Kept.clk _ _) (by decide)

theorem stopPll_status (s : State) : s.stopPll.reg .CLK_ROOT_STATUS = withField (s.reg .CLK_ROOT_STATUS) 1 1 0 :=
  setLock_status s false

/-! ### Both together -/

def fallKinds : List RegKind := .CLK_EFT_SRC :: haltKinds

/-- The eft has gone to the FRC, and the derived clocks have stopped. -/
structure Falls (s t : State) : Prop where
  within : Within haltParts fallKinds s t
  src : t.reg .CLK_EFT_SRC = s.reg .CLK_EFT_SRC &&& 0xFFFFFFFC
  status : t.reg .CLK_ROOT_STATUS = withField (s.reg .CLK_ROOT_STATUS) 2 1 0
  oscEn : t.clk.oscEn = s.clk.oscEn

theorem Falls.stopClocks {s u : State} (h : Within coreParts eftKinds s u)
    (hsrc : u.reg .CLK_EFT_SRC = s.reg .CLK_EFT_SRC &&& 0xFFFFFFFC) : Falls s (u.stopClocks false) where
  within := (h.mono (ls := fallKinds) (by decide)).next (stopClocks_within u false) (by decide)
  src := by rw [(stopClocks_within u false).reg (by decide), hsrc]
  status := by rw [stopClocks_status, h.reg (by decide)]
  oscEn := by
    have hclk : u.clk = s.clk := h.same .clocks (by decide)
    rw [stopClocks_oscEn, hclk]

theorem falls_eftToFrc (s : State) : Falls s (s.eftToFrc.stopClocks false) :=
  .stopClocks (eftToFrc_within s) (eftToFrc_src s)

/-- PLL_EN falls (R83): the same by a switch of the clock. -/
theorem falls_eftSwitch (s : State) : Falls s (((s.setF F.CLK_EFT_SRC_SRC 0).eftSwitch false).stopClocks false) := by
  have hset : Within coreParts eftKinds s (s.setF F.CLK_EFT_SRC_SRC 0) := (Within.refl _ _ s).setF (by decide)
  refine .stopClocks (hset.trans ((eftSwitch_coreOnly _ false).within eftRegs_subset)) ?_
  rw [eftSwitch_src, ← withField_src_cur]
  exact congrArg (withField · 1 1 0) (s.setReg_reg .CLK_EFT_SRC _ 0 0)

end Sys2Proof.Machine
end

section
/-!
PROOFS. The commands that take the eft to the FRC and those that choose its clock, and O12.
-/
namespace Sys2Proof.Machine

/-! ### Bits -/

theorem fieldOf_bit (w : Word) (lo : Nat) : decide (fieldOf w lo 1 ≠ 0) = w.getLsbD lo := by
  have hm := Nat.mod_two_eq_zero_or_one (w.toNat >>> lo)
  rw [BitVec.getLsbD, Nat.testBit, Nat.and_comm, Nat.and_one_is_mod, fieldOf, pow_one]
  rcases hm with hm | hm <;> rw [hm] <;> rfl

/-! ### PLL_EN falls (R83) -/

theorem rootCtl_clear {s : State} {v : Word} (hv : v.getLsbD 0 = false) (hs : s.b F.CLK_ROOT_CTL_PLL_EN = true) :
    s.rootCtl v = (s.setReg .CLK_ROOT_CTL (v &&& 0xFFFF0003)).pllClear := by
  unfold State.rootCtl
  simp only [hv, hs, Bool.false_and, Bool.false_eq_true, if_false, Bool.not_false, Bool.and_self, if_true]

theorem ends_pllEnClear {m : Master} {v : Word} {s : State} (h : CanWrite m .CLK_ROOT_CTL 0 0 s)
    (hs : s.b F.CLK_ROOT_CTL_PLL_EN = true) : Ends (.pllEnClear m v) s fun t =>
      t.b F.CLK_ROOT_CTL_PLL_EN = false ∧ t.reg .CLK_EFT_SRC = s.reg .CLK_EFT_SRC &&& 0xFFFFFFFC ∧
      t.b F.CLK_ROOT_STATUS_DIV_RUN = false ∧ t.b F.CLK_ROOT_STATUS_PLL_LOCK = false ∧
      t.b F.CLK_ROOT_STATUS_OSC_OK = s.b F.CLK_ROOT_STATUS_OSC_OK ∧ t.clk.oscEn = s.clk.oscEn ∧ t.clk.pllOn = false ∧
      Answered m 0 false t ∧
      Kept [.regs, .events, .clocks, .last, .cores, .audio, .panel, .counters, .ecc, .free] s t := by
  let w : Word := v &&& 0xFFFFFFFE &&& 0xFFFF0003
  let s0 := s.setReg .CLK_ROOT_CTL w
  have hw : s.writeReg m ⟨.CLK_ROOT_CTL, 0, 0, false⟩ (v &&& 0xFFFFFFFE) = (s0.pllClear, false) := by
    show (s.rootCtl (v &&& 0xFFFFFFFE), false) = _
    rw [rootCtl_clear (by simp) hs]
  refine ends_write rfl h (by decide) (by decide) rfl hw fun t ht => ?_
  have hf := falls_eftSwitch s0
  have hp : Within (.last :: haltParts) fallKinds s0 t :=
    .settling (.seen (.next (hf.within.mono (by decide)) (stopPll_within _) (by decide)) (by decide)) ht
  have h0 : Within (.last :: haltParts) [.CLK_ROOT_CTL] s s0 := (Within.refl _ _ s).setReg (by decide)
  have hstatus : t.reg .CLK_ROOT_STATUS = withField (withField (s.reg .CLK_ROOT_STATUS) 2 1 0) 1 1 0 := by
    rw [ht.reg .CLK_ROOT_STATUS 0 0 (by decide), ← h0.reg (k := .CLK_ROOT_STATUS) (i := 0) (j := 0) (by decide),
      ← hf.status]
    exact stopPll_status _
  have hclk : t.clk = s0.pllClear.clk := ht.1 .clocks (by simp)
  have hsrc : t.reg .CLK_EFT_SRC = s.reg .CLK_EFT_SRC &&& 0xFFFFFFFC := by
    rw [ht.reg .CLK_EFT_SRC 0 0 (by decide), ← h0.reg (k := .CLK_EFT_SRC) (i := 0) (j := 0) (by decide), ← hf.src]
    exact (stopPll_within _).reg (by decide)
  refine ⟨?_, hsrc, ?_, ?_, ?_, ?_, ?_, ht.answered, (h0.kept.trans hp.kept).mono (by decide)⟩
  · rw [hp.bool F.CLK_ROOT_CTL_PLL_EN (by decide), State.b_eq (s.setReg_reg .CLK_ROOT_CTL w 0 0), fieldOf_bit]
    simp [w]
  · rw [State.b_eq hstatus]
    simp [fieldOf_withField, fieldOf_withField_ne]
  · rw [State.b_eq hstatus]
    simp [fieldOf_withField]
  · rw [State.b_eq hstatus, fieldOf_withField_ne _ _ _ _ _ _ (by decide), fieldOf_withField_ne _ _ _ _ _ _ (by decide)]
    rfl
  · rw [hclk]; exact hf.oscEn
  · rw [hclk]; rfl

/-! ### The oscillator fails (R85, R86) -/

theorem oscBad_iff (quiet edges : Nat) : oscBad quiet edges = true ↔ 16 ≤ quiet ∨ edges < 11059 ∨ 13517 < edges := by
  unfold oscBad
  exact decide_eq_true_iff

theorem ends_clkOscFail_idle {quiet edges : Nat} {s : State}
    (h : ¬(s.clk.oscEn = true ∧ (16 ≤ quiet ∨ edges < 11059 ∨ 13517 < edges))) :
    Ends (.clkOscFail quiet edges) s (Only [] [] [] s) :=
  ends_run (f := fun s => s.oscFail quiet edges) rfl fun t ht => by
    have hc : (s.clk.oscEn && oscBad quiet edges) = false := by
      rwa [Bool.eq_false_iff, ne_eq, Bool.and_eq_true, oscBad_iff]
    rwa [State.oscFail, hc] at ht

/-- What the monitor leaves when it declares failure, apart from a wake of the device. -/
def State.oscFailed (s : State) : State :=
  ((((s.eftToFrc.stopClocks false).stopPll.setF F.CLK_ROOT_STATUS_OSC_OK 0).setF F.CLK_ROOT_CTL_PLL_EN 0).setF
    F.CLK_ROOT_STATUS_OSC_FAIL 1).raise 657

theorem oscFail_eq {s : State} {quiet edges : Nat} (ho : s.clk.oscEn = true) (hb : oscBad quiet edges = true) :
    s.oscFail quiet edges = if s.dev = 2 then s.oscFailed.defer 12 else s.oscFailed := by
  unfold State.oscFail
  rw [ho, hb]
  rfl

theorem oscFailed_within (s : State) : Within haltParts (.CLK_ROOT_CTL :: fallKinds) s s.oscFailed := by
  have h : Within haltParts (.CLK_ROOT_CTL :: fallKinds) s (s.eftToFrc.stopClocks false).stopPll :=
    ((falls_eftToFrc s).within.mono (by decide)).next (stopPll_within _) (by decide)
  exact (((h.setF (by decide)).setF (by decide)).setF (by decide)).raise

/-- A wake of the device is held, if it is in Torpor; nothing else changes. -/
theorem oscFail_within {s : State} {quiet edges : Nat} (ho : s.clk.oscEn = true) (hb : oscBad quiet edges = true) :
    Within [.power] [] s.oscFailed (s.oscFail quiet edges) := by
  rw [oscFail_eq ho hb]
  exact .ite ((Within.refl _ _ _).part (Kept.pwr _ _) (by decide)) (.refl _ _ _)

theorem oscFailed_src (s : State) : s.oscFailed.reg .CLK_EFT_SRC = s.reg .CLK_EFT_SRC &&& 0xFFFFFFFC := by
  have h : Within [.clocks] [.CLK_ROOT_STATUS, .CLK_ROOT_CTL] (s.eftToFrc.stopClocks false) s.oscFailed :=
    (((((stopPll_within _).mono (by decide)).setF (by decide)).setF (by decide)).setF (by decide)).raise
  rw [h.reg (by decide), (falls_eftToFrc s).src]

theorem oscFailed_status (s : State) : s.oscFailed.reg .CLK_ROOT_STATUS =
    withField (withField (withField (withField (s.reg .CLK_ROOT_STATUS) 2 1 0) 1 1 0) 0 1 0) 3 1 1 := by
  let u := (s.eftToFrc.stopClocks false).stopPll.setF F.CLK_ROOT_STATUS_OSC_OK 0
  have hu : u.reg .CLK_ROOT_STATUS = withField (withField (withField (s.reg .CLK_ROOT_STATUS) 2 1 0) 1 1 0) 0 1 0 := by
    rw [← (falls_eftToFrc s).status, ← stopPll_status]
    exact State.setReg_reg _ _ _ _ _
  have hr : Within [] [] ((u.setF F.CLK_ROOT_CTL_PLL_EN 0).setF F.CLK_ROOT_STATUS_OSC_FAIL 1) s.oscFailed :=
    (Within.refl _ _ _).raise
  have he : Within [] [.CLK_ROOT_CTL] u (u.setF F.CLK_ROOT_CTL_PLL_EN 0) := (Within.refl _ _ _).setF (by decide)
  rw [hr.reg (by decide), ← hu, ← he.reg (k := .CLK_ROOT_STATUS) (i := 0) (j := 0) (by decide)]
  exact State.setReg_reg _ _ _ _ _

theorem oscFailed_pllEn (s : State) : s.oscFailed.b F.CLK_ROOT_CTL_PLL_EN = false := by
  let u := (s.eftToFrc.stopClocks false).stopPll.setF F.CLK_ROOT_STATUS_OSC_OK 0
  have h : Within [] [.CLK_ROOT_STATUS] (u.setF F.CLK_ROOT_CTL_PLL_EN 0) s.oscFailed :=
    ((Within.refl _ _ _).setF (by decide)).raise
  rw [h.bool F.CLK_ROOT_CTL_PLL_EN (by decide), State.b, State.setF_f _ _ _ _ _ (by decide)]
  rfl

theorem oscFailed_clk (s : State) : s.oscFailed.clk.oscEn = s.clk.oscEn ∧ s.oscFailed.clk.pllOn = false := by
  have h : Within [] [.CLK_ROOT_STATUS, .CLK_ROOT_CTL] (s.eftToFrc.stopClocks false).stopPll s.oscFailed :=
    ((((Within.refl _ _ _).setF (by decide)).setF (by decide)).setF (by decide)).raise
  have hclk : s.oscFailed.clk = (s.eftToFrc.stopClocks false).stopPll.clk := h.same .clocks (by decide)
  rw [hclk]
  exact ⟨(falls_eftToFrc s).oscEn, rfl⟩

theorem ends_clkOscFail {quiet edges : Nat} {s : State} (ho : s.clk.oscEn = true)
    (hb : 16 ≤ quiet ∨ edges < 11059 ∨ 13517 < edges) : Ends (.clkOscFail quiet edges) s fun t =>
      t.b F.CLK_ROOT_CTL_PLL_EN = false ∧ t.reg .CLK_EFT_SRC = s.reg .CLK_EFT_SRC &&& 0xFFFFFFFC ∧
      t.b F.CLK_ROOT_STATUS_DIV_RUN = false ∧ t.b F.CLK_ROOT_STATUS_PLL_LOCK = false ∧
      t.b F.CLK_ROOT_STATUS_OSC_FAIL = true ∧ t.b F.CLK_ROOT_STATUS_OSC_OK = false ∧ t.clk.oscEn = s.clk.oscEn ∧
      t.clk.pllOn = false ∧
      Kept [.regs, .events, .clocks, .cores, .audio, .panel, .power, .counters, .ecc, .free] s t :=
  ends_run (f := fun s => s.oscFail quiet edges) rfl fun t ht => by
    have hp : Within [.power] [] s.oscFailed t := (oscFail_within ho ((oscBad_iff _ _).mpr hb)).settling ht
    have hall : Within (.power :: haltParts) (.CLK_ROOT_CTL :: fallKinds) s s.oscFailed :=
      (oscFailed_within s).mono (by decide)
    have hclk : t.clk = s.oscFailed.clk := hp.same .clocks (by decide)
    have hstatus := (hp.reg (k := .CLK_ROOT_STATUS) (i := 0) (j := 0) (by decide)).trans (oscFailed_status s)
    refine ⟨?_, ?_, ?_, ?_, ?_, ?_, ?_, ?_, ?_⟩
    · rw [hp.bool F.CLK_ROOT_CTL_PLL_EN (by decide), oscFailed_pllEn]
    · rw [hp.reg (by decide), oscFailed_src]
    · rw [State.b_eq hstatus]
      simp [fieldOf_withField, fieldOf_withField_ne]
    · rw [State.b_eq hstatus]
      simp [fieldOf_withField, fieldOf_withField_ne]
    · rw [State.b_eq hstatus]
      simp [fieldOf_withField]
    · rw [State.b_eq hstatus]
      simp [fieldOf_withField, fieldOf_withField_ne]
    · rw [hclk, (oscFailed_clk s).1]
    · rw [hclk, (oscFailed_clk s).2]
    · exact (hall.next hp (by decide)).kept.mono (by decide)

/-! ### The lock is lost (R87) -/

/-- The lock falls with the oscillator good. -/
def State.unlocked (s : State) : State :=
  ((s.eftToFrc.stopClocks false).setF F.CLK_ROOT_STATUS_LOCK_LOST 1).setLock false

theorem lockLost_eq {s : State} (hp : s.clk.pllOn = true) (hl : s.b F.CLK_ROOT_STATUS_PLL_LOCK = true) :
    s.lockLost = s.unlocked := by
  unfold State.lockLost
  rw [hp, hl]
  rfl

/-- Only the state of the lock changes beside what falls with it. -/
theorem unlocked_within (s : State) : Within [] [.CLK_ROOT_STATUS] (s.eftToFrc.stopClocks false) s.unlocked :=
  .next (.setF (.refl _ _ _) (by decide)) (setLock_within _ false) (by decide)

theorem unlocked_status (s : State) : s.unlocked.reg .CLK_ROOT_STATUS =
    withField (withField (withField (s.reg .CLK_ROOT_STATUS) 2 1 0) 4 1 1) 1 1 0 := by
  unfold State.unlocked
  rw [setLock_status, ← (falls_eftToFrc s).status]
  exact congrArg (withField · 1 1 0) (State.setReg_reg _ .CLK_ROOT_STATUS _ 0 0)

theorem ends_lockLost {s : State} (hp : s.clk.pllOn = true) (hl : s.b F.CLK_ROOT_STATUS_PLL_LOCK = true) :
    Ends .lockLost s fun t =>
      t.reg .CLK_EFT_SRC = s.reg .CLK_EFT_SRC &&& 0xFFFFFFFC ∧ t.b F.CLK_ROOT_STATUS_DIV_RUN = false ∧
      t.b F.CLK_ROOT_STATUS_PLL_LOCK = false ∧ t.b F.CLK_ROOT_STATUS_LOCK_LOST = true ∧ t.clk.oscEn = s.clk.oscEn ∧
      t.reg .CLK_ROOT_CTL = s.reg .CLK_ROOT_CTL ∧
      Kept [.regs, .events, .clocks, .cores, .audio, .panel, .counters, .ecc, .free] s t :=
  ends_run (f := fun s => s.lockLost) rfl fun t ht => by
    rw [lockLost_eq hp hl] at ht
    have hf := falls_eftToFrc s
    have hu := (unlocked_within s).settling ht
    have hall : Within haltParts fallKinds s t := hf.within.next hu (by decide)
    have hclk : t.clk = (s.eftToFrc.stopClocks false).clk := hu.same .clocks (by decide)
    have hstatus := (ht.reg .CLK_ROOT_STATUS 0 0 (by decide)).trans (unlocked_status s)
    refine ⟨?_, ?_, ?_, ?_, ?_, hall.reg (by decide), hall.kept.mono (by decide)⟩
    · rw [hu.reg (by decide), hf.src]
    · rw [State.b_eq hstatus]
      simp [fieldOf_withField, fieldOf_withField_ne]
    · rw [State.b_eq hstatus]
      simp [fieldOf_withField]
    · rw [State.b_eq hstatus]
      simp [fieldOf_withField, fieldOf_withField_ne]
    · rw [hclk, hf.oscEn]

/-! ### Events held for the router (R860) -/

/-- No held event is dropped. -/
def KeepsHeld (s t : State) : Prop := s.held ⊆ t.held

theorem KeepsHeld.of_eq {s t : State} (h : t.held = s.held) : KeepsHeld s t := by
  unfold KeepsHeld; rw [h]; exact List.Subset.refl _

theorem KeepsHeld.trans {s t u : State} (h : KeepsHeld s t) (g : KeepsHeld t u) : KeepsHeld s u :=
  List.Subset.trans h g

theorem KeepsHeld.ite {c : Prop} [Decidable c] {s t u : State} (h : KeepsHeld s t) (g : KeepsHeld s u) :
    KeepsHeld s (if c then t else u) := by split <;> assumption

theorem KeepsHeld.raiseAt (s : State) (n : Nat) (o : Option Nat) (w : Word) : KeepsHeld s (s.raiseAt n o w) := by
  unfold State.raiseAt
  split
  · exact .of_eq rfl
  · split
    · exact List.subset_append_left _ _
    · exact .of_eq rfl

theorem keepsHeld_allow (s : State) : KeepsHeld s s.allow := by
  have hset (u : State) (f : FieldRef) (n : Nat) : KeepsHeld u (u.setF f n) := .of_eq rfl
  unfold State.allow
  extract_lets a s1 s2
  have h1 : KeepsHeld s s1 := .ite (.of_eq rfl) ((hset _ _ _).trans (.raiseAt _ _ _ _))
  have h2 : KeepsHeld s s2 := h1.trans (.ite ((hset _ _ _).trans (.raiseAt _ _ _ _)) (.of_eq rfl))
  exact h2.trans (.ite (.of_eq rfl) (hset _ _ _))

theorem keepsHeld_doze (s : State) : KeepsHeld s s.doze := by
  have hset (n : Nat) : KeepsHeld s (s.setF F.PWR_STATUS_STATE n) := .of_eq rfl
  exact .ite (.of_eq rfl) ((hset _).trans (.raiseAt _ _ _ _))

theorem keepsHeld_qsums (s : State) : KeepsHeld s s.qsums := by
  have hone (u : State) (e : Nat × Queue) : KeepsHeld u (u.qsumOne e) := by
    have hset : KeepsHeld u (u.setBit .QSUM (e.1 % 32) (e.1 / 256) (e.1 % 256 / 32)) := .of_eq rfl
    exact .ite (hset.trans (.raiseAt _ _ _ _)) (.of_eq rfl)
  have hall (l : Tab Queue) (u : State) : KeepsHeld u (l.foldl State.qsumOne u) := by
    induction l generalizing u with
    | nil => exact .of_eq rfl
    | cons e l ih => exact (hone u e).trans (ih _)
  exact .ite (hall _ _) (.of_eq rfl)

theorem keepsHeld_settle (s : State) : KeepsHeld s s.settle :=
  .ite (.of_eq rfl) (((keepsHeld_allow s).trans (keepsHeld_doze _)).trans (keepsHeld_qsums _))

/-- As `ends_run`, with the events held. -/
theorem ends_run_held {c : Instr} {s : State} {f : State → State} {P : State → Prop} (hc : exec c s = run f s)
    (h : ∀ t, Settling (f s) t → KeepsHeld (f s) t → P t) : Ends c s P := by
  obtain ⟨t, ht, hs⟩ := ends_run hc fun _ => id
  refine ⟨t, ht, h t hs ?_⟩
  rw [hc] at ht
  obtain rfl := Host.Outcome.next.inj ht
  exact keepsHeld_settle (f s)

/-- An event of an AON source that is raised while the router does not run is held. -/
theorem mem_held_raiseAt {s : State} {n : Nat} (hu : s.fabUp = false) (ha : aonSource n = true) (o : Option Nat)
    (w : Word) : n ∈ (s.raiseAt n o w).held := by
  unfold State.raiseAt
  rw [if_neg (by simp [hu]), ha, Bool.true_and]
  cases hc : s.held.contains n
  · simp
  · simpa using hc

/-! ### A write of CLK_EFT_SRC (R80, R81) -/

/-- The request for a clock that is not there. -/
theorem eftSrc_refused {s : State} {v : Word} (hv : v.getLsbD 0 = true) (hl : s.b F.CLK_ROOT_STATUS_PLL_LOCK = false) :
    s.eftSrc v = (s.setF F.CLK_EFT_SRC_SW_ERR 1).raise 658 := by
  unfold State.eftSrc
  rw [hv, hl]
  rfl

theorem withField_swErr (w : Word) : withField w 2 1 1 = w ||| 4 := by
  show w &&& ~~~4#32 ||| 4#32 = w ||| 4#32
  apply BitVec.eq_of_getLsbD_eq
  intro i hi
  simp only [BitVec.getLsbD_or, BitVec.getLsbD_and, BitVec.getLsbD_not, hi]
  cases (4#32).getLsbD i <;> simp

theorem swErr_reg (s : State) :
    ((s.setF F.CLK_EFT_SRC_SW_ERR 1).raise 658).reg .CLK_EFT_SRC = s.reg .CLK_EFT_SRC ||| 4 := by
  have h : Within [] [] (s.setF F.CLK_EFT_SRC_SW_ERR 1) ((s.setF F.CLK_EFT_SRC_SW_ERR 1).raise 658) :=
    (Within.refl _ _ _).raise
  rw [h.reg (by decide), ← withField_swErr]
  exact s.setReg_reg .CLK_EFT_SRC _ 0 0

theorem swErr_fabUp (s : State) : (s.setF F.CLK_EFT_SRC_SW_ERR 1).fabUp = s.fabUp := by
  have h : Within [] [.CLK_EFT_SRC] s (s.setF F.CLK_EFT_SRC_SW_ERR 1) := (Within.refl _ _ _).setF (by decide)
  unfold State.fabUp State.fabPg State.divRun
  rw [h.bool F.PWR_DOM_STATUS_FAB_PG (by decide), h.bool F.CLK_ROOT_STATUS_DIV_RUN (by decide)]

section
variable {m : Master} {v : Word} {s : State} (h : CanWrite m .CLK_EFT_SRC 0 0 s)
include h

theorem ends_eftSrc_refused (hv : v.getLsbD 0 = true) (hl : s.b F.CLK_ROOT_STATUS_PLL_LOCK = false)
    (hu : s.fabUp = true) : Ends (.clkEftSrcWrite m v) s fun t =>
      t.reg .CLK_EFT_SRC = s.reg .CLK_EFT_SRC ||| 4 ∧ Answered m 0 false t ∧
      Only [.last] [RegKind.CLK_EFT_SRC.addr 0 0] [s.ev 658] s t := by
  have hw : s.writeReg m ⟨.CLK_EFT_SRC, 0, 0, false⟩ v = ((s.setF F.CLK_EFT_SRC_SW_ERR 1).raise 658, false) := by
    show (s.eftSrc v, false) = _
    rw [eftSrc_refused hv hl]
  refine ends_write rfl h (by decide) (by decide) rfl hw fun t ht => ⟨?_, ht.answered, ?_⟩
  · rw [← swErr_reg]
    exact ht.reg .CLK_EFT_SRC 0 0 (by decide)
  · have hset : Only [.last] [RegKind.CLK_EFT_SRC.addr 0 0] [] s (s.setF F.CLK_EFT_SRC_SW_ERR 1) :=
      .setF s F.CLK_EFT_SRC_SW_ERR 1 0 0 _ (.inl (by simp))
    have hev : Only [.last] [RegKind.CLK_EFT_SRC.addr 0 0] [s.ev 658] s ((s.setF F.CLK_EFT_SRC_SW_ERR 1).raise 658) :=
      hset.raiseAt rfl rfl 658 none s.frame ((swErr_fabUp s).trans hu)
    exact (hev.trans ((Only.seen _ m 0 false).mono (by simp) (by simp))).settled ht

theorem ends_eftSrc_held (hv : v.getLsbD 0 = true) (hl : s.b F.CLK_ROOT_STATUS_PLL_LOCK = false)
    (hu : s.fabUp = false) : Ends (.clkEftSrcWrite m v) s fun t =>
      t.reg .CLK_EFT_SRC = s.reg .CLK_EFT_SRC ||| 4 ∧ 658 ∈ t.held := by
  let u := ((s.setF F.CLK_EFT_SRC_SW_ERR 1).raise 658).seen m 0 false
  have hf : s.regWrite m .CLK_EFT_SRC 0 0 v = u := by
    rw [regWrite_ok h (by decide) (by decide) rfl]
    show (s.eftSrc v).seen m 0 false = u
    rw [eftSrc_refused hv hl]
  refine ends_run_held (f := fun s => s.regWrite m .CLK_EFT_SRC 0 0 v) rfl fun t ht hh => ?_
  rw [hf] at ht hh
  refine ⟨?_, hh (mem_held_raiseAt ((swErr_fabUp s).trans hu) (by decide) none s.frame)⟩
  rw [← swErr_reg]
  exact ht.reg .CLK_EFT_SRC 0 0 (by decide)

end

/-- The word of CLK_EFT_SRC with SW_ERR cleared where a 1 is written to it. -/
def swErrWord (w : Word) (clear : Bool) : Word := if clear then withField w 2 1 0 else w

/-- SW_ERR as the write leaves it, and SRC: what precedes the switch. -/
def State.eftRequest (s : State) (v : Word) : State :=
  (if v.getLsbD 2 then s.setF F.CLK_EFT_SRC_SW_ERR 0 else s).setB F.CLK_EFT_SRC_SRC (v.getLsbD 0)

theorem eftSrc_served {s : State} {v : Word} (h : v.getLsbD 0 = true → s.b F.CLK_ROOT_STATUS_PLL_LOCK = true) :
    s.eftSrc v = (s.eftRequest v).eftSwitch (v.getLsbD 0) := by
  have hc : (v.getLsbD 0 && !(s.b F.CLK_ROOT_STATUS_PLL_LOCK)) = false := by
    cases hv : v.getLsbD 0
    · rfl
    · rw [h hv]; rfl
  unfold State.eftSrc
  dsimp only
  rw [hc]
  rfl

theorem eftRequest_coreOnly (s : State) (v : Word) : CoreOnly eftRegs 16 s (s.eftRequest v) := by
  have hset (u : State) (f : FieldRef) (hf : f.k = .CLK_EFT_SRC) (n : Nat) : CoreOnly eftRegs 16 u (u.setF f n) :=
    .setReg _ _ _ _ _ (by simp [hf, eftRegs])
  unfold State.eftRequest
  split
  · exact (hset _ _ rfl _).trans (hset _ _ rfl _)
  · exact hset _ _ rfl _

theorem eftRequest_src (s : State) (v : Word) : (s.eftRequest v).reg .CLK_EFT_SRC =
    withField (swErrWord (s.reg .CLK_EFT_SRC) (v.getLsbD 2)) 0 1 (bit (v.getLsbD 0)) := by
  unfold State.eftRequest swErrWord
  split
  · rw [← s.setReg_reg .CLK_EFT_SRC (withField _ 2 1 0) 0 0]
    exact State.setReg_reg _ .CLK_EFT_SRC _ 0 0
  · exact State.setReg_reg _ .CLK_EFT_SRC _ 0 0

theorem ends_eftSrc_served {m : Master} {v : Word} {s : State} (h : CanWrite m .CLK_EFT_SRC 0 0 s)
    (hv : v.getLsbD 0 = true → s.b F.CLK_ROOT_STATUS_PLL_LOCK = true) : Ends (.clkEftSrcWrite m v) s fun t =>
      t.b F.CLK_EFT_SRC_SRC = v.getLsbD 0 ∧ t.b F.CLK_EFT_SRC_CUR = v.getLsbD 0 ∧
      t.b F.CLK_EFT_SRC_SW_ERR = (s.b F.CLK_EFT_SRC_SW_ERR && !v.getLsbD 2) ∧ Answered m 0 false t ∧
      (∀ n, n ≠ 16 → t.core n = s.core n) ∧
      Kept [.regs, .events, .last, .cores, .free, .ecc, .counters] s t ∧
      RegsKept (RegKind.CLK_EFT_SRC.addr 0 0 :: bookRegs 16) s t := by
  let u := (s.eftRequest v).eftSwitch (v.getLsbD 0)
  have hw : s.writeReg m ⟨.CLK_EFT_SRC, 0, 0, false⟩ v = (u, false) := by
    show (s.eftSrc v, false) = _
    rw [eftSrc_served hv]
  refine ends_write rfl h (by decide) (by decide) rfl hw fun t ht => ?_
  have hu : CoreOnly eftRegs 16 s u := (eftRequest_coreOnly s v).trans (eftSwitch_coreOnly _ _)
  have hreg : t.reg .CLK_EFT_SRC = withField (withField (swErrWord (s.reg .CLK_EFT_SRC) (v.getLsbD 2)) 0 1
      (bit (v.getLsbD 0))) 1 1 (bit (v.getLsbD 0)) := by
    rw [← eftRequest_src, ← eftSwitch_src]
    exact ht.reg .CLK_EFT_SRC 0 0 (by decide)
  obtain ⟨hseen, hregs, -⟩ := (Only.seen u m 0 false).settled ht
  refine ⟨?_, ?_, ?_, ht.answered, fun n hn => ?_, (hu.kept.mono (by simp)).trans (hseen.mono (by simp)),
    hu.regs.trans (hregs.mono (by simp))⟩
  · rw [State.b_eq hreg, fieldOf_withField_ne _ _ _ _ _ _ (by decide),
      fieldOf_withField _ _ _ _ (by decide), decide_bit]
  · rw [State.b_eq hreg, fieldOf_withField _ _ _ _ (by decide), decide_bit]
  · rw [State.b_eq hreg, fieldOf_withField_ne _ _ _ _ _ _ (by decide), fieldOf_withField_ne _ _ _ _ _ _ (by decide)]
    unfold swErrWord State.b State.f
    cases v.getLsbD 2
    · simp
    · simp [fieldOf_withField]
  · rw [ht.core n]
    exact hu.others n hn

/-- Settles O12: what takes the eft to the FRC is `Falls` with the PLL's own change, and a write of SRC is refused
without the lock or goes through `State.eftSwitch`. -/
theorem eftClockSourceFollowsTheLock : Obligations.EftClockSourceFollowsTheLock :=
  ⟨fun _ _ _ h hs => ends_pllEnClear h hs, fun _ _ _ h => ends_clkOscFail_idle h,
    fun _ _ _ ho hb => ends_clkOscFail ho hb, fun _ hp hl => ends_lockLost hp hl,
    fun _ _ _ h hv hl hu => ends_eftSrc_refused h hv hl hu, fun _ _ _ h hv hl hu => ends_eftSrc_held h hv hl hu,
    fun _ _ _ h hv => ends_eftSrc_served h hv⟩

end Sys2Proof.Machine
end

section
/-!
PROOFS. PLL_EN rises: the oscillator, the settle count, and the domains that power up with it.
-/
namespace Sys2Proof.Machine

/-! ### Restarts of newts (R454 to R456, R856) -/

theorem Kept.pend (s : State) (x : Tab (Option Word)) : Kept [.pend] s { s with pend := x } :=
  fun p hp => by cases p <;> simp_all [Part.same]

theorem Kept.rst (s : State) (x : Rst) : Kept [.reset] s { s with rst := x } :=
  fun p hp => by cases p <;> simp_all [Part.same]

theorem Kept.setTen (s : State) (n : Nat) (x : Tenant) : Kept [.tenants] s (s.setTen n x) :=
  fun p hp => by cases p <;> simp_all [Part.same]

def restartParts : List Part := [.cores, .pend, .tenants, .power]

def cacheKinds : List RegKind := [.CORE_ICACHE_CTL, .CORE_ICACHE_LOAD]

theorem coreClear_within (s : State) {n : Nat} (hn : n < 17) : Within [.cores, .pend] cacheKinds s (s.coreClear n) := by
  unfold State.coreClear
  extract_lets _ s1
  have h1 : Within [.cores, .pend] cacheKinds s s1 := (Within.refl _ _ s).part (Kept.setCore _ n _) (by decide)
  exact ((h1.setF ⟨by decide, hn, by decide⟩).setF ⟨by decide, hn, by decide⟩).part (Kept.pend _ _) (by decide)

theorem coreStart_within (s : State) {n : Nat} (hn : n ≠ 16) : Within [.cores, .tenants] [] s (s.coreStart n) := by
  unfold State.coreStart
  extract_lets o pc _ s0 _ s1
  have h0 : Within [.cores, .tenants] [] s s0 :=
    .ite ((Within.refl _ _ s).part (Kept.setTen _ _ _) (by decide)) (.refl _ _ s)
  rw [if_neg hn]
  exact h0.part (Kept.setCore _ n _) (by decide)

theorem coreRestart_within (s : State) {n : Nat} (hn : n < 16) :
    Within [.cores, .pend, .tenants] cacheKinds s (s.coreRestart n) :=
  ((coreClear_within s (by omega)).mono (by decide)).next (coreStart_within _ (by omega)) (by decide)

theorem coreHold_within (s : State) {n : Nat} (hn : n < 17) : Within [.cores, .pend] cacheKinds s (s.coreHold n) :=
  (coreClear_within s hn).part (Kept.setCore _ n _) (by decide)

theorem restartWrite_within (s : State) {n : Nat} (hn : n < 16) :
    Within restartParts cacheKinds s (s.restartWrite n) := by
  have hrec (u : State) (c : Core) : Within restartParts cacheKinds u (u.setCore n c) :=
    (Within.refl _ _ u).part (Kept.setCore _ n _) (by decide)
  unfold State.restartWrite
  extract_lets o s1 s2
  split
  · exact .ite ((hrec s _).part (Kept.pwr _ _) (by decide)) (hrec s _)
  · split
    · exact .ite (.refl _ _ s) ((coreRestart_within s hn).mono (by decide))
    · exact .refl _ _ s
    · exact ((coreHold_within s (by omega)).mono (by decide)).trans (hrec _ _)

theorem newtsReturn_within (s : State) : Within restartParts cacheKinds s s.newtsReturn :=
  (Within.refl _ _ s).foldl fun v n hn => .ite
    (((Within.refl restartParts cacheKinds v).part (Kept.setCore _ n _) (by decide)).next
      (coreRestart_within _ (List.mem_range.mp hn)) (by decide)) (.refl _ _ v)

theorem heldRestarts_within (s : State) : Within restartParts cacheKinds s (s.heldRestarts (List.range 16)) :=
  (Within.refl _ _ s).foldl fun v n hn => .ite
    (((Within.refl restartParts cacheKinds v).part (Kept.setCore _ n _) (by decide)).next
      (restartWrite_within _ (List.mem_range.mp hn)) (by decide)) (.refl _ _ v)

/-! ### The fabric and newt domains power up (R672, R703) -/

/-- The domains have power, and CORE_EN is given. -/
def State.powered (s : State) : State :=
  let u := (s.setF F.PWR_DOM_STATUS_FAB_PG 1).setF F.PWR_DOM_STATUS_NEWT_PG 1
  { u with rst := { u.rst with coreEn := true }, pwr := { u.pwr with isolated := true } }

theorem fabricOn_kept {s : State} (h : s.dev = 3 ∨ s.fabPg = true) : s.fabricOn = s := if_pos h

/-- What follows the power are restarts. -/
theorem fabricOn_powered {s : State} (hd : s.dev ≠ 3) (hp : s.fabPg = false) :
    Within restartParts cacheKinds s.powered s.fabricOn := by
  unfold State.fabricOn
  rw [if_neg (by simp [hd, hp])]
  exact (newtsReturn_within _).trans (heldRestarts_within _)

theorem powered_within (s : State) : Within [.reset, .power] [.PWR_DOM_STATUS] s s.powered := by
  have hu : Within [.reset, .power] [.PWR_DOM_STATUS] s
      ((s.setF F.PWR_DOM_STATUS_FAB_PG 1).setF F.PWR_DOM_STATUS_NEWT_PG 1) :=
    ((Within.refl _ _ s).setF (by decide)).setF (by decide)
  exact (hu.part (Kept.rst _ { s.rst with coreEn := true }) (by decide)).part
    (Kept.pwr _ { s.pwr with isolated := true }) (by decide)

theorem powered_domains (s : State) :
    s.powered.b F.PWR_DOM_STATUS_FAB_PG = true ∧ s.powered.b F.PWR_DOM_STATUS_NEWT_PG = true := by
  have hfab := s.setReg_reg .PWR_DOM_STATUS (withField (s.reg .PWR_DOM_STATUS) 18 1 1) 0 0
  have hreg : s.powered.reg .PWR_DOM_STATUS = withField (withField (s.reg .PWR_DOM_STATUS) 18 1 1) 19 1 1 := by
    rw [← hfab]
    exact State.setReg_reg _ .PWR_DOM_STATUS _ 0 0
  constructor
  · rw [State.b_eq hreg]
    simp [fieldOf_withField, fieldOf_withField_ne]
  · rw [State.b_eq hreg]
    simp [fieldOf_withField]

theorem fabricOn_within (s : State) :
    Within (.reset :: restartParts) (.PWR_DOM_STATUS :: cacheKinds) s s.fabricOn := by
  by_cases h : s.dev = 3 ∨ s.fabPg = true
  · rw [fabricOn_kept h]
    exact .refl _ _ s
  · obtain ⟨hd, hp⟩ := not_or.mp h
    exact ((powered_within s).mono (by decide)).next (fabricOn_powered hd (Bool.eq_false_iff.mpr hp)) (by decide)

theorem fabricOn_fabPg {s : State} (hd : s.dev ≠ 3) : s.fabricOn.b F.PWR_DOM_STATUS_FAB_PG = true := by
  cases hp : s.fabPg
  · rw [(fabricOn_powered hd hp).bool F.PWR_DOM_STATUS_FAB_PG (by decide), (powered_domains s).1]
  · rw [fabricOn_kept (.inr hp)]
    exact hp

theorem fabricOn_newtPg {s : State} (hd : s.dev ≠ 3) (hp : s.fabPg = false) :
    s.fabricOn.b F.PWR_DOM_STATUS_NEWT_PG = true ∧ s.fabricOn.rst.coreEn = true := by
  have h := fabricOn_powered hd hp
  have hrst : s.fabricOn.rst = s.powered.rst := h.same .reset (by decide)
  exact ⟨by rw [h.bool F.PWR_DOM_STATUS_NEWT_PG (by decide), (powered_domains s).2], by rw [hrst]; rfl⟩

/-! ### PLL_EN_SET (R79, R84) -/

/-- OSC_EN is high, and the settle count runs or is past. -/
def State.oscOn (s : State) : State :=
  let u := { s with clk := { s.clk with oscEn := true, settling := !s.clk.kept, kept := false, pllOn := s.clk.kept } }
  if s.clk.kept then u.setF F.CLK_ROOT_STATUS_OSC_OK 1 else u

theorem oscOn_within (s : State) : Within [.clocks] [.CLK_ROOT_STATUS] s s.oscOn := by
  have h : Within [.clocks] [.CLK_ROOT_STATUS] s
      { s with clk := { s.clk with oscEn := true, settling := !s.clk.kept, kept := false, pllOn := s.clk.kept } } :=
    (Within.refl _ _ s).part (Kept.clk s _) (by decide)
  exact .ite (h.setF (by decide)) h

theorem oscOn_clk (s : State) : s.oscOn.clk =
    { s.clk with oscEn := true, settling := !s.clk.kept, kept := false, pllOn := s.clk.kept } := by
  unfold State.oscOn
  dsimp only
  split <;> rfl

/-- A field of PWR_STATUS is not touched by a write of CLK_ROOT_CTL or by OSC_OK. -/
theorem oscOn_dev (s : State) (w : Word) : (s.setReg .CLK_ROOT_CTL w).oscOn.dev = s.dev := by
  have h0 : (s.setReg .CLK_ROOT_CTL w).dev = s.dev := by
    unfold State.dev State.f
    rw [State.setReg_reg_ne _ _ _ _ _ (by decide)]
  rw [← h0]
  unfold State.oscOn
  dsimp only
  split
  · exact State.setF_f_addr _ F.CLK_ROOT_STATUS_OSC_OK F.PWR_STATUS_STATE 1 0 0 0 0 (by decide)
  · rfl

theorem rootCtl_set {s : State} {v : Word} (hv : v.getLsbD 0 = true) (hs : s.b F.CLK_ROOT_CTL_PLL_EN = false) :
    s.rootCtl v = (s.setReg .CLK_ROOT_CTL (v &&& 0xFFFF0003)).oscOn.fabricOn := by
  unfold State.rootCtl
  simp only [hv, hs, Bool.not_false, Bool.and_self, if_true]
  rfl

theorem ends_pllEnSet {m : Master} {v : Word} {s : State} (h : CanWrite m .CLK_ROOT_CTL 0 0 s)
    (hs : s.b F.CLK_ROOT_CTL_PLL_EN = false) : Ends (.pllEnSet m v) s fun t =>
      t.reg .CLK_ROOT_CTL = (v ||| 1) &&& 0xFFFF0003 ∧ t.clk.oscEn = true ∧ t.clk.pllOn = s.clk.kept ∧
      t.clk.settling = !s.clk.kept ∧
      (s.dev ≠ 3 → t.b F.PWR_DOM_STATUS_FAB_PG = true) ∧
      (s.dev ≠ 3 → s.fabPg = false → t.b F.PWR_DOM_STATUS_NEWT_PG = true ∧ t.rst.coreEn = true) ∧
      Answered m 0 false t ∧
      Kept [.regs, .events, .clocks, .last, .reset, .power, .cores, .pend, .tenants] s t ∧
      RegsKept (regsOf [.CLK_ROOT_CTL, .CLK_ROOT_STATUS, .PWR_DOM_STATUS, .CORE_ICACHE_CTL,
        .CORE_ICACHE_LOAD]) s t := by
  let w : Word := (v ||| 1) &&& 0xFFFF0003
  let s0 := s.setReg .CLK_ROOT_CTL w
  let u := s0.oscOn
  have hw : s.writeReg m ⟨.CLK_ROOT_CTL, 0, 0, false⟩ (v ||| 1) = (u.fabricOn, false) := by
    show (s.rootCtl (v ||| 1), false) = _
    rw [rootCtl_set (by simp) hs]
  refine ends_write rfl h (by decide) (by decide) rfl hw fun t ht => ?_
  have h0 : Within [] [.CLK_ROOT_CTL] s s0 := (Within.refl _ _ s).setReg (by decide)
  have hu : Within [.clocks] [.CLK_ROOT_CTL, .CLK_ROOT_STATUS] s u :=
    (h0.mono (by decide)).next (oscOn_within s0) (by decide)
  have hdev : u.dev = s.dev := oscOn_dev s w
  have hfab : u.fabPg = s.fabPg := hu.bool F.PWR_DOM_STATUS_FAB_PG (by decide)
  have hlast : Within [.last] [] u.fabricOn t := ((Within.refl _ _ _).seen (by decide)).settling ht
  have hon : Within (.last :: .reset :: restartParts) (.PWR_DOM_STATUS :: cacheKinds) u t :=
    ((fabricOn_within u).mono (by decide)).next hlast (by decide)
  have hall : Within [.clocks, .last, .reset, .power, .cores, .pend, .tenants]
      [.CLK_ROOT_CTL, .CLK_ROOT_STATUS, .PWR_DOM_STATUS, .CORE_ICACHE_CTL, .CORE_ICACHE_LOAD] s t :=
    (hu.mono (by decide)).next hon (by decide)
  have hclk : t.clk = u.clk := hon.same .clocks (by decide)
  have hrst : t.rst = u.fabricOn.rst := hlast.same .reset (by decide)
  rw [oscOn_clk] at hclk
  refine ⟨?_, ?_, ?_, ?_, fun hd => ?_, fun hd hp => ?_, ht.answered, hall.kept.mono (by decide), hall.regs⟩
  · rw [hon.reg (by decide), (oscOn_within s0).reg (by decide)]
    exact s.setReg_reg .CLK_ROOT_CTL w 0 0
  · rw [hclk]
  · rw [hclk]; rfl
  · rw [hclk]; rfl
  · rw [hlast.bool F.PWR_DOM_STATUS_FAB_PG (by decide), fabricOn_fabPg (hdev ▸ hd)]
  · obtain ⟨hpg, hen⟩ := fabricOn_newtPg (s := u) (hdev ▸ hd) (hfab.trans hp)
    exact ⟨by rw [hlast.bool F.PWR_DOM_STATUS_NEWT_PG (by decide), hpg], by rw [hrst, hen]⟩

/-! ### The settle time ends (R79) -/

theorem ends_oscSettleEnd {cycles : Nat} {s : State} (hs : s.clk.settling = true)
    (hc : s.f F.CLK_ROOT_CTL_OSC_SETTLE ≤ cycles) : Ends (.oscSettleEnd cycles) s fun t =>
      t.b F.CLK_ROOT_STATUS_OSC_OK = true ∧ t.clk = { s.clk with settling := false, pllOn := true } ∧
      Only [.clocks] [RegKind.CLK_ROOT_STATUS.addr 0 0] [] s t := by
  let u := s.setF F.CLK_ROOT_STATUS_OSC_OK 1
  let c : Clocks := { s.clk with settling := false, pllOn := true }
  have he : s.settleEnd cycles = { u with clk := c } := by
    unfold State.settleEnd
    simp only [hs, hc, decide_true, Bool.and_self, if_true]
    rfl
  refine ends_run (f := fun s => s.settleEnd cycles) rfl fun t ht => ?_
  rw [he] at ht
  have hset : Only [.clocks] [RegKind.CLK_ROOT_STATUS.addr 0 0] [] s u := .setF s _ 1 0 0 _ (.inl (by simp))
  refine ⟨?_, ht.1 .clocks (by simp), (hset.trans (.of_kept (Kept.clk u c) rfl rfl rfl _)).settled ht⟩
  have hreg := (ht.reg .CLK_ROOT_STATUS 0 0 (by decide)).trans (s.setReg_reg .CLK_ROOT_STATUS _ 0 0)
  rw [State.b_eq hreg, fieldOf_withField _ _ _ _ (by decide)]
  rfl

theorem ends_oscSettleEnd_early {cycles : Nat} {s : State} (hc : cycles < s.f F.CLK_ROOT_CTL_OSC_SETTLE) :
    Ends (.oscSettleEnd cycles) s (Only [] [] [] s) :=
  ends_run (f := fun s => s.settleEnd cycles) rfl fun t ht => by
    have he : s.settleEnd cycles = s := if_neg (by simp [hc])
    rwa [he] at ht

end Sys2Proof.Machine
end

section
/-!
PROOFS. The lock of the PLL rises: what starts with the derived clocks, part by part.
-/
namespace Sys2Proof.Machine

/-! ### Parts -/

theorem Kept.cands (s : State) (x : Tab Cand) : Kept [.ref] s { s with cands := x } :=
  fun p hp => by cases p <;> simp_all [Part.same]

theorem Kept.dpll (s : State) (x : Dpll) : Kept [.ref] s { s with dpll := x } :=
  fun p hp => by cases p <;> simp_all [Part.same]

theorem Kept.lines (s : State) (x : Tab Line) : Kept [.lines] s { s with lines := x } :=
  fun p hp => by cases p <;> simp_all [Part.same]

theorem Kept.trunks (s : State) (x : Tab Trunk) : Kept [.trunks] s { s with trunks := x } :=
  fun p hp => by cases p <;> simp_all [Part.same]

theorem Kept.pairs (s : State) (x : Tab Pair) : Kept [.trunks] s { s with pairs := x } :=
  fun p hp => by cases p <;> simp_all [Part.same]

theorem Kept.fab (s : State) (x : Fabric) : Kept [.fabric] s { s with fab := x } :=
  fun p hp => by cases p <;> simp_all [Part.same]

theorem Kept.ticks (s : State) (x : Nat) : Kept [.time] s { s with ticks := x } :=
  fun p hp => by cases p <;> simp_all [Part.same]

theorem Kept.scrub (s : State) (x : Nat) : Kept [.scrub] s { s with scrub := x } :=
  fun p hp => by cases p <;> simp_all [Part.same]

theorem Kept.pctrs (s : State) (x : Tab PCtr) : Kept [.counters] s { s with pctrs := x } :=
  fun p hp => by cases p <;> simp_all [Part.same]

theorem Kept.links (s : State) (x : Tab Link) : Kept [.links] s { s with links := x } :=
  fun p hp => by cases p <;> simp_all [Part.same]

theorem Kept.queues (s : State) (x : Tab Queue) : Kept [.queues] s { s with queues := x } :=
  fun p hp => by cases p <;> simp_all [Part.same]

/-! ### Line ports and trunks (R92, R221, R231, R270) -/

theorem sourceLost_within (s : State) (typ i : Nat) : Within [.ref] [] s (s.sourceLost typ i) :=
  (Within.refl _ _ s).foldl fun v _ _ => .ite ((Within.refl _ _ v).part (Kept.cands _ _) (by decide)) (.refl _ _ v)

def lineKinds : List RegKind := [.LINE_STATUS, .LINE_RX_PHASE]

theorem lineStart_within (s : State) {p : Nat} (hp : p < 128) : Within [.lines, .ref] lineKinds s (s.lineStart p) :=
  (((sourceLost_within s 0 p).mono (by decide)).part (Kept.lines _ _) (by decide)).setReg ⟨by decide, hp, by decide⟩

theorem lineRecentre_within (s : State) {p : Nat} (hp : p < 128) : Within [.lines] lineKinds s (s.lineRecentre p) :=
  ((Within.refl _ _ s).part (Kept.lines _ _) (by decide)).setF ⟨by decide, hp, by decide⟩

def trunkKinds : List RegKind := [.TRK_STATUS, .TRK_PAIR_STATUS]

theorem trunkStart_within (s : State) {k : Nat} (hk : k < 4) : Within [.trunks, .ref] trunkKinds s (s.trunkStart k) :=
  (((sourceLost_within s 1 k).mono (by decide)).part (Kept.trunks _ _) (by decide)).setReg ⟨by decide, hk, by decide⟩

theorem traceTake_within (s : State) (k f : Nat) : Within [.trunks] [] s (s.traceTake k f) :=
  .ite ((Within.refl _ _ s).part (Kept.trunks _ _) (by decide)) (.refl _ _ s)

theorem trunkDef_within (s : State) {k : Nat} (hk : k < 4) (d : Nat) (b : Bool) :
    Within [.trunks] trunkKinds s (s.trunkDef k d b) := by
  have hset (w : Word) : Within [.trunks] trunkKinds s (s.setReg .TRK_STATUS w k) :=
    (Within.refl _ _ s).setReg ⟨by decide, hk, by decide⟩
  exact .ite ((hset _).part (Kept.trunks _ _) (by decide)) ((hset _).part (Kept.trunks _ _) (by decide))

theorem pairSync_within (s : State) {k : Nat} (hk : k < 2) : Within [.trunks] trunkKinds s (s.pairSync k) := by
  have hpair (x : Pair) : Within [.trunks] trunkKinds s (s.setPair k x) :=
    (Within.refl _ _ s).part (Kept.pairs s _) (by decide)
  refine .ite (hpair _) (.ite ((hpair _).foldl fun v n hn => ?_) (.refl _ _ s))
  have hn : n < 4 := Aside.pair_lt hk n hn
  have h1 : Within [.trunks] trunkKinds v
      (if (v.trunk n).on then v.setTrunk n { v.trunk n with recentre := true } else v) :=
    .ite ((Within.refl _ _ v).part (Kept.trunks _ _) (by decide)) (.refl _ _ v)
  exact ((h1.trans (trunkDef_within _ hn 5 false)).setF ⟨by decide, hn, by decide⟩).setF ⟨by decide, hn, by decide⟩

def portParts : List Part := [.lines, .trunks, .ref]

theorem portsRestart_within (s : State) (lost : Bool) :
    Within portParts (lineKinds ++ trunkKinds) s (s.portsRestart lost) := by
  unfold State.portsRestart
  extract_lets s1 s2 s3
  have h1 : Within portParts (lineKinds ++ trunkKinds) s s1 := (Within.refl _ _ s).foldl fun v p hp => by
    have hp : p < 128 := List.mem_range.mp hp
    have hl (l : Line) : Within portParts (lineKinds ++ trunkKinds) v (if lost then v.setLine p l else v) :=
      .ite ((Within.refl _ _ v).part (Kept.lines _ _) (by decide)) (.refl _ _ v)
    exact .ite (((hl _).next (lineStart_within _ hp) (by decide)).next (lineRecentre_within _ hp) (by decide))
      (.refl _ _ v)
  have h2 : Within portParts (lineKinds ++ trunkKinds) s s2 := h1.foldl fun v k hk => by
    have hk : k < 4 := by fin_cases hk <;> decide
    have ht : Within portParts (lineKinds ++ trunkKinds) v
        (if lost then v.traceTake k (v.frame - 1).toNat else v) :=
      .ite ((traceTake_within v k _).mono (by decide)) (.refl _ _ v)
    exact .ite (ht.next (trunkStart_within _ hk) (by decide)) ht
  have h3 : Within portParts (lineKinds ++ trunkKinds) s s3 := h2.foldl fun v k _ =>
    .ite ((Within.refl _ _ v).part (Kept.pairs _ _) (by decide)) (.refl _ _ v)
  exact h3.foldl fun v k hk => (pairSync_within v (by fin_cases hk <;> decide)).mono (by decide)

/-! ### Audio ports (R300, R314) -/

/-- A port that does not run starts, or records why it does not. -/
theorem audStart_within (s : State) {p : Nat} (hp : p < 8) (hoff : (s.aud p).on = false) :
    Within [.audio] [.AUD_STATUS] s (s.audStart p) := by
  have h0 := Within.refl [.audio] [.AUD_STATUS] s
  unfold State.audStart
  split
  · simp only [hoff, Bool.false_eq_true, if_false]
    exact (((h0.part (Kept.audio _ _) (by decide)).setF ⟨by decide, hp, by decide⟩).setF
      ⟨by decide, hp, by decide⟩).raise
  · simp only [hoff, Bool.false_eq_true, if_false]
    exact (h0.setF ⟨by decide, hp, by decide⟩).raise

theorem audSync_within (s : State) {p : Nat} (hp : p < 8) : Within [.audio] [.AUD_STATUS] s (s.audSync p) := by
  unfold State.audSync
  split
  next h => exact audStart_within s hp (by simp_all)
  next => exact .refl _ _ s

/-! ### The reference selector and the DPLL (R121, R135, R140) -/

def candKinds : List RegKind := [.REF_CAND_STATUS, .REF_CAND_FREQ, .REF_SEL_STATUS]

section
variable (s : State) {n : Nat} (hn : n < 8)
include hn

theorem setQual_within (q : Bool) : Within [.ref] candKinds s (s.setQual n q) :=
  .ite (.refl _ _ s) ((Within.refl _ _ s).setB ⟨by decide, hn, by decide⟩).raise

theorem setQl_within (c : Nat) : Within [.ref] candKinds s (s.setQl n c) := by
  have h : Within [.ref] candKinds s (s.setF F.REF_CAND_STATUS_QL c n) :=
    (Within.refl _ _ s).setF ⟨by decide, hn, by decide⟩
  exact .ite (.refl _ _ s) (Within.ite (h.setF (by decide)) h).raise

theorem candEval_within : Within [.ref] candKinds s (s.candEval n) := by
  have hi : RegKind.REF_CAND_STATUS ∈ candKinds ∧ RegKind.REF_CAND_STATUS.has n 0 := ⟨by decide, hn, by decide⟩
  unfold State.candEval
  extract_lets c s1 failed wtr zero _ _ s2 s3 left s4 own s5 silent
  have h1 : Within [.ref] candKinds s s1 := (((Within.refl _ _ s).setB hi).setB hi).setB hi
  have h2 : Within [.ref] candKinds s s2 := (h1.part (Kept.cands _ _) (by decide)).part (Kept.dpll _ _) (by decide)
  have h3 : Within [.ref] candKinds s s3 := .ite (h2.trans (setQual_within _ hn _)) h2
  have h4 : Within [.ref] candKinds s s4 := (h3.setB hi).setF hi
  have h5 : Within [.ref] candKinds s s5 :=
    .ite (.ite (h4.trans (setQl_within _ hn _)) h4) (h4.trans (setQl_within _ hn _))
  exact h5.setB hi

theorem candFail_within : Within [.ref] candKinds s (s.candFail n) :=
  ((((Within.refl _ _ s).part (Kept.cands _ _) (by decide)).setB ⟨by decide, hn, by decide⟩).setF
    ⟨by decide, hn, by decide⟩).trans (candEval_within _ hn)

end

theorem selEval_within (s : State) : Within [.ref] candKinds s s.selEval := by
  unfold State.selEval
  extract_lets s1 bad _ s2
  have h1 : Within [.ref] candKinds s s1 := (Within.refl _ _ s).foldl fun v n hn =>
    (Within.refl _ _ v).setB ⟨by decide, Aside.candNums_lt n hn, by decide⟩
  have h2 : Within [.ref] candKinds s s2 := h1.part (Kept.dpll _ _) (by decide)
  exact .ite h2.raise h2

theorem histClear_within (s : State) : Within [] [.DPLL_HIST, .DPLL_HIST_HEAD] s s.histClear := by
  have h : Within [] [.DPLL_HIST, .DPLL_HIST_HEAD] s ((List.range 128).foldl (fun s i => s.setReg .DPLL_HIST 0 i) s) :=
    (Within.refl _ _ s).foldl fun v i hi => (Within.refl _ _ v).setReg ⟨by decide, List.mem_range.mp hi, by decide⟩
  exact (h.setF (by decide)).setF (by decide)

theorem setSelected_none_within (s : State) : Within [] [.REF_SEL_STATUS] s (s.setSelected none) :=
  .ite (.refl _ _ s) ((Within.refl _ _ s).setF (by decide)).raise

theorem setDpll_within (s : State) (st : Nat) : Within [] [.DPLL_STATUS] s (s.setDpll st) :=
  .ite (.refl _ _ s) ((Within.refl _ _ s).setF (by decide)).raise

theorem setDpll_state (s : State) {st : Nat} (h : st < 4) : (s.setDpll st).f F.DPLL_STATUS_STATE = st := by
  unfold State.setDpll
  split
  · assumption
  · have hr : Within [] [] (s.setF F.DPLL_STATUS_STATE st) ((s.setF F.DPLL_STATUS_STATE st).raise 659) :=
      (Within.refl _ _ _).raise
    rw [hr.field F.DPLL_STATUS_STATE (by decide), State.setF_f _ _ _ _ _ (by decide)]
    exact Nat.mod_eq_of_lt h

def refKinds : List RegKind := [.DPLL_HIST, .DPLL_HIST_HEAD, .DPLL_STATUS, .CLK_STEER] ++ candKinds

/-- The DPLL goes to free run; what follows is the steering word and the candidates. -/
theorem refStart_cases (s : State) : ∃ u, Within [.ref] refKinds s u ∧
    Within [.ref] (.CLK_STEER :: candKinds) (u.setDpll 0) s.refStart := by
  unfold State.refStart
  extract_lets s1 d _ s2 s3
  have h1 : Within [.ref] refKinds s s1 :=
    (((Within.refl _ _ s).part (Kept.dpll s _) (by decide)).next (histClear_within _) (by decide)).next
      (setSelected_none_within _) (by decide)
  have h2 : Within [.ref] refKinds s s2 := h1.part (Kept.dpll s1 _) (by decide)
  have h3 : Within [.ref] (.CLK_STEER :: candKinds) ((s2.setB F.DPLL_STATUS_P_HELD false).setDpll 0) s3 :=
    (Within.refl _ _ _).setF (by decide)
  have h4 := h3.foldl (f := State.candFail) (l := candNums) fun v n hn =>
    (candFail_within v (Aside.candNums_lt n hn)).mono (by decide)
  exact ⟨_, h2.setB (by decide), h4.next (selEval_within _) (by decide)⟩

theorem refStart_within (s : State) : Within [.ref] refKinds s s.refStart := by
  obtain ⟨u, hu, hv⟩ := refStart_cases s
  exact (hu.next (setDpll_within u 0) (by decide)).next hv (by decide)

theorem refStart_state (s : State) : s.refStart.f F.DPLL_STATUS_STATE = 0 := by
  obtain ⟨u, -, hv⟩ := refStart_cases s
  rw [hv.field F.DPLL_STATUS_STATE (by decide), setDpll_state u (by decide)]

/-! ### Counters at a frame strobe (R559, R562) -/

theorem setPctr_within (s : State) (n k : Nat) (c : PCtr) : Within [.counters] [] s (s.setPctr n k c) :=
  (Within.refl _ _ s).part (Kept.pctrs s _) (by decide)

theorem perf_within (s : State) (n : Nat) (vs : List (Nat × Nat)) (t : Nat) :
    Within [.counters] [] s (s.perf n vs t) := by
  refine (Within.refl _ _ s).foldl fun v k _ => ?_
  unfold State.perfOne
  extract_lets ctl sel total
  exact .ite (.refl _ _ v) (.ite (setPctr_within v n k _) (.refl _ _ v))

theorem fperf_within (s : State) (n : Nat) (vs : List (Nat × Nat × Nat)) : Within [.counters] [] s (s.fperf n vs) :=
  (Within.refl _ _ s).foldl fun v k _ => .ite (.refl _ _ v) (.ite (.refl _ _ v) (setPctr_within v 17 k _))

def ovfKinds : List RegKind := [.PERF_STATUS, .FPERF_STATUS]

theorem setOvf_within (s : State) {n : Nat} (hn : n < 18) (k : Nat) : Within [.counters] ovfKinds s (s.setOvf n k) := by
  unfold State.setOvf
  split
  · exact (Within.refl _ _ s).setReg (by decide)
  next hne => exact (Within.refl _ _ s).setReg ⟨by decide, show n < 17 by omega, by decide⟩

theorem wrapOne_within (s : State) {n : Nat} (hn : n < 18) (k : Nat) :
    Within [.counters] ovfKinds s (s.wrapOne n k).1 := by
  have hset (c : PCtr) : Within [.counters] ovfKinds s (s.setPctr n k c) := (setPctr_within s n k c).mono (by decide)
  unfold State.wrapOne
  dsimp only
  split
  · exact .refl _ _ s
  · split
    · exact (hset _).trans (setOvf_within _ hn k)
    · exact hset _

theorem wrapBlock_within (s : State) {n : Nat} (hn : n < 18) : Within [.counters] ovfKinds s (s.wrapBlock n) := by
  have hall (l : List Nat) : ∀ x : State × Bool, Within [.counters] ovfKinds x.1
      (l.foldl (fun (x : State × Bool) k => ((x.1.wrapOne n k).1, x.2 || (x.1.wrapOne n k).2)) x).1 := by
    induction l with
    | nil => exact fun x => .refl _ _ x.1
    | cons k l ih =>
      exact fun x => (wrapOne_within x.1 hn k).trans (ih ((x.1.wrapOne n k).1, x.2 || (x.1.wrapOne n k).2))
  have hw := hall (ctrNums n) (s, false)
  exact .ite (.ite hw.raise hw.raiseAt) hw

theorem strobePulses_within (s : State) (vs : List (Nat × Nat × Nat)) :
    Within [.counters] ovfKinds s (s.strobePulses vs) := by
  have hcores : Within [.counters] ovfKinds s ((List.range 17).foldl (fun s n =>
      if s.corePg n then (s.perf n [(20, 1)]).wrapBlock n else s) s) :=
    (Within.refl _ _ s).foldl fun v n hn => by
      have hn : n < 17 := List.mem_range.mp hn
      exact .ite (((perf_within v n _ 0).mono (by decide)).trans (wrapBlock_within _ (by omega))) (.refl _ _ v)
  unfold State.strobePulses
  exact (hcores.next (fperf_within _ 0 _) (by decide)).trans (wrapBlock_within _ (by decide))

/-! ### The first frame (R25, R166, R170, R177, R441) -/

def patKinds : List RegKind := [.FAB_PAR_COUNT, .FAB_PAR_STATUS, .FAB_PAT_ERR, .FAB_PAT_CTL]

theorem runChecker_within (s : State) {k : Nat} (hk : k < 16) (x : Byte) :
    Within [.fabric] patKinds s (s.runChecker k x) := by
  have hset (u : State) (c : Checker) : Within [.fabric] patKinds u (u.setChecker k c) :=
    (Within.refl _ _ u).part (Kept.fab _ _) (by decide)
  have herr : RegKind.FAB_PAT_ERR ∈ patKinds ∧ RegKind.FAB_PAT_ERR.has k 0 := ⟨by decide, hk, by decide⟩
  have hctl : RegKind.FAB_PAT_CTL ∈ patKinds ∧ RegKind.FAB_PAT_CTL.has k 0 := ⟨by decide, hk, by decide⟩
  unfold State.runChecker
  extract_lets r s1 n s2 s3 mode _ s4
  have h1 : Within [.fabric] patKinds s s1 := hset s _
  have h2 : Within [.fabric] patKinds s s2 := .ite h1 (.ite (h1.setF herr) ((h1.setF herr).setF hctl))
  have h3 : Within [.fabric] patKinds s s3 := .ite ((h2.setB hctl).raise) h2
  have h4 : Within [.fabric] patKinds s s4 := h3.trans (hset s3 _)
  exact .ite h3 (.ite ((h4.setF hctl).raise) h4)

theorem parity_within (s : State) (bad : List (Nat × Bool)) : Within [.fabric] patKinds s (s.parity bad) := by
  have hbump (n : Nat) : Within [.fabric] patKinds s (s.bump F.FAB_PAR_COUNT_COUNT n none) :=
    .ite ((Within.refl _ _ s).setF (by decide)) ((Within.refl _ _ s).setF (by decide))
  unfold State.parity
  split
  · exact .refl _ _ s
  · extract_lets s1 s2 s3
    have h1 : Within [.fabric] patKinds s s1 := (hbump _).setF (by decide)
    have h2 : Within [.fabric] patKinds s s2 := .ite (h1.setF (by decide)) h1
    have h3 : Within [.fabric] patKinds s s3 := .ite ((h2.setF (by decide)).raise) h2
    exact .ite ((h3.setF (by decide)).raise) h3

theorem walkFound_within (s : State) (bad : List (Nat × Bool)) : Within [.fabric] patKinds s (s.walkFound bad) :=
  (parity_within s bad).foldl fun v _ hk => runChecker_within v (List.mem_range.mp hk) _

/-- An interrupted frame leaves the bytes in the fabric, and what the walk found is reported. -/
theorem lostFrame_cases (s : State) : ∃ x bad, s.lostFrame = { s with fab := x, ticks := s.ticks + 1 }.walkFound bad :=
  ⟨_, _, rfl⟩

theorem lostFrame_within (s : State) : Within [.time, .fabric] patKinds s s.lostFrame := by
  obtain ⟨x, bad, he⟩ := lostFrame_cases s
  have h : Within [.time, .fabric] patKinds s { s with fab := x, ticks := s.ticks + 1 } :=
    ((Within.refl _ _ s).part (Kept.fab s x) (by decide)).part (Kept.ticks _ (s.ticks + 1)) (by decide)
  rw [he]
  exact h.next (walkFound_within _ bad) (by decide)

/-- The frame number and SYS_TIME are not touched by it. -/
theorem lostFrame_time (s : State) : s.lostFrame.frame = s.frame ∧ s.lostFrame.sys = s.sys := by
  obtain ⟨x, bad, he⟩ := lostFrame_cases s
  rw [he]
  obtain ⟨hframe, hsys, -, -⟩ := (walkFound_within { s with fab := x, ticks := s.ticks + 1 } bad).same .time (by decide)
  exact ⟨hframe, hsys⟩

theorem mailboxIn_within (s : State) {n : Nat} (hn : n < 16) :
    Within [] [.CORE_MBX_RX, .CORE_MBX_FRAME] s (s.mailboxIn n) := by
  unfold State.mailboxIn
  extract_lets s1
  have h1 : Within [] [.CORE_MBX_RX, .CORE_MBX_FRAME] s s1 := (Within.refl _ _ s).foldl fun v j hj =>
    (Within.refl _ _ v).setReg ⟨by decide, hn, List.mem_range.mp hj⟩
  exact h1.setReg ⟨by decide, hn, by decide⟩

def frameParts : List Part := [.fabric, .cores, .scrub, .counters]

def frameKinds : List RegKind := [.CORE_MBX_RX, .CORE_MBX_FRAME] ++ ovfKinds

/-- The state in which the first frame begins, with what an interrupted one leaves. -/
def State.afterLost (s : State) (lost : Bool) : State := if lost then s.lostFrame else s

theorem afterLost_within (s : State) (lost : Bool) : Within [.time, .fabric] patKinds s (s.afterLost lost) :=
  .ite (lostFrame_within s) (.refl _ _ s)

theorem afterLost_time (s : State) (lost : Bool) :
    (s.afterLost lost).frame = s.frame ∧ (s.afterLost lost).sys = s.sys := by
  cases lost
  · exact ⟨rfl, rfl⟩
  · exact lostFrame_time s

theorem frameBegins_within (s : State) (x : Fabric) : Within [.fabric, .scrub] [] s { s with scrub := 0, fab := x } :=
  ((Within.refl _ _ s).part (Kept.scrub s 0) (by decide)).part (Kept.fab _ x) (by decide)

theorem firstFrame_within (s : State) (lost : Bool) :
    Within frameParts frameKinds (s.afterLost lost) (s.firstFrame lost) := by
  unfold State.firstFrame
  extract_lets s0 s1 _ s2
  have h1 : Within frameParts frameKinds s0 s1 := (Within.refl _ _ _).foldl fun v n _ =>
    (Within.refl _ _ v).part (Kept.setCore _ n _) (by decide)
  have h2 : Within frameParts frameKinds s0 s2 :=
    h1.next (frameBegins_within s1 { s1.fab with src := s1.sources }) (by decide)
  have h3 := h2.foldl (f := State.mailboxIn) (l := List.range 16) fun v n hn =>
    (mailboxIn_within v (List.mem_range.mp hn)).mono (by decide)
  exact h3.next (strobePulses_within _ _) (by decide)

/-! ### Links return (R603, R672) -/

theorem linkReset_within (s : State) (k : Nat) : Within [.links, .queues] [] s (s.linkReset k) := by
  unfold State.linkReset
  extract_lets l s1 s2
  have h1 : Within [.links, .queues] [] s s1 := (Within.refl _ _ s).foldl fun v _ _ =>
    (Within.refl _ _ v).part (Kept.queues _ _) (by decide)
  have h2 : Within [.links, .queues] [] s s2 := h1.part (Kept.links _ _) (by decide)
  exact h2.raise.part (Kept.links _ _) (by decide)

theorem linksReturn_within (s : State) : Within [.links, .queues, .power] [] s s.linksReturn :=
  .ite (((Within.refl _ _ s).part (Kept.pwr s _) (by decide)).foldl fun v k _ =>
    (linkReset_within v k).mono (by decide)) (.refl _ _ s)

/-- The isolation ends as the links return. -/
theorem linksReturn_pwr {s : State} (h : s.divRun = true) : s.linksReturn.pwr = { s.pwr with isolated := false } := by
  unfold State.linksReturn
  rw [h, Bool.and_true]
  split
  next =>
    have hl : Within [.links, .queues] [] { s with pwr := { s.pwr with isolated := false } }
        (linkNums.foldl State.linkReset { s with pwr := { s.pwr with isolated := false } }) :=
      (Within.refl _ _ _).foldl fun v k _ => linkReset_within v k
    exact hl.same .power (by decide)
  next hi => rw [← Bool.eq_false_iff.mpr hi]

end Sys2Proof.Machine
end

section
/-!
PROOFS. PLL_LOCK_RISE as a whole, and O11.
-/
namespace Sys2Proof.Machine

/-! ### The time that resumes (R89 to R91) -/

def resumeKinds : List RegKind := [.TIME_RESUME_FRAME, .TIME_RESUME_RTC_LO, .TIME_RESUME_RTC_HI]

/-- The frame number and the time of the first frame, before the registers latch them. -/
def State.timeOnward (s : State) : State :=
  let f := if s.clk.midFrame then s.frame + 1 else s.frame
  { s with
    frame := f
    sys := BitVec.ofNat 64 (f.toNat * 3072)
    secDone := if s.clk.midFrame then false else s.secDone
    clk := { s.clk with midFrame := false, into := 0 } }

theorem timeResume_eq (s : State) : s.timeResume =
    ((s.timeOnward.setReg .TIME_RESUME_FRAME s.timeOnward.frame).setReg .TIME_RESUME_RTC_LO (s.rtc.setWidth 32)).setReg
      .TIME_RESUME_RTC_HI ((s.rtc >>> 32).setWidth 32) := rfl

theorem timeOnward_within (s : State) : Within [.time, .clocks] [] s s.timeOnward :=
  ⟨fun p hp => by cases p <;> simp_all [Part.same, State.timeOnward], RegsKept.of_eq rfl _⟩

theorem timeResume_within (s : State) : Within [.time, .clocks] resumeKinds s s.timeResume := by
  rw [timeResume_eq]
  have h : Within [.time, .clocks] resumeKinds s s.timeOnward := (timeOnward_within s).mono (by decide)
  exact ((h.setReg (by decide)).setReg (by decide)).setReg (by decide)

theorem timeResume_time (s : State) :
    s.timeResume.frame = (if s.clk.midFrame then s.frame + 1 else s.frame) ∧
      s.timeResume.sys = BitVec.ofNat 64 (s.timeResume.frame.toNat * 3072) := ⟨rfl, rfl⟩

theorem timeResume_regs (s : State) : s.timeResume.reg .TIME_RESUME_FRAME = s.timeResume.frame ∧
    s.timeResume.reg .TIME_RESUME_RTC_LO = s.rtc.setWidth 32 ∧
    s.timeResume.reg .TIME_RESUME_RTC_HI = (s.rtc >>> 32).setWidth 32 := by
  rw [timeResume_eq]
  refine ⟨?_, ?_, State.setReg_reg _ _ _ _ _⟩
  · rw [State.setReg_reg_ne _ _ _ _ _ (by decide), State.setReg_reg_ne _ _ _ _ _ (by decide), State.setReg_reg]
    rfl
  · rw [State.setReg_reg_ne _ _ _ _ _ (by decide), State.setReg_reg]

/-! ### The lock and the dividers (R69) -/

/-- The clocks run and the lock shows, before anything else starts. -/
def State.lockUp (s : State) : State := (s.timeResume.setF F.CLK_ROOT_STATUS_DIV_RUN 1).setLock true

theorem lockUp_resumed (s : State) : Within [] [.CLK_ROOT_STATUS] s.timeResume s.lockUp :=
  .next (.setF (.refl _ _ _) (by decide)) (setLock_within _ true) (by decide)

theorem lockUp_status (s : State) :
    s.lockUp.reg .CLK_ROOT_STATUS = withField (withField (s.reg .CLK_ROOT_STATUS) 2 1 1) 1 1 1 := by
  unfold State.lockUp
  rw [setLock_status, ← (timeResume_within s).reg (k := .CLK_ROOT_STATUS) (i := 0) (j := 0) (by decide)]
  exact congrArg (withField · 1 1 1) (State.setReg_reg _ .CLK_ROOT_STATUS _ 0 0)

/-! ### What starts with the clocks -/

/-- Lines, trunks, audio ports, the reference selector and the DPLL have started. -/
def State.portsUp (s : State) : State := (audPorts.foldl State.audSync (s.lockUp.portsRestart s.clk.midFrame)).refStart

def portsUpParts : List Part := .audio :: portParts

def portsUpKinds : List RegKind := .AUD_STATUS :: (lineKinds ++ trunkKinds ++ refKinds)

theorem portsUp_within (s : State) : Within portsUpParts portsUpKinds s.lockUp s.portsUp := by
  have hports : Within portsUpParts portsUpKinds s.lockUp (s.lockUp.portsRestart s.clk.midFrame) :=
    (portsRestart_within _ _).mono (by decide)
  have haud := hports.foldl (f := State.audSync) (l := audPorts) fun v p hp =>
    (audSync_within v (Aside.audPorts_lt p hp)).mono (by decide)
  exact haud.next (refStart_within _) (by decide)

theorem pllLock_eq {s : State} (hp : s.clk.pllOn = true) (hl : s.b F.CLK_ROOT_STATUS_PLL_LOCK = false) :
    s.pllLock = s.portsUp.firstFrame s.clk.midFrame := by
  unfold State.pllLock State.portsUp State.lockUp
  simp only [hp, hl, Bool.not_false, Bool.and_self, if_true]

/-- The state after an interrupted frame is accounted for. -/
def State.resumed (s : State) : State := s.portsUp.afterLost s.clk.midFrame

theorem resumed_within (s : State) :
    Within (.time :: .fabric :: portsUpParts) (patKinds ++ portsUpKinds) s.lockUp s.resumed :=
  ((portsUp_within s).mono (by decide)).next (afterLost_within _ _) (by decide)

/-- Up to there the frame number and SYS_TIME stay as they resumed. -/
theorem resumed_time (s : State) : s.resumed.frame = s.timeResume.frame ∧ s.resumed.sys = s.timeResume.sys := by
  obtain ⟨hlf, hls⟩ := afterLost_time s.portsUp s.clk.midFrame
  obtain ⟨hpf, hps, -, -⟩ := (portsUp_within s).same .time (by decide)
  obtain ⟨hrf, hrs, -, -⟩ := (lockUp_resumed s).same .time (by decide)
  exact ⟨hlf.trans (hpf.trans hrf), hls.trans (hps.trans hrs)⟩

theorem resumed_state (s : State) : s.resumed.f F.DPLL_STATUS_STATE = 0 := by
  have h : Within [.time, .fabric] patKinds s.portsUp s.resumed := afterLost_within _ _
  rw [h.field F.DPLL_STATUS_STATE (by decide)]
  exact refStart_state _

/-- The links return after the first frame has begun. -/
theorem pllLock_linksReturn {s : State} (hp : s.clk.pllOn = true) (hl : s.b F.CLK_ROOT_STATUS_PLL_LOCK = false) :
    Within (.links :: .queues :: .power :: frameParts) frameKinds s.resumed s.pllLock.linksReturn := by
  rw [pllLock_eq hp hl]
  exact ((firstFrame_within s.portsUp s.clk.midFrame).mono (by decide)).next (linksReturn_within _) (by decide)

theorem pllLock_pwr {s : State} (hp : s.clk.pllOn = true) (hl : s.b F.CLK_ROOT_STATUS_PLL_LOCK = false) :
    s.pllLock.linksReturn.pwr = { s.pwr with isolated := false } := by
  have h : Within (.time :: .scrub :: .cores :: .counters :: .fabric :: portsUpParts)
      (patKinds ++ portsUpKinds ++ frameKinds) s.lockUp s.pllLock := by
    rw [pllLock_eq hp hl]
    exact ((resumed_within s).mono (by decide)).next (firstFrame_within s.portsUp s.clk.midFrame) (by decide)
  have hdiv : s.pllLock.divRun = true := by
    unfold State.divRun
    rw [h.bool F.CLK_ROOT_STATUS_DIV_RUN (by decide), State.b_eq (lockUp_status s)]
    simp [fieldOf_withField, fieldOf_withField_ne]
  have hup : s.lockUp.pwr = s.pwr :=
    ((lockUp_resumed s).same .power (by decide)).trans ((timeResume_within s).same .power (by decide))
  have hpwr : s.pllLock.pwr = s.lockUp.pwr := h.same .power (by decide)
  rw [linksReturn_pwr hdiv, hpwr, hup]

theorem ends_pllLockRise {s : State} (hp : s.clk.pllOn = true) (hl : s.b F.CLK_ROOT_STATUS_PLL_LOCK = false) :
    Ends .pllLockRise s fun t =>
      t.b F.CLK_ROOT_STATUS_PLL_LOCK = true ∧ t.b F.CLK_ROOT_STATUS_DIV_RUN = true ∧
      t.frame = (if s.clk.midFrame then s.frame + 1 else s.frame) ∧ t.sys = BitVec.ofNat 64 (t.frame.toNat * 3072) ∧
      t.reg .TIME_RESUME_FRAME = t.frame ∧ t.reg .TIME_RESUME_RTC_LO = s.rtc.setWidth 32 ∧
      t.reg .TIME_RESUME_RTC_HI = (s.rtc >>> 32).setWidth 32 ∧ t.f F.DPLL_STATUS_STATE = 0 ∧
      t.pwr = { s.pwr with isolated := false } ∧
      Kept [.regs, .events, .time, .clocks, .ref, .lines, .trunks, .audio, .cores, .fabric, .scrub, .power, .links,
        .queues, .counters] s t :=
  ends_run (f := fun s => s.pllLock.linksReturn) rfl fun t ht => by
    have hlate : Within (.links :: .queues :: .power :: frameParts) frameKinds s.resumed t :=
      (pllLock_linksReturn hp hl).settling ht
    have hup : Within (.time :: .links :: .queues :: .power :: portsUpParts ++ frameParts)
        (patKinds ++ portsUpKinds ++ frameKinds) s.lockUp t :=
      ((resumed_within s).mono (by decide)).next hlate (by decide)
    have hres : Within (.time :: .links :: .queues :: .power :: portsUpParts ++ frameParts)
        (.CLK_ROOT_STATUS :: (patKinds ++ portsUpKinds ++ frameKinds)) s.timeResume t :=
      ((lockUp_resumed s).mono (by decide)).next hup (by decide)
    have hall : Within (.clocks :: .time :: .links :: .queues :: .power :: portsUpParts ++ frameParts)
        (resumeKinds ++ .CLK_ROOT_STATUS :: (patKinds ++ portsUpKinds ++ frameKinds)) s t :=
      ((timeResume_within s).mono (by decide)).next hres (by decide)
    have hstatus := (hup.reg (k := .CLK_ROOT_STATUS) (i := 0) (j := 0) (by decide)).trans (lockUp_status s)
    obtain ⟨hframe, hsys, -, -⟩ := hlate.same .time (by decide)
    obtain ⟨hrf, hrs⟩ := resumed_time s
    obtain ⟨htf, hts⟩ := timeResume_time s
    obtain ⟨hfr, hlo, hhi⟩ := timeResume_regs s
    rw [hrf] at hframe
    rw [hrs] at hsys
    refine ⟨?_, ?_, ?_, ?_, ?_, ?_, ?_, ?_, ?_, hall.kept.mono (by decide)⟩
    · rw [State.b_eq hstatus]
      simp [fieldOf_withField]
    · rw [State.b_eq hstatus]
      simp [fieldOf_withField, fieldOf_withField_ne]
    · rw [hframe, htf]
    · rw [hsys, hframe, hts]
    · rw [hres.reg (by decide), hfr, hframe]
    · rw [hres.reg (by decide), hlo]
    · rw [hres.reg (by decide), hhi]
    · rw [hlate.field F.DPLL_STATUS_STATE (by decide), resumed_state]
    · have hpwr : t.pwr = s.pllLock.linksReturn.pwr := ht.1 .power (by simp)
      rw [hpwr, pllLock_pwr hp hl]

/-- Settles O11: PLL_EN starts the oscillator, the settle time enables the PLL, and its lock starts the rest. -/
theorem rootClockStartsInThreeSteps : Obligations.RootClockStartsInThreeSteps :=
  ⟨fun _ _ _ h hs => ends_pllEnSet h hs,
    fun _ _ hs => ⟨fun hc => ends_oscSettleEnd hs hc, fun hc => ends_oscSettleEnd_early hc⟩,
    fun _ hp hl => ends_pllLockRise hp hl⟩

end Sys2Proof.Machine
end

section
/-!
PROOFS. Fields of registers under changes that write other fields, and candidates and line ports as they are read
after a write.
-/
namespace Sys2Proof.Machine

/-! ### Fields of a word -/

/-- Words that agree in the bits of a field agree in the field. -/
theorem fieldOf_congr {v w : Word} {lo width : Nat} (h : ∀ i < width, v.getLsbD (lo + i) = w.getLsbD (lo + i)) :
    fieldOf v lo width = fieldOf w lo width := by
  unfold fieldOf
  apply Nat.eq_of_testBit_eq
  intro i
  rw [Nat.testBit_mod_two_pow, Nat.testBit_mod_two_pow, Nat.testBit_shiftRight, Nat.testBit_shiftRight]
  by_cases hi : i < width
  · simpa [hi, BitVec.testBit_toNat] using h i hi
  · simp [hi]

/-- A field under a mask that covers it. -/
theorem fieldOf_and (v : Word) {w : Word} {lo width : Nat} (h : ∀ i < width, w.getLsbD (lo + i) = true) :
    fieldOf (v &&& w) lo width = fieldOf v lo width :=
  fieldOf_congr fun i hi => by rw [BitVec.getLsbD_and, h i hi, Bool.and_true]

/-- A field of a word with bit 31 set beside it. -/
theorem fieldOf_or_msb (v : Word) {lo width : Nat} (h : lo + width < 32) :
    fieldOf (v ||| 0x80000000) lo width = fieldOf v lo width := fieldOf_congr fun i hi => by
  have hmsb : (0x80000000 : Word).getLsbD (lo + i) = false := by
    have hlt : lo + i < 31 := by omega
    generalize lo + i = b at hlt
    interval_cases b <;> decide
  rw [BitVec.getLsbD_or, hmsb, Bool.or_false]

/-- An RW field of the merged word is that of the word written (R8). -/
theorem fieldOf_merge (r : RegInfo) (old v : Word) {lo width : Nat} (hw : lo + width ≤ 32)
    (h : ∀ i < width, (r.maskOf .rw).getLsbD (lo + i) = true) : fieldOf (r.merge old v) lo width = fieldOf v lo width :=
  fieldOf_congr fun i hi => by rw [merge_getLsbD _ _ _ (by omega), if_pos (h i hi)]

/-- The bits that a register of RW and RO fields lets in. -/
theorem wordIn_rw {k : RegKind} (h : k.info.maskOf .wo = 0 ∧ k.info.maskOf .w1c = 0) (i j : Nat) (v : Word) :
    RegRef.wordIn ⟨k, i, j, false⟩ v = v &&& k.info.maskOf .rw := by
  unfold RegRef.wordIn
  rw [h.1, h.2]
  simp

/-! ### Fields of registers -/

/-- Two fields share no bit of a register. -/
abbrev FieldRef.Apart (f g : FieldRef) : Prop := f.k ≠ g.k ∨ f.lo + f.w ≤ g.lo ∨ g.lo + g.w ≤ f.lo

/-- A write of a field leaves the fields apart from it, at whatever places both stand. -/
theorem State.setF_f_apart (s : State) {f g : FieldRef} (h : f.Apart g) (n : Nat) {i j i' j' : Nat}
    (hf : f.k.has i j) (hg : g.k.has i' j') : (s.setF f n i j).f g i' j' = s.f g i' j' := by
  by_cases he : g.k = f.k ∧ i' = i ∧ j' = j
  · obtain ⟨hk, rfl, rfl⟩ := he
    exact s.setF_f_ne f g n i' j' hk ((h.resolve_left fun hne => hne hk.symm).symm)
  · refine s.setF_f_addr f g n i j i' j' (addr_ne hg hf ?_)
    tauto

/-- A field of one bit after it was set. -/
theorem State.setB_b (s : State) (f : FieldRef) (b : Bool) (i j : Nat) (h : f.w = 1 ∧ f.lo < 32) :
    (s.setB f b i j).b f i j = b := by
  unfold State.b State.setB
  rw [s.setF_f f _ i j (by omega), h.1]
  exact decide_bit b

/-- A change of no part but those listed, and of no field of a register but those listed, PWR_STATUS, QSUM and perhaps
events aside. -/
structure Touches (ps : List Part) (fs : List FieldRef) (s t : State) : Prop where
  within : Within ps (fs.map (·.k)) s t
  fields : ∀ (g : FieldRef) (i j : Nat), g.k.has i j → g.k ≠ .PWR_STATUS ∧ g.k ≠ .QSUM → (∀ f ∈ fs, f.Apart g) →
    t.f g i j = s.f g i j

namespace Touches

theorem refl (ps : List Part) (fs : List FieldRef) (s : State) : Touches ps fs s s :=
  ⟨.refl _ _ s, fun _ _ _ _ _ _ => rfl⟩

/-- A change of no register but those that settle. -/
theorem of_within {ps : List Part} {s t : State} (h : Within ps [] s t) : Touches ps [] s t :=
  ⟨h, fun g _ _ hi hk _ => h.field g ⟨hi, by simp, hk⟩⟩

theorem mono {ps qs : List Part} {fs gs : List FieldRef} {s t : State} (h : Touches ps fs s t)
    (hb : ps ⊆ qs ∧ fs ⊆ gs) : Touches qs gs s t :=
  ⟨h.within.mono ⟨hb.1, List.map_subset _ hb.2⟩, fun g i j hi hk ha => h.fields g i j hi hk fun f hf => ha f (hb.2 hf)⟩

section
variable {ps : List Part} {fs : List FieldRef} {s t u : State} (h : Touches ps fs s t)
include h

theorem trans (g : Touches ps fs t u) : Touches ps fs s u :=
  ⟨h.within.trans g.within, fun f i j hi hk ha => (g.fields f i j hi hk ha).trans (h.fields f i j hi hk ha)⟩

/-- Followed by a change of fewer parts and fields. -/
theorem next {qs : List Part} {gs : List FieldRef} (g : Touches qs gs t u) (hb : qs ⊆ ps ∧ gs ⊆ fs) :
    Touches ps fs s u := h.trans (g.mono hb)

theorem ite {c : Prop} [Decidable c] (g : Touches ps fs s u) : Touches ps fs s (if c then t else u) := by
  split <;> assumption

theorem foldl {α : Type} {f : State → α → State} {l : List α} (hf : ∀ v, ∀ a ∈ l, Touches ps fs v (f v a)) :
    Touches ps fs s (l.foldl f t) := by
  induction l generalizing t with
  | nil => exact h
  | cons a l ih => exact ih (h.trans (hf t a (by simp))) fun v b hb => hf v b (by simp [hb])

/-- Followed by a change of one part. -/
theorem part {p : Part} (g : Kept [p] t u) (hp : p ∈ ps ∧ p ≠ .regs) : Touches ps fs s u :=
  h.next (of_within ((Within.refl [p] [] t).part g (by simp [hp.2]))) (by simp [hp.1])

theorem setF {f : FieldRef} {n i j : Nat} (hi : f ∈ fs ∧ f.k.has i j) : Touches ps fs s (t.setF f n i j) :=
  ⟨h.within.setF ⟨List.mem_map_of_mem hi.1, hi.2⟩, fun g i' j' hg hk ha =>
    (t.setF_f_apart (ha f hi.1) n hi.2 hg).trans (h.fields g i' j' hg hk ha)⟩

theorem setB {f : FieldRef} {b : Bool} {i j : Nat} (hi : f ∈ fs ∧ f.k.has i j) : Touches ps fs s (t.setB f b i j) :=
  h.setF hi

theorem raise {n : Nat} : Touches ps fs s (t.raise n) :=
  h.next (of_within ((Within.refl [] [] t).raise)) (by simp)

theorem settling (g : Settling t u) : Touches ps fs s u :=
  h.next (of_within ((Within.refl [] [] t).settling g)) (by simp)

theorem field (g : FieldRef) {i j : Nat}
    (hg : g.k.has i j ∧ (g.k ≠ .PWR_STATUS ∧ g.k ≠ .QSUM) ∧ ∀ f ∈ fs, f.Apart g) : t.f g i j = s.f g i j :=
  h.fields g i j hg.1 hg.2.1 hg.2.2

theorem bool (g : FieldRef) {i j : Nat}
    (hg : g.k.has i j ∧ (g.k ≠ .PWR_STATUS ∧ g.k ≠ .QSUM) ∧ ∀ f ∈ fs, f.Apart g) : t.b g i j = s.b g i j := by
  unfold State.b; rw [h.field g hg]

/-- The candidates and the DPLL are as they were after a change of other parts. -/
theorem ref (hp : Part.ref ∉ ps) : t.cands = s.cands ∧ t.dpll = s.dpll := h.within.same .ref (by simpa using hp)

end

end Touches

/-- A write of a register of clocks, time, the reference selector or the DPLL. -/
theorem writeReg_clk {k : RegKind} (hk : k.info.scope.isSome = false ∧ k.info.base / 0x10000 = 0x11F) (s : State)
    (m : Master) (i j : Nat) (v : Word) : s.writeReg m ⟨k, i, j, false⟩ v = s.writeClk ⟨k, i, j, false⟩ v := by
  obtain ⟨hscope, hbase⟩ := hk
  simp only [State.writeReg, hscope, hbase, Bool.false_eq_true, if_false]

/-- The answer to a master and the logic after a command. -/
theorem seen_within {u t : State} {m : Master} {v : Word} {e : Bool} (ht : Settling (u.seen m v e) t) :
    Within [.last] [] u t := ((Within.refl _ _ u).seen (by decide)).settling ht

/-- The fabric runs as it did after a change that spares the registers of clocks and domains. -/
theorem Within.fabUp {ps : List Part} {ks : List RegKind} {s t : State} (h : Within ps ks s t)
    (hk : ∀ k ∈ govKinds, k ∉ ks) : t.fabUp = s.fabUp :=
  RegsKept.fabUp h.regs fun k hg _ _ hi => not_mem_of_kinds regsOf_kinds (hk k hg) hi

/-! ### Candidates and line ports -/

@[simp] theorem State.setCand_cand (s : State) (n : Nat) (c : Cand) : (s.setCand n c).cand n = c :=
  tabGet_put_same _ _ _ _

theorem State.setCand_cand_ne (s : State) {n k : Nat} (c : Cand) (h : k ≠ n) : (s.setCand n c).cand k = s.cand k := by
  simp only [State.setCand, State.cand]; apply tabGet_put_ne; exact h

@[simp] theorem State.setLine_line (s : State) (p : Nat) (l : Line) : (s.setLine p l).line p = l :=
  tabGet_put_same _ _ _ _

theorem State.setLine_line_ne (s : State) {p q : Nat} (l : Line) (h : q ≠ p) : (s.setLine p l).line q = s.line q := by
  simp only [State.setLine, State.line]; apply tabGet_put_ne; exact h

theorem Kept.setCand (s : State) (n : Nat) (c : Cand) : Kept [.ref] s (s.setCand n c) := Kept.cands s _

theorem Only.setCand (s : State) (n : Nat) (c : Cand) : Only [.ref] [] [] s (s.setCand n c) :=
  .of_kept (Kept.setCand s n c) rfl rfl rfl _

theorem Kept.setLine (s : State) (p : Nat) (l : Line) : Kept [.lines] s (s.setLine p l) := Kept.lines s _

theorem State.cand_congr {s t : State} (h : t.cands = s.cands) (n : Nat) : t.cand n = s.cand n := by
  unfold State.cand; rw [h]

theorem State.line_congr {s t : State} (h : t.lines = s.lines) (p : Nat) : t.line p = s.line p := by
  unfold State.line; rw [h]

theorem Settling.ref {s t : State} (h : Settling s t) : t.cands = s.cands ∧ t.dpll = s.dpll := h.1 .ref (by simp)

theorem Settling.cand {s t : State} (h : Settling s t) (n : Nat) : t.cand n = s.cand n := State.cand_congr h.ref.1 n

theorem Settling.line {s t : State} (h : Settling s t) (p : Nat) : t.line p = s.line p :=
  State.line_congr (h.1 .lines (by simp)) p

/-- A fold that visits each number of a list once, and at each changes that candidate alone, by a rule that the DPLL's
configuration fixes. -/
theorem foldl_cand {F : State → Nat → State} {g : Nat → Cand → Cand} {d : Dpll} {l : List Nat} (hl : l.Nodup)
    (hF : ∀ u n, u.dpll = d → (F u n).dpll = d ∧ (F u n).cand n = g n (u.cand n) ∧
      ∀ k, k ≠ n → (F u n).cand k = u.cand k) {s : State} (hd : s.dpll = d) (k : Nat) :
    (l.foldl F s).cand k = if k ∈ l then g k (s.cand k) else s.cand k := by
  induction l generalizing s with
  | nil => rfl
  | cons n l ih =>
    obtain ⟨hn, hl⟩ := List.nodup_cons.mp hl
    obtain ⟨hd', hsame, hne⟩ := hF s n hd
    rw [List.foldl_cons, ih hl hd']
    by_cases hk : k = n
    · subst hk
      simp [hn, hsame]
    · simp [hk, hne k hk]

/-- The same of a fold that gives every candidate a new record. -/
theorem foldl_setCand (g : Cand → Cand) (s : State) (n : Nat) :
    (candNums.foldl (fun s n => s.setCand n (g (s.cand n))) s).cand n =
      if n ∈ candNums then g (s.cand n) else s.cand n :=
  foldl_cand (F := fun s n => s.setCand n (g (s.cand n))) (g := fun _ => g) (l := candNums) (by decide)
    (fun u n hu => ⟨hu, u.setCand_cand n _, fun _ hk => u.setCand_cand_ne _ hk⟩) rfl n

theorem mem_candNums {n : Nat} (h : n < 8) : n ∈ candNums := by
  interval_cases n <;> decide

end Sys2Proof.Machine
end

section
/-!
PROOFS. Writes of DPLL_LOOP and of DPLL_HOLD_CTL, the lock of the DPLL, O14 and O16.
-/
namespace Sys2Proof.Machine

/-! ### DPLL_LOOP (R126) -/

theorem loopOk_iff (v : Word) : loopOk v = true ↔
    (fieldOf v 0 2 = 0 ∧ 18 ≤ fieldOf v 4 5 ∧ fieldOf v 4 5 ≤ 20 ∧ 30 ≤ fieldOf v 12 6 ∧ fieldOf v 12 6 ≤ 32) ∨
    (fieldOf v 0 2 = 1 ∧ 15 ≤ fieldOf v 4 5 ∧ fieldOf v 4 5 ≤ 17 ∧ 23 ≤ fieldOf v 12 6 ∧ fieldOf v 12 6 ≤ 25) ∨
    (fieldOf v 0 2 = 2 ∧ 13 ≤ fieldOf v 4 5 ∧ fieldOf v 4 5 ≤ 15 ∧ 20 ≤ fieldOf v 12 6 ∧ fieldOf v 12 6 ≤ 22) ∨
    (fieldOf v 0 2 = 3 ∧ 11 ≤ fieldOf v 4 5 ∧ fieldOf v 4 5 ≤ 13 ∧ 16 ≤ fieldOf v 12 6 ∧ fieldOf v 12 6 ≤ 18) := by
  have hbw : fieldOf v 0 2 < 4 := fieldOf_lt v 0 2
  unfold loopOk
  interval_cases fieldOf v 0 2 <;> simp

/-- The word that DPLL_LOOP takes. -/
def loopWord (v : Word) : Word := v &&& RegKind.DPLL_LOOP.info.maskOf .rw

/-- The register holds every field of the word written. -/
theorem loopWord_fields (v : Word) : fieldOf (loopWord v) 0 2 = fieldOf v 0 2 ∧
    fieldOf (loopWord v) 4 5 = fieldOf v 4 5 ∧ fieldOf (loopWord v) 12 6 = fieldOf v 12 6 :=
  ⟨fieldOf_and v (by decide), fieldOf_and v (by decide), fieldOf_and v (by decide)⟩

theorem loopOk_loopWord (v : Word) : loopOk (loopWord v) = loopOk v := by
  obtain ⟨hbw, hkp, hki⟩ := loopWord_fields v
  unfold loopOk
  rw [hbw, hkp, hki]

theorem writeReg_loop (s : State) (m : Master) (v : Word) :
    s.writeReg m ⟨.DPLL_LOOP, 0, 0, false⟩ v = (s.loopWrite (loopWord v), false) := by
  rw [writeReg_clk (by decide)]
  exact congrArg (fun w => (s.loopWrite w, false)) (wordIn_rw (by decide) 0 0 v)

def loopRegs : List Nat := [RegKind.DPLL_LOOP.addr 0 0, RegKind.DPLL_STATUS.addr 0 0]

/-- A consistent pair is taken. -/
def State.loopTaken (s : State) (v : Word) : State :=
  { s.setReg .DPLL_LOOP v with dpll := { s.dpll with kp := fieldOf v 4 5, ki := fieldOf v 12 6 } }

theorem loopWrite_consistent {s : State} {v : Word} (h : loopOk v = true) : s.loopWrite v =
    ((s.loopTaken v).setF F.DPLL_STATUS_BW_USED (fieldOf v 0 2)).setF F.DPLL_STATUS_MISMATCH 0 := by
  unfold State.loopWrite; rw [if_pos h]; rfl

theorem loopWrite_inconsistent {s : State} {v : Word} (h : loopOk v = false) :
    s.loopWrite v = ((s.setReg .DPLL_LOOP v).setF F.DPLL_STATUS_MISMATCH 1).raise 661 := by
  unfold State.loopWrite; rw [h]; rfl

section
variable {m : Master} {v : Word} {s : State} (h : CanWrite m .DPLL_LOOP 0 0 s)
include h

theorem ends_loop_consistent (hok : loopOk v = true) : Ends (.dpllLoopWrite m v) s fun t =>
      t.reg .DPLL_LOOP = loopWord v ∧ t.dpll = { s.dpll with kp := fieldOf v 4 5, ki := fieldOf v 12 6 } ∧
      t.f F.DPLL_STATUS_BW_USED = fieldOf v 0 2 ∧ t.f F.DPLL_STATUS_MISMATCH = 0 ∧
      t.f F.DPLL_STATUS_STATE = s.f F.DPLL_STATUS_STATE ∧ Answered m 0 false t ∧
      Only [.last, .ref] loopRegs [] s t ∧ t.cands = s.cands := by
  obtain ⟨hbw, hkp, hki⟩ := loopWord_fields v
  let u0 := s.loopTaken (loopWord v)
  let u1 := u0.setF F.DPLL_STATUS_BW_USED (fieldOf v 0 2)
  let u := u1.setF F.DPLL_STATUS_MISMATCH 0
  have hw : s.writeReg m ⟨.DPLL_LOOP, 0, 0, false⟩ v = (u, false) := by
    rw [writeReg_loop, loopWrite_consistent ((loopOk_loopWord v).trans hok), hbw]
  refine ends_write rfl h (by decide) (by decide) rfl hw fun t ht => ?_
  have hstatus : RegKind.DPLL_STATUS.addr 0 0 ∈ loopRegs := by simp [loopRegs]
  have htaken : Only [.last, .ref] loopRegs [] s u0 :=
    (Only.setReg s .DPLL_LOOP (loopWord v) 0 0 _ (.inl (by simp [loopRegs]))).trans
      (.of_kept ((Kept.dpll _ _).mono (by simp)) rfl rfl rfl _)
  have hset : Only [.last, .ref] loopRegs [] s u :=
    (htaken.trans (.setF u0 F.DPLL_STATUS_BW_USED _ 0 0 _ (.inl hstatus))).trans
      (.setF u1 F.DPLL_STATUS_MISMATCH _ 0 0 _ (.inl hstatus))
  have hloop : Within [] [.DPLL_STATUS] u0 u := ((Within.refl _ _ u0).setF (by decide)).setF (by decide)
  have hstate : Within [.ref] [.DPLL_LOOP] s u0 :=
    ((Within.refl _ _ s).setReg (by decide)).part (Kept.dpll _ _) (by decide)
  have ht' := seen_within ht
  refine ⟨?_, ?_, ?_, ?_, ?_, ht.answered, hset.answered ht (by simp), ht.ref.1⟩
  · rw [ht'.reg (by decide), hloop.reg (by decide)]
    exact s.setReg_reg .DPLL_LOOP _ 0 0
  · rw [ht.ref.2, ← hkp, ← hki]
    rfl
  · rw [ht'.field _ (by decide), u1.setF_f_apart (by decide) _ (by decide) (by decide), u0.setF_f _ _ _ _ (by decide)]
    exact Nat.mod_eq_of_lt (fieldOf_lt v 0 2)
  · rw [ht'.field _ (by decide), u1.setF_f _ _ _ _ (by decide)]
    rfl
  · rw [ht'.field _ (by decide), u1.setF_f_apart (by decide) _ (by decide) (by decide),
      u0.setF_f_apart (by decide) _ (by decide) (by decide), hstate.field _ (by decide)]

theorem ends_loop_inconsistent (hok : loopOk v = false) (hu : s.fabUp = true) : Ends (.dpllLoopWrite m v) s fun t =>
      t.reg .DPLL_LOOP = loopWord v ∧ t.f F.DPLL_STATUS_MISMATCH = 1 ∧
      t.f F.DPLL_STATUS_BW_USED = s.f F.DPLL_STATUS_BW_USED ∧ Answered m 0 false t ∧
      Only [.last] loopRegs [s.ev 661] s t := by
  let u0 := s.setReg .DPLL_LOOP (loopWord v)
  let u := u0.setF F.DPLL_STATUS_MISMATCH 1
  have hw : s.writeReg m ⟨.DPLL_LOOP, 0, 0, false⟩ v = (u.raise 661, false) := by
    rw [writeReg_loop, loopWrite_inconsistent ((loopOk_loopWord v).trans hok)]
  refine ends_write rfl h (by decide) (by decide) rfl hw fun t ht => ?_
  have h0 : Within [] [.DPLL_LOOP] s u0 := (Within.refl _ _ s).setReg (by decide)
  have hu0 : Within [] [.DPLL_STATUS] u0 u := (Within.refl _ _ u0).setF (by decide)
  have hup : u.fabUp = true := (hu0.fabUp (by decide)).trans ((h0.fabUp (by decide)).trans hu)
  have hset : Only [.last] loopRegs [] s u :=
    (Only.setReg s _ _ _ _ _ (.inl (by simp [loopRegs]))).trans (.setF _ _ _ _ _ _ (.inl (by simp [loopRegs])))
  have hseen : Only [.last] loopRegs [] (u.raise 661) ((u.raise 661).seen m 0 false) :=
    (Only.seen _ m 0 false).mono (by simp) (by simp)
  have ht' : Within [.last] [] u t := ((Within.refl _ _ u).raise).trans (seen_within ht)
  refine ⟨?_, ?_, ?_, ht.answered, ((hset.raiseAt rfl rfl 661 none s.frame hup).trans hseen).settled ht⟩
  · rw [ht'.reg (by decide), hu0.reg (by decide)]
    exact s.setReg_reg .DPLL_LOOP _ 0 0
  · rw [ht'.field _ (by decide), u0.setF_f _ _ _ _ (by decide)]
    rfl
  · rw [ht'.field _ (by decide), u0.setF_f_apart (by decide) _ (by decide) (by decide), h0.field _ (by decide)]

end

/-- Settles O14: the pair acts just where R126 calls it consistent. -/
theorem dpllLoopTakesConsistentPairsOnly : Obligations.DpllLoopTakesConsistentPairsOnly := by
  intro m v s h hu bw kp ki ok
  refine ⟨fun hok => ends_loop_consistent h ((loopOk_iff v).mpr hok), fun hok => ends_loop_inconsistent h ?_ hu⟩
  exact Bool.eq_false_iff.mpr fun hl => hok ((loopOk_iff v).mp hl)

/-! ### The lock (R121) -/

/-- A change of STATE while the fabric runs, with its event. -/
theorem setDpll_only {s : State} {st : Nat} (hne : s.f F.DPLL_STATUS_STATE ≠ st) (hu : s.fabUp = true) :
    Only [.ref] [RegKind.DPLL_STATUS.addr 0 0] [s.ev 659] s (s.setDpll st) ∧ (s.setDpll st).cands = s.cands := by
  have hset : Only [.ref] [RegKind.DPLL_STATUS.addr 0 0] [] s (s.setF F.DPLL_STATUS_STATE st) :=
    .setF s _ _ _ _ _ (.inl (by simp))
  have hw : Within [] [.DPLL_STATUS] s (s.setF F.DPLL_STATUS_STATE st) := (Within.refl _ _ s).setF (by decide)
  have hup : (s.setF F.DPLL_STATUS_STATE st).fabUp = true := (hw.fabUp (by decide)).trans hu
  rw [State.setDpll, if_neg hne]
  exact ⟨hset.raiseAt rfl rfl 659 none s.frame hup, State.raiseAt_cands _ _ _ _⟩

/-- A move of the DPLL to another state, with a new record of it. -/
theorem setDpll_moved {s t : State} {st : Nat} {d : Dpll} (hst : st < 4) (hne : s.f F.DPLL_STATUS_STATE ≠ st)
    (hu : s.fabUp = true) (ht : Settling { s.setDpll st with dpll := d } t) :
    t.f F.DPLL_STATUS_STATE = st ∧ Only [.ref] [RegKind.DPLL_STATUS.addr 0 0] [s.ev 659] s t ∧ t.cands = s.cands ∧
      t.dpll = d := by
  obtain ⟨honly, hc⟩ := setDpll_only hne hu
  refine ⟨?_, (honly.trans (.of_kept (Kept.dpll _ d) rfl rfl rfl _)).settled ht, ht.ref.1.trans hc, ht.ref.2⟩
  have ht' : Within [] [] { s.setDpll st with dpll := d } t := (Within.refl _ _ _).settling ht
  rw [ht'.field _ (by decide)]
  exact setDpll_state s hst

theorem ends_lockDeclare {s : State} (hu : s.fabUp = true) (hst : s.f F.DPLL_STATUS_STATE = 1)
    (hin : 1000 ≤ s.dpll.inLock) : Ends .dpllLockDeclare s fun t => t.f F.DPLL_STATUS_STATE = 2 ∧
      Only [.ref] [RegKind.DPLL_STATUS.addr 0 0] [s.ev 659] s t ∧ t.cands = s.cands ∧
      t.dpll = { s.dpll with outLock := 0 } :=
  ends_run (f := State.lockDeclare) rfl fun t ht => by
    rw [State.lockDeclare, if_pos (by simp [hu, hst, hin])] at ht
    exact setDpll_moved (by decide) (by rw [hst]; decide) hu ht

theorem ends_lockLoss {s : State} (hu : s.fabUp = true) (hst : s.f F.DPLL_STATUS_STATE = 2)
    (hout : 16 ≤ s.dpll.outLock) : Ends .dpllLockLoss s fun t => t.f F.DPLL_STATUS_STATE = 1 ∧
      Only [.ref] [RegKind.DPLL_STATUS.addr 0 0] [s.ev 659] s t ∧ t.cands = s.cands ∧
      t.dpll = { s.dpll with inLock := 0, outLock := 0 } :=
  ends_run (f := State.lockLoss) rfl fun t ht => by
    rw [State.lockLoss, if_pos (by simp [hu, hst, hout])] at ht
    exact setDpll_moved (by decide) (by rw [hst]; decide) hu ht

theorem ends_lockDeclare_early {s : State} (h : s.f F.DPLL_STATUS_STATE ≠ 1 ∨ s.dpll.inLock < 1000) :
    Ends .dpllLockDeclare s fun t => Only [] [] [] s t :=
  ends_run (f := State.lockDeclare) rfl fun t ht => by
    rwa [State.lockDeclare, if_neg (by simp only [Bool.and_eq_true, decide_eq_true_eq]; omega)] at ht

theorem ends_lockLoss_early {s : State} (h : s.f F.DPLL_STATUS_STATE ≠ 2 ∨ s.dpll.outLock < 16) :
    Ends .dpllLockLoss s fun t => Only [] [] [] s t :=
  ends_run (f := State.lockLoss) rfl fun t ht => by
    rwa [State.lockLoss, if_neg (by simp only [Bool.and_eq_true, decide_eq_true_eq]; omega)] at ht

/-! ### The history ring (R135) -/

/-- The word with the bit that HIST_CLR sets is acceptable just where the word is. -/
theorem holdCtlOk_clr (v : Word) : holdCtlOk (v ||| 0x80000000) = holdCtlOk v := by
  unfold holdCtlOk
  rw [fieldOf_or_msb v (by decide), fieldOf_or_msb v (by decide)]

theorem writeReg_holdCtl_clr (s : State) (m : Master) (v : Word) :
    s.writeReg m ⟨.DPLL_HOLD_CTL, 0, 0, false⟩ (v ||| 0x80000000) =
      ((s.setReg .DPLL_HOLD_CTL (RegKind.DPLL_HOLD_CTL.info.merge (s.reg .DPLL_HOLD_CTL) (v ||| 0x80000000))).histClear, false) := by
  have h31 : (v ||| 0x80000000).getLsbD 31 = true := by rw [BitVec.getLsbD_or]; simp
  rw [writeReg_clk (by decide)]
  show ((if (v ||| 0x80000000).getLsbD 31 then _ else _ : State), false) = _
  rw [h31]
  rfl

/-- The ring with every entry cleared. -/
def State.ringZero (s : State) : State := (List.range 128).foldl (fun s i => s.setReg .DPLL_HIST 0 i) s

theorem histClear_eq (s : State) :
    s.histClear = (s.ringZero.setF F.DPLL_HIST_HEAD_HEAD 0).setF F.DPLL_HIST_HEAD_COUNT 0 := rfl

theorem ringZero_reg (s : State) {i : Nat} (hi : i < 128) : s.ringZero.reg .DPLL_HIST i = 0 := by
  have hall (l : List Nat) (hl : ∀ k ∈ l, k < 128) (v : State) (h : i ∈ l ∨ v.reg .DPLL_HIST i = 0) :
      (l.foldl (fun s i => s.setReg .DPLL_HIST 0 i) v).reg .DPLL_HIST i = 0 := by
    induction l generalizing v with
    | nil => simpa using h
    | cons k l ih =>
      refine ih (fun k' hk' => hl k' (by simp [hk'])) _ ?_
      by_cases hk : i = k
      · exact .inr (hk ▸ v.setReg_reg .DPLL_HIST 0 k 0)
      · rw [v.setReg_reg_ne .DPLL_HIST 0 k 0 (addr_ne ⟨hi, by decide⟩ ⟨hl k (by simp), by decide⟩ (.inr (.inl hk)))]
        simpa [hk] using h
  exact hall _ (fun k hk => List.mem_range.mp hk) s (.inl (List.mem_range.mpr hi))

def histKinds : List RegKind := [.DPLL_HOLD_CTL, .DPLL_HIST, .DPLL_HIST_HEAD]

theorem Only.setReg_kind (s : State) (k : RegKind) (v : Word) {i j : Nat} {ks : List RegKind} (b : List Part)
    (h : k ∈ ks ∧ k.has i j) : Only b (regsOf ks) [] s (s.setReg k v i j) :=
  .setReg s k v i j b (.inl (mem_regsOf h.1 h.2))

/-- As `Only.foldl`, where the steps depend on what the list holds. -/
theorem Only.foldl_mem {α : Type} {b : List Part} {r : List Nat} {f : State → α → State} {l : List α}
    (h : ∀ s, ∀ a ∈ l, Only b r [] s (f s a)) (s : State) : Only b r [] s (l.foldl f s) := by
  induction l generalizing s with
  | nil => exact Only.refl _ _ s
  | cons a l ih => exact (h s a (by simp)).trans (ih (fun s b hb => h s b (by simp [hb])) _)

theorem ringZero_only (s : State) : Only [.last] (regsOf histKinds) [] s s.ringZero :=
  .foldl_mem (fun _ _ hi => .setReg_kind _ .DPLL_HIST 0 _ ⟨by decide, List.mem_range.mp hi, by decide⟩) s

theorem histClear_only (s : State) : Only [.last] (regsOf histKinds) [] s s.histClear :=
  ((ringZero_only s).trans (.setReg_kind _ _ _ _ (by decide))).trans (.setReg_kind _ _ _ _ (by decide))

theorem histClear_head (s : State) :
    s.histClear.f F.DPLL_HIST_HEAD_HEAD = 0 ∧ s.histClear.f F.DPLL_HIST_HEAD_COUNT = 0 := by
  rw [histClear_eq]
  exact ⟨(State.setF_f_apart _ (by decide) _ (by decide) (by decide)).trans (State.setF_f _ _ _ _ _ (by decide)),
    State.setF_f _ _ _ _ _ (by decide)⟩

theorem histClear_reg (s : State) {i : Nat} (hi : i < 128) : s.histClear.reg .DPLL_HIST i = 0 := by
  have hw : Within [] [.DPLL_HIST_HEAD] s.ringZero s.histClear :=
    ((Within.refl _ _ _).setF (by decide)).setF (by decide)
  rw [hw.reg ⟨⟨hi, by decide⟩, by decide⟩]
  exact ringZero_reg s hi

theorem ends_histClr {m : Master} {v : Word} {s : State} (h : CanWrite m .DPLL_HOLD_CTL 0 0 s)
    (hv : holdCtlOk v = true) : Ends (.histClr m v) s fun t =>
      (∀ i < 128, t.reg .DPLL_HIST i = 0) ∧ t.f F.DPLL_HIST_HEAD_HEAD = 0 ∧ t.f F.DPLL_HIST_HEAD_COUNT = 0 ∧
      t.f F.DPLL_HOLD_CTL_WINDOW = fieldOf v 0 7 ∧ t.f F.DPLL_HOLD_CTL_GUARD = fieldOf v 8 6 ∧ Answered m 0 false t ∧
      Only [.last] (regsOf histKinds) [] s t := by
  let w := RegKind.DPLL_HOLD_CTL.info.merge (s.reg .DPLL_HOLD_CTL) (v ||| 0x80000000)
  let u := s.setReg .DPLL_HOLD_CTL w
  have hcode : codesBad .DPLL_HOLD_CTL (v ||| 0x80000000) = false := by
    show (!(holdCtlOk _)) = false
    rw [holdCtlOk_clr, hv]
    rfl
  refine ends_write rfl h (by decide) (by decide) hcode (writeReg_holdCtl_clr s m v) fun t ht => ?_
  have ht' : Within [.last] [] u.histClear t := seen_within ht
  have hctl : t.reg .DPLL_HOLD_CTL = w := by
    rw [ht'.reg (by decide), (histClear_within u).reg (by decide)]
    exact s.setReg_reg .DPLL_HOLD_CTL w 0 0
  obtain ⟨hhead, hcount⟩ := histClear_head u
  refine ⟨fun i hi => ?_, ?_, ?_, ?_, ?_, ht.answered,
    ((Only.setReg_kind s .DPLL_HOLD_CTL w _ (by decide)).trans (histClear_only u)).answered ht (by simp)⟩
  · rw [ht'.reg ⟨⟨hi, by decide⟩, by decide⟩]
    exact histClear_reg u hi
  · rw [ht'.field _ (by decide), hhead]
  · rw [ht'.field _ (by decide), hcount]
  · rw [State.f, hctl]
    exact (fieldOf_merge _ _ _ (by decide) (by decide)).trans (fieldOf_or_msb v (by decide))
  · rw [State.f, hctl]
    exact (fieldOf_merge _ _ _ (by decide) (by decide)).trans (fieldOf_or_msb v (by decide))

/-- Settles O16. -/
theorem dpllLockFollowsPhaseError : Obligations.DpllLockFollowsPhaseError :=
  ⟨fun _ hu hst hin => ends_lockDeclare hu hst hin, fun _ h => ends_lockDeclare_early h,
    fun _ hu hst hout => ends_lockLoss hu hst hout, fun _ h => ends_lockLoss_early h,
    fun _ _ _ h hv => ends_histClr h hv⟩

end Sys2Proof.Machine
end

section
/-!
PROOFS. The monitors of reference candidates: what their evaluation writes, what fails them and qualifies them again,
their phase marks, and O17.
-/
namespace Sys2Proof.Machine

/-! ### Their evaluation (R100 to R110) -/

section
variable (s : State) {n : Nat} (hn : n < 8)
include hn

theorem setQual_touches (q : Bool) : Touches [] [F.REF_CAND_STATUS_QUAL] s (s.setQual n q) :=
  .ite (.refl _ _ s) ((Touches.refl _ _ s).setB ⟨by decide, hn, by decide⟩).raise

theorem setQual_qual (q : Bool) : (s.setQual n q).b F.REF_CAND_STATUS_QUAL n = q := by
  unfold State.setQual
  split
  · assumption
  · have hr : Touches [] [] (s.setB F.REF_CAND_STATUS_QUAL q n) ((s.setB F.REF_CAND_STATUS_QUAL q n).raise (664 + n)) :=
      (Touches.refl _ _ _).raise
    rw [hr.bool _ ⟨⟨hn, by decide⟩, by decide, by simp⟩]
    exact s.setB_b _ q n 0 (by decide)

theorem setQl_touches (c : Nat) :
    Touches [] [F.REF_CAND_STATUS_QL, F.REF_SEL_STATUS_SEL_QL] s (s.setQl n c) := by
  have h : Touches [] [F.REF_CAND_STATUS_QL, F.REF_SEL_STATUS_SEL_QL] s (s.setF F.REF_CAND_STATUS_QL c n) :=
    (Touches.refl _ _ s).setF ⟨by decide, hn, by decide⟩
  exact .ite (.refl _ _ s) (Touches.ite (h.setF (by decide)) h).raise

end

/-- The flags of the failures that an evaluation finds. -/
def State.candFlags (s : State) (n : Nat) : State :=
  ((s.setB F.REF_CAND_STATUS_FAIL_DEF (s.candDefect n) n).setB F.REF_CAND_STATUS_FAIL_FREQ (s.cand n).freqBad n).setB
    F.REF_CAND_STATUS_FAIL_CFG (s.candCfgBad n) n

/-- A failure is flagged. -/
abbrev State.CandFails (s : State) (n : Nat) : Prop := ((s.candFlags n).reg .REF_CAND_STATUS n &&& 0x3C) ≠ 0

/-- The record of a candidate that has been evaluated. -/
def State.candRecord (s : State) (n : Nat) : Cand :=
  { s.cand n with
    failed := s.CandFails n
    wtr := if s.CandFails n then none
      else if (s.cand n).failed then some (s.rf F.REF_CAND_WTR_WTR_S n * 8000) else (s.cand n).wtr }

/-- The evaluation up to QUAL: what follows is the timer's and the quality level's fields. -/
def State.candJudged (s : State) (n : Nat) : State :=
  let s2 := { (s.candFlags n).setCand n (s.candRecord n) with dpll := { s.dpll with
    errZero := s.dpll.errZero || (decide (s.CandFails n) && decide (s.selected = some n)) } }
  if s.CandFails n then s2.setQual n false else s2

def flagFields : List FieldRef :=
  [F.REF_CAND_STATUS_FAIL_DEF, F.REF_CAND_STATUS_FAIL_FREQ, F.REF_CAND_STATUS_FAIL_CFG]

def lateFields : List FieldRef :=
  [F.REF_CAND_STATUS_WTR_RUN, F.REF_CAND_STATUS_WTR_LEFT, F.REF_CAND_STATUS_QL, F.REF_SEL_STATUS_SEL_QL,
    F.REF_CAND_STATUS_QL_FAILED]

def evalFields : List FieldRef := F.REF_CAND_STATUS_QUAL :: (flagFields ++ lateFields)

/-- The registers of `evalFields`. -/
def statusKinds : List RegKind := [.REF_CAND_STATUS, .REF_SEL_STATUS]

section
variable (s : State) {n : Nat} (hn : n < 8)
include hn

theorem candFlags_touches : Touches [] flagFields s (s.candFlags n) :=
  (((Touches.refl _ _ s).setB ⟨by decide, hn, by decide⟩).setB ⟨by decide, hn, by decide⟩).setB ⟨by decide, hn, by decide⟩

theorem candJudged_flagged : Touches [.ref] [F.REF_CAND_STATUS_QUAL] (s.candFlags n) (s.candJudged n) := by
  have h2 (c : Cand) (d : Dpll) : Touches [.ref] [F.REF_CAND_STATUS_QUAL] (s.candFlags n)
      { (s.candFlags n).setCand n c with dpll := d } :=
    ((Touches.refl _ _ _).part (Kept.cands _ _) (by decide)).part (Kept.dpll _ _) (by decide)
  exact .ite ((h2 _ _).next (setQual_touches _ hn false) (by decide)) (h2 _ _)

theorem candEval_late : Touches [] lateFields (s.candJudged n) (s.candEval n) := by
  have hi : RegKind.REF_CAND_STATUS.has n 0 := ⟨hn, by decide⟩
  unfold State.candEval
  extract_lets _ _ _ _ _ _ _ _ s3 _ s4 _ s5 _
  have h3 : Touches [] lateFields (s.candJudged n) s3 := .refl _ _ _
  have h4 : Touches [] lateFields (s.candJudged n) s4 := (h3.setB ⟨by decide, hi⟩).setF ⟨by decide, hi⟩
  have hql (c : Nat) : Touches [] lateFields (s.candJudged n) (s4.setQl n c) :=
    h4.next (setQl_touches s4 hn c) (by decide)
  have h5 : Touches [] lateFields (s.candJudged n) s5 := .ite (.ite (hql _) h4) (hql _)
  exact h5.setB ⟨by decide, hi⟩

theorem candEval_touches : Touches [.ref] evalFields s (s.candEval n) :=
  (((candFlags_touches s hn).mono (by decide)).next (candJudged_flagged s hn) (by decide)).next (candEval_late s hn)
    (by decide)

theorem candEval_flagged : Touches [.ref] (F.REF_CAND_STATUS_QUAL :: lateFields) (s.candFlags n) (s.candEval n) :=
  ((candJudged_flagged s hn).mono (by decide)).next (candEval_late s hn) (by decide)

theorem candJudged_cands : (s.candJudged n).cands = (s.setCand n (s.candRecord n)).cands := by
  unfold State.candJudged
  dsimp only
  split
  · exact ((setQual_touches _ hn false).ref (by decide)).1
  · rfl

theorem candEval_cands : (s.candEval n).cands = (s.setCand n (s.candRecord n)).cands :=
  ((candEval_late s hn).ref (by decide)).1.trans (candJudged_cands s hn)

theorem candEval_cand : (s.candEval n).cand n = s.candRecord n :=
  (State.cand_congr (candEval_cands s hn) n).trans (s.setCand_cand n _)

theorem candEval_cand_ne {k : Nat} (hk : k ≠ n) : (s.candEval n).cand k = s.cand k :=
  (State.cand_congr (candEval_cands s hn) k).trans (s.setCand_cand_ne _ hk)

theorem candEval_failDef : (s.candEval n).b F.REF_CAND_STATUS_FAIL_DEF n = s.candDefect n := by
  have hi : RegKind.REF_CAND_STATUS.has n 0 := ⟨hn, by decide⟩
  rw [(candEval_flagged s hn).bool _ ⟨hi, by decide, by decide⟩]
  have h : Touches [] [F.REF_CAND_STATUS_FAIL_FREQ, F.REF_CAND_STATUS_FAIL_CFG]
      (s.setB F.REF_CAND_STATUS_FAIL_DEF (s.candDefect n) n) (s.candFlags n) :=
    ((Touches.refl _ _ _).setB ⟨by decide, hi⟩).setB ⟨by decide, hi⟩
  rw [h.bool _ ⟨hi, by decide, by decide⟩]
  exact s.setB_b _ _ n 0 (by decide)

theorem candEval_failFreq : (s.candEval n).b F.REF_CAND_STATUS_FAIL_FREQ n = (s.cand n).freqBad := by
  have hi : RegKind.REF_CAND_STATUS.has n 0 := ⟨hn, by decide⟩
  let u := s.setB F.REF_CAND_STATUS_FAIL_DEF (s.candDefect n) n
  rw [(candEval_flagged s hn).bool _ ⟨hi, by decide, by decide⟩]
  have h : Touches [] [F.REF_CAND_STATUS_FAIL_CFG] (u.setB F.REF_CAND_STATUS_FAIL_FREQ (s.cand n).freqBad n)
      (s.candFlags n) := (Touches.refl _ _ _).setB ⟨by decide, hi⟩
  rw [h.bool _ ⟨hi, by decide, by decide⟩]
  exact u.setB_b _ _ n 0 (by decide)

/-- An absent marker, which the evaluation does not judge, fails the candidate. -/
theorem candFails_of_failAct (h : s.b F.REF_CAND_STATUS_FAIL_ACT n = true) : s.CandFails n := by
  rw [← (candFlags_touches s hn).bool F.REF_CAND_STATUS_FAIL_ACT ⟨⟨hn, by decide⟩, by decide, by decide⟩] at h
  intro h0
  have hbit : ((s.candFlags n).reg .REF_CAND_STATUS n).getLsbD 2 = true := by rw [← fieldOf_bit]; exact h
  have h2 : ((s.candFlags n).reg .REF_CAND_STATUS n &&& 0x3C).getLsbD 2 = false := by rw [h0]; rfl
  rw [BitVec.getLsbD_and, hbit] at h2
  exact absurd h2 (by decide)

/-- A candidate that fails is not qualified. -/
theorem candEval_qual (h : s.CandFails n) : (s.candEval n).b F.REF_CAND_STATUS_QUAL n = false := by
  rw [(candEval_late s hn).bool _ ⟨⟨hn, by decide⟩, by decide, by decide⟩, State.candJudged, if_pos h]
  exact setQual_qual _ hn false

end

/-! ### Commands that end in an evaluation -/

/-- What follows an evaluation is the logic after the command. -/
theorem evaluated {s u t : State} {n : Nat} {c : Cand} (hn : n < 8) (hu : u.cands = (s.setCand n c).cands)
    (ht : Settling (u.candEval n) t) : t.cand n = u.candRecord n ∧ ∀ k, k ≠ n → t.cand k = s.cand k :=
  ⟨(ht.cand n).trans (candEval_cand u hn), fun k hk => (ht.cand k).trans
    ((candEval_cand_ne u hn hk).trans ((State.cand_congr hu k).trans (s.setCand_cand_ne c hk)))⟩

/-- Nothing outside the reference block, and no register but the status registers and those that the list names, changed
by an evaluation and what came before. -/
theorem evaluated_kept {s u t : State} {n : Nat} {l : List Nat} (hn : n < 8) (hk : Kept [.regs, .events, .ref] s u)
    (hr : RegsKept (l ++ regsOf statusKinds) s u) (ht : Settling (u.candEval n) t) :
    Kept [.regs, .events, .ref] s t ∧ RegsKept (l ++ regsOf statusKinds) s t := by
  have h : Within [.ref] statusKinds u t := ((candEval_touches u hn).settling ht).within.mono (by decide)
  exact ⟨hk.trans (h.kept.mono (by decide)), hr.trans (h.regs.mono (List.subset_append_right _ _))⟩

section
variable {n : Fin 8} {s : State} (hu : s.fabUp = true) (hen : s.rb F.REF_CAND_CFG_EN n.val = true)
include hu hen

theorem ends_markerTimeout
    (hage : (if s.rf F.REF_CAND_CFG_TYPE n.val = 4 then 8800 else 2) ≤ (s.cand n.val).age) :
    Ends (.markerTimeout n) s fun t => t.b F.REF_CAND_STATUS_FAIL_ACT n.val = true ∧ (t.cand n.val).failed = true ∧
      t.b F.REF_CAND_STATUS_QUAL n.val = false ∧ (∀ k, k ≠ n.val → t.cand k = s.cand k) ∧
      Kept [.regs, .events, .ref] s t ∧ RegsKept (regsOf statusKinds) s t :=
  ends_run (f := fun s => s.markerGone n.val) rfl fun t ht => by
    let u := s.setB F.REF_CAND_STATUS_FAIL_ACT true n.val
    have hi : RegKind.REF_CAND_STATUS.has n.val 0 := ⟨n.isLt, by decide⟩
    have hdo : s.markerGone n.val = u.candEval n.val := by
      rw [State.markerGone, if_pos (by simp [hu, hen, hage])]
      rfl
    rw [hdo] at ht
    have hset : Within [.ref] statusKinds s u := (Within.refl _ _ s).setB ⟨by decide, hi⟩
    have hact : u.b F.REF_CAND_STATUS_FAIL_ACT n.val = true := s.setB_b _ true n.val 0 (by decide)
    have hfails : u.CandFails n.val := candFails_of_failAct u n.isLt hact
    have ht' : Touches [.ref] evalFields u t := (candEval_touches u n.isLt).settling ht
    have htq : Within [] [] (u.candEval n.val) t := (Within.refl _ _ _).settling ht
    have hrec : t.cand n.val = u.candRecord n.val := (ht.cand _).trans (candEval_cand u n.isLt)
    refine ⟨?_, ?_, ?_, fun k hk => (ht.cand k).trans (candEval_cand_ne u n.isLt hk),
      evaluated_kept (l := []) n.isLt (hset.kept.mono (by decide)) hset.regs ht⟩
    · rw [ht'.bool _ ⟨hi, by decide, by decide⟩, hact]
    · rw [hrec]
      exact decide_eq_true hfails
    · rw [htq.bool _ ⟨hi, by decide, by decide⟩, candEval_qual u n.isLt hfails]

/-- A window's offset lies beyond FREQ_LIM (R102). -/
def State.beyond (s : State) (n : Nat) (o : BitVec 16) : Bool :=
  decide (s.rf F.REF_CAND_CFG_FREQ_LIM n ≠ 0) && decide (s.rf F.REF_CAND_CFG_FREQ_LIM n * 100 < o.toInt.natAbs)

theorem ends_freqWindowEnd (o : BitVec 16) :
    Ends (.freqWindowEnd n o) s fun t => t.f F.REF_CAND_FREQ_OFFSET n.val = o.toNat ∧
      t.f F.REF_CAND_FREQ_VALID n.val = 1 ∧
      (t.b F.REF_CAND_STATUS_FAIL_FREQ n.val = true ↔ s.rf F.REF_CAND_CFG_FREQ_LIM n.val ≠ 0 ∧
        s.rf F.REF_CAND_CFG_FREQ_LIM n.val * 100 < o.toInt.natAbs) ∧ (∀ k, k ≠ n.val → t.cand k = s.cand k) ∧
      Kept [.regs, .events, .ref] s t ∧
      RegsKept (RegKind.REF_CAND_FREQ.addr n.val 0 :: regsOf statusKinds) s t :=
  ends_run (f := fun s => s.freqWindow n.val o) rfl fun t ht => by
    let u0 := s.setF F.REF_CAND_FREQ_OFFSET o.toNat n.val
    let u1 := u0.setF F.REF_CAND_FREQ_VALID 1 n.val
    let u := u1.setCand n.val { s.cand n.val with freqBad := s.beyond n.val o }
    have hi : RegKind.REF_CAND_FREQ.has n.val 0 := ⟨n.isLt, by decide⟩
    have hdo : s.freqWindow n.val o = u.candEval n.val := by
      rw [State.freqWindow, if_pos (by simp [hu, hen])]
      rfl
    rw [hdo] at ht
    have hset : Only [.ref] [RegKind.REF_CAND_FREQ.addr n.val 0] [] s u :=
      ((Only.setF s F.REF_CAND_FREQ_OFFSET _ n.val 0 _ (.inl (by simp))).trans
        (.setF u0 F.REF_CAND_FREQ_VALID _ n.val 0 _ (.inl (by simp)))).trans ((Only.setCand u1 _ _).mono (by simp) (by simp))
    have hu' : Within [.ref] [] u1 u := (Within.refl _ _ u1).part (Kept.cands _ _) (by decide)
    have ht' : Touches [.ref] evalFields u1 t := (Touches.of_within hu').mono (by decide) |>.next
      ((candEval_touches u n.isLt).settling ht) (by decide)
    have htq : Within [] [] (u.candEval n.val) t := (Within.refl _ _ _).settling ht
    refine ⟨?_, ?_, ?_, (evaluated n.isLt rfl ht).2, evaluated_kept (l := [RegKind.REF_CAND_FREQ.addr n.val 0]) n.isLt
      (hset.kept.mono (by decide)) (hset.regs.mono (List.subset_append_left _ _)) ht⟩
    · rw [ht'.field _ ⟨hi, by decide, by decide⟩, u0.setF_f_apart (by decide) _ hi hi, s.setF_f _ _ _ _ (by decide)]
      exact Nat.mod_eq_of_lt o.isLt
    · rw [ht'.field _ ⟨hi, by decide, by decide⟩, u0.setF_f _ _ _ _ (by decide)]
      rfl
    · have hbad : (u.cand n.val).freqBad = s.beyond n.val o := by rw [u1.setCand_cand]
      rw [htq.bool _ ⟨⟨n.isLt, by decide⟩, by decide, by decide⟩, candEval_failFreq u n.isLt, hbad, State.beyond]
      simp

end

/-! ### The defects of a REFIN (R101) -/

/-- The input of candidate `n` is a REFIN in DATA mode (`true`) or in CLOCK mode. -/
abbrev State.RefinIs (s : State) (n : Nat) (data : Bool) : Prop :=
  (s.rf F.REF_CAND_CFG_TYPE n = 2 ∧ s.rb F.REF_INPUT_CTL_REFIN0_MODE = data) ∨
    (s.rf F.REF_CAND_CFG_TYPE n = 3 ∧ s.rb F.REF_INPUT_CTL_REFIN1_MODE = data)

/-- The mode bit of the input of candidate `n`, as the model reads it for a REFIN. -/
def State.refinMode (s : State) (n : Nat) : Bool :=
  s.rb (if s.rf F.REF_CAND_CFG_TYPE n = 2 then F.REF_INPUT_CTL_REFIN0_MODE else F.REF_INPUT_CTL_REFIN1_MODE)

theorem refinIs_iff (s : State) (n : Nat) (data : Bool) : s.RefinIs n data ↔
    (s.rf F.REF_CAND_CFG_TYPE n = 2 ∨ s.rf F.REF_CAND_CFG_TYPE n = 3) ∧ s.refinMode n = data := by
  unfold State.refinMode
  by_cases h2 : s.rf F.REF_CAND_CFG_TYPE n = 2
  · simp [State.RefinIs, h2]
  · simp [State.RefinIs, h2]

/-- LOS of a REFIN after what it has received. -/
def losAfter (b : RefinBits) (d : Bool) : Bool :=
  match b with
  | .nothing => d
  | .zeros k => d || decide (32 ≤ k)
  | .window w => d && !clearWindow 32 w

/-- Its loss of alignment. -/
def lofAfter (f : RefinFas) (d : Bool) : Bool :=
  match f with
  | .nothing => d
  | .fas3 w0 w1 w2 => d || decide (w0 ≠ 0x1B ∧ w1 ≠ 0x1B ∧ w2 ≠ 0x1B)
  | .search w0 bit2 w1 => d && !(decide (w0 = 0x1B) && bit2 && decide (w1 = 0x1B))

/-- A candidate's record with the defects received. -/
def Cand.received (c : Cand) (bits : RefinBits) (fas : RefinFas) : Cand :=
  { c with losDef := losAfter bits c.losDef, lofDef := lofAfter fas c.lofDef }

section
variable {n : Nat} {s : State} {bits : RefinBits} {fas : RefinFas}

theorem refinDefect_eq (hu : s.fabUp = true) (hen : s.rb F.REF_CAND_CFG_EN n = true) (h : s.RefinIs n true) :
    s.refinDefect n bits fas = (s.setCand n ((s.cand n).received bits fas)).candEval n := by
  obtain ⟨htyp, hmode⟩ := (refinIs_iff s n true).mp h
  have hdata : s.rb (if s.rf F.REF_CAND_CFG_TYPE n = 2 then F.REF_INPUT_CTL_REFIN0_MODE
      else F.REF_INPUT_CTL_REFIN1_MODE) = true := hmode
  rw [State.refinDefect]
  simp only [hu, hen, htyp, hdata, decide_true, Bool.and_self, if_true]
  cases bits <;> cases fas <;> rfl

/-- In DATA mode the input's own defects are the candidate's. -/
theorem candDefect_refin (h : s.RefinIs n true) (c : Cand) :
    (s.setCand n c).candDefect n = (c.losDef || c.lofDef) := by
  have hc := s.setCand_cand n c
  have hrf (f : FieldRef) (i : Nat) : (s.setCand n c).rf f i = s.rf f i := rfl
  have hrb (f : FieldRef) (i : Nat) : (s.setCand n c).rb f i = s.rb f i := rfl
  unfold State.candDefect
  obtain ⟨htyp, hmode⟩ | ⟨htyp, hmode⟩ := h <;> simp only [hrf, hrb, hc, htyp, hmode, Bool.true_and]

end

theorem ends_refinDefect {n : Fin 8} {s : State} (bits : RefinBits) (fas : RefinFas) (hu : s.fabUp = true)
    (hen : s.rb F.REF_CAND_CFG_EN n.val = true) (h : s.RefinIs n.val true) :
    Ends (.refinDefect n bits fas) s fun t =>
      (t.cand n.val).losDef = losAfter bits (s.cand n.val).losDef ∧ (t.cand n.val).lofDef = lofAfter fas (s.cand n.val).lofDef ∧
      t.b F.REF_CAND_STATUS_FAIL_DEF n.val = (losAfter bits (s.cand n.val).losDef || lofAfter fas (s.cand n.val).lofDef) ∧
      (∀ k, k ≠ n.val → t.cand k = s.cand k) ∧
      Kept [.regs, .events, .ref] s t ∧ RegsKept (regsOf statusKinds) s t :=
  ends_run (f := fun s => s.refinDefect n.val bits fas) rfl fun t ht => by
    let c := (s.cand n.val).received bits fas
    let u := s.setCand n.val c
    rw [refinDefect_eq hu hen h] at ht
    have hset : Within [.ref] statusKinds s u := (Within.refl _ _ s).part (Kept.setCand s _ _) (by decide)
    have htq : Within [] [] (u.candEval n.val) t := (Within.refl _ _ _).settling ht
    obtain ⟨hrec, hothers⟩ := evaluated (s := s) (c := c) n.isLt rfl ht
    have hc : u.cand n.val = c := s.setCand_cand n.val c
    refine ⟨?_, ?_, ?_, hothers, evaluated_kept (l := []) n.isLt (hset.kept.mono (by decide)) hset.regs ht⟩
    · rw [hrec, State.candRecord, hc]
      rfl
    · rw [hrec, State.candRecord, hc]
      rfl
    · rw [htq.bool _ ⟨⟨n.isLt, by decide⟩, by decide, by decide⟩, candEval_failDef u n.isLt]
      exact candDefect_refin h c

/-! ### Phase marks (R98, R99) -/

/-- A candidate's record is `c`, and nothing else has changed. -/
def CandOnly (n : Nat) (c : Cand) (s t : State) : Prop :=
  t.cand n = c ∧ (∀ k, k ≠ n → t.cand k = s.cand k) ∧ t.dpll = s.dpll ∧ Only [.ref] [] [] s t

theorem CandOnly.refl (n : Nat) (s : State) : CandOnly n (s.cand n) s s := ⟨rfl, fun _ _ => rfl, rfl, .refl _ _ s⟩

theorem CandOnly.setCand {n : Nat} {c : Cand} {s u : State} (h : CandOnly n c s u) (c' : Cand) :
    CandOnly n c' s (u.setCand n c') := by
  obtain ⟨-, hothers, hdpll, honly⟩ := h
  exact ⟨u.setCand_cand n c', fun k hk => (u.setCand_cand_ne c' hk).trans (hothers k hk), hdpll,
    honly.trans (.setCand u n c')⟩

theorem CandOnly.settled {n : Nat} {c : Cand} {s u t : State} (h : CandOnly n c s u) (ht : Settling u t) :
    CandOnly n c s t := by
  obtain ⟨hc, hothers, hdpll, honly⟩ := h
  exact ⟨(ht.cand n).trans hc, fun k hk => (ht.cand k).trans (hothers k hk), ht.ref.2.trans hdpll, honly.settled ht⟩

/-- A candidate's record after a marker with its comparison. -/
def Cand.marked (c : Cand) (e : Int) : Cand :=
  { c with age := 0, err := e, sum := c.sum + halfFrame (e - c.align), num := c.num + 1 }

/-- A candidate's record after so many rising edges, the last of them with the comparison `e`. -/
def Cand.clocked (c : Cand) (k : Nat) (e : Int) : Cand :=
  let c' := { c with edges := (c.edges + k) % 256 }
  if 256 ≤ c.edges + k then c'.marked e else c'

theorem CandOnly.candMarker {n : Nat} {c : Cand} {s u : State} (h : CandOnly n c s u) (e : Int) :
    CandOnly n (c.marked e) s (u.candMarker n e) := by
  have hc : u.cand n = c := h.1
  rw [State.candMarker, hc]
  exact h.setCand _

section
variable {n : Nat} {s : State} (hu : s.fabUp = true) (hen : s.rb F.REF_CAND_CFG_EN n = true) (e : Int)
include hu hen

theorem phaseMark_edges (k : Nat) : s.phaseMark n (.edges k) e =
    if s.RefinIs n false then
      if 256 ≤ (s.cand n).edges + k then
        (s.setCand n { s.cand n with edges := ((s.cand n).edges + k) % 256 }).candMarker n e
      else s.setCand n { s.cand n with edges := ((s.cand n).edges + k) % 256 }
    else s := by
  rw [State.phaseMark, if_pos (by simp [hu, hen])]
  exact ite_congr (by rw [refinIs_iff]; simp [State.refinMode]) (fun _ => rfl) fun _ => rfl

theorem phaseMark_frame : s.phaseMark n .frame e = if s.RefinIs n true then s.candMarker n e else s := by
  rw [State.phaseMark, if_pos (by simp [hu, hen])]
  exact ite_congr (by rw [refinIs_iff]; rfl) (fun _ => rfl) fun _ => rfl

theorem phaseMark_pps (rising : Bool) : s.phaseMark n (.pps rising) e =
    if s.rf F.REF_CAND_CFG_TYPE n = 4 ∧ rising ≠ s.rb F.REF_INPUT_CTL_PPS_EDGE then s.candMarker n e else s := by
  rw [State.phaseMark, if_pos (by simp [hu, hen])]

theorem phaseMark_edges_counted (k : Nat) (h : s.RefinIs n false) :
    CandOnly n ((s.cand n).clocked k e) s (s.phaseMark n (.edges k) e) := by
  have hset := (CandOnly.refl n s).setCand { s.cand n with edges := ((s.cand n).edges + k) % 256 }
  rw [phaseMark_edges hu hen, if_pos h, Cand.clocked]
  split
  · exact hset.candMarker e
  · exact hset

end

/-- A phase mark that leaves `c` of its candidate. -/
theorem ends_phaseMarker {n : Fin 8} {mark : RefMark} {e : BitVec 17} {s : State} {c : Cand}
    (h : CandOnly n.val c s (s.phaseMark n.val mark e.toInt)) :
    Ends (.phaseMarker n mark e) s (CandOnly n.val c s) :=
  ends_run (f := fun s => s.phaseMark n.val mark e.toInt) rfl fun _ ht => h.settled ht

section
variable {n : Fin 8} {s : State} (hu : s.fabUp = true) (hen : s.rb F.REF_CAND_CFG_EN n.val = true) (e : BitVec 17)
include hu hen

theorem ends_edges (k : Nat) :
    (s.RefinIs n.val false → Ends (.phaseMarker n (.edges k) e) s
      (CandOnly n.val ((s.cand n.val).clocked k e.toInt) s)) ∧
    (¬s.RefinIs n.val false → Ends (.phaseMarker n (.edges k) e) s (CandOnly n.val (s.cand n.val) s)) := by
  refine ⟨fun h => ends_phaseMarker (phaseMark_edges_counted hu hen e.toInt k h), fun h => ends_phaseMarker ?_⟩
  rw [phaseMark_edges hu hen, if_neg h]
  exact .refl _ s

theorem ends_frame :
    (s.RefinIs n.val true → Ends (.phaseMarker n .frame e) s (CandOnly n.val ((s.cand n.val).marked e.toInt) s)) ∧
    (¬s.RefinIs n.val true → Ends (.phaseMarker n .frame e) s (CandOnly n.val (s.cand n.val) s)) := by
  refine ⟨fun h => ends_phaseMarker ?_, fun h => ends_phaseMarker ?_⟩
  · rw [phaseMark_frame hu hen, if_pos h]
    exact (CandOnly.refl _ s).candMarker _
  · rw [phaseMark_frame hu hen, if_neg h]
    exact .refl _ s

theorem ends_pps (rising : Bool) :
    let h := s.rf F.REF_CAND_CFG_TYPE n.val = 4 ∧ rising ≠ s.rb F.REF_INPUT_CTL_PPS_EDGE
    (h → Ends (.phaseMarker n (.pps rising) e) s (CandOnly n.val ((s.cand n.val).marked e.toInt) s)) ∧
    (¬h → Ends (.phaseMarker n (.pps rising) e) s (CandOnly n.val (s.cand n.val) s)) := by
  refine ⟨fun h => ends_phaseMarker ?_, fun h => ends_phaseMarker ?_⟩
  · rw [phaseMark_pps hu hen, if_pos h]
    exact (CandOnly.refl _ s).candMarker _
  · rw [phaseMark_pps hu hen, if_neg h]
    exact .refl _ s

end

/-! ### The timer (R109, R111) and a rewritten source (R136) -/

theorem ends_wtrExpire {n : Fin 8} {s : State} (hu : s.fabUp = true) (hf : (s.cand n.val).failed = false)
    (hw : (s.cand n.val).wtr = some 0) :
    Ends (.wtrExpire n) s fun t => t.b F.REF_CAND_STATUS_QUAL n.val = true ∧ (t.cand n.val).wtr = none ∧
      (∀ k, k ≠ n.val → t.cand k = s.cand k) ∧
      Kept [.regs, .events, .ref] s t ∧ RegsKept (regsOf [.REF_CAND_STATUS]) s t :=
  ends_run (f := fun s => s.wtrEnd n.val) rfl fun t ht => by
    let c := { s.cand n.val with wtr := none }
    let u := s.setCand n.val c
    have hdo : s.wtrEnd n.val = u.setQual n.val true := by
      rw [State.wtrEnd, if_pos hu, State.wtrDone, if_pos (by simp [hf, hw])]
    rw [hdo] at ht
    have hq : Touches [] [F.REF_CAND_STATUS_QUAL] u t := (setQual_touches u n.isLt true).settling ht
    have ht' : Within [] [] (u.setQual n.val true) t := (Within.refl _ _ _).settling ht
    have hall : Within [.ref] [.REF_CAND_STATUS] s t :=
      ((Within.refl _ _ s).part (Kept.setCand s _ _) (by decide)).next hq.within (by decide)
    have hcand (k : Nat) : t.cand k = u.cand k := State.cand_congr (hq.ref (by decide)).1 k
    refine ⟨?_, ?_, fun k hk => (hcand k).trans (s.setCand_cand_ne c hk), hall.kept.mono (by decide), hall.regs⟩
    · rw [ht'.bool _ ⟨⟨n.isLt, by decide⟩, by decide, by decide⟩]
      exact setQual_qual u n.isLt true
    · rw [hcand, s.setCand_cand]

/-- The word that REF_CAND_WTR takes. -/
def State.wtrWord (s : State) (n : Nat) (v : Word) : Word :=
  RegKind.REF_CAND_WTR.info.merge (s.reg .REF_CAND_WTR n) (v ||| 0x80000000)

/-- REF_CAND_WTR is written and the running timer set to 0. -/
def State.wtrZero (s : State) (n : Nat) (v : Word) : State :=
  (s.setReg .REF_CAND_WTR (s.wtrWord n v) n).setCand n { s.cand n with wtr := some 0 }

theorem writeReg_wtr_clr {s : State} {n : Nat} (h : (s.cand n).wtr.isSome = true) (m : Master) (v : Word) :
    s.writeReg m ⟨.REF_CAND_WTR, n, 0, false⟩ (v ||| 0x80000000) =
      (((s.wtrZero n v).setF F.REF_CAND_STATUS_WTR_RUN 0 n).setF F.REF_CAND_STATUS_WTR_LEFT 0 n, false) := by
  have h31 : (v ||| 0x80000000).getLsbD 31 = true := by rw [BitVec.getLsbD_or]; simp
  rw [writeReg_clk (by decide)]
  show (s.writeWtr n (v ||| 0x80000000), false) = _
  rw [State.writeWtr, h31, h]
  rfl

theorem ends_wtrClear {m : Master} {n : Fin 8} {v : Word} {s : State} (h : CanWrite m .REF_CAND_WTR n.val 0 s)
    (hrun : (s.cand n.val).wtr.isSome = true) :
    Ends (.wtrClear m n v) s fun t => (t.cand n.val).wtr = some 0 ∧ t.f F.REF_CAND_STATUS_WTR_LEFT n.val = 0 ∧
      t.f F.REF_CAND_WTR_WTR_S n.val = fieldOf v 0 12 ∧ (∀ k, k ≠ n.val → t.cand k = s.cand k) ∧ Answered m 0 false t ∧
      Only [.last, .ref] [RegKind.REF_CAND_WTR.addr n.val 0, RegKind.REF_CAND_STATUS.addr n.val 0] [] s t := by
  let c := { s.cand n.val with wtr := some 0 }
  let w := s.setReg .REF_CAND_WTR (s.wtrWord n.val v) n.val
  let u0 := s.wtrZero n.val v
  let u1 := u0.setF F.REF_CAND_STATUS_WTR_RUN 0 n.val
  have hi : RegKind.REF_CAND_STATUS.has n.val 0 := ⟨n.isLt, by decide⟩
  refine ends_write rfl h ⟨n.isLt, by decide⟩ (by decide) rfl (writeReg_wtr_clr hrun m v) fun t ht => ?_
  have ht' : Within [.last] [] (u1.setF F.REF_CAND_STATUS_WTR_LEFT 0 n.val) t := seen_within ht
  have h0 : Within [.last] [.REF_CAND_STATUS] u0 t :=
    (((Within.refl _ _ u0).setF ⟨by decide, hi⟩).setF ⟨by decide, hi⟩).next ht' (by decide)
  have hcands : t.cands = u0.cands := (h0.same .ref (by decide)).1
  have hw : Within [.last, .ref] [.REF_CAND_STATUS] w t :=
    ((Within.refl _ _ w).part (Kept.setCand w _ _) (by decide)).next h0 (by decide)
  have hstatus : RegKind.REF_CAND_STATUS.addr n.val 0 ∈
      [RegKind.REF_CAND_WTR.addr n.val 0, RegKind.REF_CAND_STATUS.addr n.val 0] := by simp
  refine ⟨?_, ?_, ?_, fun k hk => (State.cand_congr hcands k).trans (w.setCand_cand_ne c hk), ht.answered, ?_⟩
  · rw [(State.cand_congr hcands _).trans (w.setCand_cand n.val c)]
  · rw [ht'.field _ ⟨hi, by decide, by decide⟩, u1.setF_f _ _ _ _ (by decide)]
    rfl
  · rw [State.f, hw.reg ⟨⟨n.isLt, by decide⟩, by decide⟩]
    refine (congrArg (fieldOf · 0 12) (s.setReg_reg .REF_CAND_WTR _ n.val 0)).trans ?_
    exact (fieldOf_merge _ _ _ (by decide) (by decide)).trans (fieldOf_or_msb v (by decide))
  · exact (((Only.setReg s .REF_CAND_WTR _ n.val 0 _ (.inl (by simp))).trans
      ((Only.setCand w n.val c).mono (by simp) (by simp))).trans
      ((Only.setF u0 F.REF_CAND_STATUS_WTR_RUN 0 n.val 0 _ (.inl hstatus)).trans
        (.setF u1 F.REF_CAND_STATUS_WTR_LEFT 0 n.val 0 _ (.inl hstatus)))).answered ht (by simp)

/-- The word that REF_CAND_CFG takes. -/
def cfgWord (v : Word) : Word := v &&& RegKind.REF_CAND_CFG.info.maskOf .rw

theorem writeReg_candCfg (s : State) (m : Master) (n : Nat) (v : Word) :
    s.writeReg m ⟨.REF_CAND_CFG, n, 0, false⟩ v = (s.candCfgWrite n (cfgWord v), false) := by
  rw [writeReg_clk (by decide)]
  exact congrArg (fun w => (s.candCfgWrite n w, false)) (wordIn_rw (by decide) n 0 v)

/-- The candidate's record after a write of its configuration: made failed at the next boundary if the source changed. -/
def State.rewritten (s : State) (n : Nat) (w : Word) : Cand :=
  { s.cand n with fresh := (s.cand n).fresh || decide (s.reg .REF_CAND_CFG n &&& 0x3FFF ≠ w &&& 0x3FFF) }

theorem candCfgWrite_effect (s : State) (n : Nat) (w : Word) :
    (s.candCfgWrite n w).reg .REF_CAND_CFG n = w ∧ (s.candCfgWrite n w).cand n = s.rewritten n w ∧
      (∀ k, k ≠ n → (s.candCfgWrite n w).cand k = s.cand k) ∧
      Only [.last, .ref] [RegKind.REF_CAND_CFG.addr n 0] [] s (s.candCfgWrite n w) := by
  let u := s.setReg .REF_CAND_CFG w n
  have hreg : u.reg .REF_CAND_CFG n = w := s.setReg_reg _ w n 0
  have hu : Only [.last, .ref] [RegKind.REF_CAND_CFG.addr n 0] [] s u := .setReg s _ w n 0 _ (.inl (by simp))
  have hcand (k : Nat) : u.cand k = s.cand k := rfl
  unfold State.candCfgWrite State.rewritten
  by_cases h : s.reg .REF_CAND_CFG n &&& 0x3FFF = w &&& 0x3FFF
  · simp only [h, ne_eq, not_true_eq_false, if_false, decide_false, Bool.or_false]
    exact ⟨hreg, hcand n, fun k _ => hcand k, hu⟩
  · simp only [h, ne_eq, not_false_eq_true, if_true, decide_true, Bool.or_true]
    exact ⟨hreg, u.setCand_cand n _, fun k hk => u.setCand_cand_ne _ hk,
      hu.trans ((Only.setCand u n _).mono (by simp) (by simp))⟩

theorem ends_refCandCfgWrite {m : Master} {n : Fin 8} {v : Word} {s : State} (h : CanWrite m .REF_CAND_CFG n.val 0 s)
    (hv : codesBad .REF_CAND_CFG v = false) :
    Ends (.refCandCfgWrite m n v) s fun t => t.reg .REF_CAND_CFG n.val = cfgWord v ∧
      (t.cand n.val).fresh = (s.rewritten n.val (cfgWord v)).fresh ∧ (∀ k, k ≠ n.val → t.cand k = s.cand k) ∧
      Answered m 0 false t ∧ Only [.last, .ref] [RegKind.REF_CAND_CFG.addr n.val 0] [] s t := by
  obtain ⟨hreg, hcand, hothers, honly⟩ := candCfgWrite_effect s n.val (cfgWord v)
  refine ends_write rfl h ⟨n.isLt, by decide⟩ (by decide) hv (writeReg_candCfg s m n.val v) fun t ht => ?_
  have hc (k : Nat) : t.cand k = (s.candCfgWrite n.val (cfgWord v)).cand k := State.cand_congr ht.ref.1 k
  refine ⟨?_, by rw [hc, hcand], fun k hk => (hc k).trans (hothers k hk), ht.answered, honly.answered ht (by simp)⟩
  rw [(seen_within ht).reg ⟨⟨n.isLt, by decide⟩, by decide⟩, hreg]

/-- Settles O17: each clause is the effect of its command; a mark is told apart by what it is a mark of. -/
theorem candidateFailuresAndTimers : Obligations.CandidateFailuresAndTimers := by
  refine ⟨fun n s hu hen hage => ends_markerTimeout hu hen hage, fun n o s hu hen => ends_freqWindowEnd hu hen o,
    fun n bits fas s hu hen hdata => ?_, fun n mark e s hu hen => ?_,
    fun n s hu hf hw => ends_wtrExpire hu hf hw, fun m n v s h hrun => ends_wtrClear h hrun,
    fun m n v s h hv => ends_refCandCfgWrite h hv⟩
  · intro c los lof
    have hlos : los = losAfter bits c.losDef := by cases bits <;> rfl
    have hlof : lof = lofAfter fas c.lofDef := by cases fas <;> simp [lof, lofAfter, Bool.and_assoc]
    rw [hlos, hlof]
    exact ends_refinDefect bits fas hu hen hdata
  · cases mark with
    | edges k => exact ends_edges hu hen e k
    | frame => exact ends_frame hu hen e
    | pps rising => exact ends_pps hu hen e rising

end Sys2Proof.Machine
end

section
/-!
PROOFS. An update interval of the DPLL: the filter, the selection that is applied, realignment and holdover, and O15.
-/
namespace Sys2Proof.Machine

/-! ### Numbers in fields -/

theorem unsignedOf_lt (w : Nat) (i : Int) : unsignedOf w i < 2 ^ w := by
  have hpos : (0 : Int) < ((2 ^ w : Nat) : Int) := by exact_mod_cast Nat.two_pow_pos w
  have hlt := Int.emod_lt_of_pos i hpos
  unfold unsignedOf
  omega

/-- A field of its own width takes a two's complement number whole. -/
theorem setF_unsignedOf (s : State) {f : FieldRef} (h : f.lo + f.w ≤ 32) (i : Int) :
    (s.setF f (unsignedOf f.w i)).f f = unsignedOf f.w i := by
  rw [s.setF_f f _ 0 0 h, Nat.mod_eq_of_lt (unsignedOf_lt _ i)]

/-! ### The interval that ends (R121 to R125, R130) -/

def intervalFields : List FieldRef := [F.DPLL_PHASE_ERR, F.DPLL_STATUS_P_HELD, F.CLK_STEER_STEER]

/-- What the end of an interval leaves: the candidates, the configuration and the selection to apply, and every field
but those of the filter. -/
structure IntervalEnd (s t : State) : Prop where
  touches : Touches [.ref] intervalFields s t
  cands : t.cands = s.cands
  cfg : t.dpll.cfg = s.dpll.cfg
  take : t.dpll.take = s.dpll.take
  takeFree : t.dpll.takeFree = s.dpll.takeFree

namespace IntervalEnd

theorem refl (s : State) : IntervalEnd s s := ⟨.refl _ _ s, rfl, rfl, rfl, rfl⟩

theorem trans {s t u : State} (h : IntervalEnd s t) (g : IntervalEnd t u) : IntervalEnd s u :=
  ⟨h.touches.trans g.touches, g.cands.trans h.cands, g.cfg.trans h.cfg, g.take.trans h.take,
    g.takeFree.trans h.takeFree⟩

theorem ite {c : Prop} [Decidable c] {s t u : State} (h : IntervalEnd s t) (g : IntervalEnd s u) :
    IntervalEnd s (if c then t else u) := by split <;> assumption

/-- A new record of the DPLL with the same configuration and selection. -/
theorem dpll {s : State} {d : Dpll} (hc : d.cfg = s.dpll.cfg) (ht : d.take = s.dpll.take)
    (hf : d.takeFree = s.dpll.takeFree) : IntervalEnd s { s with dpll := d } :=
  ⟨(Touches.refl _ _ s).part (Kept.dpll s d) (by decide), rfl, hc, ht, hf⟩

theorem setF {s t : State} (h : IntervalEnd s t) {f : FieldRef} (n : Nat) (hf : f ∈ intervalFields ∧ f.k.has 0 0) :
    IntervalEnd s (t.setF f n) := h.trans ⟨(Touches.refl _ _ t).setF hf, rfl, rfl, rfl, rfl⟩

end IntervalEnd

/-- The filter while the proportional path is held. -/
theorem filter_held {s : State} (h : 0 < s.dpll.held) (kp ki : Nat) (e : Int) : s.filter kp ki e =
    (({ s with dpll := { s.dpll with held := s.dpll.held - 1 } }).setB F.DPLL_STATUS_P_HELD
      (decide (s.dpll.held - 1 > 0))).steer s.dpll.integ := if_pos h

/-- The DPLL's record after an interval of the full filter. -/
def State.filtered (s : State) (kp ki : Nat) (e : Int) : Dpll :=
  let ns := max 1 (s.rf F.DPLL_LOCK_CTL_LOCK_NS)
  { s.dpll with
    integ := (pi kp ki s.dpll.integ e).1
    inLock := if within e ns then s.dpll.inLock + 1 else 0
    outLock := if within e (4 * ns) then 0 else s.dpll.outLock + 1 }

theorem filter_full {s : State} (h : s.dpll.held = 0) (kp ki : Nat) (e : Int) : s.filter kp ki e =
    ({ s with dpll := s.filtered kp ki e }).steer (pi kp ki s.dpll.integ e).2 :=
  if_neg (by omega)

theorem filter_intervalEnd (s : State) (kp ki : Nat) (e : Int) : IntervalEnd s (s.filter kp ki e) := by
  by_cases h : s.dpll.held = 0
  · rw [filter_full h]
    have hdpll : IntervalEnd s { s with dpll := s.filtered kp ki e } := .dpll rfl rfl rfl
    exact hdpll.setF (f := F.CLK_STEER_STEER) _ (by decide)
  · rw [filter_held (by omega)]
    have hdpll : IntervalEnd s { s with dpll := { s.dpll with held := s.dpll.held - 1 } } := .dpll rfl rfl rfl
    exact (hdpll.setF (f := F.DPLL_STATUS_P_HELD) _ (by decide)).setF (f := F.CLK_STEER_STEER) _ (by decide)

theorem histInterval_intervalEnd (s : State) : IntervalEnd s s.histInterval := .dpll rfl rfl rfl

theorem endInterval_intervalEnd (s : State) : IntervalEnd s s.endInterval := by
  unfold State.endInterval
  extract_lets e s1 st
  have h1 : IntervalEnd s s1 := by
    dsimp only [s1]
    split
    · exact (IntervalEnd.refl s).setF _ (by decide)
    · exact .refl s
  exact .ite (.ite (h1.trans (filter_intervalEnd _ _ _ _)) (h1.trans (filter_intervalEnd _ _ _ _))) h1

/-- In LOCKING and LOCKED with no realignment the phase error is reported and filtered. -/
theorem endInterval_steady {s : State} {n : Nat} (hsel : s.selected = some n)
    (hst : s.f F.DPLL_STATUS_STATE = 1 ∨ s.f F.DPLL_STATUS_STATE = 2) (hr : s.realigns = false) :
    s.endInterval =
      (s.setF F.DPLL_PHASE_ERR (unsignedOf 17 s.phaseErr)).filter s.dpll.kp s.dpll.ki s.phaseErr := by
  unfold State.endInterval
  rw [hsel, hr]
  exact if_pos hst

/-- A candidate that has failed gives the error 0 (R125). -/
theorem phaseErr_failed {s : State} {n : Nat} (hsel : s.selected = some n)
    (h : s.dpll.errZero = true ∨ (s.cand n).failed = true) : s.phaseErr = 0 := by
  unfold State.phaseErr
  rw [hsel]
  exact if_pos h

/-! ### The selected candidate -/

def selFields : List FieldRef :=
  [F.REF_SEL_STATUS_SEL_VALID, F.REF_SEL_STATUS_SEL_CAND, F.REF_SEL_STATUS_SEL_QL]

theorem Touches.selected {ps : List Part} {fs : List FieldRef} {s t : State} (h : Touches ps fs s t)
    (ha : ∀ f ∈ fs, f.Apart F.REF_SEL_STATUS_SEL_VALID ∧ f.Apart F.REF_SEL_STATUS_SEL_CAND) :
    t.selected = s.selected := by
  unfold State.selected
  rw [h.bool F.REF_SEL_STATUS_SEL_VALID ⟨by decide, by decide, fun f hf => (ha f hf).1⟩,
    h.field F.REF_SEL_STATUS_SEL_CAND ⟨by decide, by decide, fun f hf => (ha f hf).2⟩]

theorem setSelected_touches (s : State) (c : Option Nat) : Touches [] selFields s (s.setSelected c) := by
  have h := Touches.refl [] selFields s
  unfold State.setSelected
  cases c with
  | none => exact .ite h (h.setF (by decide)).raise
  | some n => exact .ite h (((h.setF (by decide)).setF (by decide)).setF (by decide)).raise

theorem setSelected_selected (s : State) {c : Option Nat} (hc : ∀ n ∈ c, n < 8) : (s.setSelected c).selected = c := by
  have hraise (u : State) : (u.raise 660).selected = u.selected := (Touches.refl [] [] u).raise.selected (by simp)
  unfold State.setSelected
  split
  · assumption
  · rw [hraise]
    unfold State.selected
    cases c with
    | none =>
      have hv : (s.setF F.REF_SEL_STATUS_SEL_VALID 0).b F.REF_SEL_STATUS_SEL_VALID = false :=
        s.setB_b F.REF_SEL_STATUS_SEL_VALID false 0 0 (by decide)
      simp only [hv, Bool.false_eq_true, if_false]
    | some n =>
      let u1 := s.setF F.REF_SEL_STATUS_SEL_VALID 1
      let u2 := u1.setF F.REF_SEL_STATUS_SEL_CAND n
      let u := u2.setF F.REF_SEL_STATUS_SEL_QL (s.f F.REF_CAND_STATUS_QL n)
      have h1 : Touches [] [F.REF_SEL_STATUS_SEL_CAND, F.REF_SEL_STATUS_SEL_QL] u1 u :=
        ((Touches.refl _ _ u1).setF (by decide)).setF (by decide)
      have h2 : Touches [] [F.REF_SEL_STATUS_SEL_QL] u2 u := (Touches.refl _ _ u2).setF (by decide)
      have hv : u.b F.REF_SEL_STATUS_SEL_VALID = true :=
        (h1.bool _ (by decide)).trans (s.setB_b F.REF_SEL_STATUS_SEL_VALID true 0 0 (by decide))
      have hn : u.f F.REF_SEL_STATUS_SEL_CAND = n := by
        rw [h2.field _ (by decide), u1.setF_f _ _ _ _ (by decide)]
        exact Nat.mod_eq_of_lt (hc n rfl)
      exact (if_pos hv).trans (congrArg some hn)

theorem setDpll_touches (s : State) (st : Nat) : Touches [] [F.DPLL_STATUS_STATE] s (s.setDpll st) :=
  .ite (.refl _ _ s) ((Touches.refl _ _ s).setF (by decide)).raise

theorem steer_touches (s : State) (i : Int) : Touches [] [F.CLK_STEER_STEER] s (s.steer i) :=
  (Touches.refl _ _ s).setF (by decide)

/-! ### Realignment (R127, R129, R130) -/

/-- I at a realignment: from the calibration, from the holdover value, or as it was. -/
def State.resumeValue (s : State) : Int :=
  match s.f F.DPLL_STATUS_STATE with
  | 0 => s.freeCal
  | 3 => s.holdValue
  | _ => s.dpll.integ

/-- The pause of a realignment to candidate `n` (R127). -/
def State.pause (s : State) (n : Nat) : Int := (-(s.cand n).err) % 384

/-- The comparisons after the pause, with candidate `n` aligned to its own. -/
def State.realignCands (s : State) (n : Nat) : State :=
  let s1 := s.shiftErrs (s.pause n)
  s1.setCand n { s1.cand n with align := (s1.cand n).err, sum := 0, num := 0 }

/-- The candidates and the DPLL's record realigned, before the registers show it. -/
def State.realigned (s : State) (n : Nat) : State :=
  let s2 := s.realignCands n
  { s2 with dpll := { s2.dpll with
    integ := clampSteer s.resumeValue, inLock := 0, outLock := 0, held := 2, errZero := false } }

/-- The registers show the realignment, up to the selected candidate. -/
def State.realignShown (s : State) (n : Nat) : State :=
  ((((s.realigned n).setF F.REF_SEL_STATUS_LAST_PAUSE (s.pause n).toNat).setB F.DPLL_STATUS_P_HELD true).steer
    s.resumeValue).setDpll 1

theorem realign_eq (s : State) (n : Nat) : s.realign n = (s.realignShown n).setSelected (some n) := rfl

theorem realigned_touches (s : State) (n : Nat) : Touches [.ref] [] s (s.realigned n) := by
  have h1 : Touches [.ref] [] s (s.shiftErrs (s.pause n)) :=
    (Touches.refl _ _ s).foldl fun v k _ => (Touches.refl _ _ v).part (Kept.setCand v k _) (by decide)
  exact (h1.part (Kept.setCand _ n _) (by decide)).part (Kept.dpll _ _) (by decide)

def realignFields : List FieldRef :=
  [F.REF_SEL_STATUS_LAST_PAUSE, F.DPLL_STATUS_P_HELD, F.CLK_STEER_STEER, F.DPLL_STATUS_STATE]

theorem realignShown_touches (s : State) (n : Nat) :
    Touches [] realignFields (s.realigned n) (s.realignShown n) :=
  ((((Touches.refl _ _ _).setF (by decide)).setB (by decide)).next (steer_touches _ _) (by decide)).next
    (setDpll_touches _ _) (by decide)

theorem realign_shown (s : State) (n : Nat) : Touches [] (realignFields ++ selFields) (s.realigned n) (s.realign n) := by
  rw [realign_eq]
  exact ((realignShown_touches s n).mono (by decide)).next (setSelected_touches _ _) (by decide)

theorem realign_selected (s : State) {n : Nat} (hn : n < 8) : (s.realign n).selected = some n := by
  rw [realign_eq]
  exact setSelected_selected _ (by simpa using hn)

/-- A field that choosing the candidate does not write. -/
theorem realign_field (s : State) (n : Nat) (f : FieldRef)
    (hf : f.k.has 0 0 ∧ (f.k ≠ .PWR_STATUS ∧ f.k ≠ .QSUM) ∧ ∀ g ∈ selFields, g.Apart f) :
    (s.realign n).f f = (s.realignShown n).f f := by
  rw [realign_eq, (setSelected_touches _ _).field f hf]

theorem realign_state (s : State) (n : Nat) : (s.realign n).f F.DPLL_STATUS_STATE = 1 := by
  rw [realign_field s n _ (by decide)]
  exact setDpll_state _ (by decide)

theorem realign_pHeld (s : State) (n : Nat) : (s.realign n).b F.DPLL_STATUS_P_HELD = true := by
  let u := (s.realigned n).setF F.REF_SEL_STATUS_LAST_PAUSE (s.pause n).toNat
  have hu : Touches [] [F.CLK_STEER_STEER, F.DPLL_STATUS_STATE] (u.setB F.DPLL_STATUS_P_HELD true)
      (s.realignShown n) := ((steer_touches _ _).mono (by decide)).next (setDpll_touches _ _) (by decide)
  unfold State.b
  rw [realign_field s n _ (by decide), hu.field _ (by decide)]
  exact u.setB_b F.DPLL_STATUS_P_HELD true 0 0 (by decide)

theorem realign_lastPause (s : State) (n : Nat) :
    (s.realign n).f F.REF_SEL_STATUS_LAST_PAUSE = (s.pause n).toNat := by
  let u := (s.realigned n).setF F.REF_SEL_STATUS_LAST_PAUSE (s.pause n).toNat
  have hu : Touches [] [F.DPLL_STATUS_P_HELD, F.CLK_STEER_STEER, F.DPLL_STATUS_STATE] u (s.realignShown n) :=
    (((Touches.refl _ _ u).setB (by decide)).next (steer_touches _ _) (by decide)).next (setDpll_touches _ _)
      (by decide)
  have hlt : (s.pause n).toNat < 512 := by unfold State.pause; omega
  rw [realign_field s n _ (by decide), hu.field _ (by decide), State.setF_f _ _ _ _ _ (by decide)]
  exact Nat.mod_eq_of_lt hlt

theorem realign_dpll (s : State) (n : Nat) : (s.realign n).dpll = (s.realigned n).dpll :=
  ((realign_shown s n).ref (by decide)).2

theorem realignCands_align (s : State) (n : Nat) :
    ((s.realignCands n).cand n).align = ((s.realignCands n).cand n).err := by
  unfold State.realignCands
  rw [State.setCand_cand]

theorem realign_align (s : State) (n : Nat) : ((s.realign n).cand n).align = ((s.realign n).cand n).err := by
  have h : (s.realigned n).cands = (s.realignCands n).cands := by simp only [State.realigned]
  rw [State.cand_congr ((realign_shown s n).ref (by decide)).1, State.cand_congr h, realignCands_align]

/-! ### The selection is applied (R117, R118, R121, R137) -/

def holdFields : List FieldRef :=
  [F.DPLL_HOLD_VALUE_VALUE, F.DPLL_HOLD_VALUE_SRC, F.DPLL_HIST_HEAD_USED]

theorem holdover_touches (s : State) : Touches [] holdFields s s.holdover := by
  have h3 (v src used : Nat) : Touches [] holdFields s (((s.setF F.DPLL_HOLD_VALUE_VALUE v).setF
      F.DPLL_HOLD_VALUE_SRC src).setF F.DPLL_HIST_HEAD_USED used) :=
    (((Touches.refl _ _ s).setF (by decide)).setF (by decide)).setF (by decide)
  exact .ite (h3 _ _ _).raise (.ite (h3 _ _ _) (h3 _ _ _).raise)

/-- No candidate is selected and the proportional path is not held. -/
def State.unselected (s : State) : State := (s.setSelected none).setB F.DPLL_STATUS_P_HELD false

theorem unselected_touches (s : State) : Touches [] (F.DPLL_STATUS_P_HELD :: selFields) s s.unselected :=
  ((setSelected_touches s none).mono (by decide)).setB (by decide)

theorem applySelection_none {s : State} (h : s.dpll.take = none) : s.applySelection =
    if s.dpll.takeFree then s.unselected.setDpll 0
    else if s.f F.DPLL_STATUS_STATE = 1 ∨ s.f F.DPLL_STATUS_STATE = 2 then s.unselected.holdover.setDpll 3
    else s.unselected := by
  unfold State.applySelection
  rw [h]
  rfl

theorem applySelection_some {s : State} {n : Nat} (h : s.dpll.take = some n) :
    s.applySelection = if s.realigns then s.realign n else s := by
  unfold State.applySelection
  rw [h]

def idleFields : List FieldRef := F.DPLL_STATUS_STATE :: holdFields

theorem applySelection_idle {s : State} (h : s.dpll.take = none) :
    Touches [] idleFields s.unselected s.applySelection := by
  rw [applySelection_none h]
  have hhold : Touches [] idleFields s.unselected (s.unselected.holdover.setDpll 3) :=
    ((holdover_touches _).mono (by decide)).next (setDpll_touches _ _) (by decide)
  exact .ite ((setDpll_touches _ _).mono (by decide)) (.ite hhold (.refl _ _ _))

theorem unselected_selected (s : State) : s.unselected.selected = none := by
  have h : Touches [] [F.DPLL_STATUS_P_HELD] (s.setSelected none) s.unselected := (Touches.refl _ _ _).setB (by decide)
  rw [h.selected (by decide)]
  exact setSelected_selected s (by simp)

theorem applySelection_freerun {s : State} (h : s.dpll.take = none) (hf : s.dpll.takeFree = true) :
    s.applySelection.f F.DPLL_STATUS_STATE = 0 := by
  rw [applySelection_none h, if_pos hf]
  exact setDpll_state _ (by decide)

theorem applySelection_holdover {s : State} (h : s.dpll.take = none) (hf : s.dpll.takeFree = false)
    (hst : s.f F.DPLL_STATUS_STATE = 1 ∨ s.f F.DPLL_STATUS_STATE = 2) :
    s.applySelection.f F.DPLL_STATUS_STATE = 3 := by
  rw [applySelection_none h, hf, if_neg Bool.false_ne_true, if_pos hst]
  exact setDpll_state _ (by decide)

def updateFields : List FieldRef := intervalFields ++ realignFields ++ selFields ++ idleFields

theorem applySelection_touches (s : State) : Touches [.ref] updateFields s s.applySelection := by
  cases h : s.dpll.take with
  | none => exact ((unselected_touches s).mono (by decide)).next (applySelection_idle h) (by decide)
  | some n =>
    rw [applySelection_some h]
    exact .ite (((realigned_touches s n).mono (by decide)).next (realign_shown s n) (by decide)) (.refl _ _ s)

/-! ### What follows (R122) -/

/-- In LOCKING and LOCKED the steering word is the filter's. -/
theorem steerNow_driven {s : State} (h : s.f F.DPLL_STATUS_STATE = 1 ∨ s.f F.DPLL_STATUS_STATE = 2) :
    s.steerNow = s := by
  unfold State.steerNow
  rcases h with h | h <;> rw [h] <;> rfl

theorem steerNow_touches (s : State) : Touches [] [F.CLK_STEER_STEER] s s.steerNow := by
  unfold State.steerNow
  split
  · exact steer_touches s _
  · exact steer_touches s _
  · exact .refl _ _ s

/-- The DPLL's record as the next interval begins. -/
def Dpll.begun (d : Dpll) : Dpll := { d with due := false, errZero := false, kpWas := d.kp, kiWas := d.ki }

/-- The next interval begins, with no comparison in it. -/
def State.intervalDone (s : State) : State :=
  candNums.foldl (fun s n => s.setCand n { s.cand n with sum := 0, num := 0 }) { s with dpll := s.dpll.begun }

theorem dpllUpdate_eq {s : State} (hu : s.fabUp = true) (hd : s.dpll.due = true) :
    s.dpllUpdate = s.histInterval.endInterval.applySelection.steerNow.intervalDone := by
  unfold State.dpllUpdate
  rw [hd, hu]
  rfl

theorem intervalDone_touches (s : State) : Touches [.ref] [] s s.intervalDone :=
  ((Touches.refl _ _ s).part (Kept.dpll s _) (by decide)).foldl fun v n _ =>
    (Touches.refl _ _ v).part (Kept.setCand v n _) (by decide)

theorem intervalDone_dpll (s : State) : s.intervalDone.dpll = s.dpll.begun := rfl

theorem intervalDone_cand (s : State) {n : Nat} (hn : n < 8) :
    s.intervalDone.cand n = { s.cand n with sum := 0, num := 0 } := by
  unfold State.intervalDone
  rw [foldl_setCand (fun c => { c with sum := 0, num := 0 }), if_pos (mem_candNums hn)]
  rfl

/-- What an update leaves of the state `v` in which the selection has been applied. -/
structure Updated (v t : State) : Prop where
  touches : Touches [.ref] [F.CLK_STEER_STEER] v t
  driven : v.f F.DPLL_STATUS_STATE = 1 ∨ v.f F.DPLL_STATUS_STATE = 2 → Touches [.ref] [] v t
  dpll : t.dpll = v.dpll.begun
  cand : ∀ n < 8, t.cand n = { v.cand n with sum := 0, num := 0 }

theorem updated {v t : State} (ht : Settling v.steerNow.intervalDone t) : Updated v t := by
  have hdone : Touches [.ref] [] v.steerNow t := (intervalDone_touches _).settling ht
  obtain ⟨hc, hd⟩ := (steerNow_touches v).ref (by decide)
  refine ⟨((steerNow_touches v).mono (by decide)).next hdone (by decide), fun h => ?_, ?_, fun n hn => ?_⟩
  · rwa [steerNow_driven h] at hdone
  · rw [ht.ref.2, intervalDone_dpll, hd]
  · rw [ht.cand, intervalDone_cand _ hn, State.cand_congr hc]

/-! ### The update -/

theorem realigns_iff {s : State} {n : Nat} (h : s.dpll.take = some n) : s.realigns = true ↔
    s.selected ≠ some n ∨ (s.f F.DPLL_STATUS_STATE ≠ 1 ∧ s.f F.DPLL_STATUS_STATE ≠ 2) := by
  unfold State.realigns
  rw [h]
  simp

section
variable {s : State}

/-- The state in which the selection is applied. -/
def State.intervalOver (s : State) : State := s.histInterval.endInterval

theorem intervalOver_end (s : State) : IntervalEnd s s.intervalOver :=
  (histInterval_intervalEnd s).trans (endInterval_intervalEnd _)

theorem intervalOver_state (s : State) : s.intervalOver.f F.DPLL_STATUS_STATE = s.f F.DPLL_STATUS_STATE :=
  (intervalOver_end s).touches.field _ (by decide)

theorem intervalOver_selected (s : State) : s.intervalOver.selected = s.selected :=
  (intervalOver_end s).touches.selected (by decide)

theorem intervalOver_pause (s : State) (n : Nat) : s.intervalOver.pause n = s.pause n := by
  unfold State.pause; rw [State.cand_congr (intervalOver_end s).cands]

theorem intervalOver_free (h : s.f F.DPLL_STATUS_STATE = 0) : s.intervalOver.resumeValue = s.freeCal := by
  unfold State.resumeValue
  rw [intervalOver_state, h]
  unfold State.freeCal State.rf
  rw [(intervalOver_end s).cfg]
  rfl

theorem intervalOver_hold (h : s.f F.DPLL_STATUS_STATE = 3) : s.intervalOver.resumeValue = s.holdValue := by
  unfold State.resumeValue
  rw [intervalOver_state, h]
  unfold State.holdValue
  rw [(intervalOver_end s).touches.field F.DPLL_HOLD_VALUE_VALUE (by decide)]
  rfl

theorem intervalOver_realigns {n : Nat} (h : s.dpll.take = some n) : s.intervalOver.realigns = true ↔
    s.selected ≠ some n ∨ (s.f F.DPLL_STATUS_STATE ≠ 1 ∧ s.f F.DPLL_STATUS_STATE ≠ 2) := by
  rw [realigns_iff ((intervalOver_end s).take.trans h), intervalOver_selected, intervalOver_state]

/-- A candidate newly wanted is realigned to. -/
theorem updated_realign {t : State} (hup : Updated s.intervalOver.applySelection t) {n : Nat} (hn : n < 8)
    (h : s.dpll.take = some n)
    (hr : s.selected ≠ some n ∨ (s.f F.DPLL_STATUS_STATE ≠ 1 ∧ s.f F.DPLL_STATUS_STATE ≠ 2)) :
    t.selected = some n ∧ t.f F.DPLL_STATUS_STATE = 1 ∧ t.dpll.held = 2 ∧ t.b F.DPLL_STATUS_P_HELD = true ∧
      t.f F.REF_SEL_STATUS_LAST_PAUSE = ((-(s.cand n).err) % 384).toNat ∧ (t.cand n).align = (t.cand n).err ∧
      (s.f F.DPLL_STATUS_STATE = 0 → t.dpll.integ = clampSteer s.freeCal) ∧
      (s.f F.DPLL_STATUS_STATE = 3 → t.dpll.integ = clampSteer s.holdValue) := by
  let v := s.intervalOver
  rw [applySelection_some ((intervalOver_end s).take.trans h), if_pos ((intervalOver_realigns h).mpr hr)] at hup
  have hinteg : t.dpll.integ = clampSteer v.resumeValue := by rw [hup.dpll, realign_dpll]; rfl
  refine ⟨?_, ?_, ?_, ?_, ?_, ?_, fun h0 => ?_, fun h3 => ?_⟩
  · rw [hup.touches.selected (by decide), realign_selected v hn]
  · rw [hup.touches.field _ (by decide), realign_state]
  · rw [hup.dpll, realign_dpll]
    rfl
  · rw [hup.touches.bool _ (by decide), realign_pHeld]
  · rw [hup.touches.field _ (by decide), realign_lastPause, intervalOver_pause]
    rfl
  · rw [hup.cand n hn]
    exact realign_align v n
  · rw [hinteg, intervalOver_free h0]
  · rw [hinteg, intervalOver_hold h3]

/-- The interval that ends with the candidate in use and no realignment. -/
theorem intervalOver_steady {n : Nat} (h : s.dpll.take = some n) (hsel : s.selected = some n)
    (hst : s.f F.DPLL_STATUS_STATE = 1 ∨ s.f F.DPLL_STATUS_STATE = 2) :
    s.intervalOver = (s.histInterval.setF F.DPLL_PHASE_ERR (unsignedOf 17 s.histInterval.phaseErr)).filter
      s.dpll.kp s.dpll.ki s.histInterval.phaseErr := by
  have hr : ¬s.realigns = true := fun hr => by
    obtain hne | ⟨h1, h2⟩ := (realigns_iff h).mp hr
    · exact hne hsel
    · exact hst.elim h1 h2
  exact endInterval_steady (s := s.histInterval) hsel hst (Bool.eq_false_iff.mpr hr)

/-- The candidate in use is filtered. -/
theorem updated_steady {t : State} (hup : Updated s.intervalOver.applySelection t) {n : Nat}
    (h : s.dpll.take = some n) (hsel : s.selected = some n)
    (hst : s.f F.DPLL_STATUS_STATE = 1 ∨ s.f F.DPLL_STATUS_STATE = 2) :
    t.selected = some n ∧ t.f F.DPLL_STATUS_STATE = s.f F.DPLL_STATUS_STATE ∧
      (s.dpll.held = 0 → ∃ e : Int, t.f F.DPLL_PHASE_ERR = unsignedOf 17 e ∧
        (s.dpll.errZero = true ∨ (s.cand n).failed = true → e = 0) ∧
        t.dpll.integ = (pi s.dpll.kp s.dpll.ki s.dpll.integ e).1 ∧
        t.f F.CLK_STEER_STEER = unsignedOf 24 (clampSteer (pi s.dpll.kp s.dpll.ki s.dpll.integ e).2)) ∧
      (0 < s.dpll.held → t.dpll.held = s.dpll.held - 1 ∧ t.dpll.integ = s.dpll.integ ∧
        t.f F.CLK_STEER_STEER = unsignedOf 24 (clampSteer s.dpll.integ)) := by
  let e := s.histInterval.phaseErr
  let w := s.histInterval.setF F.DPLL_PHASE_ERR (unsignedOf 17 e)
  have hr : ¬s.intervalOver.realigns = true := fun hr => by
    obtain hne | ⟨h1, h2⟩ := (intervalOver_realigns h).mp hr
    · exact hne hsel
    · exact hst.elim h1 h2
  rw [applySelection_some ((intervalOver_end s).take.trans h), if_neg hr] at hup
  have hover := intervalOver_steady h hsel hst
  have htouch : Touches [.ref] [] s.intervalOver t := hup.driven (by rwa [intervalOver_state])
  refine ⟨?_, ?_, fun hheld => ⟨e, ?_, phaseErr_failed (s := s.histInterval) hsel, ?_, ?_⟩,
    fun hheld => ⟨?_, ?_, ?_⟩⟩
  · rw [htouch.selected (by simp), intervalOver_selected, hsel]
  · rw [htouch.field _ (by decide), intervalOver_state]
  · have hsteer : Touches [.ref] [F.CLK_STEER_STEER] w s.intervalOver := by
      rw [hover, filter_full (s := w) hheld]
      exact ((Touches.refl _ _ w).part (Kept.dpll w _) (by decide)).setF (by decide)
    rw [htouch.field _ (by decide), hsteer.field _ (by decide)]
    exact setF_unsignedOf _ (f := F.DPLL_PHASE_ERR) (by decide) e
  · rw [hup.dpll, hover, filter_full (s := w) hheld]
    rfl
  · rw [htouch.field _ (by decide), hover, filter_full (s := w) hheld]
    exact setF_unsignedOf _ (f := F.CLK_STEER_STEER) (by decide) _
  · rw [hup.dpll, hover, filter_held (s := w) hheld]
    rfl
  · rw [hup.dpll, hover, filter_held (s := w) hheld]
    rfl
  · rw [htouch.field _ (by decide), hover, filter_held (s := w) hheld]
    exact setF_unsignedOf _ (f := F.CLK_STEER_STEER) (by decide) _

/-- No candidate is wanted. -/
theorem updated_none {t : State} (hup : Updated s.intervalOver.applySelection t) (h : s.dpll.take = none) :
    t.selected = none ∧ (s.dpll.takeFree = true → t.f F.DPLL_STATUS_STATE = 0) ∧
      (s.dpll.takeFree = false → (s.f F.DPLL_STATUS_STATE = 1 ∨ s.f F.DPLL_STATUS_STATE = 2) →
        t.f F.DPLL_STATUS_STATE = 3) := by
  have hend := intervalOver_end s
  have htake : s.intervalOver.dpll.take = none := hend.take.trans h
  refine ⟨?_, fun hf => ?_, fun hf hst => ?_⟩
  · rw [hup.touches.selected (by decide), (applySelection_idle htake).selected (by decide), unselected_selected]
  · rw [hup.touches.field _ (by decide), applySelection_freerun htake (hend.takeFree.trans hf)]
  · rw [hup.touches.field _ (by decide),
      applySelection_holdover htake (hend.takeFree.trans hf) (by rwa [intervalOver_state])]

end

/-- The registers of `updateFields`. -/
def updateKinds : List RegKind := [.CLK_STEER, .DPLL_HIST_HEAD, .DPLL_HOLD_VALUE, .DPLL_PHASE, .DPLL_STATUS, .REF_SEL_STATUS]

/-- Settles O15: the interval ends, then the selection is applied, then the steering word follows the state. -/
theorem dpllUpdateFiltersAndSelects : Obligations.DpllUpdateFiltersAndSelects := fun s hu hd =>
  ends_run (f := State.dpllUpdate) rfl fun t ht => by
    rw [dpllUpdate_eq hu hd] at ht
    have hup : Updated s.intervalOver.applySelection t := updated ht
    have hall : Touches [.ref] updateFields s t :=
      (((intervalOver_end s).touches.mono (by decide)).next (applySelection_touches _) (by decide)).next hup.touches
        (by decide)
    have hwithin : Within [.ref] updateKinds s t := hall.within.mono (by decide)
    refine ⟨by rw [hup.dpll]; rfl, by rw [hup.dpll]; rfl, fun n hn => ?_,
      fun n hn h hr => updated_realign hup hn h hr, fun n _ h hsel hst => updated_steady hup h hsel hst,
      updated_none hup, hwithin.kept.mono (by decide), hwithin.regs⟩
    rw [hup.cand n hn]
    exact ⟨rfl, rfl⟩

end Sys2Proof.Machine
end

section
/-!
PROOFS. What the receive side of a line port changes.
-/
namespace Sys2Proof.Machine

theorem sourceMarker_within (s : State) (typ i : Nat) (e : Int) : Within [.ref] [] s (s.sourceMarker typ i e) :=
  (Within.refl _ _ s).foldl fun v n _ => .ite ((Within.refl _ _ v).part (Kept.setCand v n _) (by decide)) (.refl _ _ v)

/-- The registers that the receive side of port `p` writes. -/
def portRegs (p : Nat) : List Nat :=
  [RegKind.LINE_STATUS.addr p 0, RegKind.LINE_RX_SA.addr p 0] ++ regsOf statusKinds

/-- A change of port `p`, its registers and the reference block alone, events aside. -/
structure AtPort (p : Nat) (s t : State) : Prop where
  others : ∀ q, q ≠ p → t.line q = s.line q
  kept : Kept [.regs, .events, .lines, .ref] s t
  regs : RegsKept (portRegs p) s t

namespace AtPort

theorem refl (p : Nat) (s : State) : AtPort p s s := ⟨fun _ _ => rfl, .refl _ s, .refl _ s⟩

section
variable {p : Nat} {s t u : State} (h : AtPort p s t)
include h

theorem trans (g : AtPort p t u) : AtPort p s u :=
  ⟨fun q hq => (g.others q hq).trans (h.others q hq), h.kept.trans g.kept, h.regs.trans g.regs⟩

theorem ite {c : Prop} [Decidable c] (g : AtPort p s u) : AtPort p s (if c then t else u) := by split <;> assumption

theorem foldl {α : Type} {f : State → α → State} {l : List α} (hf : ∀ v, ∀ a ∈ l, AtPort p v (f v a)) :
    AtPort p s (l.foldl f t) := by
  induction l generalizing t with
  | nil => exact h
  | cons a l ih => exact ih (h.trans (hf t a (by simp))) fun v b hb => hf v b (by simp [hb])

/-- Followed by a change of the reference block. -/
theorem ref (g : Within [.ref] statusKinds t u) : AtPort p s u :=
  h.trans ⟨fun q _ => State.line_congr (g.same .lines (by decide)) q, g.kept.mono (by decide),
    g.regs.mono (List.subset_append_right _ _)⟩

theorem settling (g : Settling t u) : AtPort p s u := h.ref ((Within.refl _ _ t).settling g)

theorem setLine {l : Line} : AtPort p s (t.setLine p l) :=
  h.trans ⟨fun _ hq => t.setLine_line_ne l hq, (Kept.setLine t p l).mono (by decide), .of_eq rfl _⟩

theorem setReg {k : RegKind} {v : Word} (hk : k = .LINE_STATUS ∨ k = .LINE_RX_SA) : AtPort p s (t.setReg k v p) :=
  h.trans ⟨fun _ _ => rfl, (Kept.setReg t k v p 0).mono (by decide), .setReg t k v p 0 _ (.inl (by
    obtain rfl | rfl := hk <;> simp [portRegs]))⟩

theorem setF {f : FieldRef} {n : Nat} (hk : f.k = .LINE_STATUS ∨ f.k = .LINE_RX_SA) : AtPort p s (t.setF f n p) :=
  h.setReg hk

/-! ### The reference block -/

theorem sourceMarker {typ i : Nat} {e : Int} : AtPort p s (t.sourceMarker typ i e) :=
  h.ref ((sourceMarker_within t typ i e).mono (by decide))

theorem sourceLost {typ i : Nat} : AtPort p s (t.sourceLost typ i) :=
  h.ref ((sourceLost_within t typ i).mono (by decide))

theorem candQl {n c : Nat} (hn : n < 8) : AtPort p s (t.candQl n c) := by
  have hset (x : Cand) : Within [.ref] statusKinds t (t.setCand n x) :=
    (Within.refl _ _ t).part (Kept.setCand t n x) (by decide)
  exact h.ref (.ite ((hset _).next (setQl_touches _ hn c).within (by decide)) (hset _))

theorem sourceQl {typ i sa c : Nat} : AtPort p s (t.sourceQl typ i sa c) :=
  h.foldl fun v n hn => .ite ((refl p v).candQl (Aside.candNums_lt n hn)) (refl p v)

/-! ### The port (spec/05) -/

theorem lineCount {i n : Nat} : AtPort p s (t.lineCount p i n) := h.setLine

theorem storeFrame {bs : List Bool} {mf : Option Nat} : AtPort p s (t.storeFrame p bs mf) := h.setLine

theorem lineDef {k : Nat} {b : Bool} : AtPort p s (t.lineDef p k b) :=
  .ite (.setLine (h.setReg (.inl rfl))) (.setLine (h.setReg (.inl rfl)))

theorem lofDeclare : AtPort p s (t.lofDeclare p) := by
  have h2 : AtPort p s (((((t.sourceLost 0 p).setLine p (t.line p).unalign).lineDef p 2 true).lineDef p 4 false).lineDef
      p 5 false) := h.sourceLost.setLine.lineDef.lineDef.lineDef
  exact .ite (.ite h2.lineDef h2) h

theorem lineA {a : Bool} : AtPort p s (t.lineA p a) := .ite h.setLine.lineDef h.setLine

theorem mfSearch {b : Bool} : AtPort p s (t.mfSearch p b) :=
  .ite (.ite (.ite h.setLine.lineDef h.setLine) h.setLine) h

theorem lineSa {bs : List Bool} : AtPort p s (t.lineSa p bs) :=
  .lineA (.setF (f := F.LINE_RX_SA_A_LAST) (.setF (f := F.LINE_RX_SA_SA_LAST) h.setLine (.inr rfl)) (.inr rfl))

theorem lineNibbles {ws : List (BitVec 5)} : AtPort p s (t.lineNibbles p ws) :=
  .foldl (.setF (f := F.LINE_RX_SA_NIBBLES) h.setLine (.inr rfl)) fun v _ _ => (refl p v).sourceQl

theorem smfEnd : AtPort p s (t.smfEnd p) := by
  have hbad {l : Line} {b : Prop} [Decidable b] : AtPort p s
      (if b then (t.setLine p l).lineCount p 1 1 else t.setLine p l) := .ite h.setLine.lineCount h.setLine
  unfold State.smfEnd
  cases hc : (t.line p).crcPrev with
  | none =>
    simp only [hc]
    exact .ite h.setLine.lineNibbles h.setLine.setLine
  | some c =>
    simp only [hc]
    exact .ite (.lineNibbles (.ite hbad.lofDeclare (.ite hbad.setLine hbad.setLine)))
      (.setLine (.ite hbad.lofDeclare (.ite hbad.setLine hbad.setLine)))

theorem lineMf {fas : Bool} {bs : List Bool} : AtPort p s (t.lineMf p fas bs) := by
  unfold State.lineMf
  dsimp only
  split
  · exact h
  · have h2 {l : Line} {c : Prop} [Decidable c] : AtPort p s
        (if c then (t.setLine p l).lineCount p 2 1 else t.setLine p l) := .ite h.setLine.lineCount h.setLine
    exact .setLine (.ite h2.smfEnd h2)

theorem lineFrame {bs : List Bool} : AtPort p s (t.lineFrame p bs) := by
  have h0 : AtPort p s (t.storeFrame p bs (t.line p).mfPos) := h.storeFrame
  have h1 : AtPort p s (if !(isFas bs) then (t.storeFrame p bs (t.line p).mfPos).lineCount p 0 1
      else t.storeFrame p bs (t.line p).mfPos) := .ite h0.lineCount h0
  exact .ite (.ite h1.lofDeclare h1.setLine.lineMf) (.ite h0.lofDeclare (.setLine h0.setLine.lineSa.mfSearch.lineMf))

theorem alignFound : AtPort p s (t.alignFound p) := by
  have h2 : AtPort p s (((t.setLine p { (t.line p).unalign with aligned := true, recentre := true, sb := [], skip := 0
      }).lineDef p 2 false).lineDef p 1 false) := h.setLine.lineDef.lineDef
  exact .ite h2 h2.lineDef

theorem lineFramer {e : Int} {fuel : Nat} : AtPort p s (t.lineFramer p e fuel) := by
  induction fuel generalizing t with
  | zero => exact h
  | succ fuel ih =>
    exact .ite (.ite h (ih h.setLine.sourceMarker.lineFrame)) (.ite (ih h.setLine.alignFound) h.setLine)

theorem lineSplit {fuel : Nat} : AtPort p s (t.lineSplit p fuel) := by
  induction fuel generalizing t with
  | zero => exact h
  | succ fuel ih => exact .ite h (ih h.setLine.storeFrame)

theorem lineBits {bs : List Bool} {phase : Int} : AtPort p s (t.lineBits p bs phase) := by
  have h0 : AtPort p s (t.setLine p ((t.line p).took phase)) := h.setLine
  unfold State.lineBits
  exact .ite (.lineFramer (.setLine (.ite h0 h0.setLine.lineSplit))) (.ite h0 h0.setLine.lineSplit)

theorem lineCv {n : Nat} : AtPort p s (t.lineCv p n) := .ite h h.lineCount.setLine

theorem lineReceive {pos neg : BitVec 256} {phase : Int} : AtPort p s (t.lineReceive p pos neg phase) :=
  .ite (.ite h.lineCv.lineBits h.setLine.lineCv.lineBits) h

end

end AtPort

end Sys2Proof.Machine
end

section
/-!
PROOFS. A frame received on an aligned unipolar port, and O23.
-/
namespace Sys2Proof.Machine

/-! ### The defects of LINE_STATUS (R192) -/

/-- A defect that is set or cleared reads so, and the other defects read as they did. -/
theorem lineDef_lineDefect (s : State) (p : Nat) {k j : Nat} (b : Bool) (hk : k < 6 ∧ j < 6) :
    (s.lineDef p k b).lineDefect p j = if j = k then b else s.lineDefect p j := by
  obtain ⟨hk, hj⟩ := hk
  cases b with
  | true =>
    have hreg : (s.lineDef p k true).reg .LINE_STATUS p = s.reg .LINE_STATUS p ||| BitVec.ofNat 32 (0x101 <<< k) :=
      s.setReg_reg .LINE_STATUS _ p 0
    have hbit : (BitVec.ofNat 32 (0x101 <<< k)).getLsbD j = decide (j = k) := by
      interval_cases k <;> interval_cases j <;> rfl
    rw [State.lineDefect, hreg, BitVec.getLsbD_or, hbit]
    by_cases h : j = k <;> simp [h, State.lineDefect]
  | false =>
    have hreg : (s.lineDef p k false).reg .LINE_STATUS p = s.reg .LINE_STATUS p &&& ~~~(BitVec.ofNat 32 (1 <<< k)) :=
      s.setReg_reg .LINE_STATUS _ p 0
    have hbit : (~~~(BitVec.ofNat 32 (1 <<< k))).getLsbD j = !decide (j = k) := by
      interval_cases k <;> interval_cases j <;> rfl
    rw [State.lineDefect, hreg, BitVec.getLsbD_and, hbit]
    by_cases h : j = k <;> simp [h, State.lineDefect]

/-- A port's record but for what it notes of its defects. -/
def Line.quiet (l : Line) : Line := { l with seen := 0, chg := false }

theorem unaligned_of_quiet {l m : Line} (h : l.quiet = m.unalign.quiet) :
    l.aligned = false ∧ l.fb = m.fb ∧ l.cnt = m.cnt := by
  have hal : l.quiet.aligned = m.unalign.quiet.aligned := by rw [h]
  have hfb : l.quiet.fb = m.unalign.quiet.fb := by rw [h]
  have hcnt : l.quiet.cnt = m.unalign.quiet.cnt := by rw [h]
  exact ⟨hal, hfb, hcnt⟩

theorem lineDef_quiet (s : State) (p k : Nat) (b : Bool) : ((s.lineDef p k b).line p).quiet = (s.line p).quiet := by
  unfold State.lineDef
  cases b <;> simp only [Bool.false_eq_true, if_false, if_true, State.setLine_line] <;> rfl

theorem lofDeclare_framed {s : State} {p : Nat} (h : s.lineFramed p = true) : s.lofDeclare p =
    let s1 := (s.sourceLost 0 p).setLine p (s.line p).unalign
    let s2 := ((s1.lineDef p 2 true).lineDef p 4 false).lineDef p 5 false
    if s.lineCrc p then s2.lineDef p 3 true else s2 := if_pos h

theorem lofDeclare_lof {s : State} {p : Nat} (h : s.lineFramed p = true) : (s.lofDeclare p).lineDefect p 2 = true := by
  have h2 (u : State) : (((u.lineDef p 2 true).lineDef p 4 false).lineDef p 5 false).lineDefect p 2 = true := by
    rw [lineDef_lineDefect _ _ _ (by decide), lineDef_lineDefect _ _ _ (by decide),
      lineDef_lineDefect _ _ _ (by decide)]
    rfl
  rw [lofDeclare_framed h]
  dsimp only
  split
  · rw [lineDef_lineDefect _ _ _ (by decide)]
    exact h2 _
  · exact h2 _

theorem lofDeclare_quiet {s : State} {p : Nat} (h : s.lineFramed p = true) :
    ((s.lofDeclare p).line p).quiet = (s.line p).unalign.quiet := by
  rw [lofDeclare_framed h]
  dsimp only
  split
  · rw [lineDef_quiet, lineDef_quiet, lineDef_quiet, lineDef_quiet, State.setLine_line]
  · rw [lineDef_quiet, lineDef_quiet, lineDef_quiet, State.setLine_line]

/-! ### Its frame (R192, R194) -/

theorem lineMf_none {s : State} {p : Nat} (h : (s.line p).mfPos = none) (fas : Bool) (bs : List Bool) :
    s.lineMf p fas bs = s := by
  unfold State.lineMf
  dsimp only
  rw [h]

/-- A port's record with a frame behind those that wait. -/
def Line.stored (l : Line) (bs : List Bool) : Line :=
  { l with frames := l.frames ++ [⟨(List.range 32).map fun i => byteOf ((bs.drop (8 * i)).take 8), none⟩] }

/-- With a bad FAS word counted. -/
def Line.badFas (l : Line) (bs : List Bool) : Line := { l.stored bs with cnt := bumpAt l.cnt 0 1 }

/-- With the frame of an FAS word done, the `n`-th bad one in a row. -/
def Line.fasDone (l : Line) (n : Nat) : Line := { l with fasBad := n, odd := true, alFrames := l.alFrames + 1 }

/-- The record of port `p` is `l`; no register and, the ports' records aside, no part has changed. -/
def LineOnly (p : Nat) (l : Line) (s t : State) : Prop := t.line p = l ∧ t.regs = s.regs ∧ Kept [.lines] s t

namespace LineOnly

theorem refl (p : Nat) (s : State) : LineOnly p (s.line p) s s := ⟨rfl, rfl, .refl _ s⟩

theorem setLine {p : Nat} {l : Line} {s t : State} (h : LineOnly p l s t) (l' : Line) :
    LineOnly p l' s (t.setLine p l') := by
  obtain ⟨-, hregs, hkept⟩ := h
  exact ⟨t.setLine_line p l', hregs, hkept.trans (Kept.setLine t p l')⟩

/-- A change of the record by a rule. -/
theorem edit {p : Nat} {l : Line} {s t : State} (h : LineOnly p l s t) (f : Line → Line) :
    LineOnly p (f l) s (t.setLine p (f (t.line p))) := by
  rw [h.1]
  exact h.setLine _

end LineOnly

section
variable (v : State) (p : Nat) (bs : List Bool)

theorem storeFrame_lineOnly : LineOnly p ((v.line p).stored bs) v (v.storeFrame p bs none) :=
  (LineOnly.refl p v).edit fun l => l.stored bs

theorem badFas_lineOnly : LineOnly p ((v.line p).badFas bs) v ((v.storeFrame p bs none).lineCount p 0 1) :=
  (storeFrame_lineOnly v p bs).edit fun l => { l with cnt := bumpAt l.cnt 0 1 }

end

/-- The frame of an FAS word is done where no multiframe is known. -/
theorem fasDone_lineOnly {v u : State} {p : Nat} {l : Line} (hu : LineOnly p l v u) (hmf : l.mfPos = none) (n : Nat)
    (bs : List Bool) : LineOnly p (l.fasDone n) v ((u.setLine p
      { u.line p with fasBad := n, odd := true, alFrames := l.alFrames + 1 }).lineMf p true bs) := by
  rw [hu.1]
  have hdone : LineOnly p (l.fasDone n) v (u.setLine p (l.fasDone n)) := hu.setLine _
  have hnone : ((u.setLine p (l.fasDone n)).line p).mfPos = none := by rw [hdone.1]; exact hmf
  exact (lineMf_none hnone true bs).symm ▸ hdone

theorem lineFramed_congr {s t : State} {p : Nat} (hp : p < 128) (h : RegsKept [] s t) :
    t.lineFramed p = s.lineFramed p := by
  have hact : t.act .LINE_CTL p = s.act .LINE_CTL p := h.act ⟨hp, by decide⟩ (by decide) (by simp)
  exact congrArg (fun w => !decide (fieldOf w F.LINE_CTL_RX_FRAMING.lo F.LINE_CTL_RX_FRAMING.w ≠ 0)) hact

section
variable {v : State} {p : Nat} (hodd : (v.line p).odd = false) (hmf : (v.line p).mfPos = none) {bs : List Bool}
include hodd hmf

/-- A frame with the FAS word: it is stored, and the run of bad words ends. -/
theorem lineFrame_fas (h : isFas bs = true) : LineOnly p (((v.line p).stored bs).fasDone 0) v (v.lineFrame p bs) := by
  unfold State.lineFrame
  simp only [hodd, h, hmf, Bool.not_false, Bool.not_true, Bool.false_eq_true, if_true, if_false]
  exact fasDone_lineOnly (storeFrame_lineOnly v p bs) hmf 0 bs

/-- A bad FAS word that is not the third in a row: it is counted, and the frame is stored. -/
theorem lineFrame_bad (h : isFas bs = false) (hn : (v.line p).fasBad < 2) :
    LineOnly p (((v.line p).badFas bs).fasDone ((v.line p).fasBad + 1)) v (v.lineFrame p bs) := by
  have hfew : ¬(v.line p).fasBad + 1 ≥ 3 := by omega
  unfold State.lineFrame
  simp only [hodd, h, hmf, hfew, Bool.not_false, if_true, if_false]
  exact fasDone_lineOnly (badFas_lineOnly v p bs) hmf _ bs

theorem lineFrame_third (h : isFas bs = false) (hn : 2 ≤ (v.line p).fasBad) :
    v.lineFrame p bs = ((v.storeFrame p bs none).lineCount p 0 1).lofDeclare p := by
  have hmany : (v.line p).fasBad + 1 ≥ 3 := by omega
  unfold State.lineFrame
  simp only [hodd, h, hmf, hmany, Bool.not_false, if_true]

/-- The third bad FAS word in a row declares LOF. -/
theorem lineFrame_lof (hp : p < 128) (hf : v.lineFramed p = true) (h : isFas bs = false) (hn : 2 ≤ (v.line p).fasBad) :
    (v.lineFrame p bs).lineDefect p 2 = true ∧
      ((v.lineFrame p bs).line p).quiet = ((v.line p).badFas bs).unalign.quiet := by
  obtain ⟨hline, hregs, -⟩ := badFas_lineOnly v p bs
  have hframed := (lineFramed_congr hp (.of_eq hregs [])).trans hf
  rw [lineFrame_third hodd hmf h hn]
  exact ⟨lofDeclare_lof hframed, by rw [lofDeclare_quiet hframed, hline]⟩

end

/-! ### The framer (R194) -/

theorem lineFramer_frame {u : State} {p : Nat} (ha : (u.line p).aligned = true) (hl : 256 ≤ (u.line p).fb.length)
    (e : Int) (fuel : Nat) : u.lineFramer p e (fuel + 1) =
      (((u.setLine p { u.line p with fb := (u.line p).fb.drop 256 }).sourceMarker 0 p e).lineFrame p
        ((u.line p).fb.take 256)).lineFramer p e fuel :=
  (if_pos ha).trans (if_neg (by omega))

/-- An aligned framer waits for a whole frame. -/
theorem lineFramer_waits {u : State} {p : Nat} (ha : (u.line p).aligned = true) (hl : (u.line p).fb.length < 256)
    (e : Int) (fuel : Nat) : u.lineFramer p e (fuel + 1) = u := (if_pos ha).trans (if_pos hl)

/-- A framer without alignment and without bits finds nothing. -/
theorem lineFramer_empty {u : State} {p : Nat} (ha : (u.line p).aligned = false) (hl : (u.line p).fb = [])
    (e : Int) (fuel : Nat) : u.lineFramer p e (fuel + 1) = u.setLine p { u.line p with fb := [] } := by
  rw [State.lineFramer]
  simp only [ha, hl, Bool.false_eq_true, if_false]
  rfl

/-! ### The bits of a frame on a unipolar port -/

theorem listOfBits_length {w : Nat} (v : BitVec w) : (listOfBits v).length = w := by simp [listOfBits]

theorem ones_listOfBits_zero (w : Nat) : (listOfBits (0 : BitVec w)).filter id = [] := by simp [listOfBits]

/-- A negative rail at rest counts no code violation. -/
theorem lineCv_rest (s : State) (p : Nat) : s.lineCv p ((listOfBits (0 : BitVec 256)).filter id).length = s := by
  rw [ones_listOfBits_zero]
  exact if_pos (.inl rfl)

/-- A port's record once a frame is taken from its bits, with none left over. -/
def Line.taken (l : Line) (e : Int) : Line := { l.took e with fb := [] }

/-- The bits are taken, and the markers are yet to come. -/
def State.bitsTaken (s : State) (p : Nat) (bs : List Bool) (e : Int) : State :=
  ((s.setLine p ((s.line p).took e)).setLine p { (s.line p).took e with fb := bs }).setLine p ((s.line p).taken e)

/-- Each candidate routed from the port has its marker, and the framer has the frame before it. -/
def State.framed (s : State) (p : Nat) (bs : List Bool) (e : Int) : State := (s.bitsTaken p bs e).sourceMarker 0 p e

/-- A port at the frame of an FAS word, aligned and without a multiframe, with no bits left over. -/
structure AtFas (l : Line) : Prop where
  aligned : l.aligned = true
  odd : l.odd = false
  mfPos : l.mfPos = none
  fb : l.fb = []

section
variable {s : State} {p : Nat} (hf : s.lineFramed p = true) (hl : AtFas (s.line p))
include hf hl

theorem lineBits_frame {bs : List Bool} (hbs : bs.length = 256) (e : Int) :
    s.lineBits p bs e = ((s.framed p bs e).lineFrame p bs).lineFramer p e 3 := by
  let u := (s.setLine p ((s.line p).took e)).setLine p { (s.line p).took e with fb := bs }
  have hu : u.line p = { (s.line p).took e with fb := bs } := State.setLine_line _ p _
  have hbits : s.lineBits p bs e = u.lineFramer p e 4 := by
    have hal : ((s.line p).took e).aligned = true := hl.aligned
    have hfb : ((s.line p).took e).fb = [] := hl.fb
    unfold State.lineBits
    dsimp only
    rw [State.setLine_line, if_pos hal, if_pos hf, State.setLine_line, hfb]
    rfl
  have hal : (u.line p).aligned = true := by rw [hu]; exact hl.aligned
  have hfb : (u.line p).fb = bs := by rw [hu]
  rw [hbits, lineFramer_frame hal (by rw [hfb, hbs]), hfb, List.drop_of_length_le (by omega),
    List.take_of_length_le (by omega), hu]
  rfl

end

/-! ### The markers of the candidates (R98) -/

theorem candFrom_congr {s t : State} (h : t.dpll = s.dpll) (n typ i : Nat) : t.candFrom n typ i = s.candFrom n typ i := by
  unfold State.candFrom State.rb State.rf
  rw [h]

theorem sourceMarker_cand (s : State) {n typ i : Nat} (hn : n < 8) (h : s.candFrom n typ i = true) (e : Int) :
    (s.sourceMarker typ i e).cand n = (s.cand n).marked e := by
  have hfold := foldl_cand (F := fun u k => if u.candFrom k typ i then u.candMarker k e else u)
    (g := fun k c => if s.candFrom k typ i then c.marked e else c) (l := candNums) (by decide)
    (fun u k hu => by
      rw [candFrom_congr hu]
      split
      · exact ⟨hu, u.setCand_cand k _, fun _ hj => u.setCand_cand_ne _ hj⟩
      · exact ⟨hu, rfl, fun _ _ => rfl⟩) (s := s) rfl n
  rw [if_pos (mem_candNums hn), if_pos h] at hfold
  exact hfold

section
variable (s : State) (p : Nat) (bs : List Bool) (e : Int)

theorem bitsTaken_lineOnly : LineOnly p ((s.line p).taken e) s (s.bitsTaken p bs e) :=
  (((LineOnly.refl p s).setLine _).setLine _).setLine _

theorem framed_line : (s.framed p bs e).line p = (s.line p).taken e := by
  rw [State.framed, State.line_congr ((sourceMarker_within _ 0 p e).same .lines (by decide)), (bitsTaken_lineOnly s p bs e).1]

theorem framed_regs : RegsKept [] s (s.framed p bs e) := by
  obtain ⟨-, hregs, -⟩ := bitsTaken_lineOnly s p bs e
  exact (RegsKept.of_eq hregs _).trans (sourceMarker_within _ 0 p e).regs

theorem framed_cand {n : Nat} (hn : n < 8) (h : s.candFrom n 0 p = true) :
    (s.framed p bs e).cand n = (s.cand n).marked e := by
  obtain ⟨-, -, hkept⟩ := bitsTaken_lineOnly s p bs e
  obtain ⟨hcands, hdpll⟩ := hkept .ref (by decide)
  rw [State.framed, sourceMarker_cand _ hn ((candFrom_congr hdpll n 0 p).trans h), State.cand_congr hcands]

end

/-! ### What a frame leaves -/

/-- A framer that has lost alignment, with no bits left over, stays so. -/
theorem lineFramer_lof {y t : State} {p fuel : Nat} {e : Int} {m : Line} (hp : p < 128)
    (hlof : y.lineDefect p 2 = true) (hquiet : (y.line p).quiet = m.unalign.quiet) (hm : m.fb = [])
    (ht : Settling (y.lineFramer p e (fuel + 1)) t) :
    t.lineDefect p 2 = true ∧ (t.line p).aligned = false ∧ (t.line p).cnt = m.cnt := by
  obtain ⟨hal, hfb, hcnt⟩ := unaligned_of_quiet hquiet
  rw [lineFramer_empty hal (hfb.trans hm)] at ht
  have hstatus : t.reg .LINE_STATUS p = y.reg .LINE_STATUS p :=
    ((Within.refl [] [] _).settling ht).reg ⟨⟨hp, by decide⟩, by decide⟩
  refine ⟨?_, ?_, ?_⟩
  · rw [State.lineDefect, hstatus]
    exact hlof
  · rw [ht.line, State.setLine_line, hal]
  · rw [ht.line, State.setLine_line, hcnt]

section
variable {s : State} {p : Nat} {pos : BitVec 256} {e : Int} (hf : s.lineFramed p = true) (hl : AtFas (s.line p))
include hf hl

/-- What is left where the port stays aligned: its record, and the rest as the markers left it. -/
theorem lineBits_aligned {l : Line}
    (h : LineOnly p l (s.framed p (listOfBits pos) e) ((s.framed p (listOfBits pos) e).lineFrame p (listOfBits pos)))
    (hal : l.aligned = true ∧ l.fb = [])
    {t : State} (ht : Settling (s.lineBits p (listOfBits pos) e) t) :
    t.line p = l ∧ t.cands = (s.framed p (listOfBits pos) e).cands ∧ RegsKept [] s t := by
  obtain ⟨hline, hregs, hkept⟩ := h
  obtain ⟨ha, hfb⟩ := hal
  rw [lineBits_frame hf hl (listOfBits_length pos),
    lineFramer_waits (by rw [hline, ha]) (by rw [hline, hfb]; decide)] at ht
  exact ⟨(ht.line p).trans hline, ht.ref.1.trans (hkept .ref (by decide)).1,
    ((framed_regs s p _ e).trans (.of_eq hregs _)).trans ht.2⟩

/-- What is left of a third bad FAS word in a row. -/
theorem lineBits_lof (hp : p < 128) (h : isFas (listOfBits pos) = false) (hn : 2 ≤ (s.line p).fasBad) {t : State}
    (ht : Settling (s.lineBits p (listOfBits pos) e) t) : t.lineDefect p 2 = true ∧ (t.line p).aligned = false ∧
      (t.line p).cnt = bumpAt (s.line p).cnt 0 1 := by
  have hv : (s.framed p (listOfBits pos) e).line p = (s.line p).taken e := framed_line s p _ e
  obtain ⟨hlof, hquiet⟩ := lineFrame_lof (v := s.framed p (listOfBits pos) e) (by rw [hv]; exact hl.odd)
    (by rw [hv]; exact hl.mfPos) hp ((lineFramed_congr hp (framed_regs s p _ e)).trans hf) h (by rw [hv]; exact hn)
  rw [hv] at hquiet
  rw [lineBits_frame hf hl (listOfBits_length pos)] at ht
  exact lineFramer_lof hp hlof hquiet rfl ht

end

/-! ### LINE_FRAME_RECEIVED -/

theorem lineRead_supplied {s : State} {p : Nat} (h : s.bankIn (p / 32) = true) (f : State → State) :
    s.lineRead p f = f s := if_pos h

theorem lineRead_unsupplied {s : State} {p : Nat} (h : s.bankIn (p / 32) = false) (f : State → State) :
    s.lineRead p f = s := by rw [State.lineRead, h]; rfl

section
variable {p : Fin 128} {phase : BitVec 17} {s : State}

theorem ends_frame_unsupplied (h : s.bankIn (p.val / 32) = false) (pos neg : BitVec 256) :
    Ends (.lineFrameReceived p pos neg phase) s (Only [] [] [] s) :=
  ends_run (f := fun s => s.lineRead p.val fun s => s.lineReceive p.val pos neg phase.toInt) rfl fun t ht => by
    rwa [lineRead_unsupplied h] at ht

theorem ends_frame_atPort (pos neg : BitVec 256) : Ends (.lineFrameReceived p pos neg phase) s (AtPort p.val s) :=
  ends_run (f := fun s => s.lineRead p.val fun s => s.lineReceive p.val pos neg phase.toInt) rfl fun _ ht =>
    (AtPort.ite (AtPort.refl _ s).lineReceive (.refl _ s)).settling ht

/-- On a unipolar port the positive rail is the bits. -/
theorem ends_frame_unipolar {pos : BitVec 256} (hon : (s.line p.val).on = true) (hu : s.fabUp = true)
    (hloop : s.fa F.LINE_CTL_LOOP p.val ≠ 1) (hbank : s.bankIn (p.val / 32) = true)
    (hif : s.ba F.LINE_CTL_IF_MODE p.val = true) {P : State → Prop}
    (h : ∀ t, Settling (s.lineBits p.val (listOfBits pos) phase.toInt) t → P t) :
    Ends (.lineFrameReceived p pos 0 phase) s P :=
  ends_run (f := fun s => s.lineRead p.val fun s => s.lineReceive p.val pos 0 phase.toInt) rfl fun t ht => h t (by
    rw [lineRead_supplied hbank, State.lineReceive, if_pos (by simp [hon, hu, hloop]), if_pos hif, lineCv_rest] at ht
    exact ht)

end

/-- Settles O23: nothing but the port and the candidates is in reach, and the framer takes the frame at hand. -/
theorem lineFrameEntersStoreAndFramer : Obligations.LineFrameEntersStoreAndFramer := by
  intro p pos phase s hon hu hloop
  refine ⟨fun hbank neg => ends_frame_unsupplied hbank pos neg, fun neg => ?_,
    fun hbank hif hframed hal hodd hmf hfb => ?_⟩
  · obtain ⟨t, ht, h⟩ := ends_frame_atPort (p := p) (phase := phase) (s := s) pos neg
    exact ⟨t, ht, h.others, h.kept, h.regs⟩
  · let v := s.framed p.val (listOfBits pos) phase.toInt
    have hl : AtFas (s.line p.val) := ⟨hal, hodd, hmf, hfb⟩
    have hv : v.line p.val = (s.line p.val).taken phase.toInt := framed_line s p.val _ _
    have hvodd : (v.line p.val).odd = false := by rw [hv]; exact hodd
    have hvmf : (v.line p.val).mfPos = none := by rw [hv]; exact hmf
    have hbad : (v.line p.val).fasBad = (s.line p.val).fasBad := by rw [hv]; rfl
    have hstatus {t : State} (h : RegsKept [] s t) : t.reg .LINE_STATUS p.val = s.reg .LINE_STATUS p.val :=
      h.reg _ _ _ (by simp) (not_settles ⟨p.isLt, by decide⟩ (by decide) (by decide))
    refine ⟨fun hfas => ?_, fun hfas hn => ?_, fun hfas hn => ?_⟩
    · refine ends_frame_unipolar hon hu hloop hbank hif fun t ht => ?_
      have honly := lineFrame_fas hvodd hvmf hfas
      rw [hv] at honly
      obtain ⟨hline, hcands, hregs⟩ := lineBits_aligned hframed hl honly ⟨hal, rfl⟩ ht
      rw [hline]
      refine ⟨rfl, rfl, rfl, hal, rfl, rfl, fun hphase => ?_, hstatus hregs, fun n hn hfrom => ?_⟩
      · obtain ⟨x, hx⟩ := Option.isSome_iff_exists.mp hphase
        simp only [Line.fasDone, Line.stored, Line.taken, Line.took, hx]
      · rw [State.cand_congr hcands, framed_cand s p.val _ _ hn hfrom]
        exact ⟨rfl, rfl⟩
    · refine ends_frame_unipolar hon hu hloop hbank hif fun t ht => ?_
      have honly := lineFrame_bad hvodd hvmf hfas (by omega)
      rw [hv] at honly
      obtain ⟨hline, -, hregs⟩ := lineBits_aligned hframed hl honly ⟨hal, rfl⟩ ht
      rw [hline]
      exact ⟨rfl, rfl, rfl, hstatus hregs⟩
    · exact ends_frame_unipolar hon hu hloop hbank hif fun t ht => lineBits_lof hframed hl p.isLt hfas hn ht

end Sys2Proof.Machine
end

section
/-!
PROOFS. Connection memory: what a write of an entry or a selector stores, when it is discarded, and O18.
-/
namespace Sys2Proof.Machine

/-! ### Copies of an entry or a selector -/

theorem inactive_setInactive (c : Copies) (w : Word) : (c.setInactive w).inactive = w := by
  cases hb : c.bank <;> simp [Copies.setInactive, Copies.inactive, hb]

theorem active_setInactive (c : Copies) (w : Word) : (c.setInactive w).active = c.active := by
  cases hb : c.bank <;> simp [Copies.setInactive, Copies.active, hb]

/-- The two parts of connection memory, entries and selectors: their register view, where the fabric keeps them, and
when two fabrics differ in that part only. -/
structure ShadowMem where
  kind : RegKind
  get : Fabric → Nat → Copies
  put : Fabric → Nat → Copies → Fabric
  only : Fabric → Fabric → Prop
  get_put_same : ∀ f n c, get (put f n c) n = c
  get_put_ne : ∀ f n c k, k ≠ n → get (put f n c) k = get f k
  only_put : ∀ f n c, only f (put f n c)

/-- The connection entries. -/
def connMem : ShadowMem where
  kind := .FAB_CONN
  get f n := tabGet (fun _ => connInit) f.conn n
  put f n c := { f with conn := tabPut (fun _ => connInit) f.conn n c }
  only f g := g = { f with conn := g.conn }
  get_put_same _ _ _ := tabGet_put_same _ _ _ _
  get_put_ne f _ c _ h := tabGet_put_ne (fun _ => connInit) (fun _ => connInit) f.conn c h
  only_put _ _ _ := rfl

/-- The selectors. -/
def selMem : ShadowMem where
  kind := .FAB_SEL
  get f n := tabGet (fun _ => selInit) f.sel n
  put f n c := { f with sel := tabPut (fun _ => selInit) f.sel n c }
  only f g := g = { f with sel := g.sel }
  get_put_same _ _ _ := tabGet_put_same _ _ _ _
  get_put_ne f _ c _ h := tabGet_put_ne (fun _ => selInit) (fun _ => selInit) f.sel c h
  only_put _ _ _ := rfl

/-- The fabric is another, and nothing else changes. -/
theorem Only.setFab (s : State) (f : Fabric) (r : List Nat) : Only [.fabric] r [] s { s with fab := f } :=
  .of_kept (s := s) (t := { s with fab := f }) (fun p hp => by cases p <;> simp_all [Part.same]) rfl rfl rfl _

/-! ### A word stored in an inactive copy (R33, R150) -/

/-- From `s` to `u` the word `v` was stored with its parity in the inactive copy number `n` of `M` and became a DIRTY
change of tenant `t`; the rest of the fabric and every other change are as they were. -/
structure ShadowStored (M : ShadowMem) (t n : Nat) (v : Word) (s u : State) : Prop where
  inactive : (M.get u.fab n).inactive = withPar v
  active : (M.get u.fab n).active = (M.get s.fab n).active
  dirty : u.change (M.kind.addr n 0) = .dirty t
  others : ∀ k, k ≠ n → M.get u.fab k = M.get s.fab k
  changes : ∀ a, a ≠ M.kind.addr n 0 → u.change a = s.change a
  rest : M.only s.fab u.fab

theorem State.change_congr {s t : State} (h : t.chg = s.chg) : t.change = s.change := by
  funext a; unfold State.change; rw [h]

/-- Only the fabric and the change states count. -/
theorem ShadowStored.congr {M : ShadowMem} {t n : Nat} {v : Word} {s s' u u' : State} (h : ShadowStored M t n v s u)
    (hs : s'.fab = s.fab ∧ s'.chg = s.chg) (hu : u'.fab = u.fab ∧ u'.chg = u.chg) : ShadowStored M t n v s' u' := by
  obtain ⟨hin, hact, hdirty, hothers, hchanges, hrest⟩ := h
  refine ⟨?_, ?_, ?_, ?_, ?_, ?_⟩ <;>
    simpa only [hs.1, hu.1, State.change_congr hs.2, State.change_congr hu.2]

/-- What a served write of an entry or a selector makes of the state. -/
def ShadowMem.dirty (M : ShadowMem) (s : State) (t n : Nat) (v : Word) : State :=
  ({ s with fab := M.put s.fab n ((M.get s.fab n).setInactive (withPar v)) } : State).setChange (M.kind.addr n 0)
    (.dirty t)

theorem ShadowMem.dirty_stored (M : ShadowMem) (s : State) (t n : Nat) (v : Word) :
    ShadowStored M t n v s (M.dirty s t n v) := by
  have hn : M.get (M.dirty s t n v).fab n = (M.get s.fab n).setInactive (withPar v) := M.get_put_same _ _ _
  refine ⟨?_, ?_, State.setChange_change _ _ _, M.get_put_ne _ _ _, fun a ha => change_setChange_ne _ _ ha,
    M.only_put _ _ _⟩
  · rw [hn, inactive_setInactive]
  · rw [hn, active_setInactive]

theorem ShadowMem.only_dirty (M : ShadowMem) (s : State) (t n : Nat) (v : Word) :
    Only [.fabric, .changes] [] [] s (M.dirty s t n v) :=
  ((Only.setFab s _ []).mono (by simp) (by simp)).trans ((Only.setChange _ _ _).mono (by simp) (by simp))

/-! ### Bits and rights (R151 to R153, R155, R159) -/

/-- A word that tenant `t` may store in entry `n`: reserved bits 0, the output slot the tenant's own, and in MODE 2 the
selector too. -/
abbrev State.EntryMay (s : State) (t n : Nat) (v : Word) : Prop :=
  fieldOf v 26 5 = 0 ∧ ((fieldOf v 14 2 = 0 ∨ fieldOf v 14 2 = 3) → fieldOf v 24 2 = 0) ∧
    s.slotOwner n = t ∧ (fieldOf v 14 2 = 2 → s.selOwner (fieldOf v 16 10) = t)

/-- A word that tenant `t` may store in selector `n`. -/
abbrev State.SelMay (s : State) (t n : Nat) (v : Word) : Prop := fieldOf v 29 2 = 0 ∧ s.selOwner n = t

section
variable {s : State} {t n : Nat} {v : Word}

theorem writeConn_stores (h : s.EntryMay t n v) (hp : (s.change (connAddr n)).isPending = false) :
    s.writeConn t n v = (connMem.dirty s t n v, false) := by
  obtain ⟨hres, harg, hslot, hsel⟩ := h
  unfold State.writeConn
  rw [if_neg]
  · rfl
  · simp only [entryBad, entryMode, hres, hslot, hp, Bool.or_eq_true, Bool.and_eq_true, decide_eq_true_eq, ne_eq,
      not_true_eq_false, false_or, or_false, Bool.false_eq_true]
    rintro (⟨hm, ha⟩ | ⟨hm, ho⟩)
    · exact ha (harg (of_decide_eq_true hm))
    · exact ho (hsel (of_decide_eq_true hm))

theorem writeConn_discarded (h : ¬(s.EntryMay t n v ∧ (s.change (connAddr n)).isPending = false)) :
    s.writeConn t n v = (s, true) := by
  unfold State.writeConn
  rw [if_pos]
  contrapose! h
  simp only [entryBad, entryMode, Bool.or_eq_true, Bool.and_eq_true, decide_eq_true_eq, ne_eq, not_or, not_and,
    not_not, Bool.not_eq_true] at h
  obtain ⟨⟨⟨⟨hres, harg⟩, hslot⟩, hsel⟩, hp⟩ := h
  exact ⟨⟨hres, harg ∘ decide_eq_true, hslot, hsel ∘ decide_eq_true⟩, hp⟩

theorem writeSel_stores (h : s.SelMay t n v) (hp : (s.change (selAddr n)).isPending = false) :
    s.writeSel t n v = (selMem.dirty s t n v, false) := by
  obtain ⟨hres, hown⟩ := h
  unfold State.writeSel
  rw [if_neg (by simp [hres, hown, hp])]
  rfl

theorem writeSel_discarded (h : ¬(s.SelMay t n v ∧ (s.change (selAddr n)).isPending = false)) :
    s.writeSel t n v = (s, true) := by
  unfold State.writeSel
  rw [if_pos]
  contrapose! h
  simp only [Bool.or_eq_true, decide_eq_true_eq, ne_eq, not_or, not_not, Bool.not_eq_true] at h
  obtain ⟨⟨hres, hown⟩, hp⟩ := h
  exact ⟨⟨hres, hown⟩, hp⟩

end

theorem writeReg_conn (s : State) (m : Master) (n : Nat) (v : Word) :
    s.writeReg m ⟨.FAB_CONN, n, 0, false⟩ v = s.writeConn (s.tenantOf m) n v :=
  writeReg_fab (by decide) (by decide) s m n 0 v

theorem writeReg_sel (s : State) (m : Master) (n : Nat) (v : Word) :
    s.writeReg m ⟨.FAB_SEL, n, 0, false⟩ v = s.writeSel (s.tenantOf m) n v :=
  writeReg_fab (by decide) (by decide) s m n 0 v

/-! ### O18 -/

/-- A write of a named register that the register refuses. -/
theorem ends_regWrite_discarded {c : Instr} {m : Master} {k : RegKind} {i j : Nat} {v : Word} {s : State}
    (hc : exec c s = run (fun s => s.regWrite m k i j v) s) (hl : s.masterLive m = true) (hi : k.has i j)
    (h : s.writeReg m ⟨k, i, j, false⟩ v = (s, true)) :
    Ends c s fun t => Answered m 0 true t ∧ Only [.last] [] [] s t :=
  ends_seen (f := fun s => s.regWrite m k i j v) hc (regWrite_discarded hl hi h)

/-- What the answer and the logic after the command leave of a state. -/
theorem Settling.seen_same {u t : State} {m : Master} {v : Word} {e : Bool} (h : Settling (u.seen m v e) t) :
    t.fab = u.fab ∧ t.chg = u.chg := ⟨h.1 .fabric (by simp), h.1 .changes (by simp)⟩

/-- A served write of an entry or a selector. -/
theorem ends_shadowWrite {M : ShadowMem} {c : Instr} {m : Master} {n : Nat} {v : Word} {s : State}
    (hc : exec c s = run (fun s => s.regWrite m M.kind n 0 v) s) (hw : CanWrite m M.kind n 0 s) (hi : M.kind.has n 0)
    (ha : M.kind.info.wr ≠ .active) (hv : codesBad M.kind v = false)
    (h : s.writeReg m ⟨M.kind, n, 0, false⟩ v = (M.dirty s (s.tenantOf m) n v, false)) :
    Ends c s fun t => ShadowStored M (s.tenantOf m) n v s t ∧ Answered m 0 false t ∧
      Only [.last, .fabric, .changes] [] [] s t :=
  ends_write hc hw hi ha hv h fun _ ht =>
    ⟨(M.dirty_stored _ _ _ _).congr ⟨rfl, rfl⟩ ht.seen_same, ht.answered,
      ((M.only_dirty _ _ _ _).mono (by simp) (by simp)).answered ht (by simp)⟩

/-- Settles O18. -/
theorem connectionWriteMakesShadowDirty : Obligations.ConnectionWriteMakesShadowDirty := by
  refine ⟨fun m slot v s hw hp => ⟨fun hgood => ?_, fun hbad => ?_⟩,
    fun m k v s hw hp => ⟨fun hgood => ?_, fun hbad => ?_⟩⟩
  · obtain ⟨t, ht, ⟨hin, hact, hdirty, hothers, hchanges, hrest⟩, hans, honly⟩ := ends_shadowWrite (M := connMem)
      (c := .fabConnWrite m slot v) rfl hw ⟨slot.isLt, by decide⟩ (by decide) rfl
      ((writeReg_conn s m _ v).trans (writeConn_stores hgood hp))
    exact ⟨t, ht, hin, hact, hdirty, hothers, hchanges, hrest, hans, honly⟩
  · exact ends_regWrite_discarded rfl hw.1 ⟨slot.isLt, by decide⟩
      ((writeReg_conn s m _ v).trans (writeConn_discarded fun h => hbad h.1))
  · obtain ⟨t, ht, ⟨hin, hact, hdirty, hothers, hchanges, hrest⟩, hans, honly⟩ := ends_shadowWrite (M := selMem)
      (c := .fabSelWrite m k v) rfl hw ⟨k.isLt, by decide⟩ (by decide) rfl
      ((writeReg_sel s m _ v).trans (writeSel_stores hgood hp))
    exact ⟨t, ht, hin, hact, hdirty, hothers, hchanges, hrest, hans, honly⟩
  · exact ends_regWrite_discarded rfl hw.1 ⟨k.isLt, by decide⟩
      ((writeReg_sel s m _ v).trans (writeSel_discarded fun h => hbad h.1))

end Sys2Proof.Machine
end

section
/-!
PROOFS. What maintenance of the fabric changes: discarding changes, rows, parity injection and capture, and O21.
-/
namespace Sys2Proof.Machine

/-! ### Discarding (R164) -/

theorem Only.discardDirty (s : State) (t : Nat) (conn sel : Bool) :
    Only [.changes] [] [] s (s.discardDirty t conn sel) :=
  .of_kept (s := s) (t := s.discardDirty t conn sel)
    (fun p hp => by cases p <;> simp_all [Part.same, State.discardDirty]) rfl rfl rfl _

/-- A write of FAB_DISCARD. -/
theorem ends_fabDiscard {m : Master} {v : Word} {s : State} (h : CanWrite m .FAB_DISCARD 0 0 s) :
    Ends (.fabDiscard m v) s fun t =>
      t.chg = (s.discardDirty (s.tenantOf m) (v.getLsbD 0) (v.getLsbD 1)).chg ∧ Answered m 0 false t ∧
      Only [.last, .changes] [] [] s t :=
  ends_write rfl h (by decide) (by decide) rfl (writeReg_fab (by decide) (by decide) s m 0 0 v) fun t ht =>
    ⟨ht.seen_same.2, ht.answered, ((Only.discardDirty s _ _ _).mono (by simp) (by simp)).answered ht (by simp)⟩

/-! ### Rows (R171) -/

theorem mem_insertSorted (n m : Nat) (l : List Nat) : m ∈ insertSorted n l ↔ m = n ∨ m ∈ l := by
  induction l with
  | nil => simp [insertSorted]
  | cons k l ih =>
    unfold insertSorted
    split
    · simp
    · split
      next _ hk => subst hk; simp
      next => simp only [List.mem_cons, ih]; tauto

theorem Only.rowDown (s : State) (n : Nat) : Only [.fabric] [] [] s (s.rowDown n) :=
  .of_kept (s := s) (t := s.rowDown n) (fun p hp => by cases p <;> simp_all [Part.same, State.rowDown]) rfl rfl rfl _

/-- A row that AUTO lets go. -/
theorem ends_rowPowerDown {slot : BitVec 14} {s : State} (hu : s.fabUp = true) (hr : s.rowMayDrop slot.toNat = true) :
    Ends (.rowPowerDown slot) s fun t => t.fab = (s.rowDown slot.toNat).fab ∧ Only [.fabric] [] [] s t :=
  ends_run (f := fun s => s.rowPowerDown slot.toNat) rfl fun t ht => by
    rw [State.rowPowerDown, if_pos (by simp [hu, hr])] at ht
    exact ⟨ht.1 .fabric (by simp), (Only.rowDown s _).settled ht⟩

/-! ### Parity injection (R179, R184) -/

theorem active_setActive (c : Copies) (w : Word) : (c.setActive w).active = w := by
  cases hb : c.bank <;> simp [Copies.setActive, Copies.active, hb]

theorem inactive_setActive (c : Copies) (w : Word) : (c.setActive w).inactive = c.inactive := by
  cases hb : c.bank <;> simp [Copies.setActive, Copies.inactive, hb]

/-- The copies after the stored parity of the active one is flipped. -/
def Copies.parFlip (c : Copies) : Copies := c.setActive (c.active ^^^ 0x80000000)

theorem active_parFlip (c : Copies) : c.parFlip.active = c.active ^^^ 0x80000000 := active_setActive _ _

theorem inactive_parFlip (c : Copies) : c.parFlip.inactive = c.inactive := inactive_setActive _ _

theorem writeReg_parInject (s : State) (m : Master) (v : Word) :
    s.writeReg m ⟨.FAB_PAR_INJECT, 0, 0, false⟩ v = noErr (s.parInject v) :=
  writeReg_fab (by decide) (by decide) s m 0 0 v

section
variable {m : Master} {v : Word} {s : State}

/-- The command sets bit 31 of the word, which is no bit of SLOT or SELECTOR. -/
theorem parInject_command (s : State) (v : Word) : s.parInject (v ||| 0x80000000) =
    let n := fieldOf v 0 14
    if v.getLsbD 30 then if n < 1024 then s.setSel n (s.sel n).parFlip else s
    else s.setConn n (s.conn n).parFlip := by
  have h31 : (v ||| 0x80000000).getLsbD 31 = true := by rw [BitVec.getLsbD_or]; simp
  have h30 : (v ||| 0x80000000).getLsbD 30 = v.getLsbD 30 := by
    rw [BitVec.getLsbD_or, show (0x80000000 : Word).getLsbD 30 = false by decide, Bool.or_false]
  unfold State.parInject
  rw [if_pos h31, h30, fieldOf_or_msb v (by decide)]
  rfl

/-- A write of FAB_PAR_INJECT that flips the parity of number `n` of `M`. -/
theorem ends_parInject_flips (M : ShadowMem) {n : Nat} (h : CanWrite m .FAB_PAR_INJECT 0 0 s)
    (hu : s.parInject (v ||| 0x80000000) = { s with fab := M.put s.fab n (M.get s.fab n).parFlip }) :
    Ends (.fabParInject m v) s fun t =>
      (M.get t.fab n).active = (M.get s.fab n).active ^^^ 0x80000000 ∧
      (M.get t.fab n).inactive = (M.get s.fab n).inactive ∧ (∀ k, k ≠ n → M.get t.fab k = M.get s.fab k) ∧
      M.only s.fab t.fab ∧ Answered m 0 false t ∧ Only [.last, .fabric] [] [] s t :=
  ends_write rfl h (by decide) (by decide) rfl ((writeReg_parInject s m _).trans (congrArg noErr hu)) fun t ht => by
    rw [ht.seen_same.1]
    refine ⟨?_, ?_, M.get_put_ne _ _ _, M.only_put _ _ _, ht.answered,
      ((Only.setFab s _ []).mono (by simp) (by simp)).answered ht (by simp)⟩
    · rw [M.get_put_same, active_parFlip]
    · rw [M.get_put_same, inactive_parFlip]

/-- A write of FAB_PAR_INJECT that names nothing. -/
theorem ends_parInject_none (h : CanWrite m .FAB_PAR_INJECT 0 0 s) (hu : s.parInject (v ||| 0x80000000) = s) :
    Ends (.fabParInject m v) s fun t => Answered m 0 false t ∧ Only [.last] [] [] s t :=
  ends_write rfl h (by decide) (by decide) rfl ((writeReg_parInject s m _).trans (congrArg noErr hu)) fun _ ht =>
    ⟨ht.answered, (Only.seen s m 0 false).settled ht⟩

end

/-! ### Capture (R185) -/

/-- The fabric after a write of FAB_CAPTURE_CTL: a running capture ends, and a new one waits if ARM is set. -/
def Fabric.captureSet (f : Fabric) (v : Word) : Fabric :=
  { f with capWait := v.getLsbD 31, capRun := none, capSlot := if v.getLsbD 31 then fieldOf v 0 14 else f.capSlot }

theorem captureWrite_eq (s : State) (v : Word) : s.captureWrite v =
    { s.setReg .FAB_CAPTURE_CTL (v &&& 0x80003FFF) with fab := s.fab.captureSet v } := by
  unfold State.captureWrite Fabric.captureSet
  cases v.getLsbD 31 <;> rfl

theorem captureCtl_not_settles : ¬settles (RegKind.FAB_CAPTURE_CTL.addr 0 0) := by decide

theorem sparesGov_captureCtl : SparesGov [RegKind.FAB_CAPTURE_CTL.addr 0 0] := fun k hk _ _ hi =>
  not_mem_of_kinds (regsOf_kinds (ks := [.FAB_CAPTURE_CTL]))
    ((by decide : ∀ k ∈ govKinds, k ∉ [RegKind.FAB_CAPTURE_CTL]) k hk) hi

/-- A write of FAB_CAPTURE_CTL. -/
theorem ends_captureArm {m : Master} {v : Word} {s : State} (h : CanWrite m .FAB_CAPTURE_CTL 0 0 s) :
    Ends (.captureArm m v) s fun t =>
      t.reg .FAB_CAPTURE_CTL = v &&& 0x80003FFF ∧ t.fab = s.fab.captureSet v ∧ Answered m 0 false t ∧
      Only [.last, .fabric] [RegKind.FAB_CAPTURE_CTL.addr 0 0] [] s t :=
  ends_write rfl h (by decide) (by decide) rfl
    ((writeReg_fab (by decide) (by decide) s m 0 0 v).trans (congrArg noErr (captureWrite_eq s v))) fun t ht => by
    refine ⟨?_, ht.seen_same.1, ht.answered, Only.answered ?_ ht (by simp)⟩
    · rw [ht.reg .FAB_CAPTURE_CTL 0 0 captureCtl_not_settles]
      exact s.setReg_reg .FAB_CAPTURE_CTL (v &&& 0x80003FFF) 0 0
    · exact (Only.setReg s .FAB_CAPTURE_CTL _ 0 0 _ (.inl (by simp))).trans
        ((Only.setFab _ _ _).mono (by simp) (List.Subset.refl _))

/-- The end of a capture's eighth frame. -/
theorem ends_captureDone {s : State} (hu : s.fabUp = true) (hr : s.fab.capRun = some 8) :
    Ends .fabCaptureDone s fun t =>
      t.fab = { s.fab with capRun := none } ∧ t.f F.FAB_CAPTURE_CTL_ARM = 0 ∧
      t.f F.FAB_CAPTURE_CTL_SLOT = s.f F.FAB_CAPTURE_CTL_SLOT ∧
      Only [.fabric] [RegKind.FAB_CAPTURE_CTL.addr 0 0] [s.ev 644] s t :=
  ends_run (f := fun s => s.captureDone) rfl fun t ht => by
    let v : State := { s with fab := { s.fab with capRun := none } }
    have he : s.captureDone = (v.setF F.FAB_CAPTURE_CTL_ARM 0).raiseAt 644 none s.frame := by
      rw [State.captureDone, if_pos (by simp [hu, hr])]
      rfl
    rw [he] at ht
    have hfield (f : FieldRef) (hk : f.k = .FAB_CAPTURE_CTL) : t.f f = (v.setF F.FAB_CAPTURE_CTL_ARM 0).f f := by
      rw [ht.field f 0 0 (hk ▸ captureCtl_not_settles), State.f, State.reg, State.raiseAt_regs]; rfl
    have honly : Only [.fabric] [RegKind.FAB_CAPTURE_CTL.addr 0 0] [] s (v.setF F.FAB_CAPTURE_CTL_ARM 0) :=
      (Only.setFab s _ _).trans (Only.setF v F.FAB_CAPTURE_CTL_ARM 0 0 0 _ (.inl (by simp)))
    have hup : (v.setF F.FAB_CAPTURE_CTL_ARM 0).fabUp = true :=
      (honly.regs.fabUp sparesGov_captureCtl).trans hu
    refine ⟨?_, ?_, ?_, (honly.raiseAt rfl rfl 644 none s.frame hup).settled ht⟩
    · rw [show t.fab = _ from ht.1 .fabric (by simp), State.raiseAt_fab]; rfl
    · rw [hfield _ rfl]; exact State.setF_f v F.FAB_CAPTURE_CTL_ARM 0 0 0 (by decide)
    · rw [hfield _ rfl]
      exact State.setF_f_ne v F.FAB_CAPTURE_CTL_ARM F.FAB_CAPTURE_CTL_SLOT 0 0 0 rfl (.inl (by decide))

/-! ### O21 -/

/-- Settles O21. -/
theorem fabricMaintenanceCommands : Obligations.FabricMaintenanceCommands := by
  refine ⟨fun m v s h => ends_fabDiscard h, fun slot s hu hr => ?_, fun m v s h hsel => ?_, fun m v s h hsel hn => ?_,
    fun m v s h hsel hn => ?_, fun m v s h => ?_, fun s hu hr => ends_captureDone hu hr⟩
  · obtain ⟨t, ht, hfab, honly⟩ := ends_rowPowerDown hu hr
    have hrows : t.fab.rowsDown = insertSorted slot.toNat s.fab.rowsDown := by rw [hfab]; rfl
    refine ⟨t, ht, ?_, fun n hn => ?_, by rw [hfab]; rfl, honly⟩
    · rw [hrows, mem_insertSorted]; exact .inl rfl
    · rw [hrows, mem_insertSorted]; simp [hn]
  · exact ends_parInject_flips connMem h ((parInject_command s v).trans (if_neg (Bool.eq_false_iff.mp hsel)))
  · exact ends_parInject_flips selMem h ((parInject_command s v).trans ((if_pos hsel).trans (if_pos hn)))
  · exact ends_parInject_none h ((parInject_command s v).trans ((if_pos hsel).trans (if_neg (by omega))))
  · obtain ⟨t, ht, hreg, hfab, hans, honly⟩ := ends_captureArm h
    exact ⟨t, ht, hreg, by rw [hfab]; rfl, by rw [hfab]; rfl, fun harm => by rw [hfab]; exact if_pos harm,
      by rw [hfab]; rfl, by rw [hfab]; rfl, hans, honly⟩

end Sys2Proof.Machine
end

section
/-!
PROOFS. Instructions that act on the fabric: stores to connection memory, commits that a core issues, and O36.
-/
namespace Sys2Proof.Machine

/-! ### What the rights to a change depend on (R40, R152, R153, R155) -/

theorem has_of_at? {k : RegKind} {a : Nat} {r : RegRef} (h : k.at? a = some r) : r.k.has r.i r.j := by
  have hin {base i j : Nat} (hix : (if base ≤ a then k.info.indexOf (a - base) else none) = some (i, j)) :
      k.has i j := by
    split at hix
    · obtain ⟨hi, hj, -⟩ := indexOf_sound hix
      exact ⟨hi, hj⟩
    · cases hix
  unfold RegKind.at? at h
  dsimp only at h
  split at h
  next hix => cases h; exact hin hix
  next =>
    split at h
    · cases h
    · split at h
      next hix => cases h; exact hin hix
      next => cases h

/-- A register found at an address has its numbers in the range of its kind. -/
theorem has_of_regAt {a : Nat} {r : RegRef} (h : regAt a = some r) : r.k.has r.i r.j := by
  unfold regAt at h
  split at h <;> obtain ⟨k, -, hk⟩ := List.exists_of_findSome?_eq_some h <;> exact has_of_at? hk

section
variable {n : Nat} {s t : State} (h : RegsKept (bookRegs n) s t) (hn : n < 17)
include h hn

/-- The owner of a selector is read from the block of tenant control, whatever the selector's number. -/
theorem RegsKept.selOwner_any {q : Nat} (hq : q < 16384) : t.selOwner q = s.selOwner q := by
  have hword {x : Nat} (hx : x < 16) : t.reg .TEN_SEL_OWN x (q / 32) = s.reg .TEN_SEL_OWN x (q / 32) := by
    have haddr : RegKind.TEN_SEL_OWN.addr x (q / 32) = 0x011D0400 + x * 0x1000 + q / 32 * 4 := rfl
    refine h.reg _ _ _ (fun hm => ?_) (by rw [haddr]; unfold settles; omega)
    rw [haddr] at hm
    simp only [bookRegs, RegKind.addr, RegKind.info, List.mem_cons, List.not_mem_nil, or_false] at hm
    omega
  unfold State.selOwner
  rw [List.find?_congr (p₂ := fun x => (s.reg .TEN_SEL_OWN x (q / 32)).getLsbD (q % 32)) fun x hx => by
    rw [hword (others_lt x hx)]]

theorem RegsKept.tenantMay {tn : Nat} (ht : tn < 16) {r : RegRef} (hr : r.k.has r.i r.j) :
    t.tenantMay tn r = s.tenantMay tn r :=
  h.mayWrite (sparesGov_bookRegs hn) (.link 0 ⟨tn, ht⟩) hr

theorem RegsKept.changeOk {tn : Nat} (ht : tn < 16) (hfab : t.fab = s.fab) (a : Nat) :
    t.changeOk tn a = s.changeOk tn a := by
  have hnum : a % 0x10000 / 4 < 16384 := by omega
  unfold State.changeOk
  split
  · have hconn : t.conn (a % 0x10000 / 4) = s.conn (a % 0x10000 / 4) := by unfold State.conn; rw [hfab]
    have hfield := fieldOf_lt (s.conn (a % 0x10000 / 4)).inactive 16 10
    simp only [hconn, h.slotOwner (sparesGov_bookRegs hn) hnum, h.selOwner (sparesGov_bookRegs hn) hfield]
  · split
    · rw [h.selOwner_any hn hnum]
    · split
      next r hr => exact h.tenantMay hn ht (has_of_regAt hr)
      next => rfl

end

/-! ### An instruction that has done its work -/

/-- The cycles after an instruction keep the events that it raised. -/
theorem perfBoundary_raised (s : State) (n : Nat) : (s.perfBoundary n).raised = s.raised := by
  unfold State.perfBoundary
  refine List.foldlRecOn (motive := fun t : State => t.raised = s.raised) _ _ rfl fun t ht k _ => ?_
  dsimp only
  split <;> exact ht

/-- As `ends_done`, with the events that the body raised. -/
theorem ends_body {c : Instr} {n : Nat} {s : State} {f : State → State} {cost : Nat} {pulses : List (Nat × Nat)}
    {body : State → State × Option Trap} {but : List Part} {regs : List Nat} {d : Ctx} {P : State → Prop}
    (he : Executes n s) (hn : n < 17) (hc : exec c s = run f s) (hf : f s = s.instr n cost pulses body)
    (hbody : ∀ u, Beside n s u → ∃ v, Done but regs n u v d ∧ body u = (v, none) ∧
      ∀ t, CoreOnly (bookRegs n) n v t → KeepsRaised v t → P t) :
    Ends c s fun t => Done but regs n s t d ∧ P t := by
  refine ends_run hc fun t ht => ?_
  obtain ⟨u, hu, hi⟩ := instr_executes he cost pulses body
  obtain ⟨v, hv, hb, hP⟩ := hbody u hu
  rw [hf, hi, hb] at ht
  have hw : Beside n v ((if cost = 0 then v else v.perfBoundary n).wrapBlock n) :=
    (Beside.ite (.refl n v) (.perfBoundary v n)).trans (.wrapBlock _ n (by omega))
  have hraised : KeepsRaised v (if cost = 0 then v else v.perfBoundary n) := by
    split
    · exact .of_eq rfl
    · exact .of_eq (perfBoundary_raised v n)
  have hwt : CoreOnly (bookRegs n) n v t := (CoreOnly.beside hw (List.Subset.refl _)).trans (.settling ht)
  exact ⟨((hv.beside hw).settling ht).of_beside hu, hP t hwt fun e he =>
    ht.keepsRaised e (KeepsRaised.wrapBlock _ n e (hraised e he))⟩

/-- A change of parts other than the cores, as what an instruction does. -/
theorem Only.done {b : List Part} {r : List Nat} {es : List Raised} {s t : State} (h : Only b r es s t)
    (hb : .cores ∉ b) (n : Nat) : Done b r n s t (s.ctx n) := by
  have hcores : t.cores = s.cores := h.kept .cores (by simpa using hb)
  have hcore (m : Nat) : t.core m = s.core m := by unfold State.core; rw [hcores]
  exact ⟨h.kept.mono (by simp), h.regs.mono (List.subset_append_right _ _), fun m _ => hcore m, .of_eq (hcore n),
    by unfold State.ctx; rw [hcore]⟩

theorem Done.mono {b b' : List Part} {r r' : List Nat} {n : Nat} {s t : State} {c : Ctx} (h : Done b r n s t c)
    (hb : b ⊆ b') (hr : r ⊆ r') : Done b' r' n s t c :=
  ⟨h.kept.mono (List.append_subset.mpr ⟨fun _ hx => List.mem_append_left _ (hb hx), List.subset_append_right _ _⟩),
    h.regs.mono (List.append_subset.mpr ⟨List.subset_append_left _ _, fun _ hx => List.mem_append_right _ (hr hx)⟩),
    h.others, h.core, h.ctx⟩

/-- The state in which an instruction acts on the device: its next context in place, and its signal `k` counted. -/
def State.acting (s : State) (n : Nat) (c : Ctx) (k : Nat) : State := (s.putCtx n c).perf n [(k, 1)]

theorem done_acting (n : Nat) (s : State) (c : Ctx) (k : Nat) : Done [] [] n s (s.acting n c k) c :=
  (done_putCtx _ _ _ _ _).beside (.perf _ _ _ _)

theorem putCtx_eccOf (s : State) (n : Nat) (c : Ctx) (w : Nat) : (s.putCtx n c).eccOf w = s.eccOf w := rfl

/-- The context put back: a refused access shows in no part of the core. -/
theorem beside_acting_undone (n : Nat) (s : State) (c : Ctx) (k : Nat) :
    Beside n s ((s.acting n c k).putCtx n (s.ctx n)) := by
  refine ⟨((done_acting n s c k).trans (done_putCtx _ _ _ _ _)).completes, fun w hw => ?_⟩
  rw [putCtx_eccOf] at hw
  have := (Beside.perf (s.putCtx n c) n [(k, 1)] 0).ecc w hw
  rwa [putCtx_eccOf] at this

/-! ### A core's store to control space (R366, R396) -/

theorem ctlWrite_served {m : Master} {k : RegKind} {i j : Nat} {s : State} {v : Word} (hi : k.has i j)
    (hreach : s.reach ⟨k, i, j, false⟩ = true) (hmay : s.mayWrite m ⟨k, i, j, false⟩ = true)
    (ha : k.info.wr ≠ .active) (hv : codesBad k v = false) :
    s.ctlWrite m .word (k.addr i j) v = s.writeReg m ⟨k, i, j, false⟩ v := by
  unfold State.ctlWrite State.ctlWord
  rw [if_neg (by simp [addr_aligned]), regAt_has hi]
  simp [hreach, hmay, ha, hv]

theorem ctlWrite_discarded {m : Master} {k : RegKind} {i j : Nat} {s : State} {v : Word} (hi : k.has i j)
    (h : s.writeReg m ⟨k, i, j, false⟩ v = (s, true)) : s.ctlWrite m .word (k.addr i j) v = (s, true) := by
  unfold State.ctlWrite State.ctlWord
  rw [if_neg (by simp [addr_aligned]), regAt_has hi]
  dsimp only
  split
  · rfl
  · exact h

section
variable {n i j : Nat} {k : RegKind} {s : State} {x : Word} {c : Ctx}

/-- In control space a store of a word is a write by its core. -/
theorem dataWrite_ctl : s.dataWrite n (k.addr i j) 4 x.toNat =
    let r := (s.perf n [(9, 1)]).ctlWrite (coreMaster n) .word (k.addr i j) x
    (r.1, if r.2 then some 7 else none) := by
  unfold State.dataWrite
  rw [if_neg (by simp [not_inAon_addr]), if_neg (by have := addr_ge k i j; omega), BitVec.ofNat_toNat,
    BitVec.setWidth_eq]
  rfl

theorem storeAt_served {u : State}
    (h : (s.acting n c 9).ctlWrite (coreMaster n) .word (k.addr i j) x = (u, false)) :
    s.storeAt n (k.addr i j) 4 x.toNat c = (u, none) := by
  refine storeAt_of_dataWrite ?_
  rw [dataWrite_ctl, ← State.acting, h]
  rfl

theorem storeAt_discarded
    (h : (s.acting n c 9).ctlWrite (coreMaster n) .word (k.addr i j) x = (s.acting n c 9, true)) :
    s.storeAt n (k.addr i j) 4 x.toNat c = ((s.acting n c 9).putCtx n (s.ctx n), trap 7 (k.addr i j)) := by
  unfold State.storeAt
  rw [dataWrite_ctl, ← State.acting, h]
  rfl

end

/-! ### `wce` and `wsel` (R401) -/

/-- What `wce` and `wsel` do after their cycles. -/
def State.viewBody (s : State) (n k off first last : Nat) : State × Option Trap :=
  let c := s.ctx n
  let d := c.segAt k
  let eo := c.eo d off
  let a := addrOf d eo
  match checkSeg d .fw eo 4 4 with
  | some code => (s, trap code a)
  | none => if first ≤ a ∧ a ≤ last then s.storeAt n a 4 c.a.toNat c.next else (s, trap 7 a)

/-- The instruction stores A through segment `sm` to the shadow view of `M`, which stands from `first` to `last`. -/
structure IsView (c : Instr) (n : Nat) (sm : BitVec 4) (x : BitVec 21) (M : ShadowMem) (first last : Nat) : Prop where
  exec_eq : ∀ s, exec c s = run (fun s => s.viewInstr n sm x first last) s
  inside : ∀ i, M.kind.has i 0 → first ≤ M.kind.addr i 0 ∧ M.kind.addr i 0 ≤ last

theorem isView_wce (n : Fin 17) (sm : BitVec 4) (x : BitVec 21) :
    IsView (.wce n sm x) n.val sm x connMem 0x01000000 0x0100FFFF where
  exec_eq _ := rfl
  inside i hi := by
    have hlt : i < 16384 := hi.1
    have haddr : connMem.kind.addr i 0 = 0x01000000 + i * 4 + 0 * 4 := rfl
    omega

theorem isView_wsel (n : Fin 17) (sm : BitVec 4) (x : BitVec 21) :
    IsView (.wsel n sm x) n.val sm x selMem 0x01020000 0x01020FFF where
  exec_eq _ := rfl
  inside i hi := by
    have hlt : i < 1024 := hi.1
    have haddr : selMem.kind.addr i 0 = 0x01020000 + i * 4 + 0 * 4 := rfl
    omega

section
variable {n k off first last : Nat} {s : State}

theorem viewBody_refused {code : Nat} (h : checkSeg ((s.ctx n).segAt k) .fw (s.operandEo n k off) 4 4 = some code) :
    s.viewBody n k off first last = (s, trap code (s.operandAt n k off)) := by
  unfold State.operandEo at h
  simp only [State.viewBody, h, State.operandAt, State.operandEo]

theorem viewBody_admitted (h : Admits ((s.ctx n).segAt k) .fw (s.operandEo n k off) 4 4) :
    s.viewBody n k off first last =
      if first ≤ s.operandAt n k off ∧ s.operandAt n k off ≤ last then
        s.storeAt n (s.operandAt n k off) 4 (s.ctx n).a.toNat (s.ctx n).next
      else (s, trap 7 (s.operandAt n k off)) := by
  have hk := checkSeg_admits h
  unfold State.operandEo at hk
  simp only [State.viewBody, hk, State.operandAt, State.operandEo]
  rfl

end

section
variable {c : Instr} {n : Nat} {sm : BitVec 4} {x : BitVec 21} {M : ShadowMem} {first last : Nat} {s : State}
variable (hc : IsView c n sm x M first last) (he : Executes n s) (hn : n < 17)
include hc he hn

/-- A segment without FW (R369). -/
theorem ends_view_refused (hv : segValid ((s.ctx n).segAt sm.toNat) = true)
    (hw : segFW ((s.ctx n).segAt sm.toNat) = false) :
    Ends c s (Trapped n 4 (s.operandAt n sm.toNat x.toNat) false false s) := by
  refine ends_trapped he hn (by decide) (hc.exec_eq s) rfl fun u hu _ => ⟨u, .refl n u, ?_⟩
  obtain ⟨-, h4, -⟩ := checkSeg_refuses ((s.ctx n).segAt sm.toNat) .fw (s.operandEo n sm.toNat x.toNat) 4 4
  refine (viewBody_refused (code := 4) ?_).trans (by rw [hu.operandAt]; rfl)
  rw [hu.completes.ctx, hu.operandEo]
  exact h4 hv hw

variable (ha : Admits ((s.ctx n).segAt sm.toNat) .fw (s.operandEo n sm.toNat x.toNat) 4 4)
include ha

/-- An address in another view. -/
theorem ends_view_outside (ho : s.operandAt n sm.toNat x.toNat < first ∨ last < s.operandAt n sm.toNat x.toNat) :
    Ends c s (Trapped n 7 (s.operandAt n sm.toNat x.toNat) false false s) := by
  refine ends_trapped he hn (by decide) (hc.exec_eq s) rfl fun u hu _ => ⟨u, .refl n u, ?_⟩
  refine (viewBody_admitted (by rwa [hu.completes.ctx, hu.operandEo])).trans ?_
  rw [hu.operandAt, if_neg (by omega)]
  rfl

variable {i : Nat} (hi : M.kind.has i 0) (hat : s.operandAt n sm.toNat x.toNat = M.kind.addr i 0)
include hi hat

/-- A write of the view that the fabric refuses. -/
theorem ends_view_discarded
    (h : ∀ w c, Done [] [] n s w c → w.writeReg (coreMaster n) ⟨M.kind, i, 0, false⟩ (s.ctx n).a = (w, true)) :
    Ends c s (Trapped n 7 (s.operandAt n sm.toNat x.toNat) false false s) := by
  refine ends_trapped he hn (by decide) (hc.exec_eq s) rfl fun u hu _ =>
    ⟨_, beside_acting_undone n u (s.ctx n).next 9, ?_⟩
  refine (viewBody_admitted (by rwa [hu.completes.ctx, hu.operandEo])).trans ?_
  rw [hu.operandAt, hat, if_pos (hc.inside i hi), hu.completes.ctx]
  rw [storeAt_discarded (ctlWrite_discarded hi (h _ _ ((done_acting n u (s.ctx n).next 9).of_beside hu))),
    hu.completes.ctx]
  rfl

/-- A write of the view that the fabric stores. -/
theorem ends_view_stores {tn : Nat} (hreach : s.reach ⟨M.kind, i, 0, false⟩ = true)
    (hmay : s.mayWrite (coreMaster n) ⟨M.kind, i, 0, false⟩ = true) (hwr : M.kind.info.wr ≠ .active)
    (hcodes : codesBad M.kind (s.ctx n).a = false)
    (h : ∀ w c, Done [] [] n s w c → w.writeReg (coreMaster n) ⟨M.kind, i, 0, false⟩ (s.ctx n).a =
      (M.dirty w tn i (s.ctx n).a, false)) :
    Ends c s fun t => ShadowStored M tn i (s.ctx n).a s t ∧ Completes [.fabric, .changes] n s t (s.ctx n).next := by
  have hgov := sparesGov_bookRegs hn
  obtain ⟨t, ht, hd, hst⟩ := ends_body (P := ShadowStored M tn i (s.ctx n).a s) (but := [.fabric, .changes])
    (regs := []) (d := (s.ctx n).next) he hn (hc.exec_eq s) rfl fun u hu => by
      have hw := done_acting n u (s.ctx n).next 9
      have hsw : Done [] [] n s (u.acting n (s.ctx n).next 9) (s.ctx n).next := hw.of_beside hu
      have hr : RegsKept (bookRegs n) s (u.acting n (s.ctx n).next 9) := hsw.completes.around.regs
      have hwrite := (ctlWrite_served hi ((hr.reach hgov _).trans hreach) ((hr.mayWrite hgov _ hi).trans hmay) hwr
        hcodes).trans (h _ _ hsw)
      have hdirty : Done [.fabric, .changes] [] n u _ _ :=
        (hw.mono (by simp) (by simp)).trans ((M.only_dirty _ tn i (s.ctx n).a).done (by simp) n)
      rw [hw.ctx] at hdirty
      refine ⟨_, hdirty, ?_, fun t ht _ => (M.dirty_stored _ tn i (s.ctx n).a).congr
        ⟨(hsw.kept .fabric (by simp)).symm, (hsw.kept .changes (by simp)).symm⟩
        ⟨ht.kept .fabric (by simp), ht.kept .changes (by simp)⟩⟩
      refine (viewBody_admitted (by rwa [hu.completes.ctx, hu.operandEo])).trans ?_
      rw [hu.operandAt, hat, if_pos (hc.inside i hi), hu.completes.ctx, storeAt_served hwrite]
  exact ⟨t, ht, hst, hd.completes⟩

end

/-! ### Rights of a core's tenant to connection memory -/

theorem tenantOf_coreMaster {n : Nat} (hn : n < 17) (s : State) : s.tenantOf (coreMaster n) = s.coreOwner n := by
  show s.coreOwner (n % 17) = _
  rw [Nat.mod_eq_of_lt hn]

theorem mayWrite_conn {n i : Nat} {s : State} {v : Word} (hn : n < 17) (h : s.EntryMay (s.coreOwner n) i v) :
    s.mayWrite (coreMaster n) ⟨.FAB_CONN, i, 0, false⟩ = true := by
  obtain ⟨-, -, hslot, -⟩ := h
  unfold State.mayWrite State.tenantMay
  rw [tenantOf_coreMaster hn]
  exact Bool.or_eq_true_iff.mpr (.inr (decide_eq_true hslot))

theorem mayWrite_sel {n i : Nat} {s : State} {v : Word} (hn : n < 17) (h : s.SelMay (s.coreOwner n) i v) :
    s.mayWrite (coreMaster n) ⟨.FAB_SEL, i, 0, false⟩ = true := by
  obtain ⟨-, hown⟩ := h
  unfold State.mayWrite State.tenantMay
  rw [tenantOf_coreMaster hn]
  exact Bool.or_eq_true_iff.mpr (.inr (decide_eq_true hown))

section
variable {n : Nat} {s w : State} {c : Ctx} (h : Done [] [] n s w c) (hn : n < 17)
include h

theorem Done.change : w.change = s.change := State.change_congr (h.kept .changes (by simp))

include hn

theorem Done.coreOwner : w.coreOwner n = s.coreOwner n :=
  h.completes.around.regs.coreOwner (sparesGov_bookRegs hn) n

theorem Done.entryMay {t i : Nat} (hi : i < 16384) (v : Word) : w.EntryMay t i v ↔ s.EntryMay t i v := by
  have hr := h.completes.around.regs
  unfold State.EntryMay
  rw [hr.slotOwner (sparesGov_bookRegs hn) hi, hr.selOwner (sparesGov_bookRegs hn) (fieldOf_lt v 16 10)]

theorem Done.selMay {t i : Nat} (hi : i < 1024) (v : Word) : w.SelMay t i v ↔ s.SelMay t i v := by
  unfold State.SelMay
  rw [h.completes.around.regs.selOwner (sparesGov_bookRegs hn) hi]

/-- A core's write of an entry. -/
theorem Done.writesEntry {i : Nat} (v : Word) :
    w.writeReg (coreMaster n) ⟨.FAB_CONN, i, 0, false⟩ v = w.writeConn (s.coreOwner n) i v := by
  rw [writeReg_conn, tenantOf_coreMaster hn, h.coreOwner hn]

/-- A core's write of a selector. -/
theorem Done.writesSelector {i : Nat} (v : Word) :
    w.writeReg (coreMaster n) ⟨.FAB_SEL, i, 0, false⟩ v = w.writeSel (s.coreOwner n) i v := by
  rw [writeReg_sel, tenantOf_coreMaster hn, h.coreOwner hn]

end

section
variable {n : Fin 17} {sm : BitVec 4} {x : BitVec 21} {s : State} {i : Nat} (he : Executes n.val s)
variable (ha : Admits ((s.ctx n.val).segAt sm.toNat) .fw (s.operandEo n.val sm.toNat x.toNat) 4 4)
include he ha

theorem ends_wce_stores (hu : s.fabUp = true) (hi : i < 16384)
    (hat : s.operandAt n.val sm.toNat x.toNat = connAddr i) (hmay : s.EntryMay (s.coreOwner n.val) i (s.ctx n.val).a)
    (hp : (s.change (connAddr i)).isPending = false) :
    Ends (.wce n sm x) s fun t => ShadowStored connMem (s.coreOwner n.val) i (s.ctx n.val).a s t ∧
      Completes [.fabric, .changes] n.val s t (s.ctx n.val).next :=
  ends_view_stores (isView_wce n sm x) he n.isLt ha ⟨hi, by decide⟩ hat hu (mayWrite_conn n.isLt hmay) (by decide) rfl
    fun _ _ hw => (hw.writesEntry n.isLt _).trans
      (writeConn_stores ((hw.entryMay n.isLt hi _).mpr hmay) (by rw [hw.change]; exact hp))

theorem ends_wce_discarded (hi : i < 16384) (hat : s.operandAt n.val sm.toNat x.toNat = connAddr i)
    (h : ¬(s.EntryMay (s.coreOwner n.val) i (s.ctx n.val).a ∧ (s.change (connAddr i)).isPending = false)) :
    Ends (.wce n sm x) s (Trapped n.val 7 (s.operandAt n.val sm.toNat x.toNat) false false s) :=
  ends_view_discarded (isView_wce n sm x) he n.isLt ha ⟨hi, by decide⟩ hat fun _ _ hw =>
    (hw.writesEntry n.isLt _).trans (writeConn_discarded (by rwa [hw.entryMay n.isLt hi, hw.change]))

theorem ends_wsel_stores (hu : s.fabUp = true) (hi : i < 1024)
    (hat : s.operandAt n.val sm.toNat x.toNat = selAddr i) (hmay : s.SelMay (s.coreOwner n.val) i (s.ctx n.val).a)
    (hp : (s.change (selAddr i)).isPending = false) :
    Ends (.wsel n sm x) s fun t => ShadowStored selMem (s.coreOwner n.val) i (s.ctx n.val).a s t ∧
      Completes [.fabric, .changes] n.val s t (s.ctx n.val).next :=
  ends_view_stores (isView_wsel n sm x) he n.isLt ha ⟨hi, by decide⟩ hat hu (mayWrite_sel n.isLt hmay) (by decide) rfl
    fun _ _ hw => (hw.writesSelector n.isLt _).trans
      (writeSel_stores ((hw.selMay n.isLt hi _).mpr hmay) (by rw [hw.change]; exact hp))

theorem ends_wsel_discarded (hi : i < 1024) (hat : s.operandAt n.val sm.toNat x.toNat = selAddr i)
    (h : ¬(s.SelMay (s.coreOwner n.val) i (s.ctx n.val).a ∧ (s.change (selAddr i)).isPending = false)) :
    Ends (.wsel n sm x) s (Trapped n.val 7 (s.operandAt n.val sm.toNat x.toNat) false false s) :=
  ends_view_discarded (isView_wsel n sm x) he n.isLt ha ⟨hi, by decide⟩ hat fun _ _ hw =>
    (hw.writesSelector n.isLt _).trans (writeSel_discarded (by rwa [hw.selMay n.isLt hi, hw.change]))

end

/-! ### `cmt` (R374, R405) -/

section
variable {n tn : Nat} {s w : State} {c : Ctx} (h : Done [] [] n s w c) (hn : n < 17)
include h

theorem Done.covers (scope : BitVec 6) : w.covers tn scope = s.covers tn scope := by
  have hchg : w.chg = s.chg := h.kept .changes (by simp)
  unfold State.covers; rw [hchg]

include hn

/-- What becomes of a commit on arrival does not depend on the cycles before it. -/
theorem Done.arrival (ht : tn < 16) (v : Word) (scope : BitVec 6) :
    w.arrival tn v scope = s.arrival tn v scope := by
  have htenants : w.tenants = s.tenants := h.kept .tenants (by simp)
  have hcommits : w.commits = s.commits := (h.kept .commits (by simp)).1
  have hframe : w.frame = s.frame := (h.kept .time (by simp)).1
  have hok := h.completes.around.regs.changeOk hn ht (h.kept .fabric (by simp))
  unfold State.arrival State.ten State.pendingOf
  simp only [htenants, hcommits, hframe, h.covers, hok]

end

/-- A `cmt` of a legal scope ends in a commit of the core's owner. -/
theorem ends_cmt {n : Fin 17} {x : BitVec 21} {s : State} (he : Executes n.val s) (hu : s.fabUp = true)
    (hx : x.toNat < 64) {but : List Part} {regs : List Nat} {P : State → Prop}
    (h : ∀ w, Done [] [] n.val s w (s.ctx n.val).next →
      let v := w.issueCommit (s.coreOwner n.val) (s.ctx n.val).a (x.setWidth 6)
      Done but regs n.val w v (s.ctx n.val).next ∧
        ∀ t, CoreOnly (bookRegs n.val) n.val v t → KeepsRaised v t → P t) :
    Ends (.cmt n 0 x) s fun t => Done but regs n.val s t (s.ctx n.val).next ∧ P t := by
  refine ends_body (f := fun s => s.iCmt n.val 0 x) he n.isLt rfl rfl fun u hu' => ?_
  have hw := done_acting n.val u (s.ctx n.val).next 19
  have hsw : Done [] [] n.val s (u.acting n.val (s.ctx n.val).next 19) (s.ctx n.val).next := hw.of_beside hu'
  obtain ⟨hd, hP⟩ := h _ hsw
  refine ⟨_, (hw.mono (by simp) (by simp)).trans hd, ?_, hP⟩
  have hup := (hsw.completes.around.regs.fabUp (sparesGov_bookRegs n.isLt)).trans hu
  have howner := hsw.coreOwner n.isLt
  unfold State.acting at hup howner ⊢
  rw [if_neg (by simp [hx])]
  dsimp only
  rw [hu'.completes.ctx, if_pos hup, howner]

/-- The reasons of a rejection, in the order in which they are looked for (R35, R39, R40, R528). -/
theorem arrival_reason {s : State} {t reason : Nat} {v : Word} {scope : BitVec 6}
    (h : let shed := (s.ten t).st = .shedding ∨ (s.ten t).st = .shed
      let late := (v - s.frame).toNat = 0 ∨ 0x80000000 ≤ (v - s.frame).toNat
      let full := 64 ≤ (s.pendingOf t).length
      let denied := ∃ a ∈ s.covers t scope, s.changeOk t a = false
      (reason = 4 ∧ shed) ∨ (reason = 1 ∧ ¬shed ∧ late) ∨ (reason = 2 ∧ ¬shed ∧ ¬late ∧ full) ∨
        (reason = 3 ∧ ¬shed ∧ ¬late ∧ ¬full ∧ denied)) : s.arrival t v scope = reason ∧ reason ≠ 0 := by
  obtain ⟨rfl, hs⟩ | ⟨rfl, hs, hl⟩ | ⟨rfl, hs, hl, hf⟩ | ⟨rfl, hs, hl, hf, hd⟩ := h
  · exact ⟨arrival_shed hs v scope, by decide⟩
  · exact ⟨arrival_late hs hl, by decide⟩
  · exact ⟨arrival_full hs hl hf, by decide⟩
  · exact ⟨arrival_denied hs hl hf hd, by decide⟩

section
variable {n : Fin 17} {x : BitVec 21} {s : State} (he : Executes n.val s) (hu : s.fabUp = true)
  (ht : s.coreOwner n.val < 16) (hx : x.toNat < 64)
include he hu ht hx

/-- A commit that is queued (R35, R41, R161). -/
theorem ends_cmt_accepted (harr : s.arrival (s.coreOwner n.val) (s.ctx n.val).a (x.setWidth 6) = 0) :
    Ends (.cmt n 0 x) s fun t =>
      Done [.fabric, .changes, .commits, .power] [RegKind.POND_BANK_STATUS.addr 0 0] n.val s t (s.ctx n.val).next ∧
      (∃ up, t.commits = s.commits ++ [⟨s.nextId, s.coreOwner n.val, (s.ctx n.val).a, x.setWidth 6, up⟩]) ∧
      t.nextId = s.nextId + 1 ∧
      (∀ a, t.change a =
        if a ∈ s.covers (s.coreOwner n.val) (x.setWidth 6) then .pending s.nextId else s.change a) ∧
      t.fab = { s.fab with rowsDown := t.fab.rowsDown } := by
  refine ends_cmt he hu hx fun w hw => ?_
  rw [issueCommit_accept ((hw.arrival n.isLt ht _ _).trans harr)]
  obtain ⟨⟨up, hq⟩, hid, hchange, hfab, honly⟩ := accept_effect w (s.coreOwner n.val) (s.ctx n.val).a (x.setWidth 6)
  obtain ⟨hwq, hwid⟩ := hw.kept .commits (by simp)
  have hwfab : w.fab = s.fab := hw.kept .fabric (by simp)
  rw [hwq, hwid] at hq
  rw [hwid] at hid hchange
  rw [hw.covers, hw.change] at hchange
  rw [hwfab] at hfab
  refine ⟨hw.ctx ▸ honly.done (by simp) n.val, fun t ho _ => ?_⟩
  obtain ⟨htq, htid⟩ := ho.kept .commits (by simp)
  have htfab : t.fab = _ := ho.kept .fabric (by simp)
  refine ⟨⟨up, htq.trans hq⟩, htid.trans hid, fun a => ?_, by rw [htfab]; exact hfab⟩
  rw [State.change_congr (ho.kept .changes (by simp))]
  exact hchange a

/-- A commit that is recorded as rejected (R39, R40, R43, R44). -/
theorem ends_cmt_rejected {reason : Nat}
    (harr : s.arrival (s.coreOwner n.val) (s.ctx n.val).a (x.setWidth 6) = reason ∧ reason ≠ 0) :
    Ends (.cmt n 0 x) s fun t =>
      Done [.fabric] (rejRegs (s.coreOwner n.val)) n.val s t (s.ctx n.val).next ∧
      t.reg .FAB_CMT_REJ_FRAME (s.coreOwner n.val) = (s.ctx n.val).a ∧
      t.reg .FAB_CMT_REJ_INFO (s.coreOwner n.val) =
        BitVec.ofNat 32 ((x.setWidth 6 : BitVec 6).toNat + reason * 256) ∧
      (⟨641, some (s.coreOwner n.val), s.frame⟩ : Raised) ∈ t.raised ∧
      t.fab = { s.fab with rejected := t.fab.rejected } := by
  obtain ⟨harr, hne⟩ := harr
  refine ends_cmt he hu hx fun w hw => ?_
  have hup := (hw.completes.around.regs.fabUp (sparesGov_bookRegs n.isLt)).trans hu
  rw [issueCommit_reject ((hw.arrival n.isLt ht _ _).trans harr) hne]
  obtain ⟨hframe, hinfo, hfab, honly⟩ := rejectNote_effect hup ht (s.ctx n.val).a (x.setWidth 6) reason
  have hwfab : w.fab = s.fab := hw.kept .fabric (by simp)
  have hwframe : w.frame = s.frame := (hw.kept .time (by simp)).1
  rw [hwfab] at hfab
  rw [hwframe] at honly
  refine ⟨hw.ctx ▸ honly.done (by simp) n.val, fun t ho hraised => ?_⟩
  have htfab : t.fab = _ := ho.kept .fabric (by simp)
  have hreg {k : RegKind} (hk : k ∉ bookKinds ∧ k ≠ .PWR_STATUS ∧ k ≠ .QSUM) (hi : k.has (s.coreOwner n.val) 0) :=
    ho.regs.reg k _ 0 (not_mem_bookRegs n.isLt hk.1 hi) (not_settles hi hk.2.1 hk.2.2)
  refine ⟨?_, ?_, hraised _ ?_, by rw [htfab]; exact hfab⟩
  · exact (hreg (k := .FAB_CMT_REJ_FRAME) (by decide) ⟨ht, by decide⟩).trans hframe
  · exact (hreg (k := .FAB_CMT_REJ_INFO) (by decide) ⟨ht, by decide⟩).trans hinfo
  · obtain ⟨⟨l, -, hl⟩, -⟩ := honly.events
    rw [hl]; simp

end

/-! ### O36 -/

/-- Settles O36. -/
theorem fabricInstructionsActOnShadowState : Obligations.FabricInstructionsActOnShadowState := by
  intro n s he hu hown c tn next
  refine ⟨fun sm x => ⟨fun hv hw => ⟨?_, ?_⟩, fun ha => ⟨fun slot hslot hat => ⟨?_, fun hbad => ?_⟩,
    fun k hk hat => ⟨?_, fun hbad => ?_⟩, fun ho => ?_, fun ho => ?_⟩⟩,
    fun x hx => ⟨fun hs hl hf hd => ?_, fun r hr => ?_⟩⟩
  · exact ends_view_refused (isView_wce n sm x) he n.isLt hv hw
  · exact ends_view_refused (isView_wsel n sm x) he n.isLt hv hw
  · rintro ⟨hres, harg, hslotOwn, hsel, hp⟩
    obtain ⟨t, ht, ⟨hin, hact, hdirty, hothers, hchanges, hrest⟩, hcomp⟩ :=
      ends_wce_stores he ha hu hslot hat ⟨hres, harg, hslotOwn, hsel⟩ hp
    exact ⟨t, ht, hin, hact, hdirty, hothers, hchanges, hrest, hcomp⟩
  · exact ends_wce_discarded he ha hslot hat fun ⟨⟨hres, harg, hslotOwn, hsel⟩, hp⟩ =>
      hbad ⟨hres, harg, hslotOwn, hsel, hp⟩
  · rintro ⟨hres, hselOwn, hp⟩
    obtain ⟨t, ht, ⟨hin, hact, hdirty, hothers, hchanges, hrest⟩, hcomp⟩ :=
      ends_wsel_stores he ha hu hk hat ⟨hres, hselOwn⟩ hp
    exact ⟨t, ht, hin, hact, hdirty, hothers, hchanges, hrest, hcomp⟩
  · exact ends_wsel_discarded he ha hk hat fun ⟨⟨hres, hselOwn⟩, hp⟩ => hbad ⟨hres, hselOwn, hp⟩
  · exact ends_view_outside (isView_wce n sm x) he n.isLt ha ho
  · exact ends_view_outside (isView_wsel n sm x) he n.isLt ha ho
  · obtain ⟨t, ht, hdone, hq, hid, hchange, hfab⟩ := ends_cmt_accepted he hu hown hx (arrival_accepts hs hl hf hd)
    exact ⟨t, ht, hq, hid, fun a ha => by rw [hchange, if_pos ha], fun a ha => by rw [hchange, if_neg ha], hfab,
      hdone.ctx, hdone.core, hdone.others, hdone.regs, hdone.kept.mono (by simp)⟩
  · obtain ⟨t, ht, hdone, hframe, hinfo, hevent, hfab⟩ := ends_cmt_rejected he hu hown hx (arrival_reason hr)
    exact ⟨t, ht, hframe, hinfo, hevent, hfab, hdone.ctx, hdone.core, hdone.others, hdone.regs,
      hdone.kept.mono (by simp)⟩

end Sys2Proof.Machine
end

section
/-!
PROOFS. The defects that a line port declares and clears by the criteria of R192 and R196, and O22.
-/
namespace Sys2Proof.Machine

/-- A change of port `p`, its LINE_STATUS and the candidates alone. -/
structure DefectsAt (p : Nat) (s t : State) : Prop where
  others : ∀ q, q ≠ p → t.line q = s.line q
  dpll : t.dpll = s.dpll
  only : Only [.lines, .ref] [RegKind.LINE_STATUS.addr p 0] [] s t

namespace DefectsAt

theorem refl (p : Nat) (s : State) : DefectsAt p s s := ⟨fun _ _ => rfl, rfl, .refl _ _ s⟩

section
variable {p : Nat} {s t u : State} (h : DefectsAt p s t)
include h

theorem trans (g : DefectsAt p t u) : DefectsAt p s u :=
  ⟨fun q hq => (g.others q hq).trans (h.others q hq), g.dpll.trans h.dpll, h.only.trans g.only⟩

theorem ite {c : Prop} [Decidable c] (g : DefectsAt p s u) : DefectsAt p s (if c then t else u) := by
  split <;> assumption

theorem foldl {α : Type} {f : State → α → State} {l : List α} (hf : ∀ v a, DefectsAt p v (f v a)) :
    DefectsAt p s (l.foldl f t) := by
  induction l generalizing t with
  | nil => exact h
  | cons a l ih => exact ih (h.trans (hf t a))

theorem setLine {l : Line} : DefectsAt p s (t.setLine p l) :=
  h.trans ⟨fun _ hq => t.setLine_line_ne l hq, rfl,
    .of_kept ((Kept.setLine t p l).mono (by decide)) rfl rfl rfl _⟩

theorem setStatus {v : Word} : DefectsAt p s (t.setReg .LINE_STATUS v p) :=
  h.trans ⟨fun _ _ => rfl, rfl, .setReg t .LINE_STATUS v p 0 _ (.inl (by simp))⟩

theorem setCand {n : Nat} {c : Cand} : DefectsAt p s (t.setCand n c) :=
  h.trans ⟨fun _ _ => rfl, rfl, (Only.setCand t n c).mono (by simp) (by simp)⟩

theorem lineDef {k : Nat} {b : Bool} : DefectsAt p s (t.lineDef p k b) := .ite h.setStatus.setLine h.setStatus.setLine

theorem sourceLost {typ i : Nat} : DefectsAt p s (t.sourceLost typ i) :=
  h.foldl fun v _ => .ite (refl p v).setCand (refl p v)

theorem lofDeclare : DefectsAt p s (t.lofDeclare p) := by
  have h2 : DefectsAt p s (((((t.sourceLost 0 p).setLine p (t.line p).unalign).lineDef p 2 true).lineDef p 4 false).lineDef
      p 5 false) := h.sourceLost.setLine.lineDef.lineDef.lineDef
  exact .ite (.ite h2.lineDef h2) h

theorem settling (g : Settling t u) : DefectsAt p s u :=
  ⟨fun q hq => (g.line q).trans (h.others q hq), g.ref.2.trans h.dpll, h.only.settled g⟩

theorem lineFramed (hp : p < 128) : t.lineFramed p = s.lineFramed p := by
  have hi : RegKind.LINE_CTL.has p 0 := ⟨hp, by decide⟩
  have hact : t.act .LINE_CTL p = s.act .LINE_CTL p :=
    h.only.regs.act hi (by decide) (by simpa using actAddr_ne hi ⟨hp, by decide⟩ (by decide))
  exact congrArg (fun w => !decide (fieldOf w F.LINE_CTL_RX_FRAMING.lo F.LINE_CTL_RX_FRAMING.w ≠ 0)) hact

end

end DefectsAt

/-! ### What a defect leaves, set or cleared -/

@[simp] theorem State.setLine_cands (s : State) (p : Nat) (l : Line) : (s.setLine p l).cands = s.cands := rfl

@[simp] theorem State.setLine_lineDefect (s : State) (p q j : Nat) (l : Line) :
    (s.setLine p l).lineDefect q j = s.lineDefect q j := rfl

theorem lineDef_cands (s : State) (p k : Nat) (b : Bool) : (s.lineDef p k b).cands = s.cands := by
  cases b <;> rfl

/-- Clearing a defect notes in the port's record that it was there. -/
theorem lineDef_clear_line (s : State) (p k : Nat) :
    (s.lineDef p k false).line p = { s.line p with chg := (s.line p).chg || s.lineDefect p k } :=
  State.setLine_line _ p _

theorem Settling.status {s t : State} (h : Settling s t) {p : Nat} (hp : p < 128) :
    t.reg .LINE_STATUS p = s.reg .LINE_STATUS p :=
  h.reg _ _ _ (not_settles ⟨hp, by decide⟩ (by decide) (by decide))

theorem Settling.lineDefect {s t : State} (h : Settling s t) {p : Nat} (hp : p < 128) (j : Nat) :
    t.lineDefect p j = s.lineDefect p j := by
  rw [State.lineDefect, h.status hp, State.lineDefect]

/-! ### LOF (R192, R105) -/

/-- The run of codes ends of each candidate routed from the source, and of no other. -/
theorem sourceLost_cand (s : State) {n : Nat} (hn : n < 8) (typ i : Nat) : (s.sourceLost typ i).cand n =
    if s.candFrom n typ i then { s.cand n with count := 0 } else s.cand n := by
  have hfold := foldl_cand (F := fun u k => if u.candFrom k typ i then u.setCand k { u.cand k with count := 0 } else u)
    (g := fun k c => if s.candFrom k typ i then { c with count := 0 } else c) (l := candNums) (by decide)
    (fun u k hu => by
      rw [candFrom_congr hu]
      split
      · exact ⟨hu, u.setCand_cand k _, fun _ hj => u.setCand_cand_ne _ hj⟩
      · exact ⟨hu, rfl, fun _ _ => rfl⟩) (s := s) rfl n
  rw [if_pos (mem_candNums hn)] at hfold
  exact hfold

theorem sourceLost_lineDefect (s : State) {p : Nat} (hp : p < 128) (typ i j : Nat) :
    (s.sourceLost typ i).lineDefect p j = s.lineDefect p j := by
  rw [State.lineDefect, (sourceLost_within s typ i).reg ⟨⟨hp, by decide⟩, by decide⟩, State.lineDefect]

theorem lofDeclare_unframed {s : State} {p : Nat} (h : s.lineFramed p = false) : s.lofDeclare p = s := by
  rw [State.lofDeclare, h]
  rfl

theorem lofDeclare_cands {s : State} {p : Nat} (h : s.lineFramed p = true) :
    (s.lofDeclare p).cands = (s.sourceLost 0 p).cands := by
  rw [lofDeclare_framed h]
  dsimp only
  split <;> simp only [lineDef_cands, State.setLine_cands]

/-- LOF sets bit 2 and clears RAI and NOCRC4; but for LOMF the other defects stay. -/
theorem lofDeclare_lineDefect {s : State} {p : Nat} (hp : p < 128) (h : s.lineFramed p = true) {j : Nat}
    (hj : j < 6 ∧ j ≠ 3) : (s.lofDeclare p).lineDefect p j =
      if j = 5 ∨ j = 4 then false else if j = 2 then true else s.lineDefect p j := by
  obtain ⟨hj, hne⟩ := hj
  have h2 : (((((s.sourceLost 0 p).setLine p (s.line p).unalign).lineDef p 2 true).lineDef p 4 false).lineDef p 5
      false).lineDefect p j = if j = 5 ∨ j = 4 then false else if j = 2 then true else s.lineDefect p j := by
    rw [lineDef_lineDefect _ _ _ ⟨by decide, hj⟩, lineDef_lineDefect _ _ _ ⟨by decide, hj⟩,
      lineDef_lineDefect _ _ _ ⟨by decide, hj⟩, State.setLine_lineDefect, sourceLost_lineDefect s hp, ite_or]
  rw [lofDeclare_framed h]
  dsimp only
  split
  · rw [lineDef_lineDefect _ _ _ ⟨by decide, hj⟩, if_neg hne]
    exact h2
  · exact h2

/-- From `s` to `t` defects of port `p` changed and, on a framed port, LOF was declared. -/
structure LofDeclared (p : Nat) (s t : State) : Prop where
  within : DefectsAt p s t
  unframed : s.lineFramed p = false → t.cands = s.cands
  framed : s.lineFramed p = true → t.lineDefect p 2 = true ∧ t.lineDefect p 4 = false ∧ (t.line p).aligned = false ∧
    ∀ n < 8, t.cand n = if s.candFrom n 0 p then { s.cand n with count := 0 } else s.cand n

section
variable {p : Nat} {s u t : State} (hp : p < 128) (ht : Settling (u.lofDeclare p) t)
include hp ht

/-- LOF is declared after a change of other defects. -/
theorem lofDeclared (hu : DefectsAt p s u) (hc : u.cands = s.cands) : LofDeclared p s t := by
  refine ⟨hu.lofDeclare.settling ht, fun hf => ?_, fun hf => ?_⟩
  · rw [lofDeclare_unframed ((hu.lineFramed hp).trans hf)] at ht
    exact ht.ref.1.trans hc
  · have hf : u.lineFramed p = true := (hu.lineFramed hp).trans hf
    obtain ⟨hal, -, -⟩ := unaligned_of_quiet (lofDeclare_quiet hf)
    refine ⟨?_, ?_, by rw [ht.line, hal], fun n hn => ?_⟩
    · rw [ht.lineDefect hp, lofDeclare_lof hf]
    · rw [ht.lineDefect hp, lofDeclare_lineDefect hp hf (by decide)]
      rfl
    · rw [ht.cand, State.cand_congr (lofDeclare_cands hf), sourceLost_cand u hn, candFrom_congr hu.dpll,
        State.cand_congr hc]

/-- LOS and AIS stay as they are where LOF is declared. -/
theorem lofDeclare_early {j : Nat} (hj : j < 2) : t.lineDefect p j = u.lineDefect p j := by
  rw [ht.lineDefect hp]
  cases hf : u.lineFramed p with
  | false => rw [lofDeclare_unframed hf]
  | true => rw [lofDeclare_lineDefect hp hf (by omega), if_neg (by omega), if_neg (by omega)]

end

/-! ### The commands -/

/-- What reads the pins of a port without supply does nothing (R817). -/
theorem ends_unsupplied {c : Instr} {p : Fin 128} {s : State} (f : State → State)
    (hc : exec c s = run (fun s => s.lineRead p.val f) s) (h : s.bankIn (p.val / 32) = false) :
    Ends c s (Only [] [] [] s) :=
  ends_run hc fun t ht => by
    rw [lineRead_unsupplied h] at ht
    exact (Only.refl _ _ s).settled ht

theorem ends_aisPeriodEnd {p : Fin 128} {s : State} (h : s.bankIn (p.val / 32) = true) {zeros : BitVec 10}
    {P : State → Prop} (hP : ∀ t, Settling (s.aisPeriod p.val zeros.toNat) t → P t) :
    Ends (.aisPeriodEnd p zeros) s P :=
  ends_run (f := fun s => s.lineRead p.val fun s => s.aisPeriod p.val zeros.toNat) rfl fun t ht =>
    hP t (by rwa [lineRead_supplied h] at ht)

/-- A port's record as a period of 512 bits ends, with few zeros (`low`) or many (R192). -/
def Line.periodEnded (l : Line) (low : Bool) : Line := { l with aisLow := low, aisHigh := !low }

section
variable {p : Fin 128} {s : State} (hon : (s.line p.val).on = true) (hu : s.fabUp = true)
include hon hu

/-- A missing clock, or zeros that are read: LOS, no AIS, and LOF at once. -/
theorem ends_losDeclare {zeros : Nat} {noClock : Bool} (h0 : s.lineDefect p.val 0 = false)
    (h : noClock = true ∨ (s.bankIn (p.val / 32) = true ∧ s.losZeros p.val ≤ zeros)) :
    Ends (.losDeclare p zeros noClock) s fun t =>
      t.lineDefect p.val 0 = true ∧ t.lineDefect p.val 1 = false ∧ LofDeclared p.val s t :=
  ends_run (f := fun s => if noClock then s.losDeclare p.val zeros true
      else s.lineRead p.val fun s => s.losDeclare p.val zeros false) rfl fun t ht => by
    let u := (s.lineDef p.val 0 true).lineDef p.val 1 false
    have hmeets : s.losDeclare p.val zeros noClock = u.lofDeclare p.val :=
      if_pos (by rcases h with h | ⟨-, h⟩ <;> simp [hon, hu, h0, h])
    have hdo : (if noClock then s.losDeclare p.val zeros true
        else s.lineRead p.val fun s => s.losDeclare p.val zeros false) = u.lofDeclare p.val := by
      cases noClock with
      | true => exact hmeets
      | false => exact (lineRead_supplied (h.resolve_left (by decide)).1 _).trans hmeets
    rw [hdo] at ht
    refine ⟨?_, ?_, lofDeclared p.isLt ht (DefectsAt.refl _ s).lineDef.lineDef
      ((lineDef_cands _ _ _ _).trans (lineDef_cands _ _ _ _))⟩
    · rw [lofDeclare_early p.isLt ht (by decide), lineDef_lineDefect _ _ _ (by decide),
        lineDef_lineDefect _ _ _ (by decide)]
      rfl
    · rw [lofDeclare_early p.isLt ht (by decide), lineDef_lineDefect _ _ _ (by decide)]
      rfl

theorem ends_losClear {window : BitVec 32} (hbank : s.bankIn (p.val / 32) = true) (h0 : s.lineDefect p.val 0 = true)
    (hw : clearWindow (s.losZeros p.val) window = true) : Ends (.losClear p true window) s fun t =>
      t.lineDefect p.val 0 = false ∧ t.line p.val = { s.line p.val with recentre := true, chg := true } ∧
        DefectsAt p.val s t ∧ t.cands = s.cands :=
  ends_run (f := fun s => s.lineRead p.val fun s => s.losClear p.val true window) rfl fun t ht => by
    let u := s.lineDef p.val 0 false
    have hdo : s.losClear p.val true window = u.setLine p.val { u.line p.val with recentre := true } :=
      if_pos (by simp [hon, hu, h0, hw])
    rw [lineRead_supplied hbank, hdo] at ht
    refine ⟨?_, ?_, (DefectsAt.refl _ s).lineDef.setLine.settling ht, ht.ref.1.trans (lineDef_cands s _ _ _)⟩
    · rw [ht.lineDefect p.isLt]
      exact (lineDef_lineDefect s p.val false (by decide)).trans (if_pos rfl)
    · rw [ht.line, State.setLine_line, lineDef_clear_line, h0, Bool.or_true]

/-- The end of a period: two in a row declare AIS or clear it, and the port notes the last one. -/
theorem aisPeriod_eq (zeros : Nat) : s.aisPeriod p.val zeros =
    let low := decide (zeros ≤ 2)
    let u := s.setLine p.val ((s.line p.val).periodEnded low)
    if !(s.lineDefect p.val 1) && !(s.lineDefect p.val 0) && low && (s.line p.val).aisLow then
      (u.lineDef p.val 1 true).lofDeclare p.val
    else if s.lineDefect p.val 1 && !low && (s.line p.val).aisHigh then u.lineDef p.val 1 false
    else u := if_pos (by simp [hon, hu])

variable (hbank : s.bankIn (p.val / 32) = true) {zeros : BitVec 10}
include hbank

theorem ends_aisDeclare (hz : zeros.toNat ≤ 2) (hlow : (s.line p.val).aisLow = true)
    (h0 : s.lineDefect p.val 0 = false) (h1 : s.lineDefect p.val 1 = false) :
    Ends (.aisPeriodEnd p zeros) s fun t => t.lineDefect p.val 1 = true ∧ LofDeclared p.val s t :=
  ends_aisPeriodEnd hbank fun t ht => by
    rw [aisPeriod_eq hon hu, if_pos (by simp [hz, hlow, h0, h1])] at ht
    refine ⟨?_, lofDeclared p.isLt ht (DefectsAt.refl _ s).setLine.lineDef (lineDef_cands _ _ _ _)⟩
    rw [lofDeclare_early p.isLt ht (by decide), lineDef_lineDefect _ _ _ (by decide)]
    rfl

theorem ends_aisClear (hz : 2 < zeros.toNat) (hhigh : (s.line p.val).aisHigh = true)
    (h1 : s.lineDefect p.val 1 = true) : Ends (.aisPeriodEnd p zeros) s fun t => t.lineDefect p.val 1 = false ∧
      t.line p.val = { s.line p.val with aisLow := false, aisHigh := true, chg := true } ∧
        DefectsAt p.val s t ∧ t.cands = s.cands :=
  ends_aisPeriodEnd hbank fun t ht => by
    let u := s.setLine p.val ((s.line p.val).periodEnded false)
    have hlow : decide (zeros.toNat ≤ 2) = false := by simp [hz]
    have hwas : u.lineDefect p.val 1 = true := h1
    rw [aisPeriod_eq hon hu, if_neg (by simp [h1]), if_pos (by simp [hz, hhigh, h1]), hlow] at ht
    refine ⟨?_, ?_, (DefectsAt.refl _ s).setLine.lineDef.settling ht, ht.ref.1.trans (lineDef_cands _ _ _ _)⟩
    · rw [ht.lineDefect p.isLt, lineDef_lineDefect _ _ _ (by decide)]
      rfl
    · rw [ht.line, lineDef_clear_line, hwas, Bool.or_true, State.setLine_line]
      rfl

/-- A period unlike the one before it, or one that finds nothing to change, is only noted. -/
theorem ends_aisNoted (hlow : zeros.toNat ≤ 2 → (s.line p.val).aisLow = false)
    (hhigh : 2 < zeros.toNat → (s.line p.val).aisHigh = false) : Ends (.aisPeriodEnd p zeros) s fun t =>
      t.reg .LINE_STATUS p.val = s.reg .LINE_STATUS p.val ∧
      t.line p.val = (s.line p.val).periodEnded (decide (zeros.toNat ≤ 2)) ∧
        DefectsAt p.val s t ∧ t.cands = s.cands :=
  ends_aisPeriodEnd hbank fun t ht => by
    rw [aisPeriod_eq hon hu, if_neg (by simpa using fun _ _ => hlow), if_neg (by simpa using fun _ => hhigh)] at ht
    exact ⟨ht.status p.isLt, by rw [ht.line, State.setLine_line], (DefectsAt.refl _ s).setLine.settling ht, ht.ref.1⟩

end

section
variable {p : Fin 128} {s : State} (hon : (s.line p.val).on = true) (hu : s.fabUp = true)
  (hal : (s.line p.val).aligned = true) (hmf : (s.line p.val).mfPos = none)
include hon hu hal hmf

theorem ends_multiframeSearchTimeout (hcrc : s.fa F.LINE_CTL_CRC4 p.val = 1) (hn : 64 ≤ (s.line p.val).alFrames) :
    Ends (.multiframeSearchTimeout p) s (LofDeclared p.val s) :=
  ends_run (f := fun s => s.mfTimeout p.val) rfl fun t ht => by
    have hdo : s.mfTimeout p.val = s.lofDeclare p.val := if_pos (by simp [hon, hu, hcrc, hal, hmf, hn])
    rw [hdo] at ht
    exact lofDeclared p.isLt ht (.refl _ s) rfl

theorem ends_nocrc4 (hcrc : s.fa F.LINE_CTL_CRC4 p.val = 2) (hdone : (s.line p.val).mfDone = false)
    (hn : 3200 ≤ (s.line p.val).alFrames) : Ends (.nocrc4 p) s fun t =>
      t.lineDefect p.val 5 = true ∧ t.lineDefect p.val 3 = false ∧ (t.line p.val).mfDone = true ∧
        DefectsAt p.val s t ∧ t.cands = s.cands :=
  ends_run (f := fun s => s.noCrc4 p.val) rfl fun t ht => by
    let u := s.setLine p.val { s.line p.val with mfDone := true }
    have hdo : s.noCrc4 p.val = (u.lineDef p.val 5 true).lineDef p.val 3 false :=
      if_pos (by simp [hon, hu, hcrc, hal, hmf, hdone, hn])
    rw [hdo] at ht
    refine ⟨?_, ?_, ?_, (DefectsAt.refl _ s).setLine.lineDef.lineDef.settling ht, ?_⟩
    · rw [ht.lineDefect p.isLt, lineDef_lineDefect _ _ _ (by decide), lineDef_lineDefect _ _ _ (by decide)]
      rfl
    · rw [ht.lineDefect p.isLt, lineDef_lineDefect _ _ _ (by decide)]
      rfl
    · have hquiet : (t.line p.val).quiet = { s.line p.val with mfDone := true }.quiet := by
        rw [ht.line, lineDef_quiet, lineDef_quiet, State.setLine_line]
      exact congrArg Line.mfDone hquiet
    · exact ht.ref.1.trans ((lineDef_cands _ _ _ _).trans (lineDef_cands _ _ _ _))

end

/-- Settles O22: each criterion declares or clears its own defect, and what declares LOF besides ends in `lofDeclare`. -/
theorem lineDefectsDeclareAndClear : Obligations.LineDefectsDeclareAndClear := by
  intro p s hon hu fits here lof fed
  have hfits {t : State} (h : DefectsAt p.val s t) : fits t := ⟨h.others, h.dpll, h.only⟩
  have hlof {t : State} (h : LofDeclared p.val s t) : lof t := ⟨hfits h.within, h.unframed, h.framed⟩
  refine ⟨fun hbank zeros clock window k => ⟨ends_unsupplied (fun s => s.losDeclare p.val k false) rfl hbank,
      ends_unsupplied (fun s => s.losClear p.val clock window) rfl hbank,
      ends_unsupplied (fun s => s.aisPeriod p.val zeros.toNat) rfl hbank⟩,
    fun zeros noClock h0 h => ?_, fun window hbank h0 hw => ?_, fun zeros hbank hz hlow h0 h1 => ?_,
    fun zeros hbank hz hhigh h1 => ?_, fun zeros hbank hlow hhigh => ?_, fun hcrc hal hmf hn => ?_,
    fun hcrc hal hmf hdone hn => ?_⟩
  · obtain ⟨t, ht, hlos, hais, h⟩ := ends_losDeclare hon hu h0 h
    exact ⟨t, ht, hlos, hais, hlof h⟩
  · obtain ⟨t, ht, hlos, hline, h, hc⟩ := ends_losClear hon hu hbank h0 hw
    exact ⟨t, ht, hlos, hline, hfits h, hc⟩
  · obtain ⟨t, ht, hais, h⟩ := ends_aisDeclare hon hu hbank hz hlow h0 h1
    exact ⟨t, ht, hais, hlof h⟩
  · obtain ⟨t, ht, hais, hline, h, hc⟩ := ends_aisClear hon hu hbank hz hhigh h1
    exact ⟨t, ht, hais, hline, hfits h, hc⟩
  · obtain ⟨t, ht, hstatus, hline, h, hc⟩ := ends_aisNoted hon hu hbank hlow hhigh
    exact ⟨t, ht, hstatus, hline, hfits h, hc⟩
  · obtain ⟨t, ht, h⟩ := ends_multiframeSearchTimeout hon hu hal hmf hcrc hn
    exact ⟨t, ht, hlof h⟩
  · obtain ⟨t, ht, hno, hlomf, hmfDone, h, hc⟩ := ends_nocrc4 hon hu hal hmf hcrc hdone hn
    exact ⟨t, ht, hno, hlomf, hmfDone, hfits h, hc⟩

end Sys2Proof.Machine
end

section
/-!
PROOFS. The counters of line ports and trunks: the bank that a read selects, the latching at a second boundary, O25 and
O26.
-/
namespace Sys2Proof.Machine

/-! ### The selected bank (R225, R275) -/

/-- The latch of a read of SEC: bank 1 or bank 0, whichever is the newer. -/
def newerSel (newer : Bool) : Word := if newer then 2 else 1

/-- The selection names the bank itself: it stays with it whichever becomes the newer. -/
theorem bankOf_newerSel (was newer : Bool) (b0 b1 : Bank) :
    bankOf (newerSel was) newer b0 b1 = if was then b1 else b0 := by
  cases was <;> rfl

theorem State.setLatch_get_ne (s : State) (m : Master) (a : Nat) (v : Word) {b : Nat} (h : b ≠ latchKey m a) :
    tabGet (fun _ => (0 : Word)) (s.setLatch m a v).latches b = tabGet (fun _ => 0) s.latches b := by
  simp only [State.setLatch]; apply tabGet_put_ne; exact h

/-- A command that reads a SEC register: it answers with the newer bank's and latches which one that is. -/
theorem ends_secRead {c : Instr} {m : Master} {k : RegKind} {i : Nat} {newer : Bool} {v : Word} {s : State}
    (hc : exec c s = run (fun s => s.busRead m (k.addr i 0)) s) (h : CanRead m k i 0 s) (hi : k.has i 0)
    (hr : s.readReg m ⟨k, i, 0, false⟩ = (s.setLatch m (k.addr i 0) (newerSel newer), v)) :
    Ends c s fun t => Answered m v false t ∧
      (∀ now b0 b1, bankOf (t.latch m (k.addr i 0)) now b0 b1 = if newer then b1 else b0) ∧
      (∀ a, a ≠ latchKey m (k.addr i 0) →
        tabGet (fun _ => (0 : Word)) t.latches a = tabGet (fun _ => 0) s.latches a) ∧
      Only [.last, .latches] [] [] s t :=
  ends_read hc h hi hr fun t ht => by
    have hl : t.latches = (s.setLatch m (k.addr i 0) (newerSel newer)).latches := ht.1 .latches (by simp)
    refine ⟨ht.answered, fun now b0 b1 => ?_, fun a ha => ?_,
      ((Only.setLatch s m _ _).mono (by simp) (by simp)).answered ht (by simp)⟩
    · rw [State.latch, hl]
      exact (congrArg (bankOf · now b0 b1) (s.setLatch_latch m _ _)).trans (bankOf_newerSel newer now b0 b1)
    · rw [hl]
      exact s.setLatch_get_ne m _ _ ha

/-- Settles O25: either register is read by `ends_secRead`. -/
theorem secCounterReadSelectsNewerBank : Obligations.SecCounterReadSelectsNewerBank :=
  ⟨fun _ p _ h => ends_secRead rfl h ⟨p.isLt, by decide⟩ rfl,
    fun _ k _ h => ends_secRead rfl h ⟨k.isLt, by decide⟩ rfl⟩

/-! ### Banks latched at the end of a second (R222, R275) -/

/-- A port's record with its accumulators latched into the older bank. -/
def Line.latched (l : Line) (sec : Word) : Line :=
  if l.newer then { l with bank0 := latchBank lineWidths sec l.cnt, newer := false, cnt := [] }
  else { l with bank1 := latchBank lineWidths sec l.cnt, newer := true, cnt := [] }

/-- A trunk's record with its accumulators latched into the older bank. -/
def Trunk.latched (x : Trunk) (sec : Word) : Trunk :=
  if x.newer then { x with bank0 := latchBank trunkWidths sec x.cnt, newer := false, cnt := [] }
  else { x with bank1 := latchBank trunkWidths sec x.cnt, newer := true, cnt := [] }

theorem lineSecond_eq (s : State) (sec : Word) (p : Nat) :
    s.lineSecond sec p = s.setLine p ((s.line p).latched sec) := rfl

theorem trunkSecond_eq (s : State) (sec : Word) (k : Nat) :
    s.trunkSecond sec k = s.setTrunk k ((s.trunk k).latched sec) := rfl

@[simp] theorem State.setTrunk_trunk (s : State) (k : Nat) (x : Trunk) : (s.setTrunk k x).trunk k = x :=
  tabGet_put_same _ _ _ _

theorem State.setTrunk_trunk_ne (s : State) {k j : Nat} (x : Trunk) (h : j ≠ k) :
    (s.setTrunk k x).trunk j = s.trunk j := by
  simp only [State.setTrunk, State.trunk]; apply tabGet_put_ne; exact h

theorem State.trunk_congr {s t : State} (h : t.trunks = s.trunks) (k : Nat) : t.trunk k = s.trunk k := by
  unfold State.trunk; rw [h]

/-- A fold that visits each number of a list once, and at each changes the record of that number alone, by a rule. -/
theorem foldl_record {α : Type} {get : State → Nat → α} {F : State → Nat → State} {g : α → α}
    (hF : ∀ u n, get (F u n) n = g (get u n) ∧ ∀ k, k ≠ n → get (F u n) k = get u k) {l : List Nat} (hl : l.Nodup)
    (s : State) (k : Nat) : get (l.foldl F s) k = if k ∈ l then g (get s k) else get s k := by
  induction l generalizing s with
  | nil => rfl
  | cons n l ih =>
    obtain ⟨hn, hl⟩ := List.nodup_cons.mp hl
    obtain ⟨hsame, hne⟩ := hF s n
    rw [List.foldl_cons, ih hl]
    by_cases hk : k = n
    · subst hk
      simp [hn, hsame]
    · simp [hk, hne k hk]

/-- Every line port latches. -/
def State.linesSecond (s : State) (sec : Word) : State := linePorts.foldl (fun s p => s.lineSecond sec p) s

/-- Every trunk latches. -/
def State.trunksSecond (s : State) (sec : Word) : State := [0, 1, 2, 3].foldl (fun s k => s.trunkSecond sec k) s

section
variable (s : State) (sec : Word)

theorem linesSecond_line {p : Nat} (hp : p < 128) : (s.linesSecond sec).line p = (s.line p).latched sec := by
  have hfold := foldl_record (get := State.line) (F := fun s p => s.lineSecond sec p) (g := fun l => l.latched sec)
    (fun u n => by
      rw [lineSecond_eq]
      exact ⟨u.setLine_line n _, fun _ hk => u.setLine_line_ne _ hk⟩) (l := linePorts) List.nodup_range s p
  have hmem : p ∈ linePorts := List.mem_range.mpr hp
  rwa [if_pos hmem] at hfold

theorem trunksSecond_trunk {k : Nat} (hk : k < 4) : (s.trunksSecond sec).trunk k = (s.trunk k).latched sec := by
  have hfold := foldl_record (get := State.trunk) (F := fun s k => s.trunkSecond sec k) (g := fun x => x.latched sec)
    (fun u n => by
      rw [trunkSecond_eq]
      exact ⟨u.setTrunk_trunk n _, fun _ hj => u.setTrunk_trunk_ne _ hj⟩) (l := [0, 1, 2, 3]) (by decide) s k
  have hmem : k ∈ [0, 1, 2, 3] := by interval_cases k <;> decide
  rwa [if_pos hmem] at hfold

theorem linesSecond_within : Within [.lines] [] s (s.linesSecond sec) :=
  (Within.refl _ _ s).foldl fun v p _ => (Within.refl _ _ v).part (Kept.setLine v p _) (by decide)

theorem trunksSecond_within : Within [.trunks] [] s (s.trunksSecond sec) :=
  (Within.refl _ _ s).foldl fun v _ _ => (Within.refl _ _ v).part (Kept.trunks v _) (by decide)

theorem trunksSecond_pairs : (s.trunksSecond sec).pairs = s.pairs :=
  List.foldlRecOn [0, 1, 2, 3] _ (motive := fun u : State => u.pairs = s.pairs) rfl fun _ hu _ _ => hu

end

/-! ### The reference block at a second boundary (R118, R131) -/

/-- An update that is due, or none. -/
theorem dpllUpdate_within (s : State) : Within [.ref] updateKinds s s.dpllUpdate := by
  by_cases h : (s.dpll.due && s.fabUp) = true
  · obtain ⟨hdue, hup⟩ := Bool.and_eq_true_iff.mp h
    rw [dpllUpdate_eq hup hdue]
    have hall : Touches [.ref] updateFields s s.intervalOver.applySelection :=
      ((intervalOver_end s).touches.mono (by decide)).next (applySelection_touches _) (by decide)
    exact ((hall.next (steerNow_touches _) (by decide)).next (intervalDone_touches _) (by decide)).within.mono (by decide)
  · have hno : s.dpllUpdate = s := if_pos (by rw [Bool.eq_false_of_not_eq_true h]; rfl)
    rw [hno]
    exact .refl _ _ s

theorem histSecond_within (s : State) : Within [.ref] [.DPLL_HIST, .DPLL_HIST_HEAD] s s.histSecond := by
  unfold State.histSecond
  extract_lets d s0 count head s1
  have h0 : Within [.ref] [.DPLL_HIST, .DPLL_HIST_HEAD] s s0 := (Within.refl _ _ s).part (Kept.dpll s _) (by decide)
  have hhead : RegKind.DPLL_HIST.has head 0 := by
    refine ⟨?_, by decide⟩
    show head < 128
    simp only [head]
    split <;> omega
  have h1 : Within [.ref] [.DPLL_HIST, .DPLL_HIST_HEAD] s s1 := (h0.setF ⟨by decide, hhead⟩).setF ⟨by decide, hhead⟩
  exact .ite ((h1.setF (by decide)).setF (by decide)) h0

/-- The registers of the reference block that a second boundary may write. -/
def secondKinds : List RegKind :=
  [.CLK_STEER, .DPLL_HIST, .DPLL_HIST_HEAD, .DPLL_HOLD_VALUE, .DPLL_PHASE, .DPLL_STATUS, .REF_SEL_STATUS]

theorem refSecond_within (s : State) : Within [.ref] secondKinds s s.dpllUpdate.histSecond :=
  ((dpllUpdate_within s).mono (by decide)).next (histSecond_within _) (by decide)

/-! ### The boundary -/

/-- A second boundary that has not been served. -/
structure AtSecond (s : State) : Prop where
  up : s.fabUp = true
  released : s.rst.held = false
  whole : s.sys.toNat % 24576000 = 0 ∧ 0 < s.sys.toNat
  due : s.secDone = false

/-- The second that ends at a boundary. -/
def State.secEnded (s : State) : Word := BitVec.ofNat 32 (s.sys.toNat / 24576000 - 1)

/-- The banks latched, the boundary not yet noted as served. -/
def State.secondLatched (s : State) : State :=
  (s.dpllUpdate.histSecond.linesSecond s.secEnded).trunksSecond s.secEnded

theorem secondBoundary_eq {s : State} (h : AtSecond s) : s.secondBoundary = { s.secondLatched with secDone := true } :=
  if_pos (by simp [h.up, h.released, h.whole, h.due])

section
variable (s : State)

theorem secondLatched_line {p : Nat} (hp : p < 128) : s.secondLatched.line p = (s.line p).latched s.secEnded := by
  rw [State.secondLatched, State.line_congr ((trunksSecond_within _ _).same .lines (by decide)),
    linesSecond_line _ _ hp, State.line_congr ((refSecond_within s).same .lines (by decide))]

theorem secondLatched_trunk {k : Nat} (hk : k < 4) :
    s.secondLatched.trunk k = (s.trunk k).latched s.secEnded := by
  obtain ⟨hlines, -⟩ := (linesSecond_within s.dpllUpdate.histSecond s.secEnded).same .trunks (by decide)
  obtain ⟨href, -⟩ := (refSecond_within s).same .trunks (by decide)
  rw [State.secondLatched, trunksSecond_trunk _ _ hk, State.trunk_congr hlines, State.trunk_congr href]

theorem secondLatched_within : Within [.ref, .lines, .trunks] secondKinds s s.secondLatched :=
  (((refSecond_within s).mono (by decide)).next (linesSecond_within _ _) (by decide)).next
    (trunksSecond_within _ _) (by decide)

theorem secondLatched_pairs : s.secondLatched.pairs = s.pairs := by
  obtain ⟨-, hlines⟩ := (linesSecond_within s.dpllUpdate.histSecond s.secEnded).same .trunks (by decide)
  obtain ⟨-, href⟩ := (refSecond_within s).same .trunks (by decide)
  exact (trunksSecond_pairs _ _).trans (hlines.trans href)

end

theorem Kept.secDone (s : State) (b : Bool) : Kept [.time] s { s with secDone := b } :=
  fun p hp => by cases p <;> simp_all [Part.same]

/-- What noting the boundary as served, and the logic after the command, leave of the state with the banks latched. -/
structure Served (w t : State) : Prop where
  done : t.secDone = true
  frame : t.frame = w.frame
  sys : t.sys = w.sys
  lines : t.lines = w.lines
  trunks : t.trunks = w.trunks
  pairs : t.pairs = w.pairs
  within : Within [.time] [] w t

theorem served {w t : State} (ht : Settling { w with secDone := true } t) : Served w t := by
  obtain ⟨htrunks, hpairs⟩ := ht.1 .trunks (by simp)
  obtain ⟨hframe, hsys, -, hdone⟩ := ht.1 .time (by simp)
  exact ⟨hdone, hframe, hsys, ht.1 .lines (by simp), htrunks, hpairs,
    ((Within.refl _ _ w).part (Kept.secDone w true) (by decide)).settling ht⟩

/-- Settles O26: the reference block closes its second, then every port and trunk latches its own record. -/
theorem secondBoundaryLatchesCounters : Obligations.SecondBoundaryLatchesCounters := by
  intro s hup hrst hwhole hpos hdue
  refine ends_run (f := State.secondBoundary) rfl fun t ht => ?_
  rw [secondBoundary_eq ⟨hup, hrst, ⟨hwhole, hpos⟩, hdue⟩] at ht
  have hserved := served ht
  have hlatched := secondLatched_within s
  obtain ⟨hframe, hsys, -, -⟩ := hlatched.same .time (by decide)
  have hall : Within [.time, .ref, .lines, .trunks] secondKinds s t :=
    (hlatched.mono (by decide)).next hserved.within (by decide)
  refine ⟨fun p hp => ?_, fun k hk => ?_, hserved.done, hserved.frame.trans hframe, hserved.sys.trans hsys,
    hserved.pairs.trans (secondLatched_pairs s), hall.kept.mono (by decide), hall.regs⟩
  · exact (State.line_congr hserved.lines p).trans (secondLatched_line s hp)
  · exact (State.trunk_congr hserved.trunks k).trans (secondLatched_trunk s hk)

end Sys2Proof.Machine
end

section
/-!
PROOFS. What the receive side of a trunk changes.
-/
namespace Sys2Proof.Machine

/-! ### Quality levels of the reference block (R104, R105) -/

theorem candQl_within (s : State) {n : Nat} (hn : n < 8) (c : Nat) : Within [.ref] statusKinds s (s.candQl n c) := by
  have hset (x : Cand) : Within [.ref] statusKinds s (s.setCand n x) :=
    (Within.refl _ _ s).part (Kept.setCand s n x) (by decide)
  exact .ite ((hset _).next (setQl_touches _ hn c).within (by decide)) (hset _)

theorem sourceQl_within (s : State) (typ i sa c : Nat) : Within [.ref] statusKinds s (s.sourceQl typ i sa c) :=
  (Within.refl _ _ s).foldl fun v n hn => .ite (candQl_within v (Aside.candNums_lt n hn) c) (.refl _ _ v)

/-! ### A trunk, its registers and the reference block -/

/-- The registers of trunk `k` that its receive side writes. -/
def trunkRegs (k : Nat) : List Nat :=
  [RegKind.TRK_STATUS.addr k 0, RegKind.TRK_RX_OH.addr k 0, RegKind.TRK_RX_TRACE.addr k 0,
    RegKind.TRK_RX_TRACE.addr k 1, RegKind.TRK_RX_TRACE.addr k 2, RegKind.TRK_RX_TRACE.addr k 3]

/-- A change of trunk `k`, its registers and the reference block alone, events aside. -/
structure AtTrunk (k : Nat) (s t : State) : Prop where
  others : ∀ q, q ≠ k → t.trunk q = s.trunk q
  pairs : t.pairs = s.pairs
  kept : Kept [.regs, .events, .trunks, .ref] s t
  regs : RegsKept (trunkRegs k ++ regsOf statusKinds) s t

/-- What the framer keeps in a trunk's record (R251, R255). -/
structure Framing where
  aligned : Bool
  fb : List Bool
  fawBad : Nat
  buf : List TrunkFrame

def Trunk.framing (x : Trunk) : Framing := ⟨x.aligned, x.fb, x.fawBad, x.buf⟩

theorem parts_of_framing {x y : Trunk} (h : x.framing = y.framing) :
    x.aligned = y.aligned ∧ x.fb = y.fb ∧ x.fawBad = y.fawBad ∧ x.buf = y.buf := Framing.mk.inj h

/-- A change of trunk `k` that is not the framer's. -/
structure KeepsFraming (k : Nat) (s t : State) : Prop extends AtTrunk k s t where
  framing : (t.trunk k).framing = (s.trunk k).framing

namespace AtTrunk

theorem refl (k : Nat) (s : State) : AtTrunk k s s := ⟨fun _ _ => rfl, rfl, .refl _ s, .refl _ s⟩

section
variable {k : Nat} {s t u : State} (h : AtTrunk k s t)
include h

theorem trans (g : AtTrunk k t u) : AtTrunk k s u :=
  ⟨fun q hq => (g.others q hq).trans (h.others q hq), g.pairs.trans h.pairs, h.kept.trans g.kept,
    h.regs.trans g.regs⟩

theorem ite {c : Prop} [Decidable c] (g : AtTrunk k s u) : AtTrunk k s (if c then t else u) := by
  split <;> assumption

/-- Followed by a change of the reference block or of events. -/
theorem ref (g : Within [.ref] statusKinds t u) : AtTrunk k s u := by
  obtain ⟨htrunks, hpairs⟩ := g.same .trunks (by decide)
  exact h.trans ⟨fun q _ => State.trunk_congr htrunks q, hpairs, g.kept.mono (by decide),
    g.regs.mono (List.subset_append_right _ _)⟩

theorem settling (g : Settling t u) : AtTrunk k s u := h.ref ((Within.refl _ _ t).settling g)

theorem setTrunk {x : Trunk} : AtTrunk k s (t.setTrunk k x) :=
  h.trans ⟨fun _ hq => t.setTrunk_trunk_ne x hq, rfl, (Kept.trunks t _).mono (by decide), .of_eq rfl _⟩

theorem setReg {r : RegKind} {v : Word} {j : Nat} (hr : r.addr k j ∈ trunkRegs k) : AtTrunk k s (t.setReg r v k j) :=
  h.trans ⟨fun _ _ => rfl, rfl, (Kept.setReg t r v k j).mono (by decide),
    .setReg t r v k j _ (.inl (List.mem_append_left _ hr))⟩

end

end AtTrunk

/-! ### Defects and the overhead of a frame -/

namespace KeepsFraming

theorem refl (k : Nat) (s : State) : KeepsFraming k s s := ⟨.refl k s, rfl⟩

section
variable {k : Nat} {s t u : State} (h : KeepsFraming k s t)
include h

theorem ite {c : Prop} [Decidable c] (g : KeepsFraming k s u) : KeepsFraming k s (if c then t else u) := by
  split <;> assumption

/-- Followed by a change of the reference block or of events. -/
theorem ref (g : Within [.ref] statusKinds t u) : KeepsFraming k s u := by
  obtain ⟨htrunks, -⟩ := g.same .trunks (by decide)
  exact ⟨h.toAtTrunk.ref g, by rw [State.trunk_congr htrunks, h.framing]⟩

theorem setTrunk {x : Trunk} (hx : x.framing = (t.trunk k).framing := by rfl) : KeepsFraming k s (t.setTrunk k x) :=
  ⟨h.toAtTrunk.setTrunk, by rw [State.setTrunk_trunk, hx, h.framing]⟩

theorem setReg {r : RegKind} {v : Word} {j : Nat} (hr : r.addr k j ∈ trunkRegs k) :
    KeepsFraming k s (t.setReg r v k j) := ⟨h.toAtTrunk.setReg hr, h.framing⟩

theorem setOh {f : FieldRef} {n : Nat} (hf : f.k = .TRK_RX_OH) : KeepsFraming k s (t.setF f n k) :=
  h.setReg (by simp [hf, trunkRegs])

theorem trunkEvt {i : Nat} : KeepsFraming k s (t.trunkEvt k i) := h.ref (Within.refl _ _ t).raise

theorem sourceMarker {typ i : Nat} {e : Int} : KeepsFraming k s (t.sourceMarker typ i e) :=
  h.ref ((sourceMarker_within t typ i e).mono (by decide))

theorem sourceLost {typ i : Nat} : KeepsFraming k s (t.sourceLost typ i) :=
  h.ref ((sourceLost_within t typ i).mono (by decide))

theorem trunkCount {i n : Nat} : KeepsFraming k s (t.trunkCount k i n) := .ite h h.setTrunk

theorem trunkDef {d : Nat} {b : Bool} : KeepsFraming k s (t.trunkDef k d b) := by
  have hset (w : Word) : KeepsFraming k s (t.setReg .TRK_STATUS w k) := h.setReg (by simp [trunkRegs])
  exact .ite (hset _).setTrunk (hset _).setTrunk

theorem trunkTim : KeepsFraming k s (t.trunkTim k) := .ite (.ite h.trunkDef h) (.ite h.trunkDef h)

theorem trunkFn {fn : Byte} : KeepsFraming k s (t.trunkFn k fn) := by
  unfold State.trunkFn
  dsimp only
  split
  · exact h.setTrunk
  · exact .ite (.ite h.setTrunk.trunkDef h.setTrunk)
      (.ite (.trunkDef (h.setTrunk.setTrunk (by rw [State.setTrunk_trunk]; rfl))) h.setTrunk)

theorem trunkOverhead {bytes : List Byte} : KeepsFraming k s (t.trunkOverhead k bytes) := by
  unfold State.trunkOverhead
  extract_lets x ql pc rei qlN pcN s1 s2 old s3 s4
  have h1 : KeepsFraming k s s1 := h.setTrunk
  have h2 : KeepsFraming k s s2 := .ite (h1.setOh rfl).trunkEvt h1
  have h3 : KeepsFraming k s s3 := .ite ((h2.setOh rfl).setOh rfl).trunkEvt h2
  exact .ref (h3.setOh rfl).trunkCount (sourceQl_within s4 1 k 0 ql)

theorem setTrace {bs : List Byte} : KeepsFraming k s (t.setTrace k bs) :=
  (((h.setReg (by simp [trunkRegs])).setReg (by simp [trunkRegs])).setReg (by simp [trunkRegs])).setReg
    (by simp [trunkRegs])

theorem trunkTrace {b : Byte} : KeepsFraming k s (t.trunkTrace k b) := 
  .ite h (.ite h.setTrunk (.ite h.setTrunk (.ite (.ite h.setTrunk.setTrace.trunkEvt h.setTrunk) h.setTrunk)))

end

end KeepsFraming

/-! ### The framer -/

namespace AtTrunk

section
variable {k : Nat} {s t : State} (h : AtTrunk k s t)
include h

theorem trunkCount {i n : Nat} : AtTrunk k s (t.trunkCount k i n) :=
  h.trans (KeepsFraming.refl k t).trunkCount.toAtTrunk

theorem trunkDef {d : Nat} {b : Bool} : AtTrunk k s (t.trunkDef k d b) :=
  h.trans (KeepsFraming.refl k t).trunkDef.toAtTrunk

theorem trunkBuffer {bs : List Byte} : AtTrunk k s (t.trunkBuffer k bs) := h.setTrunk

theorem trunkLof : AtTrunk k s (t.trunkLof k) := by
  unfold State.trunkLof
  exact .trunkDef (.trunkDef (.setTrunk (h.trans (KeepsFraming.refl k t).sourceLost.toAtTrunk)))

theorem trunkFrame {bs : List Bool} : AtTrunk k s (t.trunkFrame k bs).1 := by
  unfold State.trunkFrame
  extract_lets x d s1 bad bytes fn sent errs s2 _ s3
  have h1 : AtTrunk k s s1 := h.trunkCount
  split
  · exact h1.trunkLof
  · have h3 : AtTrunk k s s3 := h1.trunkCount.trunkBuffer.setTrunk
    exact h3.trans (KeepsFraming.refl k s3).trunkFn.trunkOverhead.trunkTrace.trunkTim.toAtTrunk

theorem trunkFound {f0 f1 : List Bool} : AtTrunk k s (t.trunkFound k f0 f1) := by
  unfold State.trunkFound
  exact h.trunkBuffer.trunkBuffer.setTrunk.trunkDef

theorem trunkFramer {e : Int} {fuel : Nat} : AtTrunk k s (t.trunkFramer k e fuel) := by
  induction fuel generalizing t with
  | zero => exact h
  | succ fuel ih =>
    have hf {x : Trunk} {bs : List Bool} : AtTrunk k s (((t.setTrunk k x).sourceMarker 1 k e).trunkFrame k bs).1 :=
      .trunkFrame (h.setTrunk.trans (KeepsFraming.refl k _).sourceMarker.toAtTrunk)
    exact .ite (.ite h (ih (.ite hf hf.setTrunk))) (.ite (ih h.setTrunk.trunkFound) h.setTrunk)

theorem trunkReceive {bits : BitVec 16384} {e : Int} : AtTrunk k s (t.trunkReceive k bits e) := by
  unfold State.trunkReceive State.trunkBits
  split
  · dsimp only
    split
    · exact h
    · exact h.setTrunk.setTrunk.trunkFramer
    · exact h.setTrunk.trunkFramer
  · exact h

end

end AtTrunk

end Sys2Proof.Machine
end

section
/-!
PROOFS. A frame received on an aligned trunk, its LOS and LOF, and O24.
-/
namespace Sys2Proof.Machine

/-! ### The defects of TRK_STATUS (R250) -/

/-- The word that declares a defect: its bit and its sticky bit. -/
theorem getLsbD_declare (w : Word) {d j : Nat} (hd : d < 6) (hj : j < 6) :
    (w ||| BitVec.ofNat 32 (0x101 <<< d)).getLsbD j = if j = d then true else w.getLsbD j := by
  have hbit : (BitVec.ofNat 32 (0x101 <<< d)).getLsbD j = decide (j = d) := by
    interval_cases d <;> interval_cases j <;> rfl
  rw [BitVec.getLsbD_or, hbit]
  by_cases h : j = d <;> simp [h]

theorem getLsbD_clear (w : Word) {d j : Nat} (hd : d < 6) (hj : j < 6) :
    (w &&& ~~~(BitVec.ofNat 32 (1 <<< d))).getLsbD j = if j = d then false else w.getLsbD j := by
  have hbit : (~~~(BitVec.ofNat 32 (1 <<< d))).getLsbD j = !decide (j = d) := by
    interval_cases d <;> interval_cases j <;> rfl
  rw [BitVec.getLsbD_and, hbit]
  by_cases h : j = d <;> simp [h]

/-- A defect that is set or cleared reads so, and the other defects read as they did. -/
theorem trunkDef_trunkDefect (s : State) (k : Nat) {d j : Nat} (b : Bool) (hd : d < 6 ∧ j < 6) :
    (s.trunkDef k d b).trunkDefect k j = if j = d then b else s.trunkDefect k j := by
  obtain ⟨hd, hj⟩ := hd
  cases b with
  | true =>
    have hreg : (s.trunkDef k d true).reg .TRK_STATUS k = s.reg .TRK_STATUS k ||| BitVec.ofNat 32 (0x101 <<< d) :=
      s.setReg_reg .TRK_STATUS _ k 0
    rw [State.trunkDefect, hreg, getLsbD_declare _ hd hj, State.trunkDefect]
  | false =>
    have hreg : (s.trunkDef k d false).reg .TRK_STATUS k = s.reg .TRK_STATUS k &&& ~~~(BitVec.ofNat 32 (1 <<< d)) :=
      s.setReg_reg .TRK_STATUS _ k 0
    rw [State.trunkDefect, hreg, getLsbD_clear _ hd hj, State.trunkDefect]

@[simp] theorem State.setTrunk_trunkDefect (s : State) (k q j : Nat) (x : Trunk) :
    (s.setTrunk k x).trunkDefect q j = s.trunkDefect q j := rfl

/-- Clearing a defect notes in the trunk's record that it was there. -/
theorem trunkDef_clear_trunk (s : State) (k d : Nat) :
    (s.trunkDef k d false).trunk k = { s.trunk k with chg := (s.trunk k).chg || s.trunkDefect k d } :=
  State.setTrunk_trunk _ k _

theorem Within.trunkDefect {ps : List Part} {ks : List RegKind} {s t : State} (h : Within ps ks s t) {k : Nat}
    (hk : k < 4 ∧ .TRK_STATUS ∉ ks) (j : Nat) : t.trunkDefect k j = s.trunkDefect k j := by
  rw [State.trunkDefect, h.reg ⟨⟨hk.1, by decide⟩, hk.2, by decide⟩, State.trunkDefect]

theorem Settling.trunkDefect {s t : State} (h : Settling s t) {k : Nat} (hk : k < 4) (j : Nat) :
    t.trunkDefect k j = s.trunkDefect k j := ((Within.refl [] [] s).settling h).trunkDefect ⟨hk, by simp⟩ j

theorem Settling.trunk {s t : State} (h : Settling s t) (k : Nat) : t.trunk k = s.trunk k :=
  State.trunk_congr (h.1 .trunks (by simp)).1 k

/-! ### What declaring a defect leaves alone -/

theorem Only.setTrunk (s : State) (k : Nat) (x : Trunk) {b : List Part} (hb : .trunks ∈ b) (r : List Nat) :
    Only b r [] s (s.setTrunk k x) :=
  (Only.of_kept (t := s.setTrunk k x) (Kept.trunks s _) rfl rfl rfl r).mono (by simpa using hb) (List.Subset.refl r)

theorem trunkDef_only (s : State) (k d : Nat) (v : Bool) {b : List Part} (hb : .trunks ∈ b) :
    Only b [RegKind.TRK_STATUS.addr k 0] [] s (s.trunkDef k d v) := by
  have hset (w : Word) : Only b [RegKind.TRK_STATUS.addr k 0] [] s (s.setReg .TRK_STATUS w k) :=
    .setReg s .TRK_STATUS w k 0 b (.inl (by simp))
  cases v with
  | true => exact (hset _).trans (.setTrunk _ k _ hb _)
  | false => exact (hset _).trans (.setTrunk _ k _ hb _)

theorem sourceLost_only (s : State) (typ i : Nat) {b : List Part} (hb : .ref ∈ b) (r : List Nat) :
    Only b r [] s (s.sourceLost typ i) :=
  .foldl (fun v n => by
    split
    · exact (Only.setCand v n _).mono (by simpa using hb) (by simp)
    · exact .refl _ _ v) _ s

@[simp] theorem trunkDef_cands (s : State) (k d : Nat) (b : Bool) : (s.trunkDef k d b).cands = s.cands := by
  cases b <;> rfl

@[simp] theorem trunkDef_dpll (s : State) (k d : Nat) (b : Bool) : (s.trunkDef k d b).dpll = s.dpll := by
  cases b <;> rfl

@[simp] theorem State.setTrunk_cands (s : State) (k : Nat) (x : Trunk) : (s.setTrunk k x).cands = s.cands := rfl

@[simp] theorem State.setTrunk_dpll (s : State) (k : Nat) (x : Trunk) : (s.setTrunk k x).dpll = s.dpll := rfl

theorem sourceLost_dpll (s : State) (typ i : Nat) : (s.sourceLost typ i).dpll = s.dpll :=
  List.foldlRecOn candNums _ (motive := fun u : State => u.dpll = s.dpll) rfl fun u hu n _ => by
    split
    · exact hu
    · exact hu

/-! ### LOF (R250, R105) -/

/-- A trunk's record as LOF is declared. -/
def Trunk.unaligned (x : Trunk) : Trunk :=
  { x with aligned := false, fawBad := 0, fnPrev := none, fnBad := 0, fnGood := 0, bip := none, qlN := 0, pcN := 0
           trN := 0, trPart := [] }

section
variable (s : State) (k : Nat)

theorem trunkLof_eq : s.trunkLof k =
    (((s.sourceLost 1 k).setTrunk k (s.trunk k).unaligned).trunkDef k 1 true).trunkDef k 2 true := rfl

theorem trunkLof_framing : ((s.trunkLof k).trunk k).framing = (s.trunk k).unaligned.framing := by
  have hdefs (u : State) : KeepsFraming k u ((u.trunkDef k 1 true).trunkDef k 2 true) :=
    (KeepsFraming.refl k u).trunkDef.trunkDef
  rw [trunkLof_eq, (hdefs _).framing, State.setTrunk_trunk]

theorem trunkLof_only : Only [.trunks, .ref] [RegKind.TRK_STATUS.addr k 0] [] s (s.trunkLof k) := by
  rw [trunkLof_eq]
  exact (((sourceLost_only s 1 k (by simp) _).trans (.setTrunk _ k _ (by simp) _)).trans
    (trunkDef_only _ k 1 true (by simp))).trans (trunkDef_only _ k 2 true (by simp))

theorem trunkLof_cands : (s.trunkLof k).cands = (s.sourceLost 1 k).cands := by simp [trunkLof_eq]

theorem trunkLof_dpll : (s.trunkLof k).dpll = s.dpll := by simp [trunkLof_eq, sourceLost_dpll]

/-- LOF brings LOMF with it, and the other defects stay. -/
theorem trunkLof_trunkDefect {k : Nat} (hk : k < 4) {j : Nat} (hj : j < 6) :
    (s.trunkLof k).trunkDefect k j = if j = 2 ∨ j = 1 then true else s.trunkDefect k j := by
  rw [trunkLof_eq, trunkDef_trunkDefect _ _ _ ⟨by decide, hj⟩, trunkDef_trunkDefect _ _ _ ⟨by decide, hj⟩,
    State.setTrunk_trunkDefect, (sourceLost_within s 1 k).trunkDefect ⟨hk, by simp⟩, ite_or]

end

/-! ### An aligned frame (R240, R250, R255) -/

/-- The length that a run of bad FAW positions has after a frame. -/
def Trunk.fawRun (x : Trunk) (bs : List Bool) : Nat := if 2 ≤ fawDiff bs then x.fawBad + 1 else 0

/-- The frame enters the buffer, and the run of bad FAW positions goes on or ends. -/
def Trunk.entered (x : Trunk) (bs : List Bool) : Trunk :=
  { x with buf := (⟨(descramble bs).getD 4 0, descramble bs⟩ :: x.buf).take 20, fawBad := x.fawRun bs }

section
variable (v : State) (k : Nat) {bs : List Bool}

/-- Up to the third bad FAW position in a row alignment is kept and the frame enters the buffer. -/
theorem trunkFrame_enters (h : (v.trunk k).fawRun bs < 4) : (v.trunkFrame k bs).2 = true ∧
    ((v.trunkFrame k bs).1.trunk k).framing = ((v.trunk k).entered bs).framing := by
  unfold State.trunkFrame
  extract_lets x d s1 bad bytes fn sent errs s2 _ s3
  have hbad : ¬bad ≥ 4 := Nat.not_le.mpr h
  let u := s1.trunkCount k 0 errs
  have hcount : (u.trunk k).framing = (v.trunk k).framing := (KeepsFraming.refl k v).trunkCount.trunkCount.framing
  obtain ⟨hal, hfb, -, hbuf⟩ := parts_of_framing hcount
  have hs2 : s2.trunk k = { u.trunk k with buf := (⟨fn, bytes⟩ :: (u.trunk k).buf).take 20 } :=
    State.setTrunk_trunk _ k _
  have hs3 : (s3.trunk k).framing = ⟨(s2.trunk k).aligned, (s2.trunk k).fb, bad, (s2.trunk k).buf⟩ :=
    congrArg Trunk.framing (State.setTrunk_trunk _ k _)
  have hoverhead : KeepsFraming k s3
      ((((s3.trunkFn k fn).trunkOverhead k bytes).trunkTrace k (bytes.getD 8 0)).trunkTim k) :=
    (KeepsFraming.refl k s3).trunkFn.trunkOverhead.trunkTrace.trunkTim
  rw [if_neg hbad]
  refine ⟨rfl, ?_⟩
  rw [hoverhead.framing, hs3, hs2, hal, hfb, hbuf]
  rfl

/-- The fourth bad FAW position in a row declares LOF. -/
theorem trunkFrame_lof (h : 4 ≤ (v.trunk k).fawRun bs) :
    v.trunkFrame k bs = ((v.trunkCount k 2 (if fawDiff bs ≥ 1 then 1 else 0)).trunkLof k, false) := if_pos h

end

/-! ### The framer (R251) -/

section
variable {u : State} {k : Nat}

theorem trunkFramer_frame (ha : (u.trunk k).aligned = true) (hl : 16384 ≤ (u.trunk k).fb.length) (e : Int)
    (fuel : Nat) : u.trunkFramer k e (fuel + 1) =
      let r := ((u.setTrunk k { u.trunk k with fb := (u.trunk k).fb.drop 16384 }).sourceMarker 1 k e).trunkFrame k
        ((u.trunk k).fb.take 16384)
      (if r.2 then r.1 else r.1.setTrunk k { r.1.trunk k with
        fb := ((u.trunk k).fb.take 16384).drop 1 ++ (u.trunk k).fb.drop 16384 }).trunkFramer k e fuel :=
  (if_pos ha).trans (if_neg (by omega))

/-- An aligned framer waits for a whole frame. -/
theorem trunkFramer_waits (ha : (u.trunk k).aligned = true) (hl : (u.trunk k).fb.length < 16384) (e : Int)
    (fuel : Nat) : u.trunkFramer k e (fuel + 1) = u := (if_pos ha).trans (if_pos hl)

/-- Bits that do not reach to a second FAW find no alignment. -/
theorem fawSearch_short {fuel : Nat} {bs : List Bool} (h : bs.length < 16416) (n : Nat) :
    (fawSearch fuel bs n).2 = false := by
  induction fuel generalizing bs n with
  | zero => rfl
  | succ fuel ih =>
    have hf1 : (bs.drop 16384).length < 32 := by rw [List.length_drop]; omega
    have hrest : (bs.drop 1).length < 16416 := by rw [List.length_drop]; omega
    rw [fawSearch]
    split
    · rfl
    · split
      · exact congrArg Prod.snd (if_pos hf1)
      · exact ih hrest _

/-- A framer without alignment, and with few bits, goes on searching: it declares nothing and stores nothing. -/
theorem trunkFramer_searches (hk : k < 4) (ha : (u.trunk k).aligned = false) (hl : (u.trunk k).fb.length < 16416)
    {e : Int} {fuel : Nat} {t : State} (ht : Settling (u.trunkFramer k e (fuel + 1)) t) :
    (t.trunk k).aligned = false ∧ (t.trunk k).buf = (u.trunk k).buf ∧
      ∀ j, t.trunkDefect k j = u.trunkDefect k j := by
  let fb := (u.trunk k).fb.drop (fawSearch (u.trunk k).fb.length (u.trunk k).fb 0).1
  have hsearch : u.trunkFramer k e (fuel + 1) = u.setTrunk k { u.trunk k with fb := fb } := by
    rw [State.trunkFramer]
    simp only [ha, fawSearch_short hl, Bool.false_eq_true, if_false, fb]
  rw [hsearch] at ht
  have htrunk : t.trunk k = { u.trunk k with fb := fb } := (ht.trunk k).trans (State.setTrunk_trunk _ k _)
  rw [htrunk]
  exact ⟨ha, rfl, ht.trunkDefect hk⟩

end

/-! ### The bits of a frame on an aligned trunk -/

/-- A trunk's record once a frame is taken from its bits, with none left over. -/
def Trunk.taken (x : Trunk) (e : Int) : Trunk := { x with fb := [], phase := e }

/-- The bits are taken, and the markers are yet to come. -/
def State.trunkTaken (s : State) (k : Nat) (bs : List Bool) (e : Int) : State :=
  (s.setTrunk k { s.trunk k with fb := bs, phase := e }).setTrunk k ((s.trunk k).taken e)

/-- Each candidate routed from the trunk has its marker, and the framer has the frame before it. -/
def State.trunkMarked (s : State) (k : Nat) (bs : List Bool) (e : Int) : State :=
  (s.trunkTaken k bs e).sourceMarker 1 k e

theorem trunkMarked_trunk (s : State) (k : Nat) (bs : List Bool) (e : Int) :
    (s.trunkMarked k bs e).trunk k = (s.trunk k).taken e := by
  obtain ⟨htrunks, -⟩ := (sourceMarker_within (s.trunkTaken k bs e) 1 k e).same .trunks (by decide)
  rw [State.trunkMarked, State.trunk_congr htrunks, State.trunkTaken, State.setTrunk_trunk]

section
variable {s : State} {k : Nat} (ha : (s.trunk k).aligned = true) (hfb : (s.trunk k).fb = []) {bs : List Bool}
  (hbs : bs.length = 16384) (e : Int)
include ha hfb hbs

theorem trunkBits_frame : s.trunkBits k bs e =
    let r := (s.trunkMarked k bs e).trunkFrame k bs
    (if r.2 then r.1 else r.1.setTrunk k { r.1.trunk k with fb := bs.drop 1 ++ [] }).trunkFramer k e 4 := by
  let u := s.setTrunk k { s.trunk k with fb := bs, phase := e }
  have hu : u.trunk k = { s.trunk k with fb := bs, phase := e } := State.setTrunk_trunk _ k _
  have hbits : s.trunkBits k bs e = u.trunkFramer k e 5 := by
    rw [State.trunkBits, hfb, List.nil_append]
  rw [hbits, trunkFramer_frame (by rw [hu]; exact ha) (by rw [hu, hbs]), hu,
    List.drop_of_length_le (by omega : bs.length ≤ 16384), List.take_of_length_le (by omega : bs.length ≤ 16384)]
  rfl

/-- A frame that keeps alignment. -/
theorem trunkBits_enters (hrun : (s.trunk k).fawRun bs < 4) {t : State} (ht : Settling (s.trunkBits k bs e) t) :
    (t.trunk k).aligned = true ∧ (t.trunk k).fb = [] ∧
      (t.trunk k).buf = (⟨(descramble bs).getD 4 0, descramble bs⟩ :: (s.trunk k).buf).take 20 ∧
      (t.trunk k).fawBad = (s.trunk k).fawRun bs := by
  have hv := trunkMarked_trunk s k bs e
  obtain ⟨hkept, hframing⟩ := trunkFrame_enters (s.trunkMarked k bs e) k (bs := bs) (by rw [hv]; exact hrun)
  rw [hv] at hframing
  obtain ⟨hal, hnone, hbad, hbuf⟩ := parts_of_framing hframing
  have hrest : (((s.trunkMarked k bs e).trunkFrame k bs).1.trunk k).fb = [] := hnone
  rw [trunkBits_frame ha hfb hbs e] at ht
  simp only [hkept, if_true] at ht
  rw [trunkFramer_waits (hal.trans ha) (by rw [hrest]; decide)] at ht
  rw [ht.trunk]
  exact ⟨hal.trans ha, hrest, hbuf, hbad⟩

/-- What is left of the fourth bad FAW position in a row. -/
theorem trunkBits_lof (hk : k < 4) (hrun : 4 ≤ (s.trunk k).fawRun bs) {t : State}
    (ht : Settling (s.trunkBits k bs e) t) : (t.trunk k).aligned = false ∧ t.trunkDefect k 1 = true ∧
      t.trunkDefect k 2 = true ∧ (t.trunk k).buf = (s.trunk k).buf := by
  have hv := trunkMarked_trunk s k bs e
  let w := (s.trunkMarked k bs e).trunkCount k 2 (if fawDiff bs ≥ 1 then 1 else 0)
  let y := (w.trunkLof k).setTrunk k { (w.trunkLof k).trunk k with fb := bs.drop 1 ++ [] }
  have hy : y.trunk k = { (w.trunkLof k).trunk k with fb := bs.drop 1 ++ [] } := State.setTrunk_trunk _ k _
  have hw : (w.trunk k).framing = ((s.trunk k).taken e).framing := by
    rw [(KeepsFraming.refl k (s.trunkMarked k bs e)).trunkCount.framing, hv]
  obtain ⟨-, -, -, hwbuf⟩ := parts_of_framing hw
  obtain ⟨hal, -, -, hbuf⟩ := parts_of_framing (trunkLof_framing w k)
  have hdefect {j : Nat} (hj : j = 2 ∨ j = 1) : y.trunkDefect k j = true := by
    rw [State.setTrunk_trunkDefect, trunkLof_trunkDefect w hk (by omega), if_pos hj]
  rw [trunkBits_frame ha hfb hbs e, trunkFrame_lof _ k (by rw [hv]; exact hrun)] at ht
  obtain ⟨htal, htbuf, htdefect⟩ :=
    trunkFramer_searches (u := y) hk (by rw [hy]; exact hal) (by rw [hy]; simp [hbs]) ht
  refine ⟨htal, ?_, ?_, ?_⟩
  · rw [htdefect, hdefect (.inr rfl)]
  · rw [htdefect, hdefect (.inl rfl)]
  · rw [htbuf, hy]
    exact hbuf.trans hwbuf

end

/-! ### The commands -/

section
variable {k : Fin 4} {s : State}

theorem ends_trunkFrame_atTrunk (bits : BitVec 16384) (phase : BitVec 17) :
    Ends (.trunkFrameReceived k bits phase) s (AtTrunk k.val s) :=
  ends_run (f := fun s => s.trunkReceive k.val (if s.bankIn 4 then bits else 0) phase.toInt) rfl fun _ ht =>
    (AtTrunk.refl _ s).trunkReceive.settling ht

variable (hon : (s.trunk k.val).on = true) (hu : s.fabUp = true)
include hon hu

/-- Without a loop the bits come from the line (R272), and with the bank's supply they are those received (R817). -/
theorem ends_trunkFrame_read (hbank : s.bankIn 4 = true) (hloop : s.fa F.TRK_CTL_LOOP k.val = 0)
    {bits : BitVec 16384} {phase : BitVec 17} {P : State → Prop}
    (h : ∀ t, Settling (s.trunkBits k.val (listOfBits bits) phase.toInt) t → P t) :
    Ends (.trunkFrameReceived k bits phase) s P :=
  ends_run (f := fun s => s.trunkReceive k.val (if s.bankIn 4 then bits else 0) phase.toInt) rfl fun t ht => h t (by
    rw [if_pos hbank, State.trunkReceive, if_pos (by simp [hon, hu]), hloop] at ht
    exact ht)

/-- A quiet or misplaced clock: LOS, and LOF at once. -/
theorem ends_trunkLosDeclare {quiet : Nat} {ppm : BitVec 16} (h0 : s.trunkDefect k.val 0 = false)
    (h : 256 ≤ quiet ∨ 500 < ppm.toInt.natAbs) {P : State → Prop}
    (hP : ∀ t, Settling ((s.trunkDef k.val 0 true).trunkLof k.val) t → P t) :
    Ends (.trunkLosDeclare k quiet ppm) s P :=
  ends_run (f := fun s => s.trunkLosDeclare k.val quiet ppm.toInt) rfl fun t ht => hP t (by
    rwa [State.trunkLosDeclare, if_pos (by simpa [hon, hu, h0] using h)] at ht)

theorem ends_trunkLosClear {quiet : Nat} {ppm : BitVec 16} (hbank : s.bankIn 4 = true)
    (h0 : s.trunkDefect k.val 0 = true) (hppm : ppm.toInt.natAbs ≤ 500) (hquiet : quiet < 256) {P : State → Prop}
    (hP : ∀ t, Settling ((s.trunkDef k.val 0 false).setTrunk k.val
      { (s.trunkDef k.val 0 false).trunk k.val with recentre := true }) t → P t) :
    Ends (.trunkLosClear k ppm quiet) s P :=
  ends_run (f := fun s => if s.bankIn 4 then s.trunkLosClear k.val ppm.toInt quiet else s) rfl fun t ht => hP t (by
    rwa [if_pos hbank, State.trunkLosClear, if_pos (by simp [hon, hu, h0, hppm, hquiet])] at ht)

end

/-- Settles O24: the framer takes the frame at hand, and either keeps alignment or ends in `trunkLof`, as LOS does. -/
theorem trunkFrameEntersBuffer : Obligations.TrunkFrameEntersBuffer := by
  intro k s hon hu regs
  refine ⟨fun bits phase => ?_, fun bits phase hbank hloop hal hfb => ⟨fun hrun => ?_, fun hdiff hrun => ?_⟩,
    fun quiet ppm h0 h => ?_, fun ppm quiet hbank h0 hppm hquiet => ?_⟩
  · obtain ⟨t, ht, h⟩ := ends_trunkFrame_atTrunk (k := k) (s := s) bits phase
    exact ⟨t, ht, h.others, h.pairs, h.kept, h.regs⟩
  · have hfew : (s.trunk k.val).fawRun (listOfBits bits) < 4 := by
      unfold Trunk.fawRun
      split <;> omega
    refine ends_trunkFrame_read hon hu hbank hloop fun t ht => ?_
    exact trunkBits_enters hal hfb (listOfBits_length bits) _ hfew ht
  · have hmany : 4 ≤ (s.trunk k.val).fawRun (listOfBits bits) := by
      rw [Trunk.fawRun, if_pos hdiff, hrun]
    exact ends_trunkFrame_read hon hu hbank hloop fun t ht =>
      trunkBits_lof hal hfb (listOfBits_length bits) _ k.isLt hmany ht
  · refine ends_trunkLosDeclare hon hu h0 h fun t ht => ?_
    let u := s.trunkDef k.val 0 true
    have hdpll : u.dpll = s.dpll := trunkDef_dpll s k.val 0 true
    have hat : AtTrunk k.val s t := (AtTrunk.refl _ s).trunkDef.trunkLof.settling ht
    obtain ⟨hal, -, -, -⟩ := parts_of_framing (trunkLof_framing u k.val)
    have hdefect {j : Nat} (hj : j < 6) :
        t.trunkDefect k.val j = if j = 2 ∨ j = 1 then true else u.trunkDefect k.val j := by
      rw [ht.trunkDefect k.isLt, trunkLof_trunkDefect u k.isLt hj]
    refine ⟨?_, hdefect (by decide), hdefect (by decide), by rw [ht.trunk, hal]; rfl, hat.others, hat.pairs,
      ht.ref.2.trans ((trunkLof_dpll u k.val).trans hdpll), fun n hn => ?_, ?_⟩
    · exact (hdefect (by decide)).trans (trunkDef_trunkDefect s k.val true (by decide))
    · rw [ht.cand, State.cand_congr (trunkLof_cands u k.val), sourceLost_cand u hn, candFrom_congr hdpll,
        State.cand_congr (trunkDef_cands s k.val 0 true)]
    · exact ((trunkDef_only s k.val 0 true (by simp)).trans (trunkLof_only u k.val)).settled ht
  · refine ends_trunkLosClear hon hu hbank h0 hppm hquiet fun t ht => ?_
    have hat : AtTrunk k.val s t := (AtTrunk.refl _ s).trunkDef.setTrunk.settling ht
    refine ⟨?_, ?_, hat.others, hat.pairs, ?_⟩
    · rw [ht.trunkDefect k.isLt]
      exact trunkDef_trunkDefect s k.val false (by decide)
    · rw [ht.trunk, State.setTrunk_trunk, trunkDef_clear_trunk, h0, Bool.or_true]
    · exact ((trunkDef_only s k.val 0 false (by simp)).trans (.setTrunk _ k.val _ (by simp) _)).settled ht

end Sys2Proof.Machine
end

section
/-!
PROOFS. One access of a block of the device to pond memory and to a queue's ring: what it changes, and what it answers
where no word that it touches is uncorrectable (R474 to R477, R508).
-/
namespace Sys2Proof.Machine

/-! ### Changes that leave the rest alone -/

theorem Only.ite {c : Prop} [Decidable c] {b : List Part} {r : List Nat} {es : List Raised} {s t u : State}
    (h : Only b r es s t) (g : Only b r es s u) : Only b r es s (if c then t else u) := by split <;> assumption

/-- A saturating count without a flag. -/
theorem Only.bump (s : State) (f : FieldRef) (n i j : Nat) (b : List Part) {r : List Nat} (h : f.k.addr i j ∈ r) :
    Only b r [] s (s.bump f n none i j) := .ite (.setF s f _ i j b (.inl h)) (.setF s f _ i j b (.inl h))

theorem Kept.mem (s : State) (x : Tab Byte) : Kept [.mem] s { s with mem := x } :=
  fun p hp => by cases p <;> simp_all [Part.same]

theorem Kept.eccMarks (s : State) (e : Tab WordErr) (ce ue : Bool) :
    Kept [.ecc] s { s with ecc := e, ceGrown := ce, ueNew := ue } :=
  fun p hp => by cases p <;> simp_all [Part.same]

theorem Only.setEcc (s : State) (w : Nat) (e : WordErr) (r : List Nat) : Only [.ecc] r [] s (s.setEcc w e) :=
  .of_kept (t := s.setEcc w e) (Kept.eccMarks s _ _ _) rfl rfl rfl r

/-- The marks of errors found. -/
theorem Only.eccFound (s : State) (ce ue : Bool) (r : List Nat) :
    Only [.ecc] r [] s { s with ceGrown := ce, ueNew := ue } :=
  .of_kept (Kept.eccMarks s s.ecc ce ue) rfl rfl rfl r

theorem Only.setBytes (s : State) (a : Nat) (bs : List Byte) (r : List Nat) : Only [.mem] r [] s (s.setBytes a bs) := by
  obtain ⟨m, hm⟩ := setBytes_eq s a bs
  rw [hm]
  exact .of_kept (Kept.mem s m) rfl rfl rfl r

theorem Only.setQueue (s : State) (n : Nat) (e : Queue) (r : List Nat) : Only [.queues] r [] s (s.setQueue n e) :=
  .of_kept (t := s.setQueue n e) (Kept.queues s _) rfl rfl rfl r

/-! ### Words with their check bits -/

/-- A read of words changes their check bits and the registers that count and record errors. -/
theorem eccRead_only (s : State) (m p : Nat) (ws : List Nat) : Only [.ecc] eccRegs [] s (s.eccRead m p ws).1 := by
  have hset {f : FieldRef} (u : State) (n : Nat) (hf : f.k.addr 0 0 ∈ eccRegs) :
      Only [.ecc] eccRegs [] u (u.setF f n) := .setF u f n 0 0 _ (.inl hf)
  have hcount {f : FieldRef} (u : State) (n : Nat) (hf : f.k.addr 0 0 ∈ eccRegs) :
      Only [.ecc] eccRegs [] u (u.bump f n none) := .bump u f n 0 0 _ hf
  unfold State.eccRead
  extract_lets ce _ s1 s2
  have h1 : Only [.ecc] eccRegs [] s s1 := .ite (.refl _ _ s) ((hcount s _ (by decide)).trans (.eccFound _ _ _ _))
  have h2 : Only [.ecc] eccRegs [] s s2 := .ite (h1.trans (hset _ _ (by decide))) h1
  split
  case h_1 => exact h2.trans (.foldl (fun u w => .setEcc u w _ _) _ _)
  case h_2 =>
    have h3 : Only [.ecc] eccRegs [] s (if decide (s2.f F.POND_ECC_UE_COUNT_COUNT = 0xFFFF) then
        s2.setF F.POND_ECC_UE_INFO_UE_SAT 1 else s2.bump F.POND_ECC_UE_COUNT_COUNT 1 none) :=
      h2.trans (.ite (hset _ _ (by decide)) (hcount _ _ (by decide)))
    have h4 {v : Word} := h3.trans (.setReg _ .POND_ECC_UE_ADDR v 0 0 _ (.inl (by decide)))
    exact (((h4.trans (hset _ _ (by decide))).trans (hset _ _ (by decide))).trans (hset _ _ (by decide))).trans
      (.eccFound _ _ _ _)

/-- None of the words is uncorrectable: the read succeeds. -/
theorem eccRead_good {s : State} {ws : List Nat} (h : ∀ w ∈ ws, (s.eccOf w).ue = false) (m p : Nat) :
    ∃ u, s.eccRead m p ws = (u, true) ∧ Only [.ecc] eccRegs [] s u := by
  have honly := eccRead_only s m p ws
  obtain ⟨u, -, ⟨-, he⟩ | ⟨⟨w, hw, hbad⟩, -⟩⟩ := eccRead_cases s m p ws
  · rw [he] at honly
    exact ⟨_, he, honly⟩
  · rw [h w hw] at hbad; cases hbad

/-! ### Bytes of pond memory -/

theorem State.byte_congr {s t : State} (h : t.mem = s.mem) (b : Nat) : t.byte b = s.byte b := by
  unfold State.byte; rw [h]

theorem pondRead_good {s : State} {a len : Nat} (h : NoUe a len s) (m p : Nat) :
    ∃ u, s.pondRead m p a len = (u, some (s.bytes a len)) ∧ Only [.ecc] eccRegs [] s u := by
  obtain ⟨u, hu, honly⟩ := eccRead_good h m p
  refine ⟨u, ?_, honly⟩
  have hbytes : u.bytes a len = s.bytes a len :=
    List.map_congr_left fun i _ => State.byte_congr (honly.kept .mem (by simp)) (a + i)
  unfold State.pondRead
  rw [hu, ← hbytes]

theorem pondWrite_good {s : State} {a : Nat} {bs : List Byte} (h : NoUe a bs.length s) (m p : Nat) :
    ∃ u, s.pondWrite m p a bs = (u, true) ∧ Placed a bs s u ∧ Only [.mem, .ecc] eccRegs [] s u := by
  obtain ⟨u, hu, hread⟩ := eccRead_good
    (ws := (wordsOf a bs.length).filter fun w => !decide (a ≤ w * 8 ∧ w * 8 + 8 ≤ a + bs.length))
    (fun w hw => h w (List.mem_of_mem_filter hw)) m p
  have hclear (l : List Nat) : Only [.ecc] eccRegs [] s (l.foldl (fun s w => s.setEcc w .good) u) :=
    hread.trans (.foldl (fun v w => .setEcc v w _ _) _ _)
  refine ⟨_, by unfold State.pondWrite; dsimp only; rw [hu], fun b => ?_,
    ((hclear _).mono (by simp) (List.Subset.refl _)).trans
      ((Only.setBytes _ a bs _).mono (by simp) (List.Subset.refl _))⟩
  rw [byte_setBytes, State.byte_congr ((hclear _).kept .mem (by simp)) b]

/-! ### Entries of a queue (R508, R514, R614) -/

theorem State.queue_congr {s t : State} (h : t.queues = s.queues) (k : Nat) : t.queue k = s.queue k := by
  unfold State.queue; rw [h]

theorem Settling.queue {s t : State} (h : Settling s t) (k : Nat) : t.queue k = s.queue k :=
  State.queue_congr (h.1 .queues (by simp)) k

/-- The queue has no room for a producer. -/
theorem qNoRoom_iff (s : State) (n : Nat) :
    s.qNoRoom n = true ↔ s.qLive n (s.queue n) = false ∨ qFill (s.queue n) = qDepth (s.queue n) := by
  simp [State.qNoRoom, qFull]

/-- The queue has no entry for a core or a block. -/
theorem qNothing_eq_false_iff (s : State) (n : Nat) : s.qNothing n = false ↔
    s.qLive n (s.queue n) = true ∧ qFill (s.queue n) ≠ 0 ∧ qHeld (s.queue n) = 0 := by
  simp [State.qNothing, and_assoc]

/-- An entry's bytes stand at TAIL and are published. -/
theorem qPut_good {s : State} {n : Nat} {bs : List Byte} (m : Nat)
    (h : NoUe (qAddr (s.queue n) (s.queue n).tail) bs.length s) :
    ∃ u, s.qPut m n bs = (u, true) ∧ Placed (qAddr (s.queue n) (s.queue n).tail) bs s u ∧
      u.queue n = { s.queue n with tail := (s.queue n).tail + 1 } ∧ (∀ k, k ≠ n → u.queue k = s.queue k) ∧
      Only [.queues, .mem, .ecc] eccRegs [] s u := by
  obtain ⟨v, hv, hplaced, honly⟩ := pondWrite_good h m 2
  refine ⟨v.setQueue n { s.queue n with tail := (s.queue n).tail + 1 }, ?_, hplaced, State.setQueue_queue _ n _,
    fun k hk => ?_, (honly.mono (by simp) (List.Subset.refl _)).trans
      ((Only.setQueue v n _ _).mono (by simp) (List.Subset.refl _))⟩
  · unfold State.qPut
    dsimp only
    rw [hv]
  · rw [State.setQueue_queue_ne _ _ hk, State.queue_congr (honly.kept .queues (by simp))]

/-- One entry is released from HEAD on, and the stream positions follow. -/
theorem qAdvance_eq (s : State) (n : Nat) : s.qAdvance n = s.setQueue n { s.queue n with
    head := (s.queue n).head + 1
    acked := (s.queue n).acked + BitVec.ofNat 32 (qEsize (s.queue n))
    sent := (s.queue n).sent + BitVec.ofNat 32 (qEsize (s.queue n)) } := by
  unfold State.qAdvance State.qTake
  dsimp only
  rw [Nat.one_mul]
  rfl

end Sys2Proof.Machine
end

section
/-!
PROOFS. Changes of one audio port, blocks that meet a full queue, and what underruns and overruns record.
-/
namespace Sys2Proof.Machine

/-! ### One audio port -/

@[simp] theorem State.setAud_aud (s : State) (p : Nat) (a : Audio) : (s.setAud p a).aud p = a := tabGet_put_same _ _ _ _

theorem State.setAud_aud_ne (s : State) {p q : Nat} (a : Audio) (h : q ≠ p) : (s.setAud p a).aud q = s.aud q := by
  simp only [State.setAud, State.aud]; apply tabGet_put_ne; exact h

theorem State.aud_congr {s t : State} (h : t.audio = s.audio) (p : Nat) : t.aud p = s.aud p := by
  unfold State.aud; rw [h]

theorem Settling.aud {s t : State} (h : Settling s t) (p : Nat) : t.aud p = s.aud p :=
  State.aud_congr (h.1 .audio (by simp)) p

/-- A change of audio port `p` alone, outside its registers. -/
structure AudOnly (p : Nat) (s t : State) : Prop where
  parts : { s with audio := t.audio } = t
  others : ∀ q, q ≠ p → t.aud q = s.aud q

namespace AudOnly

theorem refl (p : Nat) (s : State) : AudOnly p s s := ⟨rfl, fun _ _ => rfl⟩

theorem setAud {p : Nat} {s t : State} (h : AudOnly p s t) (a : Audio) : AudOnly p s (t.setAud p a) :=
  ⟨by rw [← h.parts]; rfl, fun q hq => (t.setAud_aud_ne a hq).trans (h.others q hq)⟩

section
variable {p : Nat} {s t : State} (h : AudOnly p s t)
include h

theorem regs : t.regs = s.regs := by rw [← h.parts]

theorem raised : t.raised = s.raised := by rw [← h.parts]

theorem held : t.held = s.held := by rw [← h.parts]

theorem frame : t.frame = s.frame := by rw [← h.parts]

theorem f (g : FieldRef) (i j : Nat) : t.f g i j = s.f g i j := by rw [← h.parts]; rfl

theorem fa (g : FieldRef) (i j : Nat) : t.fa g i j = s.fa g i j := by rw [← h.parts]; rfl

theorem qNoRoom (n : Nat) : t.qNoRoom n = s.qNoRoom n := by rw [← h.parts]; rfl

theorem only (r : List Nat) : Only [.audio] r [] s t :=
  .of_kept (by rw [← h.parts]; exact Kept.audio s _) h.regs h.raised h.held r

/-- The positions of a sample frame follow the port's channels. -/
theorem audPos (hc : (t.aud p).count = (s.aud p).count) : t.audPos p = s.audPos p := by
  have hchans : (t.audLayout p).chans = (s.audLayout p).chans := by
    unfold State.audLayout
    dsimp only
    rw [hc, h.fa]
  have hdma : t.audDma p = s.audDma p := by
    unfold State.audDma State.audDest
    simp only [hchans, h.fa]
  unfold State.audPos State.ba
  rw [hdma, h.fa]

end

end AudOnly

/-- The rotation moves only under FORMAT 2 with more than two positions (R307). -/
theorem audTurn_still {s : State} {p : Nat} (h : ¬(s.fa F.AUD_CFG_FORMAT p = 2 ∧ 2 < s.audPos p)) (dir old : Nat) :
    s.audTurn p dir old = old := if_neg h

/-! ### A completed receive block (R294, R305) -/

/-- The block that waits is taken out of the port's record. -/
def State.audTaken (s : State) (p : Nat) : State := s.setAud p { s.aud p with rxDone := none }

theorem audTaken_only (s : State) (p : Nat) : AudOnly p s (s.audTaken p) := (AudOnly.refl p s).setAud _

theorem audTaken_aud (s : State) (p : Nat) : (s.audTaken p).aud p = { s.aud p with rxDone := none } :=
  s.setAud_aud p _

theorem audRxBlock_none {s : State} {p : Nat} (h : (s.aud p).rxDone = none) : s.audRxBlock p = s := by
  unfold State.audRxBlock
  dsimp only
  rw [h]

/-- A block that waits is stored, or begins an overrun. -/
theorem audRxBlock_some {s u : State} {p : Nat} {b : AudBlock} {ok : Bool} (h : (s.aud p).rxDone = some b)
    (hu : (s.audTaken p).audStore p b = (u, ok)) :
    s.audRxBlock p = if ok then u else u.setAud p { u.aud p with rxDry := true } := by
  unfold State.audTaken at hu
  unfold State.audRxBlock
  dsimp only
  rw [h]
  dsimp only
  rw [hu]
  cases ok <;> rfl

/-- Where RXQ has no room a full block is lost, and begins an overrun. -/
theorem audRxBlock_noRoom {s : State} {p : Nat} (h : s.qNoRoom (s.fa F.AUD_QUEUE_RXQ p) = true) :
    AudOnly p s (s.audRxBlock p) ∧ (s.audRxBlock p).aud p =
      { s.aud p with rxDone := none, rxDry := (s.aud p).rxDry || (s.aud p).rxDone.isSome } := by
  cases hdone : (s.aud p).rxDone with
  | none =>
    rw [audRxBlock_none hdone]
    refine ⟨.refl p s, ?_⟩
    generalize s.aud p = a at hdone
    cases a
    simp_all
  | some b =>
    have hlost : AudOnly p s (s.audTaken p) := audTaken_only s p
    have hstore : (s.audTaken p).audStore p b = (s.audTaken p, false) := by
      unfold State.audStore
      dsimp only
      rw [hlost.fa, hlost.qNoRoom, if_pos h]
    rw [audRxBlock_some hdone hstore]
    exact ⟨hlost.setAud _, by simp [audTaken_aud]⟩

/-- Where RXQ has room and no uncorrectable word is in the way, a full block is put there (R294). -/
theorem audRxBlock_room {s : State} {p : Nat} {b : AudBlock} (h : (s.aud p).rxDone = some b) {q : Nat}
    (hq : s.fa F.AUD_QUEUE_RXQ p = q) (hroom : s.qNoRoom q = false)
    (hue : NoUe (qAddr (s.queue q) (s.queue q).tail) (s.audEntry p b).length s) :
    Placed (qAddr (s.queue q) (s.queue q).tail) (s.audEntry p b) s (s.audRxBlock p) ∧
      (s.audRxBlock p).queue q = { s.queue q with tail := (s.queue q).tail + 1 } ∧
      (∀ k, k ≠ q → (s.audRxBlock p).queue k = s.queue k) ∧
      (s.audRxBlock p).audio = (s.audTaken p).audio ∧
      Only [.audio, .queues, .mem, .ecc] eccRegs [] s (s.audRxBlock p) := by
  have htaken : AudOnly p s (s.audTaken p) := audTaken_only s p
  have hstore : (s.audTaken p).audStore p b = (s.audTaken p).qPut 0x31 q (s.audEntry p b) := by
    unfold State.audStore
    dsimp only
    rw [htaken.fa, htaken.qNoRoom, hq, hroom]
    rfl
  obtain ⟨u, hu, hplaced, hqueue, hqueues, honly⟩ := qPut_good (s := s.audTaken p) 0x31 hue
  rw [audRxBlock_some h (hstore.trans hu), if_pos rfl]
  exact ⟨hplaced, hqueue, hqueues, honly.kept .audio (by simp),
    ((htaken.only _).mono (by simp) (List.Subset.refl _)).trans (honly.mono (by simp) (List.Subset.refl _))⟩

/-! ### Underruns and overruns (R304 to R306) -/

/-- What an underrun or an overrun records: its count, its bit of AUD_STATUS and the bit of a full count, its event. -/
structure AudMiss where
  count : FieldRef
  bit : FieldRef
  sat : FieldRef
  event : Nat

def AudMiss.under : AudMiss := ⟨F.AUD_UNDER_CNT_COUNT, F.AUD_STATUS_UNDER, F.AUD_STATUS_UNDER_SAT, 1⟩
def AudMiss.over : AudMiss := ⟨F.AUD_OVER_CNT_COUNT, F.AUD_STATUS_OVER, F.AUD_STATUS_OVER_SAT, 2⟩

/-- The count is a register's of its own, and the two bits are apart in AUD_STATUS. -/
structure AudMiss.Wf (x : AudMiss) : Prop where
  count : x.count.k ∈ [.AUD_UNDER_CNT, .AUD_OVER_CNT] ∧ x.count.lo + x.count.w ≤ 32
  status : x.bit.k = .AUD_STATUS ∧ x.sat.k = .AUD_STATUS
  bit : x.bit.lo < 32 ∧ x.bit.w = 1
  apart : x.sat.Apart x.bit

theorem AudMiss.wf_under : AudMiss.under.Wf := ⟨by decide, by decide, by decide, by decide⟩
theorem AudMiss.wf_over : AudMiss.over.Wf := ⟨by decide, by decide, by decide, by decide⟩

/-- The miss is counted and its bit set. -/
def State.audCounted (s : State) (p : Nat) (x : AudMiss) : State := (s.bump x.count 1 none p).setF x.bit 1 p

/-- So is the bit of a full count. -/
def State.audMarked (s : State) (p : Nat) (x : AudMiss) : State :=
  if s.f x.count p + 1 ≥ 0x10000 then (s.audCounted p x).setF x.sat 1 p else s.audCounted p x

/-- The miss is recorded and raised. -/
def State.audMiss (s : State) (p : Nat) (x : AudMiss) : State := (s.audMarked p x).audEvt p x.event

/-- A saturating count without a flag is a write of its field. -/
theorem bump_eq_setF (s : State) (f : FieldRef) (n i j : Nat) :
    ∃ k, s.bump f n none i j = s.setF f k i j := by
  unfold State.bump
  dsimp only
  split <;> exact ⟨_, rfl⟩

/-- Recording a miss writes registers and nothing else. -/
theorem audMarked_regs (s : State) (p : Nat) (x : AudMiss) : ∃ r, s.audMarked p x = { s with regs := r } := by
  obtain ⟨k, hk⟩ := bump_eq_setF s x.count 1 p 0
  unfold State.audMarked State.audCounted
  rw [hk]
  split <;> exact ⟨_, rfl⟩

/-- The registers in which misses are recorded. -/
def missKinds : List RegKind := [.AUD_UNDER_CNT, .AUD_OVER_CNT, .AUD_STATUS]

theorem missKinds_has {k : RegKind} (hk : k ∈ missKinds) {p : Nat} (hp : p < 8) :
    k.has p 0 ∧ ¬settles (k.addr p 0) := by
  have hbound : ∀ k ∈ missKinds, k.info.n1 = 8 ∧ 0 < k.info.n2 ∧ k ≠ .PWR_STATUS ∧ k ≠ .QSUM := by decide
  obtain ⟨h1, h2, hne, hne'⟩ := hbound k hk
  exact ⟨⟨h1 ▸ hp, h2⟩, not_settles ⟨h1 ▸ hp, h2⟩ hne hne'⟩

theorem AudMiss.Wf.count_mem {x : AudMiss} (hx : x.Wf) : x.count.k ∈ missKinds := by
  have hsub : ∀ k ∈ [RegKind.AUD_UNDER_CNT, .AUD_OVER_CNT], k ∈ missKinds := by decide
  exact hsub _ hx.count.1

section
variable {x : AudMiss} (hx : x.Wf) {p : Nat} (hp : p < 8) (s : State)
include hx hp

theorem AudMiss.Wf.count_has : x.count.k.has p 0 ∧ ¬settles (x.count.k.addr p 0) :=
  missKinds_has hx.count_mem hp

theorem AudMiss.Wf.bit_has : x.bit.k.has p 0 ∧ ¬settles (x.bit.k.addr p 0) := by
  rw [hx.status.1]
  exact missKinds_has (by decide) hp

theorem audMarked_bit : (s.audMarked p x).f x.bit p = 1 := by
  obtain ⟨hi, -⟩ := hx.bit_has hp
  have hset : (s.audCounted p x).f x.bit p = 1 := by
    unfold State.audCounted
    rw [State.setF_f _ _ _ _ _ (by have := hx.bit; omega), hx.bit.2]
    rfl
  unfold State.audMarked
  split
  · rw [State.setF_f_apart _ hx.apart _ (by rw [hx.status.2, ← hx.status.1]; exact hi) hi, hset]
  · exact hset

theorem audMarked_count :
    (s.audMarked p x).f x.count p = min (s.f x.count p + 1) (2 ^ x.count.w - 1) := by
  obtain ⟨hi, -⟩ := hx.count_has hp
  obtain ⟨hib, -⟩ := hx.bit_has hp
  have hne : .AUD_STATUS ≠ x.count.k := fun h => by have := hx.count.1; rw [← h] at this; revert this; decide
  have hcounted : (s.audCounted p x).f x.count p = min (s.f x.count p + 1) (2 ^ x.count.w - 1) := by
    unfold State.audCounted
    rw [State.setF_f_apart _ (.inl (hx.status.1 ▸ hne)) _ hib hi, bump_f _ _ _ _ _ hx.count.2]
  unfold State.audMarked
  split
  · rw [State.setF_f_apart _ (.inl (hx.status.2 ▸ hne)) _ (by rw [hx.status.2, ← hx.status.1]; exact hib) hi, hcounted]
  · exact hcounted

omit hp in
theorem audMarked_only (b : List Part) :
    Only b [x.count.k.addr p 0, RegKind.AUD_STATUS.addr p 0] [] s (s.audMarked p x) := by
  have hset (f : FieldRef) (hf : f.k = .AUD_STATUS) (u : State) :
      Only b [x.count.k.addr p 0, RegKind.AUD_STATUS.addr p 0] [] u (u.setF f 1 p) :=
    .setF u f 1 p 0 b (.inl (by rw [hf]; simp))
  have hcounted := (Only.bump s x.count 1 p 0 b (List.mem_cons_self ..)).trans (hset x.bit hx.status.1 _)
  exact .ite (hcounted.trans (hset x.sat hx.status.2 _)) hcounted

end

theorem audUnderrun_eq {s : State} {p : Nat} (hon : (s.aud p).on = true) (hpos : s.audPos p ≠ 0)
    (htx : (s.aud p).tx = []) (hnow : (s.aud p).underNow = false) (hquiet : (s.aud p).quiet = false)
    (hdry : (s.aud p).txDry = true ∨ s.qNothing (s.fa F.AUD_QUEUE_TXQ p) = true) :
    s.audUnderrun p = (s.setAud p { s.aud p with
      underNow := true, txRot := s.audTurn p 0 (s.aud p).txRot }).audMiss p .under := by
  unfold State.audUnderrun
  exact if_pos (by simpa [hon, hpos, htx, hnow, hquiet] using hdry)

/-- The state in which an overrun is looked for: a full block has met a full queue. -/
def State.audMet (s : State) (p : Nat) : State :=
  if (s.aud p).on && s.qNoRoom (s.fa F.AUD_QUEUE_RXQ p) then s.audRxBlock p else s

/-- A port's record then. -/
def Audio.met (a : Audio) (full : Bool) : Audio :=
  { a with rxDry := true, rxDone := if full then none else a.rxDone }

theorem audMet_effect {s : State} {p : Nat} {full : Bool} (hfull : s.qNoRoom (s.fa F.AUD_QUEUE_RXQ p) = full)
    (hon : (s.aud p).on = true) (hdry : (s.aud p).rxDry = true ∨ ((s.aud p).rxDone ≠ none ∧ full = true)) :
    AudOnly p s (s.audMet p) ∧ (s.audMet p).aud p = (s.aud p).met full := by
  have hmet : s.audMet p = if full then s.audRxBlock p else s := by
    unfold State.audMet
    rw [hon, hfull, Bool.true_and]
  rw [hmet]
  cases full with
  | true =>
    obtain ⟨honly, haud⟩ := audRxBlock_noRoom hfull
    have hbegun : ((s.aud p).rxDry || (s.aud p).rxDone.isSome) = true := by
      simpa [Option.isSome_iff_ne_none] using hdry
    rw [hbegun] at haud
    exact ⟨honly, haud⟩
  | false =>
    have hbegun : (s.aud p).rxDry = true := by simpa using hdry
    refine ⟨.refl p s, ?_⟩
    show s.aud p = { s.aud p with rxDry := true }
    rw [← hbegun]

theorem audOverrun_eq {s : State} {p : Nat} {a : Audio} (ha : (s.audMet p).aud p = a)
    (h : a.on = true ∧ a.rxDry = true ∧ a.overNow = false ∧ a.quiet = false) :
    s.audOverrun p = ((s.audMet p).setAud p { a with
      overNow := true, rxRot := (s.audMet p).audTurn p 1 a.rxRot }).audMiss p .over := by
  subst ha
  obtain ⟨hon, hdry, hnow, hquiet⟩ := h
  unfold State.audOverrun
  exact if_pos (c := ((s.audMet p).aud p).on && ((s.audMet p).aud p).rxDry && !((s.audMet p).aud p).overNow &&
    !((s.audMet p).aud p).quiet) (by rw [hon, hdry, hnow, hquiet]; rfl)

/-- The number of event `i` of port `p` (R317). -/
theorem audEvt_number (p i : Nat) : 576 + 8 * p + i = 576 + i + 8 * p := Nat.add_right_comm 576 (8 * p) i

/-- What a miss of a port leaves. -/
structure Missed (x : AudMiss) (p : Nat) (s t : State) : Prop where
  bit : t.f x.bit p = 1
  counted : Counted x.count p s t
  only : Only [.audio] [x.count.k.addr p 0, RegKind.AUD_STATUS.addr p 0] [s.ev (576 + x.event + 8 * p)] s t

/-- What a miss leaves, after a change of its port's record. -/
theorem audMiss_missed {x : AudMiss} (hx : x.Wf) {p : Nat} (hp : p < 8) {s u t : State} (h : AudOnly p s u)
    (hu : s.fabUp = true) (ht : Settling (u.audMiss p x) t) : Missed x p s t := by
  have hmem : x.count.k ∈ missKinds := hx.count_mem
  obtain ⟨hci, hcount⟩ := hx.count_has hp
  obtain ⟨-, hbit⟩ := hx.bit_has hp
  obtain ⟨r, hr⟩ := audMarked_regs u p x
  have honly : Only [.audio] [x.count.k.addr p 0, RegKind.AUD_STATUS.addr p 0] [] s (u.audMarked p x) :=
    (h.only _).trans (audMarked_only hx u _)
  have hup : (u.audMarked p x).fabUp = true := by
    have hspare : ∀ k ∈ govKinds, k ∉ missKinds := by decide
    refine (honly.regs.fabUp fun k hk _ _ hi => not_mem_of_kinds ?_ (hspare k hk) hi).trans hu
    simp only [List.mem_cons, List.not_mem_nil, or_false, forall_eq_or_imp, forall_eq]
    exact ⟨⟨_, hmem, p, 0, hci, rfl⟩, .AUD_STATUS, by decide, p, 0, ⟨hp, by decide⟩, rfl⟩
  have hframe : (u.audMarked p x).frame = s.frame := by rw [hr]; exact h.frame
  have hfield (f : FieldRef) (hf : ¬settles (f.k.addr p 0)) : t.f f p = (u.audMarked p x).f f p := by
    rw [ht.field f p 0 hf]
    unfold State.audMiss State.audEvt State.raise State.f State.reg
    rw [State.raiseAt_regs]
  refine ⟨?_, ?_, ?_⟩
  · rw [hfield _ hbit, audMarked_bit hx hp]
  · rw [Counted, hfield _ hcount, audMarked_count hx hp, h.f]
  · have := (honly.raiseAt (by rw [hr]; exact h.raised) (by rw [hr]; exact h.held) (576 + 8 * p + x.event) none
      (u.audMarked p x).frame hup).settled ht
    rwa [hframe, audEvt_number] at this

/-- Recording a miss leaves the ports' records. -/
theorem Settling.audMiss_aud {x : AudMiss} {p : Nat} {u t : State} (ht : Settling (u.audMiss p x) t) (q : Nat) :
    t.aud q = u.aud q := by
  obtain ⟨r, hr⟩ := audMarked_regs u p x
  rw [ht.aud]
  unfold State.audMiss State.audEvt State.raise State.aud
  rw [State.raiseAt_audio, hr]

/-! ### The commands -/

theorem fabUp_of_domRun {s : State} {d : Nat} (h : s.domRun d = true) : s.fabUp = true := by
  unfold State.domRun at h
  simp_all

/-- A command of the audio ports while they work. -/
theorem ends_whileAud {c : Instr} {s : State} {f : State → State} {P : State → Prop}
    (hc : exec c s = run (fun s => s.whileAud f) s) (hd : s.domRun 17 = true) (hP : ∀ t, Settling (f s) t → P t) :
    Ends c s P :=
  ends_run hc fun t ht => hP t (by rwa [State.whileAud, if_pos hd] at ht)

section
variable {p : Fin 8} {s : State} (hd : s.domRun 17 = true) (hon : (s.aud p.val).on = true)
include hd hon

/-- AUDIO_UNDERRUN (R304, R306, R307). -/
theorem ends_audioUnderrun (hpos : s.audPos p.val ≠ 0) (htx : (s.aud p.val).tx = [])
    (hnow : (s.aud p.val).underNow = false) (hquiet : (s.aud p.val).quiet = false)
    (hdry : (s.aud p.val).txDry = true ∨ s.qNothing (s.fa F.AUD_QUEUE_TXQ p.val) = true) :
    Ends (.audioUnderrun p) s fun t => ∃ rot,
      t.aud p.val = { s.aud p.val with underNow := true, txRot := rot } ∧
      (¬(s.fa F.AUD_CFG_FORMAT p.val = 2 ∧ 2 < s.audPos p.val) → rot = (s.aud p.val).txRot) ∧
      (∀ q, q ≠ p.val → t.aud q = s.aud q) ∧ Missed .under p.val s t := by
  refine ends_whileAud (f := fun s => s.audUnderrun p.val) rfl hd fun t ht => ?_
  rw [audUnderrun_eq hon hpos htx hnow hquiet hdry] at ht
  have hport := (AudOnly.refl p.val s).setAud { s.aud p.val with
    underNow := true, txRot := s.audTurn p.val 0 (s.aud p.val).txRot }
  refine ⟨_, (ht.audMiss_aud _).trans (State.setAud_aud _ _ _), fun h => audTurn_still h _ _, fun q hq => ?_,
    audMiss_missed AudMiss.wf_under p.isLt hport (fabUp_of_domRun hd) ht⟩
  exact (ht.audMiss_aud q).trans (hport.others q hq)

/-- AUDIO_OVERRUN (R305, R306, R307). -/
theorem ends_audioOverrun {full : Bool} (hfull : s.qNoRoom (s.fa F.AUD_QUEUE_RXQ p.val) = full)
    (hdry : (s.aud p.val).rxDry = true ∨ ((s.aud p.val).rxDone ≠ none ∧ full = true))
    (hnow : (s.aud p.val).overNow = false) (hquiet : (s.aud p.val).quiet = false) :
    Ends (.audioOverrun p) s fun t => ∃ rot,
      t.aud p.val = { (s.aud p.val).met full with overNow := true, rxRot := rot } ∧
      (¬(s.fa F.AUD_CFG_FORMAT p.val = 2 ∧ 2 < s.audPos p.val) → rot = (s.aud p.val).rxRot) ∧
      (∀ q, q ≠ p.val → t.aud q = s.aud q) ∧ Missed .over p.val s t := by
  refine ends_whileAud (f := fun s => s.audOverrun p.val) rfl hd fun t ht => ?_
  obtain ⟨hmet, haud⟩ := audMet_effect hfull hon hdry
  rw [audOverrun_eq haud ⟨hon, rfl, hnow, hquiet⟩] at ht
  have hport := hmet.setAud { (s.aud p.val).met full with
    overNow := true, rxRot := (s.audMet p.val).audTurn p.val 1 (s.aud p.val).rxRot }
  have hpos : (s.audMet p.val).audPos p.val = s.audPos p.val := hmet.audPos (by rw [haud]; rfl)
  refine ⟨_, (ht.audMiss_aud _).trans (State.setAud_aud _ _ _),
    fun h => audTurn_still (by rwa [hmet.fa, hpos]) _ _, fun q hq => ?_,
    audMiss_missed AudMiss.wf_over p.isLt hport (fabUp_of_domRun hd) ht⟩
  exact (ht.audMiss_aud q).trans (hport.others q hq)

end

end Sys2Proof.Machine
end

section
/-!
PROOFS. Blocks between audio ports and their queues, writes of AUD_FRAME, and O42.
-/
namespace Sys2Proof.Machine

/-! ### Receive blocks (R294, R305) -/

section
variable {p : Fin 8} {s : State} {b : AudBlock} (hd : s.domRun 17 = true) (hdone : (s.aud p.val).rxDone = some b)
include hd hdone

/-- AUDIO_RX_BLOCK where RXQ has room (R294). -/
theorem ends_audioRxBlock_room {q : Nat} (hq : s.fa F.AUD_QUEUE_RXQ p.val = q) (hroom : s.qNoRoom q = false)
    (hue : NoUe (qAddr (s.queue q) (s.queue q).tail) (s.audEntry p.val b).length s) :
    Ends (.audioRxBlock p) s fun t =>
      Placed (qAddr (s.queue q) (s.queue q).tail) (s.audEntry p.val b) s t ∧
      t.queue q = { s.queue q with tail := (s.queue q).tail + 1 } ∧ (∀ k, k ≠ q → t.queue k = s.queue k) ∧
      t.aud p.val = { s.aud p.val with rxDone := none } ∧ (∀ k, k ≠ p.val → t.aud k = s.aud k) ∧
      Only [.audio, .queues, .mem, .ecc] eccRegs [] s t := by
  refine ends_whileAud (f := fun s => s.audRxBlock p.val) rfl hd fun t ht => ?_
  obtain ⟨hplaced, hqueue, hqueues, haudio, honly⟩ := audRxBlock_room hdone hq hroom hue
  have haud (k : Nat) : t.aud k = (s.audTaken p.val).aud k := (ht.aud k).trans (State.aud_congr haudio k)
  refine ⟨fun a => ?_, (ht.queue q).trans hqueue, fun k hk => (ht.queue k).trans (hqueues k hk),
    (haud _).trans (audTaken_aud s _), fun k hk => (haud k).trans ((audTaken_only s _).others k hk), honly.settled ht⟩
  rw [State.byte_congr ht.memory.1, hplaced]

/-- AUDIO_RX_BLOCK where RXQ has no room (R305). -/
theorem ends_audioRxBlock_noRoom (hfull : s.qNoRoom (s.fa F.AUD_QUEUE_RXQ p.val) = true) :
    Ends (.audioRxBlock p) s fun t =>
      t.aud p.val = { s.aud p.val with rxDone := none, rxDry := true } ∧ (∀ k, k ≠ p.val → t.aud k = s.aud k) ∧
      Only [.audio] [] [] s t := by
  refine ends_whileAud (f := fun s => s.audRxBlock p.val) rfl hd fun t ht => ?_
  obtain ⟨hport, haud⟩ := audRxBlock_noRoom hfull
  refine ⟨(ht.aud _).trans (haud.trans (by simp [hdone])), fun k hk => (ht.aud k).trans (hport.others k hk),
    (hport.only _).settled ht⟩

end

/-! ### Transmit blocks (R294, R296) -/

/-- The samples of a block play, and its TAG and the SYS_TIME at which it was taken are recorded. -/
def State.audPlays (s : State) (p : Nat) (tx : List Word) (tag : Nat) (now : BitVec 64) : State :=
  (((s.setAud p { s.aud p with tx := tx }).setF F.AUD_TX_LAST_TAG_TAG tag p).setReg .AUD_TX_LAST_TIME_LO
    (now.setWidth 32) p).setReg .AUD_TX_LAST_TIME_HI ((now >>> 32).setWidth 32) p

/-- The block at the head of TXQ is taken. -/
theorem audTxStart_taken {s u : State} {p q : Nat} {bs : List Byte} (hon : (s.aud p).on = true)
    (hpos : s.audPos p ≠ 0) (htx : (s.aud p).tx = []) (hnow : (s.aud p).underNow = false)
    (hdry : (s.aud p).txDry = false) (hq : s.fa F.AUD_QUEUE_TXQ p = q) (hsome : s.qNothing q = false)
    (hread : s.qRead 0x31 q (s.queue q).head = (u, some bs)) :
    ∃ tx : List Word, tx.length = (s.fa F.AUD_CFG_BLOCK_FRAMES p + 1) * (s.audLayout p).rate * s.audPos p ∧
      s.audTxStart p = (u.qAdvance q).audPlays p tx (leNat ((bs.drop 14).take 2)) s.sys := by
  subst hq
  unfold State.audTxStart
  dsimp only
  rw [if_pos (by simp [hon, hpos, htx, hnow, hdry, hsome]), hread]
  exact ⟨_, by rw [List.length_map, List.length_range], rfl⟩

/-- TAG stands in the bytes 14 and 15 of an entry (R294). -/
theorem leNat_tag (bs : List Byte) :
    leNat ((bs.drop 14).take 2) = (bs.getD 14 0).toNat + 256 * (bs.getD 15 0).toNat := by
  have hget (i : Nat) : bs.getD (14 + i) 0 = (bs.drop 14).getD i 0 := by
    simp [List.getD_eq_getElem?_getD, List.getElem?_drop]
  rw [hget 0, hget 1]
  match bs.drop 14 with
  | [] => rfl
  | [x] => rfl
  | x :: y :: l => rfl

def audTxRegs (p : Nat) : List Nat := [RegKind.AUD_TX_LAST_TAG.addr p 0, RegKind.AUD_TX_LAST_TIME_LO.addr p 0,
  RegKind.AUD_TX_LAST_TIME_HI.addr p 0]

theorem audPlays_only (s : State) (p : Nat) (tx : List Word) (tag : Nat) (now : BitVec 64) :
    Only [.audio] (audTxRegs p) [] s (s.audPlays p tx tag now) :=
  (((((AudOnly.refl p s).setAud _).only _).trans (.setF _ _ _ _ _ _ (.inl (by simp [audTxRegs])))).trans
    (.setReg _ _ _ _ _ _ (.inl (by simp [audTxRegs])))).trans (.setReg _ _ _ _ _ _ (.inl (by simp [audTxRegs])))

theorem audPlays_aud (s : State) (p : Nat) (tx : List Word) (tag : Nat) (now : BitVec 64) (k : Nat) :
    (s.audPlays p tx tag now).aud k = (s.setAud p { s.aud p with tx := tx }).aud k := State.aud_congr rfl k

/-- What is recorded is read back. -/
theorem audPlays_regs (s : State) {p : Nat} (hp : p < 8) (tx : List Word) {tag : Nat} (htag : tag < 2 ^ 16)
    (now : BitVec 64) {t : State} (ht : Settling (s.audPlays p tx tag now) t) :
    t.f F.AUD_TX_LAST_TAG_TAG p = tag ∧ t.reg .AUD_TX_LAST_TIME_LO p = now.setWidth 32 ∧
      t.reg .AUD_TX_LAST_TIME_HI p = (now >>> 32).setWidth 32 := by
  have ht' : Within [] [] (s.audPlays p tx tag now) t := (Within.refl _ _ _).settling ht
  let u := (s.setAud p { s.aud p with tx := tx }).setF F.AUD_TX_LAST_TAG_TAG tag p
  let v := u.setReg .AUD_TX_LAST_TIME_LO (now.setWidth 32) p
  have hv : Within [] [.AUD_TX_LAST_TIME_LO] u v := (Within.refl _ _ u).setReg ⟨by decide, hp, by decide⟩
  have hw : Within [] [.AUD_TX_LAST_TIME_HI] v (s.audPlays p tx tag now) :=
    (Within.refl _ _ v).setReg ⟨by decide, hp, by decide⟩
  refine ⟨?_, ?_, ?_⟩
  · rw [ht'.field _ ⟨⟨hp, by decide⟩, by decide⟩, hw.field _ ⟨⟨hp, by decide⟩, by decide⟩,
      hv.field _ ⟨⟨hp, by decide⟩, by decide⟩, State.setF_f _ _ _ _ _ (by decide)]
    exact Nat.mod_eq_of_lt htag
  · rw [ht'.reg ⟨⟨hp, by decide⟩, by decide⟩, hw.reg ⟨⟨hp, by decide⟩, by decide⟩]
    exact State.setReg_reg _ _ _ _ _
  · rw [ht'.reg ⟨⟨hp, by decide⟩, by decide⟩]
    exact State.setReg_reg _ _ _ _ _

/-- AUDIO_TX_BLOCK_START (R294, R296). -/
theorem ends_audioTxBlockStart {p : Fin 8} {s : State} {q : Nat} (hd : s.domRun 17 = true)
    (hon : (s.aud p.val).on = true) (hpos : s.audPos p.val ≠ 0) (htx : (s.aud p.val).tx = [])
    (hnow : (s.aud p.val).underNow = false) (hdry : (s.aud p.val).txDry = false)
    (hq : s.fa F.AUD_QUEUE_TXQ p.val = q) (hsome : s.qNothing q = false)
    (hue : NoUe (qAddr (s.queue q) (s.queue q).head) (qEsize (s.queue q)) s) :
    Ends (.audioTxBlockStart p) s fun t =>
      let bs := s.bytes (qAddr (s.queue q) (s.queue q).head) (qEsize (s.queue q))
      (∀ k, t.queue k = (s.qAdvance q).queue k) ∧
      t.f F.AUD_TX_LAST_TAG_TAG p.val = (bs.getD 14 0).toNat + 256 * (bs.getD 15 0).toNat ∧
      t.reg .AUD_TX_LAST_TIME_LO p.val = s.sys.setWidth 32 ∧
      t.reg .AUD_TX_LAST_TIME_HI p.val = (s.sys >>> 32).setWidth 32 ∧
      (∃ tx, t.aud p.val = { s.aud p.val with tx := tx } ∧
        tx.length = (s.fa F.AUD_CFG_BLOCK_FRAMES p.val + 1) * (s.audLayout p.val).rate * s.audPos p.val) ∧
      (∀ k, k ≠ p.val → t.aud k = s.aud k) ∧
      Only [.audio, .queues, .ecc] (eccRegs ++ audTxRegs p.val) [] s t := by
  refine ends_whileAud (f := fun s => s.audTxStart p.val) rfl hd fun t ht => ?_
  obtain ⟨u, hu, hread⟩ := pondRead_good hue 0x31 2
  generalize s.bytes _ _ = bs at hu ⊢
  obtain ⟨tx, hlen, htaken⟩ := audTxStart_taken hon hpos htx hnow hdry hq hsome hu
  rw [htaken] at ht
  have hqueue (k : Nat) : u.queue k = s.queue k := State.queue_congr (hread.kept .queues (by simp)) k
  have haud (k : Nat) : (u.qAdvance q).aud k = s.aud k := State.aud_congr (hread.kept .audio (by simp)) k
  have htag := leNat_tag bs
  obtain ⟨htagReg, hlo, hhi⟩ := audPlays_regs _ p.isLt tx (by rw [htag]; omega) s.sys ht
  have hplays := audPlays_only (u.qAdvance q) p.val tx (leNat ((bs.drop 14).take 2)) s.sys
  have hadvance : Only [.queues] [] [] u (u.qAdvance q) := .setQueue u q _ _
  refine ⟨fun k => ?_, htagReg.trans htag, hlo, hhi, ⟨tx, ?_, hlen⟩, fun k hk => ?_, ?_⟩
  · rw [ht.queue, State.queue_congr (hplays.kept .queues (by simp)), qAdvance_eq, qAdvance_eq, hqueue]
    by_cases hk : k = q
    · subst hk
      rw [State.setQueue_queue, State.setQueue_queue]
    · rw [State.setQueue_queue_ne _ _ hk, State.setQueue_queue_ne _ _ hk, hqueue]
  · rw [ht.aud, audPlays_aud, State.setAud_aud, haud]
  · rw [ht.aud, audPlays_aud, State.setAud_aud_ne _ _ hk, haud]
  · exact (((hread.mono (by simp) (List.subset_append_left _ _)).trans (hadvance.mono (by simp) (by simp))).trans
      (hplays.mono (by simp) (List.subset_append_right _ _))).settled ht

/-! ### AUD_FRAME (R285, R286) -/

/-- The word that AUD_FRAME takes. -/
def audFrameWord (v : Word) : Word := v &&& 0x1F03

/-- A write of an audio port's register that no commit applies. -/
theorem writeReg_aud {k : RegKind} (hk : k.info.scope.isSome = false ∧ k.info.base / 0x10000 = 0x113) (s : State)
    (m : Master) (i j : Nat) (v : Word) : s.writeReg m ⟨k, i, j, false⟩ v = s.writePort m ⟨k, i, j, false⟩ v := by
  obtain ⟨hscope, hbase⟩ := hk
  simp only [State.writeReg, hscope, hbase, Bool.false_eq_true, if_false]

theorem writeReg_audFrame (s : State) (m : Master) (p : Nat) (v : Word) :
    s.writeReg m ⟨.AUD_FRAME, p, 0, false⟩ v = s.audFrame p (audFrameWord v) := by
  rw [writeReg_aud (by decide)]
  exact congrArg (s.audFrame p) (wordIn_rw (by decide) p 0 v)

/-- The pair of a word fits the port's FORMAT and RATE (R286). -/
abbrev State.FrameFits (s : State) (p : Nat) (v : Word) : Prop :=
  fieldOf v 0 2 ≤ 2 ∧ (s.fa F.AUD_CFG_FORMAT p = 2 ∨ fieldOf v 8 5 = 1) ∧
    audF (16 + 8 * fieldOf v 0 2) (fieldOf v 8 5 + 1) * audRate (s.fa F.AUD_CFG_RATE p) ≤ 3072

theorem audPairOk_iff (s : State) (p : Nat) (v : Word) :
    audPairOk (fieldOf v 0 2) (fieldOf v 8 5) (s.fa F.AUD_CFG_FORMAT p) (s.fa F.AUD_CFG_RATE p) = true ↔
      s.FrameFits p v := by
  unfold audPairOk audWidth
  simp only [Bool.and_eq_true, Bool.or_eq_true, decide_eq_true_iff, and_assoc]

/-- The register holds every field of the word written. -/
theorem audFrameWord_fields (v : Word) :
    fieldOf (audFrameWord v) 0 2 = fieldOf v 0 2 ∧ fieldOf (audFrameWord v) 8 5 = fieldOf v 8 5 :=
  ⟨fieldOf_and v (by decide), fieldOf_and v (by decide)⟩

theorem audFrame_running {s : State} {p : Nat} (h : (s.aud p).on = true) (v : Word) : s.audFrame p v = (s, true) :=
  if_pos h

theorem audFrame_fits {s : State} {p : Nat} {v : Word} (hoff : (s.aud p).on = false) (h : s.FrameFits p v) :
    s.audFrame p (audFrameWord v) = (((s.setReg .AUD_FRAME (audFrameWord v) p).setAud p { s.aud p with
      width := fieldOf v 0 2, count := fieldOf v 8 5 }).setF F.AUD_STATUS_MISMATCH 0 p, false) := by
  obtain ⟨hw, hn⟩ := audFrameWord_fields v
  unfold State.audFrame
  dsimp only
  rw [if_neg (by simp [hoff]), hw, hn, if_pos ((audPairOk_iff s p v).mpr h)]

theorem audFrame_misfits {s : State} {p : Nat} {v : Word} (hoff : (s.aud p).on = false) (h : ¬s.FrameFits p v) :
    s.audFrame p (audFrameWord v) =
      (((s.setReg .AUD_FRAME (audFrameWord v) p).setF F.AUD_STATUS_MISMATCH 1 p).audEvt p 5, false) := by
  obtain ⟨hw, hn⟩ := audFrameWord_fields v
  unfold State.audFrame
  dsimp only
  rw [if_neg (by simp [hoff]), hw, hn, if_neg (mt (audPairOk_iff s p v).mp h)]

def audFrameRegs (p : Nat) : List Nat := [RegKind.AUD_FRAME.addr p 0, RegKind.AUD_STATUS.addr p 0]

section
variable {m : Master} {p : Fin 8} {v : Word} {s : State} (h : CanWrite m .AUD_FRAME p.val 0 s)
include h

theorem ends_audFrame_running (hon : (s.aud p.val).on = true) :
    Ends (.audFrameWrite m p v) s fun t => Answered m 0 true t ∧ Only [.last] [] [] s t := by
  refine ends_seen (f := fun s => s.regWrite m .AUD_FRAME p.val 0 v) rfl ?_
  exact regWrite_discarded h.1 ⟨p.isLt, by decide⟩ ((writeReg_audFrame s m p v).trans (audFrame_running hon _))

theorem ends_audFrame_fits (hoff : (s.aud p.val).on = false) (hok : s.FrameFits p.val v) :
    Ends (.audFrameWrite m p v) s fun t =>
      t.aud p.val = { s.aud p.val with width := fieldOf v 0 2, count := fieldOf v 8 5 } ∧
      (∀ q, q ≠ p.val → t.aud q = s.aud q) ∧ t.reg .AUD_FRAME p.val = audFrameWord v ∧
      t.f F.AUD_STATUS_MISMATCH p.val = 0 ∧ Answered m 0 false t ∧
      Only [.last, .audio] (audFrameRegs p.val) [] s t := by
  let u0 := s.setReg .AUD_FRAME (audFrameWord v) p.val
  let a : Audio := { s.aud p.val with width := fieldOf v 0 2, count := fieldOf v 8 5 }
  let u1 := u0.setAud p.val a
  let u := u1.setF F.AUD_STATUS_MISMATCH 0 p.val
  have hw : s.writeReg m ⟨.AUD_FRAME, p.val, 0, false⟩ v = (u, false) :=
    (writeReg_audFrame s m p v).trans (audFrame_fits hoff hok)
  refine ends_write rfl h ⟨p.isLt, by decide⟩ (by decide) rfl hw fun t ht => ?_
  have hport : AudOnly p.val u0 u1 := (AudOnly.refl _ u0).setAud a
  have hset : Only [.last, .audio] (audFrameRegs p.val) [] s u :=
    ((Only.setReg s _ _ _ _ _ (.inl (by simp [audFrameRegs]))).trans
      ((hport.only _).mono (by simp) (List.Subset.refl _))).trans
      (.setF u1 _ _ _ _ _ (.inl (by simp [audFrameRegs])))
  have hstatus : Within [.last] [.AUD_STATUS] u1 t :=
    ((Within.refl _ _ u1).setF ⟨by decide, p.isLt, by decide⟩).next (seen_within ht) (by decide)
  refine ⟨(ht.aud _).trans (u0.setAud_aud _ a), fun q hq => (ht.aud q).trans (hport.others q hq), ?_, ?_,
    ht.answered, hset.answered ht (by simp)⟩
  · rw [hstatus.reg ⟨⟨p.isLt, by decide⟩, by decide⟩]
    exact s.setReg_reg .AUD_FRAME _ p.val 0
  · rw [(seen_within ht).field _ ⟨⟨p.isLt, by decide⟩, by decide⟩, u1.setF_f _ _ _ _ (by decide)]
    rfl

theorem ends_audFrame_misfits (hoff : (s.aud p.val).on = false) (hbad : ¬s.FrameFits p.val v)
    (hu : s.fabUp = true) : Ends (.audFrameWrite m p v) s fun t =>
      t.reg .AUD_FRAME p.val = audFrameWord v ∧ t.f F.AUD_STATUS_MISMATCH p.val = 1 ∧ Answered m 0 false t ∧
      Only [.last] (audFrameRegs p.val) [s.ev (581 + 8 * p.val)] s t := by
  let u0 := s.setReg .AUD_FRAME (audFrameWord v) p.val
  let u := u0.setF F.AUD_STATUS_MISMATCH 1 p.val
  have hw : s.writeReg m ⟨.AUD_FRAME, p.val, 0, false⟩ v = (u.audEvt p.val 5, false) :=
    (writeReg_audFrame s m p v).trans (audFrame_misfits hoff hbad)
  refine ends_write rfl h ⟨p.isLt, by decide⟩ (by decide) rfl hw fun t ht => ?_
  have h0 : Within [] [.AUD_FRAME] s u0 := (Within.refl _ _ s).setReg ⟨by decide, p.isLt, by decide⟩
  have hu0 : Within [] [.AUD_STATUS] u0 u := (Within.refl _ _ u0).setF ⟨by decide, p.isLt, by decide⟩
  have hup : u.fabUp = true := (hu0.fabUp (by decide)).trans ((h0.fabUp (by decide)).trans hu)
  have hset : Only [.last] (audFrameRegs p.val) [] s u :=
    (Only.setReg s _ _ _ _ _ (.inl (by simp [audFrameRegs]))).trans
      (.setF u0 _ _ _ _ _ (.inl (by simp [audFrameRegs])))
  have ht' : Within [.last] [] u t := ((Within.refl _ _ u).raise).trans (seen_within ht)
  have hraised : Only [.last] (audFrameRegs p.val) [s.ev (581 + 8 * p.val)] s (u.audEvt p.val 5) := by
    rw [← audEvt_number p.val 5]
    exact hset.raiseAt rfl rfl _ none s.frame hup
  refine ⟨?_, ?_, ht.answered, (hraised.trans ((Only.seen _ m 0 false).mono (by simp) (by simp))).settled ht⟩
  · rw [ht'.reg ⟨⟨p.isLt, by decide⟩, by decide⟩, hu0.reg ⟨⟨p.isLt, by decide⟩, by decide⟩]
    exact s.setReg_reg .AUD_FRAME _ p.val 0
  · rw [ht'.field _ ⟨⟨p.isLt, by decide⟩, by decide⟩, u0.setF_f _ _ _ _ (by decide)]
    rfl

end

/-! ### O42 -/

/-- Settles O42: each clause is the effect of its command. -/
theorem audioPortsMoveBlocks : Obligations.AudioPortsMoveBlocks := by
  intro p s a others mayTurn
  refine ⟨fun m v h => ⟨ends_audFrame_running h, ends_audFrame_fits h, ends_audFrame_misfits h⟩,
    fun hd hon hpos htx hnow hquiet hdry => ?_, fun hd hon hdry hnow hquiet => ?_, fun b hd hdone => ⟨?_, ?_⟩,
    fun hd hon hpos htx hnow hdry hlive hfill hheld hue => ?_⟩
  · obtain ⟨t, ht, rot, haud, hstill, hothers, hmissed⟩ := ends_audioUnderrun hd hon hpos htx hnow hquiet hdry
    exact ⟨t, ht, by rw [haud], by rw [haud]; exact hstill, hothers, hmissed.bit, hmissed.counted, hmissed.only⟩
  · obtain ⟨t, ht, rot, haud, hstill, hothers, hmissed⟩ := ends_audioOverrun hd hon rfl hdry hnow hquiet
    exact ⟨t, ht, by rw [haud]; rfl, by rw [haud]; exact hstill, hothers, hmissed.bit, hmissed.counted, hmissed.only⟩
  · intro hlive hroom hue
    have hfree : s.qNoRoom (s.fa F.AUD_QUEUE_RXQ p.val) = false :=
      Bool.eq_false_iff.mpr (mt (qNoRoom_iff s _).mp (by simp [hlive, hroom]))
    exact ends_audioRxBlock_room hd hdone rfl hfree hue
  · exact fun hfull => ends_audioRxBlock_noRoom hd hdone ((qNoRoom_iff s _).mpr hfull)
  · obtain ⟨t, ht, hqueue, htag, hlo, hhi, ⟨tx, haud, hlen⟩, hothers, honly⟩ :=
      ends_audioTxBlockStart hd hon hpos htx hnow hdry rfl ((qNothing_eq_false_iff s _).mpr ⟨hlive, hfill, hheld⟩) hue
    refine ⟨t, ht, ?_, fun k hk => ?_, htag, hlo, hhi, by rw [haud]; exact hlen, by rw [haud], hothers, honly⟩
    · rw [hqueue, qAdvance_eq, State.setQueue_queue]
    · rw [hqueue, qAdvance_eq, State.setQueue_queue_ne _ _ hk]

end Sys2Proof.Machine
end

section
/-!
PROOFS. One HDLC channel: its record, what its counts leave (R342, R343), and writes of HDLC_CH_CFG (R335 to R337).
-/
namespace Sys2Proof.Machine

/-! ### One HDLC channel -/

@[simp] theorem State.setHd_hd (s : State) (c : Nat) (h : Hdlc) : (s.setHd c h).hd c = h := tabGet_put_same _ _ _ _

theorem State.setHd_hd_ne (s : State) {c k : Nat} (h : Hdlc) (hk : k ≠ c) : (s.setHd c h).hd k = s.hd k := by
  simp only [State.setHd, State.hd]; apply tabGet_put_ne; exact hk

theorem State.hd_congr {s t : State} (h : t.hdlc = s.hdlc) (c : Nat) : t.hd c = s.hd c := by
  unfold State.hd; rw [h]

theorem Settling.hd {s t : State} (h : Settling s t) (c : Nat) : t.hd c = s.hd c :=
  State.hd_congr (h.1 .hdlc (by simp)) c

theorem Kept.hdlc (s : State) (x : Tab Hdlc) : Kept [.hdlc] s { s with hdlc := x } :=
  fun p hp => by cases p <;> simp_all [Part.same]

theorem Only.setHd (s : State) (c : Nat) (h : Hdlc) (r : List Nat) : Only [.hdlc] r [] s (s.setHd c h) :=
  .of_kept (t := s.setHd c h) (Kept.hdlc s _) rfl rfl rfl r

/-! ### Bits of a register -/

theorem fieldOf_one (w : Word) (b : Nat) : fieldOf w b 1 = (w.getLsbD b).toNat := by
  unfold fieldOf
  rw [← BitVec.testBit_toNat, Nat.toNat_testBit, Nat.shiftRight_eq_div_pow, pow_one]

theorem State.getLsbD_of_f {s : State} {k : RegKind} {b i : Nat} (h : s.f ⟨k, b, 1⟩ i = 1) :
    (s.reg k i).getLsbD b = true := by
  have hbit : ((s.reg k i).getLsbD b).toNat = 1 := (fieldOf_one _ b).symm.trans h
  simpa using hbit

theorem State.setBit_f (s : State) (k : RegKind) {b : Nat} (hb : b < 32) (i : Nat) :
    (s.setBit k b i).f ⟨k, b, 1⟩ i = 1 := by
  unfold State.setBit State.f
  rw [State.setReg_reg, fieldOf_one, BitVec.getLsbD_or, BitVec.getLsbD_ofNat, Nat.one_shiftLeft,
    Nat.testBit_two_pow_self]
  simp [hb]

/-! ### Counts (R342, R343) -/

def hdCountKinds : List RegKind := [.HDLC_CNT_RX_FRAMES, .HDLC_CNT_TX_FRAMES, .HDLC_CNT_FCS_ABORT,
  .HDLC_CNT_SHORT_LONG, .HDLC_CNT_ALIGN_NOBUF, .HDLC_CNT_TXERR]

/-- The registers in which channel `c` counts and marks its frames. -/
def hdRegs (c : Nat) : List Nat := RegKind.HDLC_CH_STATUS.addr c 0 :: regsOf hdCountKinds

/-- A count of a channel's frames. -/
abbrev FieldRef.HdCount (f : FieldRef) : Prop := f.k ∈ hdCountKinds ∧ f.lo + f.w ≤ 32

theorem hdCountKinds_has {k : RegKind} (hk : k ∈ hdCountKinds) {c : Nat} (hc : c < 256) :
    k.has c 0 ∧ ¬settles (k.addr c 0) := by
  have hbound : ∀ k ∈ hdCountKinds, k.info.n1 = 256 ∧ 0 < k.info.n2 ∧ k ≠ .PWR_STATUS ∧ k ≠ .QSUM := by decide
  obtain ⟨h1, h2, hstatus, hqsum⟩ := hbound k hk
  exact ⟨⟨h1 ▸ hc, h2⟩, not_settles ⟨h1 ▸ hc, h2⟩ hstatus hqsum⟩

theorem hdStatus_has {c : Nat} (hc : c < 256) :
    RegKind.HDLC_CH_STATUS.has c 0 ∧ ¬settles (RegKind.HDLC_CH_STATUS.addr c 0) :=
  ⟨⟨hc, by decide⟩, not_settles ⟨hc, by decide⟩ (by decide) (by decide)⟩

theorem hdCountKinds_ne_status {k : RegKind} (hk : k ∈ hdCountKinds) : k ≠ .HDLC_CH_STATUS := by
  rintro rfl; exact absurd hk (by decide)

/-- The registers of ECC errors count no frames. -/
theorem eccRegs_spare {k : RegKind} (hk : k ∈ .HDLC_CH_STATUS :: hdCountKinds) {c : Nat} (hi : k.has c 0) :
    k.addr c 0 ∉ eccRegs := by
  have hspare : ∀ k ∈ RegKind.HDLC_CH_STATUS :: hdCountKinds,
      k ∉ [.POND_ECC_CE_COUNT, .POND_ECC_UE_COUNT, .POND_ECC_UE_ADDR, .POND_ECC_UE_INFO] := by decide
  refine not_mem_of_kinds ?_ (hspare k hk) hi
  simp only [eccRegs, List.mem_cons, List.not_mem_nil, or_false]
  rintro a (rfl | rfl | rfl | rfl)
  · exact ⟨.POND_ECC_CE_COUNT, by decide, 0, 0, by decide, rfl⟩
  · exact ⟨.POND_ECC_UE_COUNT, by decide, 0, 0, by decide, rfl⟩
  · exact ⟨.POND_ECC_UE_ADDR, by decide, 0, 0, by decide, rfl⟩
  · exact ⟨.POND_ECC_UE_INFO, by decide, 0, 0, by decide, rfl⟩

/-- A frame is counted, and SAT is set with a full count. -/
def State.hdTally (s : State) (c : Nat) (f : FieldRef) : State :=
  if s.f f c + 1 ≥ 2 ^ f.w then (s.bump f 1 none c).setF F.HDLC_CH_STATUS_SAT 1 c else s.bump f 1 none c

/-- A sticky bit newly set is noted for the summary event. -/
def State.hdNote (s : State) (c : Nat) (new : Bool) : State :=
  if new then s.setHd c { s.hd c with evt := true } else s

theorem hdlcGood_eq (s : State) (c : Nat) (f : FieldRef) : ∃ b, s.hdlcGood c f = (s.hdTally c f).hdNote c b := by
  unfold State.hdlcGood State.hdTally
  dsimp only
  split
  · split
    · exact ⟨false, rfl⟩
    · exact ⟨true, rfl⟩
  · exact ⟨false, rfl⟩

section
variable {f : FieldRef} (hf : f.HdCount) {c : Nat} (hc : c < 256) (s : State)
include hf hc

theorem setBit_count (bit : Nat) : (s.setBit .HDLC_CH_STATUS bit c).f f c = s.f f c := by
  unfold State.f
  rw [show (s.setBit .HDLC_CH_STATUS bit c).reg f.k c = s.reg f.k c from State.setReg_reg_ne _ _ _ _ _
    (addr_ne (hdCountKinds_has hf.1 hc).1 (hdStatus_has hc).1 (.inl (hdCountKinds_ne_status hf.1)))]

theorem hdlcCount_eq (bit : Nat) :
    ∃ b, s.hdlcCount c bit f = ((s.setBit .HDLC_CH_STATUS bit c).hdTally c f).hdNote c b := by
  unfold State.hdTally
  rw [setBit_count hf hc]
  exact ⟨_, rfl⟩

theorem hdTally_count : (s.hdTally c f).f f c = min (s.f f c + 1) (2 ^ f.w - 1) := by
  obtain ⟨hi, -⟩ := hdCountKinds_has hf.1 hc
  unfold State.hdTally
  split
  · rw [State.setF_f_apart _ (.inl (hdCountKinds_ne_status hf.1).symm) _ (hdStatus_has hc).1 hi, bump_f _ _ _ _ _ hf.2]
  · exact bump_f _ _ _ _ _ hf.2

/-- Every sticky bit but SAT is as it was. -/
theorem hdTally_bit {bit : Nat} (hb : bit < 15) :
    (s.hdTally c f).f ⟨.HDLC_CH_STATUS, bit, 1⟩ c = s.f ⟨.HDLC_CH_STATUS, bit, 1⟩ c := by
  obtain ⟨hs, -⟩ := hdStatus_has hc
  obtain ⟨n, hn⟩ := bump_eq_setF s f 1 c 0
  have hbump : (s.bump f 1 none c).f ⟨.HDLC_CH_STATUS, bit, 1⟩ c = s.f ⟨.HDLC_CH_STATUS, bit, 1⟩ c := by
    rw [hn, State.setF_f_apart _ (.inl (hdCountKinds_ne_status hf.1)) _ (hdCountKinds_has hf.1 hc).1 hs]
  unfold State.hdTally
  split
  · rw [State.setF_f_apart _ (.inr (.inr (show bit + 1 ≤ 15 by omega))) _ hs hs, hbump]
  · exact hbump

theorem hdTally_only : Only [] (hdRegs c) [] s (s.hdTally c f) := by
  have hbump : Only [] (hdRegs c) [] s (s.bump f 1 none c) :=
    .bump s f 1 c 0 _ (List.mem_cons_of_mem _ (mem_regsOf hf.1 (hdCountKinds_has hf.1 hc).1))
  exact .ite (hbump.trans (.setF _ _ _ _ _ _ (.inl (List.mem_cons_self ..)))) hbump

end

/-- What a count of channel `c` leaves. -/
structure HdCounted (c : Nat) (f : FieldRef) (s t : State) : Prop where
  counted : Counted f c s t
  hd : ∃ e, t.hd c = { s.hd c with evt := e }
  others : ∀ k, k ≠ c → t.hd k = s.hd k
  only : Only [.hdlc] (hdRegs c) [] s t

theorem hdNote_counted {c : Nat} {f : FieldRef} {s u : State} (hcount : Counted f c s u)
    (honly : Only [] (hdRegs c) [] s u) (b : Bool) : HdCounted c f s (u.hdNote c b) := by
  have hu (k : Nat) : u.hd k = s.hd k := State.hd_congr (honly.kept .hdlc (by simp)) k
  have hsame : Only [.hdlc] (hdRegs c) [] s u := honly.mono (by simp) (List.Subset.refl _)
  cases b with
  | false => exact ⟨hcount, ⟨(s.hd c).evt, hu c⟩, fun k _ => hu k, hsame⟩
  | true =>
    refine ⟨hcount, ⟨true, ?_⟩, fun k hk => ?_, hsame.trans (.setHd _ _ _ _)⟩
    · rw [State.hdNote, if_pos rfl, State.setHd_hd, hu]
    · rw [State.hdNote, if_pos rfl, State.setHd_hd_ne _ _ hk, hu]

section
variable {f : FieldRef} (hf : f.HdCount) {c : Nat} (hc : c < 256) (s : State)
include hf hc

theorem hdlcGood_counted : HdCounted c f s (s.hdlcGood c f) := by
  obtain ⟨b, hb⟩ := hdlcGood_eq s c f
  rw [hb]
  exact hdNote_counted (hdTally_count hf hc s) (hdTally_only hf hc s) b

theorem hdlcCount_counted (bit : Nat) : HdCounted c f s (s.hdlcCount c bit f) := by
  obtain ⟨b, hb⟩ := hdlcCount_eq hf hc s bit
  have hset : Only [] (hdRegs c) [] s (s.setBit .HDLC_CH_STATUS bit c) :=
    .setReg s _ _ _ _ _ (.inl (List.mem_cons_self ..))
  rw [hb]
  refine hdNote_counted ?_ (hset.trans (hdTally_only hf hc _)) b
  rw [Counted, hdTally_count hf hc, setBit_count hf hc]

theorem hdlcCount_bit {bit : Nat} (hbit : bit < 15) :
    (s.hdlcCount c bit f).f ⟨.HDLC_CH_STATUS, bit, 1⟩ c = 1 := by
  obtain ⟨b, hb⟩ := hdlcCount_eq hf hc s bit
  have hregs (u : State) : (u.hdNote c b).regs = u.regs := by unfold State.hdNote; split <;> rfl
  unfold State.f State.reg
  rw [hb, hregs]
  exact (hdTally_bit hf hc _ hbit).trans (s.setBit_f _ (by omega) c)

end

/-! ### Writes of HDLC_CH_CFG (R335 to R337) -/

theorem writeReg_hdlcCfg (s : State) (m : Master) (c : Nat) (v : Word) :
    s.writeReg m ⟨.HDLC_CH_CFG, c, 0, false⟩ v = if s.hdlcWriteBad .HDLC_CH_CFG c v then (s, true)
      else noErr ((s.plainWrite ⟨.HDLC_CH_CFG, c, 0, false⟩ v).hdlcCleared ⟨.HDLC_CH_CFG, c, 0, false⟩ v) := by
  have hk : RegKind.HDLC_CH_CFG.info.scope.isSome = false ∧ RegKind.HDLC_CH_CFG.info.base / 0x10000 = 0x114 := by decide
  simp only [State.writeReg, hk.1, hk.2, Bool.false_eq_true, if_false]
  rfl

/-- The RW bits of a register are those of the word written (R8). -/
theorem merge_and_rw (r : RegInfo) (old v : Word) : r.merge old v &&& r.maskOf .rw = v &&& r.maskOf .rw :=
  BitVec.eq_of_getLsbD_eq fun b hb => by
    rw [BitVec.getLsbD_and, BitVec.getLsbD_and, merge_getLsbD r old v hb]
    cases (r.maskOf .rw).getLsbD b <;> simp

section
variable {m : Master} {c : BitVec 8} {v : Word} {s : State} (h : CanWrite m .HDLC_CH_CFG c.toNat 0 s)
include h

theorem ends_hdlcEnable_running (hen : s.b F.HDLC_CH_CFG_EN c.toNat = true) :
    Ends (.hdlcEnable m c v) s fun t => Answered m 0 true t ∧ Only [.last] [] [] s t := by
  have hbad : s.hdlcWriteBad .HDLC_CH_CFG c.toNat (v ||| 1) = true := by simp [State.hdlcWriteBad, hen]
  refine ends_seen (f := fun s => s.regWrite m .HDLC_CH_CFG c.toNat 0 (v ||| 1)) rfl ?_
  exact regWrite_discarded h.1 ⟨c.isLt, by decide⟩ ((writeReg_hdlcCfg s m _ _).trans (if_pos hbad))

theorem ends_hdlcEnable_stopped (hen : s.b F.HDLC_CH_CFG_EN c.toNat = false) :
    Ends (.hdlcEnable m c v) s fun t => t.reg .HDLC_CH_CFG c.toNat &&& 0x1FFFC7FF = (v ||| 1) &&& 0x1FFFC7FF ∧
      Answered m 0 false t ∧ Only [.last] [RegKind.HDLC_CH_CFG.addr c.toNat 0] [] s t := by
  have hi : RegKind.HDLC_CH_CFG.has c.toNat 0 := ⟨c.isLt, by decide⟩
  have hset : s.regWrite m .HDLC_CH_CFG c.toNat 0 (v ||| 1) = (s.setReg .HDLC_CH_CFG
      (RegKind.HDLC_CH_CFG.info.merge (s.reg .HDLC_CH_CFG c.toNat) (v ||| 1)) c.toNat).seen m 0 false := by
    have hkeeps : ((s.plainWrite ⟨.HDLC_CH_CFG, c.toNat, 0, false⟩ (v ||| 1)).hdlcCleared
        ⟨.HDLC_CH_CFG, c.toNat, 0, false⟩ (v ||| 1)) = s.plainWrite ⟨.HDLC_CH_CFG, c.toNat, 0, false⟩ (v ||| 1) :=
      if_neg (by simp)
    rw [regWrite_ok h hi (by decide) rfl, writeReg_hdlcCfg, if_neg (by simp [State.hdlcWriteBad, hen]), hkeeps]
    rfl
  obtain ⟨t, ht, hreg, hans, honly⟩ := ends_setReg_seen (c := .hdlcEnable m c v)
    (f := fun s => s.regWrite m .HDLC_CH_CFG c.toNat 0 (v ||| 1)) rfl hset
    (not_settles hi (by decide) (by decide))
  refine ⟨t, ht, ?_, hans, honly⟩
  rw [hreg]
  exact merge_and_rw _ _ _

theorem ends_hdlcDisable : Ends (.hdlcDisable m c v) s fun t =>
    t.f F.HDLC_CH_CFG_EN c.toNat = 0 ∧ t.hd c.toNat = { s.hd c.toNat with off := true } ∧
      (∀ k, k ≠ c.toNat → t.hd k = s.hd k) ∧ Answered m 0 false t ∧
      Only [.hdlc, .last] [RegKind.HDLC_CH_CFG.addr c.toNat 0] [] s t := by
  have hi : RegKind.HDLC_CH_CFG.has c.toNat 0 := ⟨c.isLt, by decide⟩
  let w : Word := v &&& 0xFFFFFFFE
  have hclear : w.getLsbD 0 = false := by simp [w]
  let u := s.plainWrite ⟨.HDLC_CH_CFG, c.toNat, 0, false⟩ w
  have hw : s.writeReg m ⟨.HDLC_CH_CFG, c.toNat, 0, false⟩ w =
      (u.setHd c.toNat { s.hd c.toNat with off := true }, false) := by
    have hgood : s.hdlcWriteBad .HDLC_CH_CFG c.toNat w = false := by
      unfold State.hdlcWriteBad
      rw [hclear]
      simp
    rw [writeReg_hdlcCfg, hgood]
    exact congrArg noErr (if_pos ⟨rfl, hclear⟩)
  refine ends_write rfl h hi (by decide) rfl hw fun t ht => ⟨?_, ?_, fun k hk => ?_, ht.answered, ?_⟩
  · rw [ht.field _ _ _ (not_settles hi (by decide) (by decide))]
    show fieldOf (u.reg .HDLC_CH_CFG c.toNat) 0 1 = 0
    have hreg : u.reg .HDLC_CH_CFG c.toNat = RegKind.HDLC_CH_CFG.info.merge (s.reg .HDLC_CH_CFG c.toNat) w :=
      State.setReg_reg _ _ _ _ _
    rw [hreg, fieldOf_merge _ _ _ (by decide) (by decide), fieldOf_one, hclear]
    rfl
  · exact (ht.hd _).trans (State.setHd_hd _ _ _)
  · exact (ht.hd k).trans (State.setHd_hd_ne _ _ hk)
  · have hset : Only [.hdlc, .last] [RegKind.HDLC_CH_CFG.addr c.toNat 0] [] s u :=
      .setReg s .HDLC_CH_CFG _ c.toNat 0 _ (.inl (by simp))
    exact (hset.trans ((Only.setHd u _ _ _).mono (by simp) (List.Subset.refl _))).answered ht (by simp)

end

end Sys2Proof.Machine
end

section
/-!
PROOFS. Received HDLC frames: their octets, the entry that RXQ takes, and the checks of HDLC_FRAME_RECEIVED (R324 to
R329, R338).
-/
namespace Sys2Proof.Machine

/-! ### Octets and parts of a frame (R321, R328) -/

/-- A byte is read back from its bits. -/
theorem octet_bits (b : Byte) :
    BitVec.ofNat 8 ((bitsOf b).reverse.foldr (fun b a => 2 * a + if b then 1 else 0) 0) = b := by
  revert b; decide

theorem octets_octetBits (bs : List Byte) : octets bs.length (octetBits bs) = bs := by
  induction bs with
  | nil => rfl
  | cons b bs ih =>
    have hlen : (bitsOf b).reverse.length = 8 := rfl
    have hbits : octetBits (b :: bs) = (bitsOf b).reverse ++ octetBits bs := rfl
    rw [List.length_cons, octets, hbits, List.take_left' hlen, List.drop_left' hlen, octet_bits, ih]

theorem fcsOf_length (wide : Bool) (data : List Byte) : (fcsOf wide data).length = if wide then 4 else 2 := by
  cases wide <;> exact leBytes_length _ _

/-- Data that fits one entry is not split. -/
theorem chunks_one {k : Nat} {data : List Byte} (h : data ≠ []) (hk : data.length ≤ k) :
    chunks k data.length data = [data] := by
  cases data with
  | nil => exact absurd rfl h
  | cons b bs =>
    rw [List.length_cons, chunks, List.take_of_length_le hk, List.drop_of_length_le hk]
    · cases bs <;> rfl
    · simp

theorem chunks_length_pos {k : Nat} {data : List Byte} (h : data ≠ []) : 0 < (chunks k data.length data).length := by
  cases data with
  | nil => exact absurd rfl h
  | cons b bs => exact Nat.succ_pos _

/-! ### Entries beyond the tail (R325) -/

theorem pondWrite_only (s : State) (m p a : Nat) (bs : List Byte) :
    Only [.mem, .ecc] eccRegs [] s (s.pondWrite m p a bs).1 := by
  have hread := eccRead_only s m p
    ((wordsOf a bs.length).filter fun w => !decide (a ≤ w * 8 ∧ w * 8 + 8 ≤ a + bs.length))
  unfold State.pondWrite
  dsimp only
  split
  next he =>
    rw [he] at hread
    exact ((hread.trans (.foldl (fun u w => .setEcc u w _ _) _ _)).mono (by simp) (List.Subset.refl _)).trans
      ((Only.setBytes _ a bs _).mono (by simp) (List.Subset.refl _))
  next he =>
    rw [he] at hread
    exact hread.mono (by simp) (List.Subset.refl _)

theorem hdlcWrite_only (s : State) (c q n i : Nat) (w : Word) (parts : List (List Byte)) :
    Only [.mem, .ecc] eccRegs [] s (s.hdlcWrite c q n w i parts).1 := by
  induction parts generalizing s i with
  | nil => exact .refl _ _ s
  | cons d parts ih =>
    have hwrite := pondWrite_only s 0x30 2 (qAddr (s.queue q) ((s.queue q).tail + BitVec.ofNat 17 i))
      (hdlcEntry c w (i = 0) (i + 1 = n) d)
    unfold State.hdlcWrite
    dsimp only
    split
    next he => rw [he] at hwrite; exact hwrite.trans (ih _ _)
    next he => rw [he] at hwrite; exact hwrite

theorem hdlcStore_only (s : State) (c : Nat) (f : HdlcRx) (data : List Byte) :
    Only [.mem, .ecc] eccRegs [] s (s.hdlcStore c f data).1 := by
  unfold State.hdlcStore
  dsimp only
  split
  · exact .refl _ _ s
  · exact hdlcWrite_only _ _ _ _ _ _ _

theorem hdlcStore_noRoom {s : State} {c : Nat} (hroom : s.hdlcRoom c = 0) {data : List Byte} (h : data ≠ [])
    (f : HdlcRx) : s.hdlcStore c f data = (s, false) := by
  unfold State.hdlcStore
  dsimp only
  rw [hroom, List.take_zero]
  split
  · rfl
  · exact congrArg (Prod.mk s) (decide_eq_false (Nat.not_le.mpr (chunks_length_pos h)))

/-- A frame of one entry is written at the tail. -/
theorem hdlcStore_one {s : State} {c q : Nat} (hq : (s.hd c).rxq = q) (hroom : s.hdlcRoom c ≠ 0) {f : HdlcRx}
    (hlost : f.lost = false) {data : List Byte} (h : data ≠ []) (hfit : data.length ≤ qEsize (s.queue q) - 8)
    (hue : NoUe (qAddr (s.queue q) (s.queue q).tail) (hdlcEntry c f.stamp true true data).length s) :
    ∃ u, s.hdlcStore c f data = (u, true) ∧
      Placed (qAddr (s.queue q) (s.queue q).tail) (hdlcEntry c f.stamp true true data) s u ∧
      Only [.mem, .ecc] eccRegs [] s u := by
  subst hq
  obtain ⟨u, hu, hplaced, honly⟩ := pondWrite_good hue 0x30 2
  have hwrite : s.hdlcWrite c (s.hd c).rxq 1 f.stamp 0 [data] = (u, true) := by
    simp only [State.hdlcWrite, BitVec.add_zero, decide_true, hu]
  refine ⟨u, ?_, hplaced, honly⟩
  unfold State.hdlcStore
  dsimp only
  rw [hlost, chunks_one h hfit, List.take_of_length_le (Nat.one_le_iff_ne_zero.mpr hroom), if_neg (by simp)]
  simp only [List.length_singleton, hwrite, Bool.true_and, Prod.mk.injEq, true_and, decide_eq_true_eq]
  omega

/-- RXQ has room for no entry, or for some. -/
theorem hdlcRoom_eq_zero_iff (s : State) (c : Nat) : s.hdlcRoom c = 0 ↔
    s.hdlcHeld c = true ∨ s.qLive (s.hd c).rxq (s.queue (s.hd c).rxq) = false ∨
      qEsize (s.queue (s.hd c).rxq) < 16 ∨ qDepth (s.queue (s.hd c).rxq) ≤ qFill (s.queue (s.hd c).rxq) := by
  unfold State.hdlcRoom
  dsimp only
  split
  next h =>
    simp only [Bool.or_eq_true, Bool.not_eq_true', decide_eq_true_eq] at h
    tauto
  next h =>
    simp only [Bool.or_eq_true, Bool.not_eq_true', decide_eq_true_eq] at h
    rw [Nat.sub_eq_zero_iff_le]
    tauto

/-! ### The checks (R324) -/

/-- The frame's length passes the checks. -/
structure HdlcRx.Whole (f : HdlcRx) (h : Hdlc) : Prop where
  ended : f.aborted = false
  aligned : f.count % 8 = 0
  long : h.fcsLen < f.count / 8
  short : f.count / 8 ≤ h.maxLen + h.fcsLen

section
variable {s : State} {c : Nat} {f : HdlcRx}

theorem hdlcCheck_aborted (h : f.aborted = true) : s.hdlcCheck c f = s.hdlcCount c 9 F.HDLC_CNT_FCS_ABORT_ABORT :=
  if_pos h

theorem hdlcCheck_misaligned (hab : f.aborted = false) (h : f.count % 8 ≠ 0) :
    s.hdlcCheck c f = s.hdlcCount c 12 F.HDLC_CNT_ALIGN_NOBUF_ALIGN := by
  unfold State.hdlcCheck
  dsimp only
  rw [if_neg (by simp [hab]), if_pos h]

theorem hdlcCheck_short (hab : f.aborted = false) (hal : f.count % 8 = 0) (h : f.count / 8 ≤ (s.hd c).fcsLen) :
    s.hdlcCheck c f = s.hdlcCount c 10 F.HDLC_CNT_SHORT_LONG_SHORT := by
  unfold State.hdlcCheck
  dsimp only
  rw [if_neg (by simp [hab]), if_neg (by simp [hal]), if_pos h]

theorem hdlcCheck_long (hab : f.aborted = false) (hal : f.count % 8 = 0)
    (h : (s.hd c).maxLen + (s.hd c).fcsLen < f.count / 8) :
    s.hdlcCheck c f = s.hdlcCount c 11 F.HDLC_CNT_SHORT_LONG_LONG := by
  unfold State.hdlcCheck
  dsimp only
  rw [if_neg (by simp [hab]), if_neg (by simp [hal]), if_neg (by omega), if_pos h]

theorem hdlcCheck_wrongFcs (hw : f.Whole (s.hd c))
    (h : fcsOf ((s.hd c).cfg.getLsbD 4) ((octets (f.count / 8) f.bits).take (f.count / 8 - (s.hd c).fcsLen)) ≠
      (octets (f.count / 8) f.bits).drop (f.count / 8 - (s.hd c).fcsLen)) :
    ∃ body, s.hdlcCheck c f = (s.hdlcStore c f body).1.hdlcCount c 8 F.HDLC_CNT_FCS_ABORT_FCS_ERR := by
  obtain ⟨hab, hal, hlong, hshort⟩ := hw
  unfold State.hdlcCheck
  dsimp only
  rw [if_neg (by simp [hab]), if_neg (by simp [hal]), if_neg (by omega), if_neg (by omega), if_pos h]
  exact ⟨_, rfl⟩

end

/-- A frame of these octets and their FCS. -/
def HdlcRx.good (h : Hdlc) (data : List Byte) (stamp : Word) : HdlcRx :=
  ⟨octetBits (data ++ fcsOf (h.cfg.getLsbD 4) data), 8 * (data.length + h.fcsLen), false, stamp, false⟩

/-- Where no address is filtered and the FCS is not stored, a good frame's data is published, or found no room. -/
theorem hdlcCheck_good {s : State} {c : Nat} {data : List Byte} (hpos : 1 ≤ data.length)
    (hmax : data.length ≤ (s.hd c).maxLen) (hlim : (s.hd c).lim.getLsbD 24 = false)
    (hcfg : (s.hd c).cfg.getLsbD 10 = false) (stamp : Word) {f : HdlcRx} (hf : f = .good (s.hd c) data stamp) :
    s.hdlcCheck c f = if (s.hdlcStore c f data).2 then (s.hdlcStore c f data).1.hdlcPublish c data
      else (s.hdlcStore c f data).1.hdlcCount c 13 F.HDLC_CNT_ALIGN_NOBUF_NOBUF := by
  have hab : f.aborted = false := by rw [hf]; rfl
  have hcount : f.count = 8 * (data.length + (s.hd c).fcsLen) := by rw [hf]; rfl
  have hn : f.count / 8 = data.length + (s.hd c).fcsLen := by omega
  have hoctets : octets (f.count / 8) f.bits = data ++ fcsOf ((s.hd c).cfg.getLsbD 4) data := by
    have hlen : (data ++ fcsOf ((s.hd c).cfg.getLsbD 4) data).length = f.count / 8 := by
      rw [List.length_append, fcsOf_length, hn]; rfl
    rw [← hlen, hf]
    exact octets_octetBits _
  have hdata : (s.hd c).dataLen f.count = f.count / 8 - (s.hd c).fcsLen := by
    unfold Hdlc.dataLen
    rw [hcfg]
    rfl
  unfold State.hdlcCheck
  dsimp only
  rw [if_neg (by simp [hab]), if_neg (by omega), if_neg (by omega), if_neg (by omega), hdata, hoctets, hn,
    Nat.add_sub_cancel, List.take_left, List.drop_left, if_neg (by simp), hlim, if_neg (by simp)]

/-! ### HDLC_FRAME_RECEIVED -/

/-- The oldest closed frame is taken off the list. -/
def State.hdRest (s : State) (c : Nat) (rest : List HdlcRx) : State := s.setHd c { s.hd c with done := rest }

theorem hdRest_hd (s : State) (c : Nat) (rest : List HdlcRx) :
    (s.hdRest c rest).hd c = { s.hd c with done := rest } := s.setHd_hd c _

theorem hdlcReceive_cons {s : State} {c : Nat} {f : HdlcRx} {rest : List HdlcRx} (h : (s.hd c).done = f :: rest) :
    s.hdlcReceive c = (s.hdRest c rest).hdlcCheck c f := by
  unfold State.hdlcReceive
  dsimp only
  rw [h]
  rfl

theorem ends_whileFab {c : Instr} {s : State} {f : State → State} {P : State → Prop}
    (hc : exec c s = run (fun s => s.whileFab f) s) (hup : s.fabUp = true) (hP : ∀ t, Settling (f s) t → P t) :
    Ends c s P :=
  ends_run hc fun t ht => hP t (by rwa [State.whileFab, if_pos hup] at ht)

section
variable {c : BitVec 8} {s : State} (hup : s.fabUp = true) {f : HdlcRx} {rest : List HdlcRx}
  (hdone : (s.hd c.toNat).done = f :: rest)
include hup hdone

/-- The frame is counted, after a change of pond memory at most, and gone. -/
theorem ends_frameCounted {v : State} {bit : Nat} {g : FieldRef} {ps : List Part} {rs : List Nat}
    (hcheck : (s.hdRest c.toNat rest).hdlcCheck c.toNat f = v.hdlcCount c.toNat bit g)
    (hv : Only ps rs [] (s.hdRest c.toNat rest) v) (hps : Part.hdlc ∉ ps) (hg : g.HdCount) (hbit : bit < 15)
    (hrs : rs ⊆ eccRegs) :
    Ends (.hdlcFrameReceived c) s fun t =>
      Counted g c.toNat s t ∧ (t.reg .HDLC_CH_STATUS c.toNat).getLsbD bit = true ∧
        t.hd c.toNat = { s.hd c.toNat with done := rest, evt := (t.hd c.toNat).evt } ∧
        (∀ k, k ≠ c.toNat → t.hd k = s.hd k) ∧ Only (.hdlc :: ps) (hdRegs c.toNat ++ rs) [] s t := by
  refine ends_whileFab (f := fun s => s.hdlcReceive c.toNat) rfl hup fun t ht => ?_
  rw [hdlcReceive_cons hdone, hcheck] at ht
  obtain ⟨hcounted, ⟨e, he⟩, hothers, honly⟩ := hdlcCount_counted hg c.isLt v bit
  obtain ⟨hi, hsettles⟩ := hdCountKinds_has hg.1 c.isLt
  have hhd (k : Nat) : v.hd k = (s.hdRest c.toNat rest).hd k := State.hd_congr (hv.kept .hdlc (by simpa using hps)) k
  have hfield : v.f g c.toNat = s.f g c.toNat :=
    hv.regs.field g _ _ (fun hm => eccRegs_spare (List.mem_cons_of_mem _ hg.1) hi (hrs hm)) hsettles
  refine ⟨?_, ?_, ?_, fun k hk => ?_, ?_⟩
  · rw [Counted, ht.field _ _ _ hsettles, hcounted, hfield]
  · exact State.getLsbD_of_f ((ht.field _ _ _ (hdStatus_has c.isLt).2).trans (hdlcCount_bit hg c.isLt v hbit))
  · rw [ht.hd, he, hhd, hdRest_hd]
  · rw [ht.hd, hothers k hk, hhd]
    exact s.setHd_hd_ne _ hk
  · have hrest : Only [.hdlc] [] [] s (s.hdRest c.toNat rest) := .setHd s _ _ _
    exact ((((hrest.mono (by simp) (by simp)).trans (hv.mono (by simp) (List.subset_append_right _ _))).trans
      (honly.mono (by simp) (List.subset_append_left _ _)))).settled ht

/-- A frame that the first checks refuse. -/
theorem ends_frameRefused {bit : Nat} {g : FieldRef}
    (hcheck : (s.hdRest c.toNat rest).hdlcCheck c.toNat f = (s.hdRest c.toNat rest).hdlcCount c.toNat bit g)
    (hg : g.HdCount) (hbit : bit < 15) :
    Ends (.hdlcFrameReceived c) s fun t =>
      Counted g c.toNat s t ∧ (t.reg .HDLC_CH_STATUS c.toNat).getLsbD bit = true ∧
        t.hd c.toNat = { s.hd c.toNat with done := rest, evt := (t.hd c.toNat).evt } ∧
        (∀ k, k ≠ c.toNat → t.hd k = s.hd k) ∧ Only [.hdlc] (hdRegs c.toNat) [] s t := by
  obtain ⟨t, ht, hcounted, hset, hhd, hothers, honly⟩ :=
    ends_frameCounted hup hdone hcheck (Only.refl [] [] _) (by simp) hg hbit (by simp)
  exact ⟨t, ht, hcounted, hset, hhd, hothers, by rwa [List.append_nil] at honly⟩

end

/-! ### Good frames (R325 to R328, R338) -/

theorem hdRest_room (s : State) (c : Nat) (rest : List HdlcRx) : (s.hdRest c rest).hdlcRoom c = s.hdlcRoom c := by
  unfold State.hdlcRoom State.hdlcHeld
  rw [hdRest_hd]
  rfl

section
variable {c : BitVec 8} {s : State} (hup : s.fabUp = true) {f : HdlcRx} {rest : List HdlcRx}
  (hdone : (s.hd c.toNat).done = f :: rest) {data : List Byte} (hf : f = .good (s.hd c.toNat) data f.stamp)
  (hpos : 1 ≤ data.length) (hmax : data.length ≤ (s.hd c.toNat).maxLen)
  (hlim : (s.hd c.toNat).lim.getLsbD 24 = false) (hcfg : (s.hd c.toNat).cfg.getLsbD 10 = false)
include hf hpos hmax hlim hcfg

/-- The channel's other closed frames have no part in the check. -/
theorem hdRest_check {u : State} {stored : Bool}
    (hu : (s.hdRest c.toNat rest).hdlcStore c.toNat f data = (u, stored)) :
    (s.hdRest c.toNat rest).hdlcCheck c.toNat f = if stored then u.hdlcPublish c.toNat data
      else u.hdlcCount c.toNat 13 F.HDLC_CNT_ALIGN_NOBUF_NOBUF := by
  rw [hdlcCheck_good (data := data) hpos (by rwa [hdRest_hd]) (by rwa [hdRest_hd]) (by rwa [hdRest_hd]) f.stamp
    (by rw [hdRest_hd]; exact hf), hu]

include hup hdone

/-- Without room, or while the channel is held, a good frame is counted (R338). -/
theorem ends_frameNoBuf (hroom : s.hdlcRoom c.toNat = 0) :
    Ends (.hdlcFrameReceived c) s fun t =>
      Counted F.HDLC_CNT_ALIGN_NOBUF_NOBUF c.toNat s t ∧ (t.reg .HDLC_CH_STATUS c.toNat).getLsbD 13 = true ∧
        t.hd c.toNat = { s.hd c.toNat with done := rest, evt := (t.hd c.toNat).evt } ∧
        (∀ k, k ≠ c.toNat → t.hd k = s.hd k) ∧ Only [.hdlc] (hdRegs c.toNat) [] s t :=
  have hstore := hdlcStore_noRoom ((hdRest_room s c.toNat rest).trans hroom) (List.ne_nil_of_length_pos hpos) f
  ends_frameRefused hup hdone (hdRest_check hf hpos hmax hlim hcfg hstore) (by decide) (by decide)

omit hup in
/-- With room for it, the frame's entry stands at the tail, which moves on, and the frame is counted. -/
theorem hdlcReceive_room {q : Nat} (hq : (s.hd c.toNat).rxq = q) (hroom : s.hdlcRoom c.toNat ≠ 0)
    (hfit : data.length ≤ qEsize (s.queue q) - 8)
    (hue : NoUe (qAddr (s.queue q) (s.queue q).tail) (hdlcEntry c.toNat f.stamp true true data).length s) :
    ∃ v, Placed (qAddr (s.queue q) (s.queue q).tail) (hdlcEntry c.toNat f.stamp true true data) s v ∧
      Only [.mem, .ecc] eccRegs [] (s.hdRest c.toNat rest) v ∧ s.hdlcReceive c.toNat =
        (v.setQueue q { s.queue q with tail := (s.queue q).tail + 1 }).hdlcGood c.toNat F.HDLC_CNT_RX_FRAMES_RX := by
  have hrest : (s.hdRest c.toNat rest).hd c.toNat = { s.hd c.toNat with done := rest } := hdRest_hd s _ _
  have hdata : data ≠ [] := List.ne_nil_of_length_pos hpos
  obtain ⟨v, hv, hplaced, hstored⟩ := hdlcStore_one (s := s.hdRest c.toNat rest) (q := q) (by rw [hrest]; exact hq)
    (by rwa [hdRest_room]) (by rw [hf]; rfl) hdata hfit hue
  refine ⟨v, hplaced, hstored, ?_⟩
  have hqueue : v.queue q = s.queue q := State.queue_congr (hstored.kept .queues (by simp)) q
  have hvq : (v.hd c.toNat).rxq = q := by
    rw [State.hd_congr (hstored.kept .hdlc (by simp)), hrest]
    exact hq
  rw [hdlcReceive_cons hdone, hdRest_check hf hpos hmax hlim hcfg hv, if_pos rfl]
  unfold State.hdlcPublish
  dsimp only
  rw [hvq, hqueue, chunks_one hdata hfit]
  rfl

/-- A good frame of one entry is published. -/
theorem ends_framePublished {q : Nat} (hq : (s.hd c.toNat).rxq = q) (hroom : s.hdlcRoom c.toNat ≠ 0)
    (hfit : data.length ≤ qEsize (s.queue q) - 8)
    (hue : NoUe (qAddr (s.queue q) (s.queue q).tail) (hdlcEntry c.toNat f.stamp true true data).length s) :
    Ends (.hdlcFrameReceived c) s fun t =>
      Placed (qAddr (s.queue q) (s.queue q).tail) (hdlcEntry c.toNat f.stamp true true data) s t ∧
        t.queue q = { s.queue q with tail := (s.queue q).tail + 1 } ∧ (∀ k, k ≠ q → t.queue k = s.queue k) ∧
        Counted F.HDLC_CNT_RX_FRAMES_RX c.toNat s t ∧
        t.hd c.toNat = { s.hd c.toNat with done := rest, evt := (t.hd c.toNat).evt } ∧
        (∀ k, k ≠ c.toNat → t.hd k = s.hd k) ∧
        Only [.hdlc, .queues, .mem, .ecc] (hdRegs c.toNat ++ eccRegs) [] s t := by
  refine ends_whileFab (f := fun s => s.hdlcReceive c.toNat) rfl hup fun t ht => ?_
  obtain ⟨v, hplaced, hstored, hreceive⟩ := hdlcReceive_room hdone hf hpos hmax hlim hcfg hq hroom hfit hue
  rw [hreceive] at ht
  let w := v.setQueue q { s.queue q with tail := (s.queue q).tail + 1 }
  have hg : F.HDLC_CNT_RX_FRAMES_RX.HdCount := by decide
  obtain ⟨hcounted, ⟨e, he⟩, hothers, honly⟩ := hdlcGood_counted hg c.isLt w
  obtain ⟨hi, hsettles⟩ := hdCountKinds_has hg.1 c.isLt
  have hhd (k : Nat) : w.hd k = (s.hdRest c.toNat rest).hd k := State.hd_congr (hstored.kept .hdlc (by simp)) k
  have hfield : w.f F.HDLC_CNT_RX_FRAMES_RX c.toNat = s.f F.HDLC_CNT_RX_FRAMES_RX c.toNat :=
    hstored.regs.field _ _ _ (eccRegs_spare (by decide) hi) hsettles
  have hmem : t.mem = v.mem := ht.memory.1.trans (honly.kept .mem (by simp))
  have hqueue (k : Nat) : t.queue k = w.queue k :=
    (ht.queue k).trans (State.queue_congr (honly.kept .queues (by simp)) k)
  refine ⟨fun a => ?_, (hqueue q).trans (State.setQueue_queue _ _ _), fun k hk => ?_, ?_, ?_, fun k hk => ?_, ?_⟩
  · rw [State.byte_congr hmem]
    exact hplaced a
  · exact (hqueue k).trans ((State.setQueue_queue_ne _ _ hk).trans
      (State.queue_congr (hstored.kept .queues (by simp)) k))
  · rw [Counted, ht.field _ _ _ hsettles, hcounted, hfield]
  · rw [ht.hd, he, hhd, hdRest_hd]
  · rw [ht.hd, hothers k hk, hhd]
    exact s.setHd_hd_ne _ hk
  · have hrest : Only [.hdlc] [] [] s (s.hdRest c.toNat rest) := .setHd s _ _ _
    have htail : Only [.queues] [] [] v w := .setQueue v q _ _
    exact ((((hrest.mono (by simp) (by simp)).trans (hstored.mono (by simp) (List.subset_append_right _ _))).trans
      (htail.mono (by simp) (by simp))).trans (honly.mono (by simp) (List.subset_append_left _ _))).settled ht

end

end Sys2Proof.Machine
end

section
/-!
PROOFS. Transmitted HDLC frames: what HDLC_FRAME_TRANSMIT takes of TXQ and sends (R330, R331, R333), and O43.
-/
namespace Sys2Proof.Machine

/-! ### Reading an entry twice -/

theorem foldl_setEcc_ue (l : List Nat) {s : State} {w : Nat} (h : (s.eccOf w).ue = false) :
    ((l.foldl (fun s w => s.setEcc w .good) s).eccOf w).ue = false := by
  induction l generalizing s with
  | nil => exact h
  | cons x l ih =>
    refine ih ?_
    by_cases hx : w = x
    · subst hx; rw [State.setEcc_ecc_same]; rfl
    · rwa [State.setEcc_ecc_ne _ _ hx]

/-- A read makes no word uncorrectable. -/
theorem eccRead_ue {s : State} {w : Nat} (h : (s.eccOf w).ue = false) (m p : Nat) (ws : List Nat) :
    ((s.eccRead m p ws).1.eccOf w).ue = false := by
  obtain ⟨u, hu, ⟨-, he⟩ | ⟨-, he⟩⟩ := eccRead_cases s m p ws
  · rw [he]
    refine foldl_setEcc_ue _ ?_
    rwa [← hu]
  · rw [he, ← hu]
    exact h

theorem pondRead_noUe {s : State} {a len : Nat} (h : NoUe a len s) (m p b n : Nat) :
    NoUe a len (s.pondRead m p b n).1 := fun w hw => by
  have hread := eccRead_ue (h w hw) m p (wordsOf b n)
  unfold State.pondRead
  split
  next he => rwa [he] at hread
  next he => rwa [he] at hread

/-- The length of an entry's data stands in its first two bytes (R328). -/
theorem leNat_len (bs : List Byte) : leNat (bs.take 2) = (bs.getD 0 0).toNat + 256 * (bs.getD 1 0).toNat := by
  match bs with
  | [] => rfl
  | [x] => rfl
  | x :: y :: l => rfl

/-! ### Entries of TXQ (R330) -/

/-- The entries that wait for channel `c` can be taken. -/
structure TxReady (c : Nat) (s : State) : Prop where
  on : (s.hd c).on = true
  free : s.hdlcHeld c = false
  waiting : s.qNothing (s.hd c).txq = false
  pos : 1 ≤ ((s.hd c).ready - (s.queue (s.hd c).txq).head).toNat
  fill : ((s.hd c).ready - (s.queue (s.hd c).txq).head).toNat ≤ qFill (s.queue (s.hd c).txq)

theorem TxReady.count {c : Nat} {s : State} (h : TxReady c s) :
    s.hdlcReady c = ((s.hd c).ready - (s.queue (s.hd c).txq).head).toNat := by
  obtain ⟨hon, hfree, hsome, -, hfill⟩ := h
  unfold State.hdlcReady
  dsimp only
  rw [hon, hfree, hsome, decide_eq_false (Nat.not_lt.mpr hfill)]
  rfl

section
variable {s u : State} {c q : Nat} (hready : TxReady c s) (hq : (s.hd c).txq = q) {e : List Byte}
  (hu : s.qRead 0x30 q (s.queue q).head = (u, some e))
include hready hq hu

/-- An entry without FIRST at the head of TXQ. -/
theorem hdlcTransmit_stray (hfirst : (e.getD 2 0).getLsbD 0 = false) :
    s.hdlcTransmit c = u.hdlcStray c (s.hdlcReady c) ((e.getD 2 0).getLsbD 2) := by
  subst hq
  have hpos : s.hdlcReady c ≠ 0 := by rw [hready.count]; have := hready.pos; omega
  unfold State.hdlcTransmit
  dsimp only
  rw [if_neg hpos, hu]
  dsimp only
  rw [hfirst]
  rfl

/-- A frame of one entry. -/
theorem hdlcTransmit_one {v : State} (hv : u.qRead 0x30 q (u.queue q).head = (v, some e))
    (hfirst : (e.getD 2 0).getLsbD 0 = true) (hlast : (e.getD 2 0).getLsbD 1 = true)
    (habort : (e.getD 2 0).getLsbD 2 = false) {data : List Byte} (hdata : (e.drop 8).take (leNat (e.take 2)) = data) :
    s.hdlcTransmit c = (v.qTake q 1).setHd c
      ((u.hd c).send (octetBits (data ++ fcsOf ((u.hd c).cfg.getLsbD 4) data)) false) := by
  subst hq
  obtain ⟨n, hn⟩ : ∃ n, s.hdlcReady c = n + 1 :=
    Nat.exists_eq_add_one.mpr (by rw [hready.count]; exact hready.pos)
  have hscan : u.hdlcScan (s.hd c).txq (n + 1) 0 = (v, data, 1, .last) := by
    unfold State.hdlcScan
    rw [show (u.queue (s.hd c).txq).head + BitVec.ofNat 17 0 = (u.queue (s.hd c).txq).head from BitVec.add_zero _, hv]
    dsimp only
    rw [habort, hlast, hdata]
    rfl
  unfold State.hdlcTransmit
  dsimp only
  rw [hn, if_neg (Nat.succ_ne_zero n), hu]
  dsimp only
  rw [hfirst, hscan]
  rfl

end

/-! ### What is sent (R331 to R333) -/

/-- The flags that open a frame after those that the stream ends with. -/
def Hdlc.opening (h : Hdlc) : Nat := max (if h.flags = 0 then 1 else 0) (fieldOf h.cfg 6 4 + 1 - h.flags)

theorem opening_enough (h : Hdlc) : fieldOf h.cfg 6 4 + 1 ≤ h.opening + h.flags ∧ 1 ≤ h.opening + h.flags := by
  unfold Hdlc.opening
  split <;> omega

theorem flags_length (n : Nat) : (List.replicate n flagBits).flatten.length = 8 * n := by
  rw [List.length_flatten, List.map_replicate, List.sum_replicate, smul_eq_mul, Nat.mul_comm]
  rfl

/-- A frame is appended after its opening flags, and its place in the stream is kept. -/
theorem send_good (h : Hdlc) (body : List Bool) :
    (h.send body false).txBits =
        h.txBits ++ (List.replicate h.opening flagBits).flatten ++ stuff body 0 ++ flagBits ∧
      (h.send body false).frames =
        h.frames ++ [(h.txBits.length + 8 * h.opening, (h.send body false).txBits.length)] := by
  refine ⟨rfl, ?_⟩
  have hstart : (h.txBits ++ (List.replicate h.opening flagBits).flatten).length = h.txBits.length + 8 * h.opening := by
    rw [List.length_append, flags_length]
  rw [← hstart]
  rfl

/-! ### HDLC_FRAME_TRANSMIT -/

/-- One entry of queue `q` is taken, of channel `c`'s record only what it sends changes, and all else stays. -/
structure EntryTaken (c q : Nat) (s t : State) : Prop where
  queue : t.queue q = (s.qAdvance q).queue q
  queues : ∀ k, k ≠ q → t.queue k = s.queue k
  hd : t.hd c = { s.hd c with txBits := (t.hd c).txBits, frames := (t.hd c).frames, flags := (t.hd c).flags,
                              evt := (t.hd c).evt }
  others : ∀ k, k ≠ c → t.hd k = s.hd k
  only : Only [.hdlc, .queues, .ecc] (hdRegs c ++ eccRegs) [] s t

/-- An entry is read and taken. -/
theorem qAdvance_read {s v : State} (hv : Only [.ecc] eccRegs [] s v) (q : Nat) :
    (v.qAdvance q).queue q = (s.qAdvance q).queue q ∧ (∀ k, k ≠ q → (v.qAdvance q).queue k = s.queue k) ∧
      (∀ k, (v.qAdvance q).hd k = s.hd k) ∧ Only [.queues, .ecc] eccRegs [] s (v.qAdvance q) := by
  have hqueue (k : Nat) : v.queue k = s.queue k := State.queue_congr (hv.kept .queues (by simp)) k
  refine ⟨?_, fun k hk => ?_, fun k => State.hd_congr (hv.kept .hdlc (by simp)) k,
    (hv.mono (by simp) (List.Subset.refl _)).trans ((Only.setQueue v q _ _).mono (by simp) (List.Subset.refl _))⟩
  · rw [qAdvance_eq, qAdvance_eq, hqueue, State.setQueue_queue, State.setQueue_queue]
  · rw [qAdvance_eq, State.setQueue_queue_ne _ _ hk, hqueue]

/-- A change of the channel's record or counts after the entry is taken. -/
theorem EntryTaken.of_read {s v w t : State} {c q : Nat} (hv : Only [.ecc] eccRegs [] s v)
    (hw : Only [.hdlc] (hdRegs c) [] (v.qAdvance q) w) (ht : Settling w t)
    (hhd : w.hd c = { s.hd c with txBits := (w.hd c).txBits, frames := (w.hd c).frames, flags := (w.hd c).flags,
                                  evt := (w.hd c).evt })
    (hothers : ∀ k, k ≠ c → w.hd k = (v.qAdvance q).hd k) : EntryTaken c q s t := by
  obtain ⟨hq, hqueues, hhds, honly⟩ := qAdvance_read hv q
  have hqueue (k : Nat) : t.queue k = (v.qAdvance q).queue k :=
    (ht.queue k).trans (State.queue_congr (hw.kept .queues (by simp)) k)
  refine ⟨(hqueue q).trans hq, fun k hk => (hqueue k).trans (hqueues k hk), ?_,
    fun k hk => (ht.hd k).trans ((hothers k hk).trans (hhds k)), ?_⟩
  · rw [ht.hd]
    exact hhd
  · exact ((honly.mono (by simp) (List.subset_append_right _ _)).trans
      (hw.mono (by simp) (List.subset_append_left _ _))).settled ht

/-- The channel's record after an entry is taken becomes `x`. -/
theorem EntryTaken.sent {s v t : State} {c q : Nat} {x : Hdlc} (hv : Only [.ecc] eccRegs [] s v)
    (ht : Settling ((v.qAdvance q).setHd c x) t)
    (hx : x = { s.hd c with txBits := x.txBits, frames := x.frames, flags := x.flags, evt := x.evt }) :
    t.hd c = x ∧ EntryTaken c q s t := by
  have hset : ((v.qAdvance q).setHd c x).hd c = x := State.setHd_hd _ c x
  exact ⟨(ht.hd c).trans hset, .of_read hv (.setHd _ c x _) ht (by rw [hset]; exact hx)
    fun k hk => State.setHd_hd_ne _ x hk⟩

section
variable {c : BitVec 8} {s : State} (hup : s.fabUp = true) (hready : TxReady c.toNat s) {q : Nat}
  (hq : (s.hd c.toNat).txq = q) (hue : NoUe (qAddr (s.queue q) (s.queue q).head) (qEsize (s.queue q)) s)
  {e : List Byte} (he : s.bytes (qAddr (s.queue q) (s.queue q).head) (qEsize (s.queue q)) = e)
include hup hready hq hue he

/-- A frame of one entry (R330, R331). -/
theorem ends_frameSent (hfirst : (e.getD 2 0).getLsbD 0 = true) (hlast : (e.getD 2 0).getLsbD 1 = true)
    (habort : (e.getD 2 0).getLsbD 2 = false) {data : List Byte} (hdata : (e.drop 8).take (leNat (e.take 2)) = data) :
    Ends (.hdlcFrameTransmit c) s fun t =>
      t.hd c.toNat = (s.hd c.toNat).send (octetBits (data ++ fcsOf ((s.hd c.toNat).cfg.getLsbD 4) data)) false ∧
        t.reg .HDLC_CH_STATUS c.toNat = s.reg .HDLC_CH_STATUS c.toNat ∧ EntryTaken c.toNat q s t := by
  refine ends_whileFab (f := fun s => s.hdlcTransmit c.toNat) rfl hup fun t ht => ?_
  obtain ⟨u, hu, hfirstRead⟩ := pondRead_good hue 0x30 2
  have hqueue : u.queue q = s.queue q := State.queue_congr (hfirstRead.kept .queues (by simp)) q
  have hue' : NoUe (qAddr (s.queue q) (s.queue q).head) (qEsize (s.queue q)) u := by
    have := pondRead_noUe hue 0x30 2 (qAddr (s.queue q) (s.queue q).head) (qEsize (s.queue q))
    rwa [hu] at this
  obtain ⟨v, hv, hsecondRead⟩ := pondRead_good hue' 0x30 2
  have hbytes : u.bytes (qAddr (s.queue q) (s.queue q).head) (qEsize (s.queue q)) = e := by
    rw [← he]
    exact List.map_congr_left fun i _ => State.byte_congr (hfirstRead.kept .mem (by simp)) _
  have huhd : u.hd c.toNat = s.hd c.toNat := State.hd_congr (hfirstRead.kept .hdlc (by simp)) _
  rw [he] at hu
  rw [hbytes] at hv
  have hagain : u.qRead 0x30 q (u.queue q).head = (v, some e) := by
    unfold State.qRead
    dsimp only
    rw [hqueue, hv]
  rw [hdlcTransmit_one hready hq hu hagain hfirst hlast habort hdata, huhd] at ht
  have hread := hfirstRead.trans hsecondRead
  obtain ⟨hhd, htaken⟩ := EntryTaken.sent hread ht rfl
  refine ⟨hhd, ?_, htaken⟩
  obtain ⟨hi, hsettles⟩ := hdStatus_has c.isLt
  rw [ht.reg _ _ _ hsettles]
  exact hread.regs.reg _ _ _ (eccRegs_spare (by decide) hi) hsettles

/-- An entry that belongs to no frame (R333). -/
theorem ends_strayCounted (hfirst : (e.getD 2 0).getLsbD 0 = false) (habort : (e.getD 2 0).getLsbD 2 = false)
    (hone : ((s.hd c.toNat).ready - (s.queue q).head).toNat = 1) :
    Ends (.hdlcFrameTransmit c) s fun t =>
      Counted F.HDLC_CNT_TXERR_TXERR c.toNat s t ∧ (t.hd c.toNat).txBits = (s.hd c.toNat).txBits ∧
        (t.hd c.toNat).frames = (s.hd c.toNat).frames ∧ EntryTaken c.toNat q s t := by
  refine ends_whileFab (f := fun s => s.hdlcTransmit c.toNat) rfl hup fun t ht => ?_
  obtain ⟨u, hu, hread⟩ := pondRead_good hue 0x30 2
  have huhd (k : Nat) : u.hd k = s.hd k := State.hd_congr (hread.kept .hdlc (by simp)) k
  rw [he] at hu
  have hstray : s.hdlcTransmit c.toNat = (u.qAdvance q).hdlcCount c.toNat 14 F.HDLC_CNT_TXERR_TXERR := by
    rw [hdlcTransmit_stray hready hq hu hfirst, hready.count, hq, hone, habort]
    unfold State.hdlcStray
    dsimp only
    rw [huhd, hq]
    rfl
  rw [hstray] at ht
  have hg : F.HDLC_CNT_TXERR_TXERR.HdCount := by decide
  obtain ⟨hcounted, ⟨x, hx⟩, hothers, honly⟩ := hdlcCount_counted hg c.isLt (u.qAdvance q) 14
  obtain ⟨hi, hsettles⟩ := hdCountKinds_has hg.1 c.isLt
  have hhd : (u.qAdvance q).hd c.toNat = s.hd c.toNat := huhd _
  rw [hhd] at hx
  refine ⟨?_, ?_, ?_, .of_read hread honly ht ?_ hothers⟩
  · rw [Counted, ht.field _ _ _ hsettles, hcounted, show (u.qAdvance q).f F.HDLC_CNT_TXERR_TXERR c.toNat =
      s.f F.HDLC_CNT_TXERR_TXERR c.toNat from hread.regs.field _ _ _ (eccRegs_spare (by decide) hi) hsettles]
  · rw [ht.hd, hx]
  · rw [ht.hd, hx]
  · rw [hx]

/-- An ABORT entry cuts the frame in progress short (R333). -/
theorem ends_frameCut {f : Nat × Nat} (hfirst : (e.getD 2 0).getLsbD 0 = false)
    (habort : (e.getD 2 0).getLsbD 2 = true) (hframe : (s.hd c.toNat).frames.getLast? = some f) :
    Ends (.hdlcFrameTransmit c) s fun t => t.hd c.toNat = (s.hd c.toNat).cut f.1 ∧ EntryTaken c.toNat q s t := by
  refine ends_whileFab (f := fun s => s.hdlcTransmit c.toNat) rfl hup fun t ht => ?_
  obtain ⟨u, hu, hread⟩ := pondRead_good hue 0x30 2
  have huhd : u.hd c.toNat = s.hd c.toNat := State.hd_congr (hread.kept .hdlc (by simp)) _
  rw [he] at hu
  have hcut : s.hdlcTransmit c.toNat = (u.qAdvance q).setHd c.toNat ((s.hd c.toNat).cut f.1) := by
    rw [hdlcTransmit_stray hready hq hu hfirst, habort]
    unfold State.hdlcStray
    dsimp only
    rw [huhd, hframe, hq]
    rfl
  rw [hcut] at ht
  exact EntryTaken.sent hread ht rfl

end

/-! ### O43 -/

/-- Settles O43: the checks are taken one after another, and an entry of TXQ by its bits FIRST, LAST and ABORT. -/
theorem hdlcChannelsCheckAndCarryFrames : Obligations.HdlcChannelsCheckAndCarryFrames := by
  intro c s hup n h others status cnt
  refine ⟨fun m v hw => ⟨ends_hdlcEnable_running hw, ends_hdlcEnable_stopped hw, ends_hdlcDisable hw⟩,
    fun f rest hdone => ?_, ?_⟩
  · have hrest : (s.hdRest n rest).hd n = { h with done := rest } := hdRest_hd s n rest
    refine ⟨fun hab => ?_, fun hab hal => ?_, fun hab hal hn => ?_, fun hab hal hn => ?_,
      fun hab hal hlong hshort hfcs => ?_, fun data hf hpos hmax hlim hcfg => ⟨?_, fun hno => ?_⟩⟩
    · exact ends_frameRefused hup hdone (hdlcCheck_aborted hab) (by decide) (by decide)
    · exact ends_frameRefused hup hdone (hdlcCheck_misaligned hab hal) (by decide) (by decide)
    · exact ends_frameRefused hup hdone (hdlcCheck_short hab hal (by rw [hrest]; exact hn)) (by decide) (by decide)
    · exact ends_frameRefused hup hdone (hdlcCheck_long hab hal (by rw [hrest]; exact hn)) (by decide) (by decide)
    · obtain ⟨body, hcheck⟩ := hdlcCheck_wrongFcs (s := s.hdRest n rest) (c := n)
        (by rw [hrest]; exact ⟨hab, hal, hlong, hshort⟩) (by rw [hrest]; exact hfcs)
      exact ends_frameCounted hup hdone hcheck (hdlcStore_only _ _ _ _) (by decide) (by decide) (by decide)
        (List.Subset.refl _)
    · intro hfree hlive hfill hsize hfit hue
      have hroom : s.hdlcRoom n ≠ 0 := by
        rw [Ne, hdlcRoom_eq_zero_iff]
        simp only [not_or]
        exact ⟨by simp [hfree], by simpa using hlive, Nat.not_lt.mpr hsize, Nat.not_le.mpr hfill⟩
      exact ends_framePublished hup hdone hf hpos hmax hlim hcfg rfl hroom (Nat.le_sub_of_add_le hfit) hue
    · have hroom : s.hdlcRoom n = 0 := (hdlcRoom_eq_zero_iff s n).mpr (hno.imp id (Or.imp id .inr))
      obtain ⟨t, ht, hcounted, -, hafter⟩ := ends_frameNoBuf hup hdone hf hpos hmax hlim hcfg hroom
      exact ⟨t, ht, hcounted, hafter⟩
  · intro q e at_ entry taken ready hon hfree hlive hpos hfill hheld hue
    have hfilled : qFill (s.queue q) ≠ 0 := Nat.pos_iff_ne_zero.mp (hpos.trans hfill)
    have hready : TxReady n s :=
      ⟨hon, hfree, (qNothing_eq_false_iff s _).mpr ⟨hlive, hfilled, hheld⟩, hpos, hfill⟩
    have htaken {t : State} (ht : EntryTaken n q s t) : taken t :=
      ⟨by rw [ht.queue, qAdvance_eq, State.setQueue_queue], ht.queues, ht.hd, ht.others, ht.only⟩
    refine ⟨fun hfirst hlast habort => ?_, fun hfirst habort hone => ?_, fun f hfirst habort hframe => ?_⟩
    · obtain ⟨t, ht, hhd, hstatus, hend⟩ :=
        ends_frameSent hup hready (q := q) rfl hue (e := entry) rfl hfirst hlast habort
          (congrArg (fun k => (entry.drop 8).take k) (leNat_len entry))
      obtain ⟨hbits, hframes⟩ := send_good h _
      obtain ⟨hopen, hflag⟩ := opening_enough h
      rw [← hhd] at hbits hframes
      exact ⟨t, ht, ⟨h.opening, hbits, hopen, hflag, hframes⟩, hstatus, htaken hend⟩
    · obtain ⟨t, ht, hcounted, hbits, hframes, hend⟩ :=
        ends_strayCounted hup hready (q := q) rfl hue (e := entry) rfl hfirst habort hone
      exact ⟨t, ht, hcounted, hbits, hframes, htaken hend⟩
    · obtain ⟨t, ht, hhd, hend⟩ := ends_frameCut hup hready (q := q) rfl hue (e := entry) rfl hfirst habort hframe
      refine ⟨t, ht, ?_, htaken hend⟩
      rw [hhd]
      exact (List.append_assoc _ _ _).symm

end Sys2Proof.Machine
end

section
/-!
PROOFS. Instructions that change their own context only, their flags (R390), and O27.
-/
namespace Sys2Proof.Machine

/-! ### Instructions of fixed count on the context -/

section
variable {c : Instr} {n : Nat} {s : State} {d : Ctx} (he : Executes n s) (hn : n < 17)
include he hn

/-- An instruction whose body puts a context in place, after changes that cycles could make. -/
theorem ends_putCtx {g : State → State} {cost : Nat} {pulses : List (Nat × Nat)}
    {body : State → State × Option Trap} (hc : exec c s = run g s) (hg : g s = s.instr n cost pulses body)
    (hbody : ∀ u, Beside n s u → ∃ v, Beside n u v ∧ body u = (v.putCtx n d, none)) :
    Ends c s fun t => Completes [] n s t d := by
  obtain ⟨t, ht, hd, -⟩ := ends_done (P := fun _ => True) (but := []) (regs := []) (d := d) he hn hc hg fun u hu => by
    obtain ⟨v, hv, hb⟩ := hbody u hu
    exact ⟨_, (done_putCtx _ _ _ _ _).of_beside hv, hb, fun _ _ _ _ => trivial⟩
  exact ⟨t, ht, hd.completes⟩

theorem ends_regInstr {g : State → State} {cost : Nat} {f : Ctx → Ctx} (hc : exec c s = run g s)
    (hg : g s = s.regInstr n cost true f) (hd : f (s.ctx n) = d) : Ends c s fun t => Completes [] n s t d := by
  subst hd
  exact ends_putCtx he hn hc hg fun u hu => ⟨u, .refl n u, by rw [hu.completes.ctx]; rfl⟩

theorem ends_immInstr {f : Ctx → Ctx} (hc : exec c s = run (·.immInstr n 0 f) s) (hd : (f (s.ctx n)).next = d) :
    Ends c s fun t => Completes [] n s t d := ends_regInstr he hn hc rfl hd

theorem ends_groupInstr {cost : Nat} {f : Ctx → Ctx} (hc : exec c s = run (·.groupInstr n cost 0 0 f) s)
    (hd : (f (s.ctx n)).next = d) : Ends c s fun t => Completes [] n s t d := ends_regInstr he hn hc rfl hd

end

/-! ### O27 -/

/-- A[31:11] from the operand, A[10:0] as it was (R395). -/
theorem setah_eq (a : Word) (x : BitVec 21) :
    (a &&& 0x7FF#32) ||| (x.setWidth 32 <<< 11) = x ++ a.extractLsb' 0 11 := by
  have hmask : ∀ i < 32, (0x7FF#32).getLsbD i = decide (i < 11) := by decide
  refine BitVec.eq_of_getLsbD_eq fun i hi => ?_
  rw [BitVec.getLsbD_or, BitVec.getLsbD_and, hmask i hi, BitVec.getLsbD_shiftLeft, BitVec.getLsbD_append]
  by_cases h : i < 11
  · simp [h]
  · simp [h, hi]
    omega

theorem putC_eq_mask : ∀ (f : BitVec 5), putC f false = f &&& 0b11110 ∧ putC f true = f ||| 0b00001 := by decide

/-- Settles O27: each is an instruction of fixed count that acts on the context alone. -/
theorem registerInstructionsWriteTheirRegister : Obligations.RegisterInstructionsWriteTheirRegister := by
  intro n x s he c imm next toA gives
  have group {i : Instr} {cost : Nat} {f : Ctx → Ctx} {d : Ctx} (hi : exec i s = run (·.groupInstr n cost 0 0 f) s)
      (hd : (f c).next = d) : gives i d := ends_groupInstr he n.isLt hi hd
  have immX {i : Instr} {f : Ctx → Ctx} {d : Ctx} (hi : exec i s = run (·.immInstr n 0 f) s)
      (hd : (f c).next = d) : gives i d := ends_immInstr he n.isLt hi hd
  have immA {i : Instr} {v : Ctx → Word} {r : Word} (hi : exec i s = run (·.immInstr n 0 fun c => c.setA (v c)) s)
      (hr : v c = r) : gives i (toA r) := immX hi (by rw [hr, setA_next])
  have groupA {i : Instr} {cost : Nat} {v : Ctx → Word} {r : Word}
      (hi : exec i s = run (·.groupInstr n cost 0 0 fun c => c.setA (v c)) s) (hr : v c = r) : gives i (toA r) :=
    group hi (by rw [hr, setA_next])
  have mvas : (c.s.setWidth 32 : Word) = (0 : BitVec 8) ++ c.s := BitVec.setWidth_eq_append (by decide)
  have mvaf : gives (.mvaf n 0 0)
      { next with a := (0 : BitVec 26) ++ (BitVec.ofBool (s.core n.val).inHandler ++ c.f) } :=
    ends_regInstr he n.isLt (g := (·.iMvaf n 0 0)) (cost := 2)
      (f := fun c => ({ c with a := fWord c.f (s.core n.val).inHandler } : Ctx).next) rfl rfl (by rw [← fWord_eq]; rfl)
  obtain ⟨clrc, setc⟩ := putC_eq_mask c.f
  exact ⟨immA rfl rfl, immA rfl (setah_eq c.a x), immX rfl rfl, immX rfl rfl, immA rfl rfl, immA rfl rfl, immA rfl rfl,
    groupA rfl BitVec.xor_allOnes.symm, group rfl rfl, group rfl rfl, group rfl rfl, groupA rfl rfl, groupA rfl rfl,
    group rfl rfl, group rfl rfl, groupA rfl mvas, group rfl rfl, mvaf, group rfl rfl,
    group rfl (by rw [clrc]; rfl), group rfl (by rw [setc]; rfl), group rfl rfl, group rfl rfl⟩

end Sys2Proof.Machine
end

section
/-!
PROOFS. Sums and differences, and the flags of their classes (R390), and O28.
-/
namespace Sys2Proof.Machine

/-! ### Flags (R346, R390) -/

theorem putV_putC_putZN : ∀ (f : BitVec 5) (c z n v : Bool), putV (putC (putZN f z n) c) v = flagsOf f c z n v := by
  decide

/-- A bit as a word is the number that it stands for. -/
theorem bit_word (b : Bool) : (if b then 1 else 0 : Word) = BitVec.ofNat 32 (if b then 1 else 0) := by cases b <;> rfl

theorem bit_int (b : Bool) : (if b then 1 else 0 : Int) = ((if b then 1 else 0 : Nat) : Int) := by cases b <;> rfl

theorem bit_le (b : Bool) : (if b then 1 else 0) ≤ 1 := by cases b <;> decide

/-- The signed value of a word. -/
theorem toInt_cases (a : Word) :
    a.toNat < 2 ^ 31 ∧ a.toInt = a.toNat ∨ 2 ^ 31 ≤ a.toNat ∧ a.toInt = a.toNat - 2 ^ 32 := by
  rw [BitVec.toInt_eq_toNat_cond]
  split <;> omega

theorem msb_word (a : Word) : a.msb = decide (2 ^ 31 ≤ a.toNat) := BitVec.msb_eq_decide a

/-- The exact sum overflows if operands of one sign give the other sign. -/
theorem sum_overflows_iff (a b : Word) {k : Nat} (hk : k ≤ 1) :
    let r := a + b + BitVec.ofNat 32 k
    decide (a.toInt + b.toInt + k ≠ r.toInt) = (a.msb == b.msb && r.msb != a.msb) := by
  intro r
  have hr : r.toNat = (a.toNat + b.toNat + k) % 2 ^ 32 := by
    simp only [r, BitVec.toNat_add, BitVec.toNat_ofNat]; omega
  have ha := toInt_cases a
  have hb := toInt_cases b
  have hs := toInt_cases r
  rw [Bool.eq_iff_iff]
  simp only [decide_eq_true_iff, Bool.and_eq_true, beq_iff_eq, bne_iff_ne, ne_eq, msb_word,
    decide_eq_decide]
  omega

/-- The exact difference overflows if operands of two signs give the subtrahend's sign. -/
theorem difference_overflows_iff (a b : Word) {k : Nat} (hk : k ≤ 1) :
    let r := a - b - BitVec.ofNat 32 k
    decide (a.toInt - b.toInt - k ≠ r.toInt) = (a.msb != b.msb && r.msb != a.msb) := by
  intro r
  have hr : r.toNat = (a.toNat + (2 ^ 33 - b.toNat - k)) % 2 ^ 32 := by
    have hlt := b.isLt
    simp only [r, BitVec.toNat_sub, BitVec.toNat_ofNat]; omega
  have ha := toInt_cases a
  have hb := toInt_cases b
  have hs := toInt_cases r
  rw [Bool.eq_iff_iff]
  simp only [decide_eq_true_iff, Bool.and_eq_true, bne_iff_ne, ne_eq, msb_word,
    decide_eq_decide]
  omega

/-- The add class gives the sum, with the flags of R390. -/
theorem aluAdd_eq (f : BitVec 5) (a b : Word) (cin : Bool) :
    aluAdd f a b cin = ⟨a + b + (if cin then 1 else 0), flagsAdd f a b cin⟩ := by
  simp only [aluAdd, flagsAdd, znOf, putV_putC_putZN, bit_word, bit_int, sum_overflows_iff a b (bit_le cin)]

/-- The subtract class gives the difference, with the flags of R390. -/
theorem aluSub_eq (f : BitVec 5) (a b : Word) (bin : Bool) :
    aluSub f a b bin = ⟨a - b - (if bin then 1 else 0), flagsSub f a b bin⟩ := by
  simp only [aluSub, flagsSub, znOf, putV_putC_putZN, bit_word, bit_int, difference_overflows_iff a b (bit_le bin)]

/-! ### O28 -/

section
variable (c : Ctx) (a b : Word) (k : Bool)

theorem alu_adc_next : (c.alu (aluAdd c.f a b k)).next =
    { c with pc := c.pc + 4, a := a + b + (if k then 1 else 0), f := flagsAdd c.f a b k } := by rw [aluAdd_eq]; rfl

theorem alu_add_next : (c.alu (aluAdd c.f a b false)).next =
    { c with pc := c.pc + 4, a := a + b, f := flagsAdd c.f a b false } := by rw [alu_adc_next]; simp

theorem alu_sbc_next : (c.alu (aluSub c.f a b k)).next =
    { c with pc := c.pc + 4, a := a - b - (if k then 1 else 0), f := flagsSub c.f a b k } := by rw [aluSub_eq]; rfl

theorem alu_sub_next : (c.alu (aluSub c.f a b false)).next =
    { c with pc := c.pc + 4, a := a - b, f := flagsSub c.f a b false } := by rw [alu_sbc_next]; simp

theorem aluCmp_sub_next : (c.aluCmp (aluSub c.f a b k)).next =
    { c with pc := c.pc + 4, f := flagsSub c.f a b k } := by rw [aluSub_eq]; rfl

end

/-- Settles O28: an immediate form or `neg` acts on the context alone, and a form with a memory operand is a load whose
value the sum, the difference or the logic takes. -/
theorem sumsAndDifferencesSetFourFlags : Obligations.SumsAndDifferencesSetFourFlags := by
  intro n s he c next carry gives
  have hn := n.isLt
  have imm {i : Instr} {f : Ctx → Ctx} {d : Ctx} (hi : exec i s = run (·.immInstr n 0 f) s)
      (hd : (f c).next = d) : gives i d := ends_immInstr he hn hi hd
  have load {i : Instr} {sm : BitVec 4} {x : BitVec 21} {v : Word} {f : Ctx → Word → Ctx} {d : Ctx}
      (h : LoadsMem n sm.toNat x.toNat 4 v s)
      (hi : ∀ s, exec i s = run (fun s => s.loadInstr n sm x 4 3 f) s) (hd : (f c v).next = d) : gives i d :=
    hd ▸ ends_load_mem ⟨3, hi⟩ he hn h
  refine ⟨fun x => ⟨imm rfl (alu_add_next _ _ _), imm rfl (aluCmp_sub_next _ _ _ _)⟩,
    ends_groupInstr he hn rfl (alu_sub_next _ _ _), fun sm x v h => ?_⟩
  exact ⟨load h (fun _ => rfl) (alu_add_next _ _ _), load h (fun _ => rfl) (alu_adc_next _ _ _ _),
    load h (fun _ => rfl) (alu_sub_next _ _ _), load h (fun _ => rfl) (alu_sbc_next _ _ _ _),
    load h (fun _ => rfl) (aluCmp_sub_next _ _ _ _), load h (fun _ => rfl) (setA_next _ _),
    load h (fun _ => rfl) (setA_next _ _), load h (fun _ => rfl) (setA_next _ _)⟩

end Sys2Proof.Machine
end

section
/-!
PROOFS. Shifts, products and quotients (R395, R399, R400), and O29.
-/
namespace Sys2Proof.Machine

/-! ### Shifts (R395) -/

section
variable (f : BitVec 5) (a : Word) {k : Nat}

/-- A shifted word with its flags: C is the last bit that moved out, and V is as it was. -/
def shiftedTo (r : Word) (bit k : Nat) : Alu :=
  ⟨r, flagsOf f (if k = 0 then f.getLsbD 0 else a.getLsbD bit) (decide (r = 0)) r.msb (f.getLsbD 3)⟩

theorem putC_putZN : ∀ (f : BitVec 5) (c z n : Bool), putC (putZN f z n) c = flagsOf f c z n (f.getLsbD 3) := by decide

theorem shiftFlags_eq (r : Word) (b : Bool) : (if k = 0 then znOf f r else putC (znOf f r) b) =
    flagsOf f (if k = 0 then f.getLsbD 0 else b) (decide (r = 0)) r.msb (f.getLsbD 3) := by
  split
  · exact znOf_eq_flagsZN f r
  · exact putC_putZN f _ _ _

theorem aluShl_eq : aluShl f a k = shiftedTo f a (BitVec.ofNat 32 (a.toNat * 2 ^ k)) (32 - k) k := by
  have hr : a <<< k = BitVec.ofNat 32 (a.toNat * 2 ^ k) := by
    apply BitVec.eq_of_toNat_eq
    rw [BitVec.toNat_shiftLeft, BitVec.toNat_ofNat, Nat.shiftLeft_eq]
  simp only [aluShl, shiftedTo, hr, shiftFlags_eq]

theorem aluShr_eq : aluShr f a k = shiftedTo f a (BitVec.ofNat 32 (a.toNat / 2 ^ k)) (k - 1) k := by
  have hr : a >>> k = BitVec.ofNat 32 (a.toNat / 2 ^ k) := by
    apply BitVec.eq_of_toNat_eq
    have := Nat.div_le_self a.toNat (2 ^ k)
    rw [BitVec.toNat_ushiftRight, BitVec.toNat_ofNat, Nat.shiftRight_eq_div_pow,
      Nat.mod_eq_of_lt (by have := a.isLt; omega)]
  simp only [aluShr, shiftedTo, hr, shiftFlags_eq]

theorem aluSar_eq : aluSar f a k = shiftedTo f a (BitVec.ofInt 32 (a.toInt / 2 ^ k)) (k - 1) k := by
  have hr : a.sshiftRight k = BitVec.ofInt 32 (a.toInt / 2 ^ k) := by
    rw [BitVec.sshiftRight_eq, Int.shiftRight_eq_div_pow]
    norm_cast
  simp only [aluSar, shiftedTo, hr, shiftFlags_eq]

/-- What a rotation moves out above comes in below. -/
theorem rotateLeft_eq (hk : k < 32) :
    a.rotateLeft k = BitVec.ofNat 32 (a.toNat * 2 ^ k + a.toNat / 2 ^ (32 - k)) := by
  apply BitVec.eq_of_toNat_eq
  have hsplit : 2 ^ 32 = 2 ^ k * 2 ^ (32 - k) := by rw [← Nat.pow_add]; congr 1; omega
  have hlow : a.toNat / 2 ^ (32 - k) < 2 ^ k := by
    rw [Nat.div_lt_iff_lt_mul (Nat.two_pow_pos _), ← hsplit]
    exact a.isLt
  have hhigh : a.toNat * 2 ^ k % 2 ^ 32 = 2 ^ k * (a.toNat % 2 ^ (32 - k)) := by
    rw [hsplit, Nat.mul_comm, Nat.mul_mod_mul_left]
  have hsum : 2 ^ k * (a.toNat % 2 ^ (32 - k)) + a.toNat / 2 ^ (32 - k) < 2 ^ 32 := by
    have := Nat.mod_lt a.toNat (Nat.two_pow_pos (32 - k))
    calc _ < 2 ^ k * (a.toNat % 2 ^ (32 - k)) + 2 ^ k := by omega
      _ = 2 ^ k * (a.toNat % 2 ^ (32 - k) + 1) := by ring
      _ ≤ 2 ^ k * 2 ^ (32 - k) := Nat.mul_le_mul_left _ this
      _ = 2 ^ 32 := hsplit.symm
  rw [BitVec.toNat_rotateLeft, BitVec.toNat_ofNat, Nat.mod_eq_of_lt hk, Nat.shiftLeft_eq, Nat.shiftRight_eq_div_pow,
    hhigh, ← Nat.two_pow_add_eq_or_of_lt hlow, Nat.add_mod, hhigh, Nat.mod_eq_of_lt (a := a.toNat / _) (by omega),
    Nat.mod_eq_of_lt hsum]

theorem aluRol_eq (hk : k < 32) : aluRol f a k =
    shiftedTo f a (BitVec.ofNat 32 (a.toNat * 2 ^ k + a.toNat / 2 ^ (32 - k))) (32 - k) k := by
  have hbit : (if k = 0 then f.getLsbD 0 else (a.rotateLeft k).getLsbD 0) =
      if k = 0 then f.getLsbD 0 else a.getLsbD (32 - k) := by
    split
    · rfl
    · rw [BitVec.getLsbD_rotateLeft, Nat.mod_eq_of_lt hk]
      simp [Nat.pos_of_ne_zero ‹_›]
  rw [rotateLeft_eq a hk] at hbit
  simp only [aluRol, shiftedTo, rotateLeft_eq a hk, shiftFlags_eq, hbit]

end

/-! ### Products and quotients (R399, R400) -/

theorem mulFlags_eq (f : BitVec 5) (p : BitVec 64) : mulFlags f p = flagsOf f false (decide (p = 0)) p.msb false :=
  putV_putC_putZN f _ _ _ _

section
variable (c : Ctx)

theorem mulu_eq {p : Nat} (h : c.a.toNat * c.x.toNat = p) : c.mulu = { c with
    a := BitVec.ofNat 32 p, x := BitVec.ofNat 32 (p / 2 ^ 32)
    f := flagsOf c.f false (decide (p = 0)) (decide (2 ^ 63 ≤ p)) false } := by
  have hp : p < 2 ^ 64 := by
    have : c.a.toNat * c.x.toNat ≤ (2 ^ 32 - 1) * (2 ^ 32 - 1) :=
      Nat.mul_le_mul (by have := c.a.isLt; omega) (by have := c.x.isLt; omega)
    omega
  have hprod : c.a.setWidth 64 * c.x.setWidth 64 = BitVec.ofNat 64 p := by
    apply BitVec.eq_of_toNat_eq
    simp [← h]
  have htoNat : (BitVec.ofNat 64 p).toNat = p := by rw [BitVec.toNat_ofNat, Nat.mod_eq_of_lt hp]
  have hzero : BitVec.ofNat 64 p = 0 ↔ p = 0 := by rw [← BitVec.toNat_inj, htoNat]; rfl
  have hmsb : (BitVec.ofNat 64 p).msb = decide (2 ^ 63 ≤ p) := by rw [BitVec.msb_eq_decide, htoNat]
  have hlo : (BitVec.ofNat 64 p).setWidth 32 = BitVec.ofNat 32 p := by
    apply BitVec.eq_of_toNat_eq
    rw [BitVec.toNat_setWidth, htoNat, BitVec.toNat_ofNat]
  have hhi : (BitVec.ofNat 64 p >>> 32).setWidth 32 = BitVec.ofNat 32 (p / 2 ^ 32) := by
    apply BitVec.eq_of_toNat_eq
    rw [BitVec.toNat_setWidth, BitVec.toNat_ushiftRight, htoNat, BitVec.toNat_ofNat, Nat.shiftRight_eq_div_pow]
  simp only [Ctx.mulu, hprod, mulFlags_eq, hmsb, hlo, hhi, hzero]

theorem muls_eq {p : Int} (h : c.a.toInt * c.x.toInt = p) : c.muls = { c with
    a := BitVec.ofInt 32 p, x := BitVec.ofInt 32 (p / 2 ^ 32)
    f := flagsOf c.f false (decide (p = 0)) (decide (p < 0)) false } := by
  have hp : -2 ^ 62 ≤ p ∧ p ≤ 2 ^ 62 := by
    have habs (w : Word) : |w.toInt| ≤ 2 ^ 31 := abs_le.mpr ⟨w.le_toInt, w.toInt_lt.le⟩
    have : |c.a.toInt| * |c.x.toInt| ≤ 2 ^ 31 * 2 ^ 31 :=
      mul_le_mul (habs _) (habs _) (abs_nonneg _) (by norm_num)
    rw [← abs_mul, h] at this
    exact abs_le.mp this
  have hprod : c.a.signExtend 64 * c.x.signExtend 64 = BitVec.ofInt 64 p := by
    apply BitVec.eq_of_toInt_eq
    rw [BitVec.toInt_mul, BitVec.toInt_signExtend_of_le (by decide), BitVec.toInt_signExtend_of_le (by decide),
      BitVec.toInt_ofInt, h]
  have htoInt : (BitVec.ofInt 64 p).toInt = p := by
    rw [BitVec.toInt_ofInt]
    exact Int.bmod_eq_of_le (by omega) (by omega)
  have hzero : BitVec.ofInt 64 p = 0 ↔ p = 0 := by rw [← BitVec.toInt_inj, htoInt]; rfl
  have hmsb : (BitVec.ofInt 64 p).msb = decide (p < 0) := by rw [BitVec.msb_eq_toInt, htoInt]
  have hlo : (BitVec.ofInt 64 p).setWidth 32 = BitVec.ofInt 32 p := by
    apply BitVec.eq_of_toNat_eq
    rw [BitVec.toNat_setWidth, BitVec.toNat_ofInt, BitVec.toNat_ofInt]
    omega
  have hhi : (BitVec.ofInt 64 p >>> 32).setWidth 32 = BitVec.ofInt 32 (p / 2 ^ 32) := by
    apply BitVec.eq_of_toNat_eq
    rw [BitVec.toNat_setWidth, BitVec.toNat_ushiftRight, BitVec.toNat_ofInt, BitVec.toNat_ofInt,
      Nat.shiftRight_eq_div_pow]
    omega
  simp only [Ctx.muls, hprod, mulFlags_eq, hmsb, hlo, hhi, hzero]

theorem divu_eq : c.divu =
    let q := BitVec.ofNat 32 (c.a.toNat / c.x.toNat)
    { c with
      a := q, x := BitVec.ofNat 32 (c.a.toNat % c.x.toNat)
      f := flagsOf c.f false (decide (q = 0)) q.msb false } := by
  have hq : c.a / c.x = BitVec.ofNat 32 (c.a.toNat / c.x.toNat) := by
    rw [← BitVec.toNat_udiv, BitVec.ofNat_toNat, BitVec.setWidth_eq]
  have hr : c.a % c.x = BitVec.ofNat 32 (c.a.toNat % c.x.toNat) := by
    rw [← BitVec.toNat_umod, BitVec.ofNat_toNat, BitVec.setWidth_eq]
  simp only [Ctx.divu, hq, hr, znOf, putV_putC_putZN]

theorem divs_eq : c.divs =
    let q := BitVec.ofInt 32 (c.a.toInt.tdiv c.x.toInt)
    { c with
      a := q, x := BitVec.ofInt 32 (c.a.toInt.tmod c.x.toInt)
      f := flagsOf c.f false (decide (q = 0)) q.msb (decide (c.a = 0x80000000 ∧ c.x = 0xFFFFFFFF)) } := by
  have hq : c.a.sdiv c.x = BitVec.ofInt 32 (c.a.toInt.tdiv c.x.toInt) := by
    apply BitVec.eq_of_toInt_eq
    rw [BitVec.toInt_sdiv, BitVec.toInt_ofInt]
  have hr : c.a.srem c.x = BitVec.ofInt 32 (c.a.toInt.tmod c.x.toInt) := by
    rw [← BitVec.toInt_srem, BitVec.ofInt_toInt]
  simp only [Ctx.divs, hq, hr, znOf, putV_putC_putZN]

end

/-! ### O29 -/

section
variable {c : Instr} {n : Nat} {s : State} (he : Executes n s) (hn : n < 17)
include he hn

/-- A shift by a count of 0 to 31. -/
theorem ends_shiftInstr {k : Nat} (hk : k < 32) {f : Ctx → Nat → Alu}
    (hc : exec c s = run (·.shiftInstr n 0 (BitVec.ofNat 21 k) f) s) :
    Ends c s fun t => Completes [] n s t ((s.ctx n).alu (f (s.ctx n) k)).next := by
  have hcount : (BitVec.ofNat 21 k).toNat = k := by rw [BitVec.toNat_ofNat, Nat.mod_eq_of_lt (by omega)]
  refine ends_regInstr he hn (cost := 3) (f := fun c => (c.alu (f c k)).next) hc ?_ rfl
  unfold State.shiftInstr
  rw [hcount]
  simp [hk]

/-- A divide whose divisor is not 0. -/
theorem ends_divInstr {f : Ctx → Ctx} (hx : (s.ctx n).x ≠ 0) (hc : exec c s = run (·.divInstr n 0 0 f) s) :
    Ends c s fun t => Completes [] n s t (f (s.ctx n)).next := by
  refine ends_putCtx he hn hc rfl fun u hu => ⟨u, .refl n u, ?_⟩
  dsimp only
  rw [hu.completes.ctx, if_neg (by simp), if_neg hx]

/-- A divide by 0 (R400). -/
theorem ends_divInstr_zero {f : Ctx → Ctx} (hx : (s.ctx n).x = 0) (hc : exec c s = run (·.divInstr n 0 0 f) s) :
    Ends c s (Trapped n 9 0 false false s) := by
  refine ends_trapped he hn (by decide) hc rfl fun u hu _ => ⟨u, .refl n u, ?_⟩
  dsimp only
  rw [hu.completes.ctx, if_neg (by simp), if_pos hx]
  rfl

end

/-- Settles O29: the model's results are the products, quotients and remainders of the exact numbers. -/
theorem shiftsProductsAndQuotients : Obligations.ShiftsProductsAndQuotients := by
  intro n s he c next gives
  have hn := n.isLt
  refine ⟨fun k hk => ?_, ends_groupInstr he hn rfl ?_, ends_groupInstr he hn rfl ?_, fun hx => ?_, fun hx => ?_,
    fun hx => ⟨ends_divInstr_zero he hn hx rfl, ends_divInstr_zero he hn hx rfl⟩⟩
  · intro x shifted
    have shift {i : Instr} {f : Ctx → Nat → Alu} {r : Word} {bit : Nat}
        (hi : exec i s = run (·.shiftInstr n 0 (BitVec.ofNat 21 k) f) s) (hf : f c k = shiftedTo c.f c.a r bit k) :
        gives i (shifted r bit) := by
      have := ends_shiftInstr he hn hk hi
      rwa [hf] at this
    exact ⟨shift rfl (aluShl_eq _ _), shift rfl (aluShr_eq _ _), shift rfl (aluSar_eq _ _),
      shift rfl (aluRol_eq _ _ hk)⟩
  · rw [mulu_eq _ rfl]; rfl
  · rw [muls_eq _ rfl]; rfl
  · have := ends_divInstr (c := .divu n 0 0) he hn hx rfl
    rwa [divu_eq] at this
  · have := ends_divInstr (c := .divs n 0 0) he hn hx rfl
    rwa [divs_eq] at this

end Sys2Proof.Machine
end

section
/-!
PROOFS. Words with fields that must be 0 (R351), and O34.
-/
namespace Sys2Proof.Machine

section
variable {c : Instr} {n : Nat} {s : State} (he : Executes n s) (hn : n < 17)
include he hn

/-- An instruction that finds its encoding illegal. -/
theorem ends_illegal {g : State → State} {cost : Nat} {pulses : List (Nat × Nat)}
    {body : State → State × Option Trap} (hc : exec c s = run g s) (hg : g s = s.instr n cost pulses body)
    (hbody : ∀ u, Beside n s u → body u = (u, trap 1 0)) : Ends c s (Trapped n 1 0 false false s) :=
  ends_trapped he hn (by decide) hc hg fun u hu _ => ⟨u, .refl n u, hbody u hu⟩

theorem ends_regInstr_illegal {g : State → State} {cost : Nat} {legal : Bool} {f : Ctx → Ctx}
    (hc : exec c s = run g s) (hg : g s = s.regInstr n cost legal f) (hl : legal = false) :
    Ends c s (Trapped n 1 0 false false s) := by
  subst hl
  exact ends_illegal he hn hc hg fun u _ => rfl

theorem ends_immInstr_illegal {sm : BitVec 4} {f : Ctx → Ctx} (h : sm ≠ 0)
    (hc : exec c s = run (·.immInstr n sm f) s) : Ends c s (Trapped n 1 0 false false s) :=
  ends_regInstr_illegal he hn hc rfl (decide_eq_false h)

theorem ends_shiftInstr_illegal {sm : BitVec 4} {x : BitVec 21} {f : Ctx → Nat → Alu} (h : ¬(sm = 0 ∧ x.toNat < 32))
    (hc : exec c s = run (·.shiftInstr n sm x f) s) : Ends c s (Trapped n 1 0 false false s) :=
  ends_regInstr_illegal he hn hc rfl (decide_eq_false h)

theorem ends_groupInstr_illegal {sm : BitVec 4} {hi : BitVec 15} {cost : Nat} {f : Ctx → Ctx} (h : ¬(sm = 0 ∧ hi = 0))
    (hc : exec c s = run (·.groupInstr n cost sm hi f) s) : Ends c s (Trapped n 1 0 false false s) :=
  ends_regInstr_illegal he hn hc rfl (decide_eq_false h)

theorem ends_divInstr_illegal {sm : BitVec 4} {hi : BitVec 15} {f : Ctx → Ctx} (h : ¬(sm = 0 ∧ hi = 0))
    (hc : exec c s = run (·.divInstr n sm hi f) s) : Ends c s (Trapped n 1 0 false false s) :=
  ends_illegal he hn hc rfl fun _ _ => if_pos h

end

/-! ### O34 -/

/-- An operand out of its range, or another SM than 0, is not legal. -/
theorem not_legal {sm : BitVec 4} {x k : Nat} (h : sm ≠ 0 ∨ k ≤ x) : ¬(sm = 0 ∧ x < k) :=
  fun ⟨hsm, hx⟩ => h.elim (· hsm) (Nat.not_le_of_lt hx)

/-- Settles O34: each of these instructions checks its fields before it does anything. -/
theorem undefinedFieldsAreIllegal : Obligations.UndefinedFieldsAreIllegal := by
  intro n sm x hi s he illegal
  have hn := n.isLt
  refine ⟨fun h => ?_, fun h => ?_, fun h => ?_, fun h => ?_, fun h => ?_, fun h => ?_, fun h => ?_, fun h => ?_⟩
  · have imm {i : Instr} {f : Ctx → Ctx} (hi : exec i s = run (·.immInstr n sm f) s) : illegal i :=
      ends_immInstr_illegal he hn h hi
    have jmp : illegal (.jmp n sm x) :=
      ends_regInstr_illegal he hn (g := (·.iJmp n sm x)) rfl rfl (decide_eq_false h)
    have call : illegal (.call n sm x) := ends_illegal he hn (g := (·.iCall n sm x)) rfl rfl fun _ _ => if_pos h
    simp only [List.forall_mem_cons]
    exact ⟨imm rfl, imm rfl, imm rfl, imm rfl, imm rfl, imm rfl, imm rfl, imm rfl, imm rfl, jmp, call, by simp⟩
  · have shift {i : Instr} {f : Ctx → Nat → Alu} (hi : exec i s = run (·.shiftInstr n sm x f) s) : illegal i :=
      ends_shiftInstr_illegal he hn (not_legal h) hi
    simp only [List.forall_mem_cons]
    exact ⟨shift rfl, shift rfl, shift rfl, shift rfl, by simp⟩
  · exact ends_illegal he hn (g := (·.iRet n sm x)) rfl rfl fun _ _ => if_pos (by tauto)
  · have hbad := not_legal h
    exact ⟨ends_illegal he hn (g := (·.iPush n sm x)) rfl rfl fun _ _ => if_pos hbad,
      ends_illegal he hn (g := (·.iPop n sm x)) rfl rfl fun _ _ => if_pos hbad⟩
  · exact ends_illegal he hn (g := (·.iCmt n sm x)) rfl rfl fun _ _ => if_pos (not_legal h)
  · refine ends_illegal he hn (g := (·.iWev n sm x)) rfl (if_neg ?_) fun _ _ => if_pos (not_legal h)
    rintro ⟨hsm, rfl, -⟩
    simp [hsm] at h
  · have hbad (b : Bool) : (!(mainLegal sm x b)) = true := by
      unfold mainLegal
      rw [decide_eq_false (not_legal h)]
      rfl
    exact ⟨ends_illegal he hn (g := (·.iMrd n sm x)) rfl rfl fun _ _ => if_pos (hbad _),
      ends_illegal he hn (g := (·.iMwr n sm x)) rfl rfl fun _ _ => if_pos (hbad _)⟩
  · have hbad : ¬(sm = 0 ∧ hi = 0) := by tauto
    have group {i : Instr} {cost : Nat} {f : Ctx → Ctx} (hc : exec i s = run (·.groupInstr n cost sm hi f) s) :
        illegal i := ends_groupInstr_illegal he hn hbad hc
    have mvaf : illegal (.mvaf n sm hi) :=
      ends_regInstr_illegal he hn (g := (·.iMvaf n sm hi)) (cost := 2)
        (f := fun c => ({ c with a := fWord c.f (s.core n.val).inHandler } : Ctx).next) rfl rfl (decide_eq_false hbad)
    have jmpa : illegal (.jmpa n sm hi) := ends_illegal he hn (g := (·.iJmpa n sm hi)) rfl rfl fun _ _ => if_pos hbad
    have calla : illegal (.calla n sm hi) := ends_illegal he hn (g := (·.iCalla n sm hi)) rfl rfl fun _ _ => if_pos hbad
    have reti : illegal (.reti n sm hi) :=
      ends_illegal he hn (g := (·.iReti n sm hi)) rfl rfl fun _ _ => if_pos fun h => hbad ⟨h.1, h.2.1⟩
    simp only [List.forall_mem_cons]
    exact ⟨group rfl, group rfl, group rfl, group rfl, group rfl, group rfl, group rfl, group rfl, group rfl, mvaf,
      group rfl, group rfl, group rfl, group rfl, group rfl, group rfl, group rfl, group rfl, group rfl,
      ends_divInstr_illegal he hn hbad rfl, ends_divInstr_illegal he hn hbad rfl, jmpa, calla, reti, by simp⟩

end Sys2Proof.Machine
end

section
/-!
PROOFS. Control transfer: jumps, branches, calls and returns (R392, R396 to R398), and O32.
-/
namespace Sys2Proof.Machine

/-! ### Targets and conditions -/

/-- A word index as a PC (R397). -/
theorem wordPc_eq (x : BitVec 21) : wordPc x = BitVec.ofNat 24 (4 * x.toNat) := by
  apply BitVec.eq_of_toNat_eq
  have hx := x.isLt
  rw [wordPc, BitVec.toNat_shiftLeft, BitVec.toNat_setWidth, BitVec.toNat_ofNat, Nat.shiftLeft_eq]
  omega

/-- The conditions of a long branch by number (R392). -/
theorem condHolds_eq (f : BitVec 5) {cc : Nat} (h : cc < 15) :
    condHolds cc f = [true, flZ f, !flZ f, flC f, !flC f, flN f, !flN f, flV f, !flV f, !flC f && !flZ f,
      flC f || flZ f, flN f != flV f, flN f == flV f, !flZ f && flN f == flV f, flZ f || flN f != flV f].getD cc
        false := by
  interval_cases cc <;> rfl

theorem jump_or_next (c : Ctx) (b : Bool) (pc : BitVec 24) :
    (if b then c.jump pc else c.next) = { c with pc := if b then pc else c.pc + 4 } := by cases b <;> rfl

section
variable {c : Instr} {n : Nat} {s : State} (he : Executes n s) (hn : n < 17)
include he hn

/-- A transfer to an offset that is no multiple of 4 (R398, R437). -/
theorem ends_alignTrap {g : State → State} {cost : Nat} {pulses : List (Nat × Nat)}
    {body : State → State × Option Trap} {pc : BitVec 24} (hc : exec c s = run g s)
    (hg : g s = s.instr n cost pulses body)
    (hbody : ∀ u, Beside n s u → ∃ v, Beside n u v ∧ body u = (v, some ((s.ctx n).alignTrap pc))) :
    Ends c s (Trapped n 5 (addrOf ((s.ctx n).segAt 15) pc.toNat) false false s) :=
  ends_trapped he hn (by decide) hc hg fun u hu _ => hbody u hu

/-- An instruction that pushes the offset of the next word and goes to `pc` (R397). -/
theorem ends_pushPc {g : State → State} {cost : Nat} {pulses : List (Nat × Nat)}
    {body : State → State × Option Trap} {pc : BitVec 24} (hc : exec c s = run g s)
    (hg : g s = s.instr n cost pulses body)
    (hbody : ∀ u, Beside n s u → body u = u.pushBody n ((s.ctx n).pc + 4).toNat fun c => c.jump pc)
    (ha : Admits ((s.ctx n).segAt 14) .w ((s.ctx n).s - 4).toNat 4 4)
    (hm : MemOk n (addrOf ((s.ctx n).segAt 14) ((s.ctx n).s - 4).toNat) 4 s) :
    Ends c s fun t => Completes [.mem, .aon] n s t { s.ctx n with s := (s.ctx n).s - 4, pc := pc } ∧
      Stored n (addrOf ((s.ctx n).segAt 14) ((s.ctx n).s - 4).toNat) 4 ((0 : BitVec 8) ++ ((s.ctx n).pc + 4)) s t := by
  have hword : (BitVec.ofNat 32 ((s.ctx n).pc + 4).toNat : Word) = (0 : BitVec 8) ++ ((s.ctx n).pc + 4) := by
    rw [BitVec.ofNat_toNat]
    exact BitVec.setWidth_eq_append (by decide)
  rw [← hword]
  refine ends_storeAt he hn hc hg hm fun u hu => ?_
  rw [hbody u hu, pushBody_admitted (by rwa [hu.completes.ctx]), hu.completes.ctx]
  rfl

end

/-- The word that a load of memory gives, after the cycles of an instruction. -/
theorem Beside.reads_memWord {n a size : Nat} {s u : State} (hu : Beside n s u) (hn : n < 17)
    (hm : MemOk n a size s) : ∃ w m, Beside n u w ∧ u.dataRead n a size = (w, .ok m) ∧
      BitVec.ofNat 32 m = s.memWord n a size := by
  obtain ⟨w, hw, hread⟩ := dataRead_memOk hn (hu.memOk hn hm)
  exact ⟨w, _, hw, hread, by rw [← hu.memWord]; rfl⟩

/-- A pop whose word is refused. -/
theorem popBody_refused {n m : Nat} {s w : State} {t : Trap} {f : Ctx → Word → Except Trap Ctx}
    (h : Admits ((s.ctx n).segAt 14) .r (s.ctx n).s.toNat 4 4)
    (hread : s.dataRead n (addrOf ((s.ctx n).segAt 14) (s.ctx n).s.toNat) 4 = (w, .ok m))
    (hf : f { s.ctx n with s := (s.ctx n).s + 4 } (BitVec.ofNat 32 m) = .error t) :
    s.popBody n f = (w, some t) := by
  simp only [State.popBody, checkSeg_admits h, hread, hf]

section
variable {n : Fin 17} {s : State} (he : Executes n.val s)
  (ha : Admits ((s.ctx n).segAt 14) .r (s.ctx n).s.toNat 4 4)
  (hm : MemOk n (addrOf ((s.ctx n).segAt 14) (s.ctx n).s.toNat) 4 s) {pc : BitVec 24}
  (hpc : (s.memWord n (addrOf ((s.ctx n).segAt 14) (s.ctx n).s.toNat) 4).setWidth 24 = pc)
include he ha hm hpc

theorem ends_ret (h4 : pc.toNat % 4 = 0) :
    Ends (.ret n 0 0) s fun t => Completes [] n s t { s.ctx n with s := (s.ctx n).s + 4, pc := pc } := by
  refine ends_putCtx he n.isLt (g := (·.iRet n 0 0)) rfl rfl fun u hu => ?_
  obtain ⟨w, m, hw, hread, hword⟩ := hu.reads_memWord n.isLt hm
  refine ⟨w, hw, (if_neg (by simp)).trans (popBody_read (by rwa [hu.completes.ctx]) (by rwa [hu.completes.ctx]) ?_)⟩
  dsimp only
  rw [hword, hpc, if_neg (not_not.mpr h4), hu.completes.ctx]
  rfl

theorem ends_ret_misaligned (h4 : pc.toNat % 4 ≠ 0) :
    Ends (.ret n 0 0) s (Trapped n 5 (addrOf ((s.ctx n).segAt 15) pc.toNat) false false s) := by
  refine ends_alignTrap he n.isLt (g := (·.iRet n 0 0)) rfl rfl fun u hu => ?_
  obtain ⟨w, m, hw, hread, hword⟩ := hu.reads_memWord n.isLt hm
  refine ⟨w, hw, (if_neg (by simp)).trans (popBody_refused (by rwa [hu.completes.ctx]) (by rwa [hu.completes.ctx]) ?_)⟩
  dsimp only
  rw [hword, hpc, if_pos h4, hu.completes.ctx]

end

/-! ### O32 -/

/-- Settles O32: a transfer sets the PC of its context, and checks its target before it pushes. -/
theorem transfersSetThePc : Obligations.TransfersSetThePc := by
  intro n s he c gives d toA fetchAt
  have hn := n.isLt
  have jumpA (u : State) (hu : Beside n s u) : ((u.ctx n).a.setWidth 24 : BitVec 24) = toA := by
    rw [hu.completes.ctx]
  refine ⟨fun x => ⟨?_, fun cc hcc => ?_, ?_⟩, fun h4 => ?_, fun h4 => ⟨?_, ?_⟩, ?_, ?_⟩
  · exact ends_regInstr he hn (g := (·.iJmp n 0 x)) (f := fun c => c.jump (wordPc x)) (cost := 3) rfl rfl
      (by rw [wordPc_eq]; rfl)
  · have hlt : cc.toNat < 15 := by
      have := cc.isLt
      have : cc.toNat ≠ 15 := fun h => hcc (BitVec.eq_of_toNat_eq h)
      omega
    refine ends_regInstr he hn (g := (·.iBCc n cc x)) (cost := 3)
      (f := fun c => if condHolds cc.toNat c.f then c.jump (wordPc x) else c.next) rfl ?_ ?_
    · unfold State.iBCc
      rw [decide_eq_true hcc]
    · rw [condHolds_eq _ hlt, wordPc_eq, jump_or_next]
      rfl
  · exact ends_regInstr_illegal he hn (g := (·.iBCc n 15 x)) (cost := 3)
      (f := fun c => if condHolds 15 c.f then c.jump (wordPc x) else c.next) rfl rfl rfl
  · refine ends_putCtx he hn (g := (·.iJmpa n 0 0)) rfl rfl fun u hu => ⟨u, .refl n u, ?_⟩
    dsimp only
    rw [jumpA u hu, if_neg (by simp), if_neg (not_not.mpr h4), hu.completes.ctx]
    rfl
  · refine ends_alignTrap he hn (g := (·.iJmpa n 0 0)) rfl rfl fun u hu => ⟨u, .refl n u, ?_⟩
    dsimp only
    rw [jumpA u hu, if_neg (by simp), if_pos h4, hu.completes.ctx]
  · refine ends_alignTrap he hn (g := (·.iCalla n 0 0)) rfl rfl fun u hu => ⟨u, .refl n u, ?_⟩
    dsimp only
    rw [jumpA u hu, if_neg (by simp), if_pos h4, hu.completes.ctx]
  · intro sp a ha hm
    refine ⟨fun x => ?_, fun h4 => ?_⟩
    · rw [← wordPc_eq]
      refine ends_pushPc he hn (g := (·.iCall n 0 x)) rfl rfl (fun u hu => ?_) ha hm
      rw [if_neg (by simp), hu.completes.ctx]
    · refine ends_pushPc he hn (g := (·.iCalla n 0 0)) rfl rfl (fun u hu => ?_) ha hm
      dsimp only
      rw [jumpA u hu, if_neg (by simp), if_neg (not_not.mpr h4), hu.completes.ctx]
  · intro a pc ha hm
    exact ⟨ends_ret he ha hm rfl, ends_ret_misaligned he ha hm rfl⟩

end Sys2Proof.Machine
end

section
/-!
PROOFS. Cycles that use no free value, what the marks at the end of an instruction leave alone, and instructions that
change the record of their core.
-/
namespace Sys2Proof.Machine

/-! ### Cycles and free values -/

theorem foldl_freeCtr {α : Type} {f : State → α → State} (hf : ∀ s a, (f s a).freeCtr = s.freeCtr) (l : List α)
    (s : State) : (l.foldl f s).freeCtr = s.freeCtr :=
  List.foldlRecOn (motive := fun t : State => t.freeCtr = s.freeCtr) l f rfl fun t ht a _ => (hf t a).trans ht

theorem perfOne_freeCtr (s : State) (n k : Nat) (hold : Bool) (v : List (Nat × Nat)) (t : Nat) :
    (s.perfOne n k hold v t).freeCtr = s.freeCtr := by
  unfold State.perfOne
  extract_lets
  split
  · rfl
  · split <;> rfl

theorem eccRead_freeCtr (s : State) (m p : Nat) (ws : List Nat) : (s.eccRead m p ws).1.freeCtr = s.freeCtr := by
  obtain ⟨u, hu, ⟨-, he⟩ | ⟨-, he⟩⟩ := eccRead_cases s m p ws
  all_goals have hfree : u.freeCtr = s.freeCtr := by unfold RegsMarked at hu; rw [← hu]
  · rw [he, foldl_freeCtr fun _ _ => State.setEcc_freeCtr _ _ _, hfree]
  · rw [he, hfree]

theorem lineRead_freeCtr (s : State) (n line : Nat) :
    (if s.pondOn (line * 32) 32 then s.eccRead (fetchCode n) 1 (wordsOf (line * 32) 32) else (s, false)).1.freeCtr =
      s.freeCtr := by
  split
  · exact eccRead_freeCtr _ _ _ _
  · rfl

theorem loadLines_freeCtr (n k : Nat) (s : State) : (s.loadLines n k).freeCtr = s.freeCtr := by
  induction k generalizing s with
  | zero => rfl
  | succ k ih =>
    unfold State.loadLines
    extract_lets c
    split
    · rfl
    · split
      · extract_lets line set ok r l' c' s1 s2
        have h1 : s1.freeCtr = s.freeCtr := lineRead_freeCtr s n line
        have h2 : s2.freeCtr = s.freeCtr := by dsimp only [s2]; split <;> exact h1
        rw [ih]
        split <;> exact h2
      · rfl

theorem lbPass_freeCtr (s : State) (n k : Nat) : (s.lbPass n k).freeCtr = s.freeCtr := by
  unfold State.lbPass
  extract_lets c
  split
  · rfl
  · split
    · rfl
    · split
      · exact lineRead_freeCtr s n _
      · rfl

theorem spend_freeCtr (s : State) (n st k : Nat) (p : List (Nat × Nat)) : (s.spend n st k p).freeCtr = s.freeCtr := by
  have hpass (u : State) (j : Nat) : (u.pass n j).freeCtr = u.freeCtr := by
    unfold State.pass
    extract_lets c s1
    have h1 : s1.freeCtr = u.freeCtr := lbPass_freeCtr _ _ _
    split
    · exact h1
    · rw [loadLines_freeCtr, h1]
  unfold State.spend
  extract_lets t v
  split
  · rfl
  · rw [hpass]
    exact foldl_freeCtr (fun u j => perfOne_freeCtr u n j _ _ _) _ _

/-- Cycles of core `n` that use no free value. -/
structure Ticks (n : Nat) (s t : State) : Prop where
  beside : Beside n s t
  free : t.freeCtr = s.freeCtr

namespace Ticks

variable {n : Nat}

theorem trans {s t u : State} (h : Ticks n s t) (g : Ticks n t u) : Ticks n s u :=
  ⟨h.beside.trans g.beside, g.free.trans h.free⟩

theorem kept {s t : State} (h : Ticks n s t) : Kept [.regs, .events, .cores, .counters, .ecc] s t := fun p hp => by
  by_cases hf : p = .free
  · subst hf; exact h.free
  · exact h.beside.completes.around.kept p (by simpa [hf] using hp)

theorem foldl {α : Type} {f : State → α → State} (hf : ∀ s a, Ticks n s (f s a)) (l : List α) (s : State) :
    Ticks n s (l.foldl f s) :=
  ⟨.foldl (fun s a => (hf s a).beside) l s, foldl_freeCtr (fun s a => (hf s a).free) l s⟩

theorem spend (s : State) (st k : Nat) (p : List (Nat × Nat)) : Ticks n s (s.spend n st k p) :=
  ⟨.spend _ _ _ _ _, spend_freeCtr _ _ _ _ _⟩

theorem levels (s : State) : Ticks n s (s.levels n) := by
  refine foldl (fun s k => ?_) _ s
  dsimp only
  split
  · exact ⟨.perfOne _ _ _ _ _ _, perfOne_freeCtr _ _ _ _ _ _⟩
  · exact ⟨.refl _ _, rfl⟩

theorem perfStand (s : State) : Ticks n s (s.perfStand n) := by
  refine foldl (fun s k => ?_) _ s
  dsimp only
  split
  · exact ⟨.setPctr _ _ _ _ _, rfl⟩
  · exact ⟨.refl _ _, rfl⟩

end Ticks

/-! ### Marks at the end of an instruction -/

theorem perfBoundary_cores (s : State) (n : Nat) : (s.perfBoundary n).cores = s.cores := by
  unfold State.perfBoundary
  refine List.foldlRecOn (motive := fun t : State => t.cores = s.cores) _ _ rfl fun t ht k _ => ?_
  dsimp only
  split <;> exact ht

/-- An overflow changes counters, their overflow bits and the events raised. -/
theorem wrapBlock_kept (s : State) (n : Nat) :
    (s.wrapBlock n).cores = s.cores ∧ (s.wrapBlock n).freeCtr = s.freeCtr := by
  have hone (u : State) (k : Nat) :
      (u.wrapOne n k).1.cores = u.cores ∧ (u.wrapOne n k).1.freeCtr = u.freeCtr := by
    unfold State.wrapOne State.setOvf
    extract_lets c free s1
    split
    · exact ⟨rfl, rfl⟩
    · split
      · split <;> exact ⟨rfl, rfl⟩
      · exact ⟨rfl, rfl⟩
  unfold State.wrapBlock
  extract_lets r
  have hr : r.1.cores = s.cores ∧ r.1.freeCtr = s.freeCtr :=
    List.foldlRecOn (motive := fun x : State × Bool => x.1.cores = s.cores ∧ x.1.freeCtr = s.freeCtr) _ _ ⟨rfl, rfl⟩
      fun x hx k _ => ⟨(hone x.1 k).1.trans hx.1, (hone x.1 k).2.trans hx.2⟩
  split
  · unfold State.ovfEvent State.raise State.raiseTo
    split <;> simpa using hr
  · exact hr

theorem Ticks.wrapBlock {n : Nat} (hn : n < 17) (s : State) : Ticks n s (s.wrapBlock n) :=
  ⟨.wrapBlock s n (by omega), (wrapBlock_kept s n).2⟩

/-! ### Instructions that change the record of their core -/

theorem Around.setCore (n : Nat) (s : State) (k : Core) : Around [] n s (s.setCore n k) :=
  ⟨(Kept.setCore s n k).mono (by simp), RegsKept.of_eq rfl _, fun _ hm => s.setCore_core_ne k hm⟩

/-- An instruction whose body leaves its core a record with `P`. -/
theorem ends_core {c : Instr} {n : Nat} {s : State} {g : State → State} {cost : Nat} {pulses : List (Nat × Nat)}
    {body : State → State × Option Trap} {P : Core → Prop} (he : Executes n s) (hn : n < 17) (hc : exec c s = run g s)
    (hg : g s = s.instr n cost pulses body)
    (hbody : ∀ u, Beside n s u → ∃ v, Around [] n u v ∧ P (v.core n) ∧ body u = (v, none)) :
    Ends c s fun t => P (t.core n) ∧ Around [] n s t := by
  refine ends_run hc fun t ht => ?_
  obtain ⟨u, hu, hi⟩ := instr_executes he cost pulses body
  obtain ⟨v, hv, hP, hb⟩ := hbody u hu
  rw [hg, hi, hb] at ht
  have hw : Beside n v ((if cost = 0 then v else v.perfBoundary n).wrapBlock n) :=
    (Beside.ite (.refl n v) (.perfBoundary v n)).trans (.wrapBlock _ n (by omega))
  have hcores : ((if cost = 0 then v else v.perfBoundary n).wrapBlock n).cores = v.cores := by
    rw [(wrapBlock_kept _ n).1]
    split
    · rfl
    · exact perfBoundary_cores v n
  have hcore : t.core n = v.core n := by rw [ht.core]; unfold State.core; rw [hcores]
  have hset : Around [] n ((if cost = 0 then v else v.perfBoundary n).wrapBlock n) t :=
    ⟨ht.1.mono (by simp), ht.2.mono (by simp), fun m _ => ht.core m⟩
  exact ⟨hcore ▸ hP, ((hu.completes.around.trans hv).trans hw.completes.around).trans hset⟩

end Sys2Proof.Machine
end

section
/-!
PROOFS. The handler: how an interrupt enters it, the registers of MAIN that it reads and writes, how it is left, and
O33.
-/
namespace Sys2Proof.Machine

/-! ### The earliest pending event (R522) -/

theorem earliest_eq_none {l : List (Nat × Word)} : earliest l = none ↔ l = [] := by
  cases l with
  | nil => simp [earliest]
  | cons a l => simp only [earliest]; split <;> simp

theorem earlier_cases (a b : Nat × Word) : earlier a b = a ∨ earlier a b = b := by
  unfold earlier
  split
  · exact .inr rfl
  · split
    · exact .inl rfl
    · split
      · exact .inl rfl
      · exact .inr rfl

theorem mem_of_earliest {l : List (Nat × Word)} {p : Nat × Word} (h : earliest l = some p) : p ∈ l := by
  induction l generalizing p with
  | nil => simp [earliest] at h
  | cons a l ih =>
    simp only [earliest] at h
    split at h
    · cases h; simp
    next b hb =>
      cases h
      rcases earlier_cases a b with h | h <;> rw [h]
      · simp
      · exact List.mem_cons_of_mem _ (ih hb)

/-- The only event of a list is its earliest. -/
theorem earliest_of_unique {l : List (Nat × Word)} {p : Nat × Word} (hp : p ∈ l) (h : ∀ q ∈ l, q = p) :
    earliest l = some p := by
  cases he : earliest l with
  | none => rw [earliest_eq_none.mp he] at hp; cases hp
  | some q => rw [h q (mem_of_earliest he)]

/-- The event of the lowest selector is accepted first (R431). -/
theorem irqEvent_of_lowest {s : State} {n i : Nat} {p : Nat × Word} (hp : p ∈ s.pendList n)
    (hi : s.irqOf n p.1 = some i) (h : ∀ q ∈ s.pendList n, q ≠ p → ∀ j, s.irqOf n q.1 = some j → i < j) :
    s.irqEvent n = some p := by
  have hsel : earliest ((s.pendList n).filter fun q => decide (s.irqOf n q.1 = some i)) = some p := by
    refine earliest_of_unique (by simp [hp, hi]) fun q hq => ?_
    simp only [List.mem_filter, decide_eq_true_eq] at hq
    by_contra hne
    exact absurd (h q hq.1 hne i hq.2) (lt_irrefl i)
  have hlow : ∀ j < i, earliest ((s.pendList n).filter fun q => decide (s.irqOf n q.1 = some j)) = none := by
    intro j hj
    rw [earliest_eq_none, List.filter_eq_nil_iff]
    intro q hq hqj
    simp only [decide_eq_true_eq] at hqj
    by_cases hqp : q = p
    · rw [hqp, hi] at hqj; cases hqj; exact absurd hj (lt_irrefl _)
    · exact absurd (h q hq hqp j hqj) (by omega)
  have hlt : i ∈ [0, 1, 2, 3, 4, 5, 6, 7] := List.mem_of_find?_eq_some hi
  obtain ⟨l, l', hsplit⟩ := List.append_of_mem hlt
  have hl : ∀ j ∈ l, j < i := by
    have hsorted : List.Pairwise (· < ·) [0, 1, 2, 3, 4, 5, 6, 7] := by decide
    rw [hsplit, List.pairwise_append] at hsorted
    exact fun j hj => hsorted.2.2 j hj i (by simp)
  unfold State.irqEvent
  rw [hsplit, List.findSome?_eq_some_iff]
  exact ⟨l, i, l', rfl, hsel, fun j hj => hlow j (hl j hj)⟩

/-! ### Entry (R431 to R434) -/

theorem tabGet_dropPend (s : State) (n e k : Nat) : tabGet (fun _ => none) (s.dropPend n e).pend k =
    if k = n * 1024 + e then none else tabGet (fun _ => none) s.pend k := by
  unfold State.dropPend pendKey
  dsimp only
  split
  · subst k; exact tabGet_put_same _ _ _ _
  · exact tabGet_put_ne _ _ _ _ ‹_›

/-- The core as it enters HANDLER for an event (R432). -/
def Core.interrupted (c : Core) (hand : Ctx) (e : Nat × Word) : Core :=
  { c with
    st := .run, inHandler := true, bpSkip := false
    hand := { hand with a := BitVec.ofNat 32 e.1, y := e.2, pc := 0 } }

section
variable {n : Nat} {s : State} {e : Nat × Word} (hheld : s.rst.held = false) (hclk : s.clocked n = true)
  (hst : (s.core n).st = .run ∨ (s.core n).st = .wait) (hdue : s.irqDue n = true) (hirq : s.irqEvent n = some e)
include hheld hclk hst hdue hirq

/-- Cycles, the event taken from those pending, HANDLER in place, and cycles again. -/
theorem acceptInterrupt_steps (hn : n < 17) : ∃ u, Ticks n s u ∧
    Ticks n ((u.dropPend n e.1).setCore n ((u.core n).interrupted (s.core n).hand e)) (s.acceptInterrupt n) := by
  unfold State.acceptInterrupt
  extract_lets c
  unfold State.clocked at hclk
  simp only [Bool.and_eq_true] at hclk
  rw [if_neg (by rcases hst with h | h <;> simp [hheld, hclk, hdue, c, h])]
  simp only [hirq]
  exact ⟨_, (Ticks.levels s).trans ((Ticks.perfStand _).trans (.spend _ 0 _ [])),
    (Ticks.spend _ 0 10 [(14, 1)]).trans (.wrapBlock hn _)⟩

end

/-- An interrupt that is accepted (R431 to R434). -/
theorem ends_interruptAccept {n : Fin 17} {s : State} {e : Nat × Word} (hheld : s.rst.held = false)
    (hclk : s.clocked n = true) (hst : (s.core n).st = .run ∨ (s.core n).st = .wait) (hdue : s.irqDue n = true)
    (hirq : s.irqEvent n = some e) : Ends (.interruptAccept n) s fun t =>
      (t.core n).st = .run ∧ (t.core n).inHandler = true ∧ (t.core n).main = (s.core n).main ∧
      (t.core n).hand = { (s.core n).hand with a := BitVec.ofNat 32 e.1, y := e.2, pc := 0 } ∧
      (∀ k, tabGet (fun _ => none) t.pend k =
        if k = n * 1024 + e.1 then none else tabGet (fun _ => none) s.pend k) ∧
      (∀ m, m ≠ n.val → t.core m = s.core m) ∧ RegsKept (bookRegs n) s t ∧
      Kept [.regs, .events, .cores, .counters, .ecc, .pend] s t := by
  refine ends_run (f := (·.acceptInterrupt n)) rfl fun t ht => ?_
  obtain ⟨u, hu, hv⟩ := acceptInterrupt_steps hheld hclk hst hdue hirq n.isLt
  set v := (u.dropPend n e.1).setCore n ((u.core n).interrupted (s.core n).hand e) with hvdef
  have hcore : v.core n = (u.core n).interrupted (s.core n).hand e := State.setCore_core _ _ _
  obtain ⟨-, -, hmain, -⟩ := hu.beside.core_kept
  obtain ⟨hst', hin', hmain', hhand'⟩ := hv.beside.core_kept
  have huv : Kept [.regs, .events, .cores, .counters, .ecc, .pend] u v :=
    fun p hp => by cases p <;> simp_all [Part.same, State.dropPend, v]
  have hpend : t.pend = v.pend := (ht.1 .pend (by simp)).trans (hv.kept .pend (by simp))
  have hpend' : u.pend = s.pend := hu.kept .pend (by simp)
  rw [ht.core, hst', hin', hmain', hhand', hcore]
  refine ⟨rfl, rfl, hmain, rfl, fun k => ?_, fun m hm => ?_, ?_, ?_⟩
  · rw [hpend, ← hpend', ← tabGet_dropPend]
    rfl
  · rw [ht.core, hv.beside.completes.around.others m hm, State.setCore_core_ne _ _ hm,
      ← hu.beside.completes.around.others m hm]
    rfl
  · exact ((hu.beside.completes.around.regs.trans (RegsKept.of_eq rfl _)).trans
      hv.beside.completes.around.regs).trans (ht.2.mono (by simp))
  · exact (((hu.kept.mono (by simp)).trans huv).trans (hv.kept.mono (by simp))).trans (ht.1.mono (by simp))

/-! ### MAIN's registers (R372, R384, R401) -/

/-- A register of MAIN by its number. -/
theorem byNum_eq (c : Ctx) {r : Nat} (hr : r < 6) : c.byNum r = [c.a, c.x, c.y, (0 : BitVec 8) ++ c.s,
    (0 : BitVec 27) ++ c.f, (0 : BitVec 8) ++ c.pc].getD r 0 := by
  have hf : ∀ f : BitVec 5, fWord f false = (0 : BitVec 27) ++ f := by decide
  interval_cases r
  · rfl
  · rfl
  · rfl
  · exact BitVec.setWidth_eq_append (x := c.s) (by decide)
  · exact hf c.f
  · exact BitVec.setWidth_eq_append (x := c.pc) (by decide)

theorem putNum_eq (c : Ctx) (v : Word) {r : Nat} (hr : r < 6) : c.putNum r v = [{ c with a := v }, { c with x := v },
    { c with y := v }, { c with s := v.setWidth 24 }, { c with f := v.setWidth 5 },
    { c with pc := v.setWidth 24 &&& 0xFFFFFC }].getD r c := by
  interval_cases r
  · rfl
  · rfl
  · rfl
  · rfl
  · rfl
  · exact congrArg (fun p => { c with pc := p }) (BitVec.setWidth_and (x := v) (y := 0xFFFFFC#32))

theorem mainLegal_handler {r : Nat} (hr : r < 6) : mainLegal 0 (BitVec.ofNat 21 r) true = true := by
  interval_cases r <;> rfl

theorem toNat_ofNat_lt_six {r : Nat} (hr : r < 6) : (BitVec.ofNat 21 r).toNat = r := by
  rw [BitVec.toNat_ofNat, Nat.mod_eq_of_lt (by omega)]

section
variable {n : Fin 17} {s : State} (he : Executes n.val s)
include he

/-- In MAIN the three are illegal (R372). -/
theorem ends_handlerOnly_illegal (hin : (s.core n).inHandler = false) (x : BitVec 21) :
    Ends (.mrd n 0 x) s (Trapped n 1 0 false false s) ∧ Ends (.mwr n 0 x) s (Trapped n 1 0 false false s) ∧
      Ends (.reti n 0 0) s (Trapped n 1 0 false false s) := by
  have hmain (u : State) (hu : Beside n s u) : (u.core n).inHandler = false := hu.core_kept.2.1.trans hin
  have hbad (u : State) (hu : Beside n s u) : (!(mainLegal 0 x (u.core n).inHandler)) = true := by
    rw [hmain u hu]
    simp [mainLegal]
  exact ⟨ends_illegal he n.isLt (g := (·.iMrd n 0 x)) rfl rfl fun u hu => if_pos (hbad u hu),
    ends_illegal he n.isLt (g := (·.iMwr n 0 x)) rfl rfl fun u hu => if_pos (hbad u hu),
    ends_illegal he n.isLt (g := (·.iReti n 0 0)) rfl rfl fun u hu => if_pos (by simp [hmain u hu])⟩

variable (hin : (s.core n).inHandler = true)
include hin

theorem ends_mrd {r : Nat} (hr : r < 6) : Ends (.mrd n 0 (BitVec.ofNat 21 r)) s fun t =>
    Completes [] n s t { (s.core n).hand with pc := (s.core n).hand.pc + 4, a := (s.core n).main.byNum r } := by
  refine ends_putCtx he n.isLt (g := (·.iMrd n 0 (BitVec.ofNat 21 r))) rfl rfl fun u hu => ⟨u, .refl n u, ?_⟩
  obtain ⟨-, hin', hmain, hhand⟩ := hu.core_kept
  have hput (d : Ctx) : u.putCtx n d = u.setCore n { u.core n with hand := d } := by
    simp [State.putCtx, Core.setCtx, hin', hin]
  refine (if_neg ?_).trans ?_
  · rw [hin', hin, mainLegal_handler hr]
    decide
  · rw [toNat_ofNat_lt_six hr, hput, ← hmain, ← hhand]
    rfl

theorem ends_mwr {r : Nat} (hr : r < 6) : Ends (.mwr n 0 (BitVec.ofNat 21 r)) s fun t =>
    ((t.core n).main = (s.core n).main.putNum r (s.core n).hand.a ∧ (t.core n).hand = (s.core n).hand.next ∧
      (t.core n).inHandler = true ∧ (t.core n).st = .run) ∧ Around [] n s t := by
  refine ends_core (P := fun k => k.main = (s.core n).main.putNum r (s.core n).hand.a ∧ k.hand = (s.core n).hand.next ∧
      k.inHandler = true ∧ k.st = .run) he n.isLt (g := (·.iMwr n 0 (BitVec.ofNat 21 r))) rfl rfl fun u hu => ?_
  obtain ⟨hst, hin', hmain, hhand⟩ := hu.core_kept
  refine ⟨u.setCore n { u.core n with
    main := (u.core n).main.putNum r (u.core n).hand.a, hand := (u.core n).hand.next }, .setCore n u _, ?_, ?_⟩
  rotate_left
  · refine (if_neg ?_).trans (by rw [toNat_ofNat_lt_six hr])
    rw [hin', hin, mainLegal_handler hr]
    decide
  · rw [State.setCore_core]
    exact ⟨by rw [hmain, hhand], by rw [hhand], hin'.trans hin, hst.trans he.run⟩

theorem ends_reti : Ends (.reti n 0 0) s fun t =>
    ((t.core n).inHandler = false ∧ (t.core n).main = (s.core n).main ∧ (t.core n).hand = (s.core n).hand.next ∧
      (t.core n).st = .run ∧ (t.core n).afterReti = true) ∧ Around [] n s t := by
  refine ends_core (P := fun k => k.inHandler = false ∧ k.main = (s.core n).main ∧ k.hand = (s.core n).hand.next ∧
      k.st = .run ∧ k.afterReti = true) he n.isLt (g := (·.iReti n 0 0)) rfl rfl fun u hu => ?_
  obtain ⟨hst, hin', hmain, hhand⟩ := hu.core_kept
  refine ⟨_, .setCore n u _, ?_, if_neg (by simp [hin', hin])⟩
  rw [State.setCore_core]
  exact ⟨rfl, hmain, by rw [hhand], hst.trans he.run, rfl⟩

end

/-! ### O33 -/

/-- Settles O33: the event of the lowest selector is the one that `irqEvent` gives, and the instructions of HANDLER put
a new record of the core in place. -/
theorem handlerIsEnteredAndLeft : Obligations.HandlerIsEnteredAndLeft := by
  intro n s
  refine ⟨fun e i y hheld hpg hclk hst hin hie hreti hstep hpart hpend hirq hlow => ?_, fun he => ?_⟩
  · have hev := irqEvent_of_lowest hpend hirq hlow
    have hdue : s.irqDue n = true := by simp [State.irqDue, hin, hie, hreti, hstep, hpart, hev]
    have hclocked : s.clocked n = true := by simp [State.clocked, hpg, hclk]
    exact ends_interruptAccept hheld hclocked hst hdue hev
  · intro c
    refine ⟨fun w hw => ?_, ends_handlerOnly_illegal he, fun hin => ?_⟩
    · exact ends_illegal he n.isLt (g := (·.illegal n w)) rfl (if_pos hw) fun _ _ => rfl
    intro next
    refine ⟨fun r hr => ?_, fun r hr => ?_, ?_⟩
    · rw [← byNum_eq _ hr]
      exact ends_mrd he hin hr
    · rw [← putNum_eq _ _ hr]
      obtain ⟨t, ht, ⟨hmain, hhand, hin', hst⟩, har⟩ := ends_mwr he hin hr
      exact ⟨t, ht, hmain, hhand, hin', hst, har⟩
    · obtain ⟨t, ht, ⟨hin', hmain, hhand, hst, hreti⟩, har⟩ := ends_reti he hin
      exact ⟨t, ht, hin', hmain, hhand, hst, hreti, har⟩

end Sys2Proof.Machine
end

section
/-!
PROOFS. The delivery window, and the refutation of O45: a core that waits in `wev` as it steps completes the
instruction in the window and halts for the debugger (R450), which raises its event 842 + 4n. That event waits for the
next window, so something waits after EVENT_DELIVERY.
-/
namespace Sys2Proof.Machine

/-- Newt 0 of a fabric that runs waits in a stepped `wev`, with event 5 pending at it. -/
def steppedWait : State :=
  { (((State.reset.setF F.PWR_DOM_STATUS_FAB_PG 1).setF F.CLK_ROOT_STATUS_DIV_RUN 1).setF F.PWR_DOM_STATUS_NEWT_PG
      1).setCore 0 { Core.init with st := .wait, stepping := true } with pend := [(5, some 0)] }

/-- The window ends the step, which raises the halt event of newt 0 (R450). -/
theorem steppedWait_delivery_raises_halt : ∃ r ∈ steppedWait.eventDelivery.raised, r.num = 842 := by
  decide +kernel

/-- Refutes O45: the window in which a stepped `wev` completes leaves event 842 raised, for the window after it. -/
theorem not_eventsReachUnmaskedCores : ¬ Obligations.EventsReachUnmaskedCores := by
  rintro ⟨hwindow, -⟩
  obtain ⟨t, ht, hsettle, -⟩ := hwindow steppedWait (by decide +kernel) rfl
  obtain ⟨r, hr, hnum⟩ := steppedWait_delivery_raises_halt
  obtain ⟨u, hu, hkeeps⟩ := ends_run (c := .eventDelivery) (s := steppedWait)
    (f := fun s => if s.rst.held then s else s.eventDelivery) (P := fun u => r ∈ u.raised) rfl fun u hu => by
      obtain ⟨-, -, ⟨l, -, hl⟩, -⟩ := hu
      rw [hl]
      exact List.mem_append_left _ (List.mem_append_left _ hr)
  rw [ht] at hu
  cases hu
  exact absurd (hsettle r hkeeps) (by rw [hnum]; unfold settleEvent; omega)

end Sys2Proof.Machine
end

section
/-!
PROOFS. Short operations (R406): what each gives, what it reads and writes, and why two independent halves give the
same in either order (R353 to R355).
-/
namespace Sys2Proof.Machine

/-! ### The short map (R406) -/

theorem Ctx.setA_eq (c : Ctx) (r : Word) : c.setA r = { c with a := r, f := flagsZN c.f r } := by
  rw [← znOf_eq_flagsZN]; rfl

theorem Ctx.alu_add (c : Ctx) (b : Word) :
    c.alu (aluAdd c.f c.a b false) = { c with a := c.a + b, f := flagsAdd c.f c.a b false } := by
  rw [aluAdd_eq]; simp [Ctx.alu]

theorem Ctx.alu_sub (c : Ctx) (b : Word) :
    c.alu (aluSub c.f c.a b false) = { c with a := c.a - b, f := flagsSub c.f c.a b false } := by
  rw [aluSub_eq]; simp [Ctx.alu]

theorem Ctx.aluCmp_sub (c : Ctx) (b : Word) :
    c.aluCmp (aluSub c.f c.a b false) = { c with f := flagsSub c.f c.a b false } := by
  rw [aluSub_eq]; rfl

/-- Words of instructions as a distance in bytes (R392). -/
theorem wordsBack_eq (x : BitVec 10) : (x.signExtend 24 <<< 2 : BitVec 24) = BitVec.ofInt 24 (4 * x.toInt) := by
  rw [BitVec.signExtend, BitVec.shiftLeft_eq_mul_twoPow, mul_comm 4, BitVec.ofInt_mul]
  rfl

/-! ### What a short operation reads and writes (R353) -/

/-- Two contexts hold the same in a register or a flag. -/
def Thing.Same (t : Thing) (c d : Ctx) : Prop :=
  match t with
  | .a => c.a = d.a
  | .x => c.x = d.x
  | .y => c.y = d.y
  | .s => c.s = d.s
  | .c => c.f[0] = d.f[0]
  | .z => c.f[1] = d.f[1]
  | .n => c.f[2] = d.f[2]
  | .v => c.f[3] = d.f[3]
  | .pc => c.pc = d.pc
  | .mem => True

namespace Thing.Same

variable {t : Thing} {c d e : Ctx}

theorem refl (t : Thing) (c : Ctx) : t.Same c c := by
  cases t
  case mem => trivial
  all_goals exact rfl

theorem symm (h : t.Same c d) : t.Same d c := by
  cases t
  case mem => trivial
  all_goals exact Eq.symm h

theorem trans (h : t.Same c d) (g : t.Same d e) : t.Same c e := by
  cases t
  case mem => trivial
  all_goals exact Eq.trans h g

end Thing.Same

theorem flagsOf_bits : ∀ (f : BitVec 5) (c z n v : Bool), (flagsOf f c z n v)[0] = c ∧ (flagsOf f c z n v)[1] = z ∧
    (flagsOf f c z n v)[2] = n ∧ (flagsOf f c z n v)[3] = v ∧ (flagsOf f c z n v)[4] = f[4] := by decide

theorem Thing.forall_iff {P : Thing → Prop} :
    (∀ t, P t) ↔ P .a ∧ P .x ∧ P .y ∧ P .s ∧ P .c ∧ P .z ∧ P .n ∧ P .v ∧ P .pc ∧ P .mem :=
  ⟨fun h => ⟨h _, h _, h _, h _, h _, h _, h _, h _, h _, h _⟩, fun h t => by
    obtain ⟨_, _, _, _, _, _, _, _, _, _⟩ := h
    cases t <;> assumption⟩

/-- A change of the context that reads the things `rs`, writes the things `ws`, and leaves everything else. -/
structure Frame (rs ws : List Thing) (g : Ctx → Ctx) : Prop where
  keeps : ∀ c t, t ∉ ws → t.Same (g c) c
  agrees : ∀ c d, (∀ t ∈ rs, t.Same c d) → (∀ t ∈ ws, t.Same c d) → ∀ t ∈ ws, t.Same (g c) (g d)
  seg : ∀ c, (g c).seg = c.seg
  ie : ∀ c, (g c).f[4] = c.f[4]

/-- A result of A alone, which writes A and all four flags. -/
def Alu.OfA (F : BitVec 5 → Word → Alu) : Prop :=
  ∃ (r : Word → Word) (k z n v : Word → Bool), ∀ f a, F f a = ⟨r a, flagsOf f (k a) (z a) (n a) (v a)⟩

theorem ofA_aluAdd (b : Word) : Alu.OfA (aluAdd · · b false) := ⟨_, _, _, _, _, fun f a => aluAdd_eq f a b false⟩

theorem ofA_aluSub (b : Word) : Alu.OfA (aluSub · · b false) := ⟨_, _, _, _, _, fun f a => aluSub_eq f a b false⟩

namespace Frame

variable {rs : List Thing}

theorem skip (ws : List Thing) : Frame rs ws id :=
  ⟨fun _ t _ => .refl t _, fun _ _ _ h => h, fun _ => rfl, fun _ => rfl⟩

theorem setA {r : Ctx → Word} (hr : ∀ c d, (∀ t ∈ rs, t.Same c d) → r c = r d) :
    Frame rs [.a, .z, .n] fun c => c.setA (r c) := by
  simp only [Ctx.setA_eq, flagsZN]
  exact ⟨fun c => Thing.forall_iff.mpr (by simp [Thing.Same, flagsOf_bits]),
    fun c d h _ => by simp [Thing.Same, flagsOf_bits, hr c d h], fun _ => rfl, fun _ => by simp [flagsOf_bits]⟩

theorem alu {F : BitVec 5 → Word → Alu} (hF : Alu.OfA F) (ha : .a ∈ rs) :
    Frame rs [.a, .c, .z, .n, .v] fun c => c.alu (F c.f c.a) := by
  obtain ⟨r, k, z, n, v, hF⟩ := hF
  simp only [Ctx.alu, hF]
  refine ⟨fun c => Thing.forall_iff.mpr (by simp [Thing.Same, flagsOf_bits]), fun c d h _ => ?_, fun _ => rfl,
    fun _ => by simp [flagsOf_bits]⟩
  have hcd : c.a = d.a := h .a ha
  simp [Thing.Same, flagsOf_bits, hcd]

theorem aluCmp {F : BitVec 5 → Word → Alu} (hF : Alu.OfA F) (ha : .a ∈ rs) :
    Frame rs [.c, .z, .n, .v] fun c => c.aluCmp (F c.f c.a) := by
  obtain ⟨r, k, z, n, v, hF⟩ := hF
  simp only [Ctx.aluCmp, hF]
  refine ⟨fun c => Thing.forall_iff.mpr (by simp [Thing.Same, flagsOf_bits]), fun c d h _ => ?_, fun _ => rfl,
    fun _ => by simp [flagsOf_bits]⟩
  have hcd : c.a = d.a := h .a ha
  simp [Thing.Same, flagsOf_bits, hcd]

/-- A shift by 0 leaves C, which is written all the same. -/
theorem shift {r : Word → Word} {bit k : Nat} (ha : .a ∈ rs) :
    Frame rs [.a, .c, .z, .n] fun c => c.alu (shiftedTo c.f c.a (r c.a) bit k) := by
  simp only [Ctx.alu, shiftedTo]
  refine ⟨fun c => Thing.forall_iff.mpr (by simp [Thing.Same, flagsOf_bits]), fun c d h hw => ?_, fun _ => rfl,
    fun _ => by simp [flagsOf_bits]⟩
  have hcd : c.a = d.a := h .a ha
  have hc : c.f[0] = d.f[0] := hw .c (by simp)
  simp [Thing.Same, flagsOf_bits, hcd, hc]

theorem setX {r : Ctx → Word} (hr : ∀ c d, (∀ t ∈ rs, t.Same c d) → r c = r d) :
    Frame rs [.x] fun c => c.setX (r c) :=
  ⟨fun c => Thing.forall_iff.mpr (by simp [Thing.Same, Ctx.setX]),
    fun c d h _ => by simp [Thing.Same, Ctx.setX, hr c d h], fun _ => rfl, fun _ => rfl⟩

theorem setY {r : Ctx → Word} (hr : ∀ c d, (∀ t ∈ rs, t.Same c d) → r c = r d) :
    Frame rs [.y] fun c => c.setY (r c) :=
  ⟨fun c => Thing.forall_iff.mpr (by simp [Thing.Same, Ctx.setY]),
    fun c d h _ => by simp [Thing.Same, Ctx.setY, hr c d h], fun _ => rfl, fun _ => rfl⟩

theorem addS (k : BitVec 24) (hs : .s ∈ rs) : Frame rs [.s] fun c => { c with s := c.s + k } :=
  ⟨fun c => Thing.forall_iff.mpr (by simp [Thing.Same]),
    fun c d h _ => by simpa [Thing.Same] using h .s hs, fun _ => rfl, fun _ => rfl⟩

/-- A branch writes the PC, whether it is taken or not. -/
theorem branch (k : BitVec 24) {b : Ctx → Bool} (hb : ∀ c d, (∀ t ∈ rs, t.Same c d) → b c = b d) :
    Frame rs [.pc] fun c => if b c then c.jump (c.pc + k) else c := by
  refine ⟨fun c => Thing.forall_iff.mpr ?_, fun c d h hw => ?_, fun c => ?_, fun c => ?_⟩
  · cases b c <;> simp [Thing.Same, Ctx.jump]
  · have hpc : c.pc = d.pc := hw .pc (by simp)
    rw [hb c d h]
    cases b d <;> simp [Thing.Same, Ctx.jump, hpc]
  all_goals cases b c <;> rfl

end Frame

/-- The read and write sets of R406 are those of what a half does. -/
theorem frame_run {o : Short} (ho : o.op < 32) (v : Word) (i : BitVec 64) : Frame (o.reads i) o.writes (o.run · v) := by
  obtain ⟨op, x⟩ := o
  have ofA (f : Word → Word) {rs : List Thing} (c d : Ctx) (h : ∀ t ∈ Thing.a :: rs, t.Same c d) : f c.a = f d.a :=
    congrArg f (h .a (.head _))
  have ofX (f : Word → Word) {rs : List Thing} (c d : Ctx) (h : ∀ t ∈ Thing.x :: rs, t.Same c d) : f c.x = f d.x :=
    congrArg f (h .x (.head _))
  have ofY (f : Word → Word) {rs : List Thing} (c d : Ctx) (h : ∀ t ∈ Thing.y :: rs, t.Same c d) : f c.y = f d.y :=
    congrArg f (h .y (.head _))
  have ofZ (f : Bool → Bool) (c d : Ctx) (h : ∀ t ∈ [Thing.z], t.Same c d) : f (flZ c.f) = f (flZ d.f) :=
    congrArg f (h .z (.head _))
  have ofC (f : Bool → Bool) (c d : Ctx) (h : ∀ t ∈ [Thing.c], t.Same c d) : f (flC c.f) = f (flC d.f) :=
    congrArg f (h .c (.head _))
  have const {α : Type} (r : α) {rs : List Thing} (c d : Ctx) (_ : ∀ t ∈ rs, t.Same c d) : r = r := rfl
  have shl : Frame [.a] [.a, .c, .z, .n] fun c => c.alu (aluShl c.f c.a x.toNat) := by
    simp only [aluShl_eq]
    exact .shift (r := fun a => BitVec.ofNat 32 (a.toNat * 2 ^ x.toNat)) (.head _)
  have shr : Frame [.a] [.a, .c, .z, .n] fun c => c.alu (aluShr c.f c.a x.toNat) := by
    simp only [aluShr_eq]
    exact .shift (r := fun a => BitVec.ofNat 32 (a.toNat / 2 ^ x.toNat)) (.head _)
  dsimp only at ho
  interval_cases op
  exacts [.skip _, .setA (const v), .skip _, .alu (ofA_aluAdd v) (.head _), .alu (ofA_aluSub v) (.head _),
    .setA (ofA (· &&& v)), .setA (ofA (· ||| v)), .aluCmp (ofA_aluSub v) (.head _), .setX (const v), .setY (const v),
    .skip _, .skip _, .setA (const _), .alu (ofA_aluAdd _) (.head _), .setX (ofX (· + _)), .setY (ofY (· + _)),
    .addS _ (.head _), .aluCmp (ofA_aluSub _) (.head _), .setX (const _), .setY (const _), .setX (ofA id),
    .setA (ofX id), .setY (ofA id), .setA (ofY id), shl, shr, .setA (ofA (· ^^^ v)), .branch _ (const true),
    .branch _ (ofZ id), .branch _ (ofZ not), .branch _ (ofC id), .branch _ (ofC not)]

/-! ### Independent halves (R353 to R355) -/

theorem Ctx.eq_of_same {c d : Ctx} (hseg : c.seg = d.seg) (hie : c.f[4] = d.f[4]) (h : ∀ t : Thing, t.Same c d) :
    c = d := by
  obtain ⟨ha, hx, hy, hs, hc, hz, hn, hv, hpc, -⟩ := Thing.forall_iff.mp h
  have hf : c.f = d.f := BitVec.eq_of_getElem_eq fun i hi => by
    interval_cases i
    exacts [hc, hz, hn, hv, hie]
  cases c
  cases d
  simp_all [Thing.Same]

theorem meets_eq_false {p q : List Thing} (h : meets p q = false) {t : Thing} (hp : t ∈ p) (hq : t ∈ q) : False := by
  simp [meets] at h
  exact h t hp hq

/-- Changes that write neither what the other reads nor what it writes give the same in either order. -/
theorem Frame.comm {r1 w1 r2 w2 : List Thing} {g1 g2 : Ctx → Ctx} (h1 : Frame r1 w1 g1) (h2 : Frame r2 w2 g2)
    (h12 : meets w1 r2 = false) (hw : meets w1 w2 = false) (h21 : meets w2 r1 = false) (c : Ctx) :
    g2 (g1 c) = g1 (g2 c) := by
  refine Ctx.eq_of_same ?_ ?_ fun t => ?_
  · rw [h2.seg, h1.seg, h1.seg, h2.seg]
  · rw [h2.ie, h1.ie, h1.ie, h2.ie]
  have keep1 {l : List Thing} (hl : meets w1 l = false) (d : Ctx) : ∀ t ∈ l, t.Same (g1 d) d :=
    fun t ht => h1.keeps d t fun hm => meets_eq_false hl hm ht
  have keep2 {l : List Thing} (hl : ∀ t ∈ l, t ∉ w2) (d : Ctx) : ∀ t ∈ l, t.Same (g2 d) d :=
    fun t ht => h2.keeps d t (hl t ht)
  by_cases ht1 : t ∈ w1
  · have hin : ∀ t ∈ w1, t ∉ w2 := fun t h h' => meets_eq_false hw h h'
    exact (keep2 hin _ t ht1).trans (h1.agrees _ _ (keep2 (fun t h h' => meets_eq_false h21 h' h) c)
      (keep2 hin c) t ht1).symm
  · by_cases ht2 : t ∈ w2
    · exact (h2.agrees _ _ (keep1 h12 c) (keep1 hw c) t ht2).trans (h1.keeps _ t ht1).symm
    · exact ((h2.keeps _ t ht2).trans (h1.keeps c t ht1)).trans ((h1.keeps _ t ht1).trans (h2.keeps c t ht2)).symm

theorem run_comm {o1 o2 : Short} (h1 : o1.op < 32) (h2 : o2.op < 32) {d1 d2 : BitVec 64}
    (hd : dependent o1 o2 d1 d2 = false) (c : Ctx) (v : Word) : o2.run (o1.run c v) v = o1.run (o2.run c v) v := by
  unfold dependent at hd
  simp only [Bool.or_eq_false_iff] at hd
  obtain ⟨⟨⟨⟨h12, hw⟩, h21⟩, -⟩, -⟩ := hd
  exact (frame_run h1 v d1).comm (frame_run h2 v d2) h12 hw h21 c

theorem Short.of_op (h : BitVec 15) : (Short.of h).op < 32 := by
  unfold Short.of
  dsimp only
  omega

end Sys2Proof.Machine
end

section
/-!
PROOFS. Pairs (R349 to R357), and O35.
-/
namespace Sys2Proof.Machine

/-- The two halves of a pair, the first in the high bits. -/
def half1 (w : BitVec 31) : Short := .of ((w >>> 16).setWidth 15)
def half2 (w : BitVec 31) : Short := .of (w.setWidth 15)

section
variable {s : State} {n : Nat} {o1 o2 : Short}

theorem pairBody_illegal1 {mid : Bool} (h : mid = true ∨ o1.legal = false) :
    s.pairBody n o1 o2 mid = (s, some ⟨1, 0, false, true⟩) := if_pos (by rcases h with h | h <;> simp [h])

theorem pairBody_illegal2 (h1 : o1.legal = true) (h2 : o2.legal = false) :
    s.pairBody n o1 o2 false = (s, some ⟨1, 0, true, true⟩) := by
  unfold State.pairBody
  simp [h1, h2]

variable (h1 : o1.legal = true) (h2 : o2.legal = true)
include h1 h2

theorem pairBody_dependent (hd : dependent o1 o2 ((s.ctx n).segAt o1.seg) ((s.ctx n).segAt o2.seg) = true) :
    s.pairBody n o1 o2 false = (s, some ⟨2, 0, false, true⟩) := by
  unfold State.pairBody
  simp [h1, h2, hd]

variable (hd : dependent o1 o2 ((s.ctx n).segAt o1.seg) ((s.ctx n).segAt o2.seg) = false)
include hd

theorem pairBody_registers (hm1 : o1.mem = false) (hm2 : o2.mem = false) :
    s.pairBody n o1 o2 false = (s.putCtx n (o2.run (o1.run (s.ctx n).next 0) 0), none) := by
  unfold State.pairBody
  simp [h1, h2, hd, hm1, hm2]

/-- Of independent halves one at most uses memory. -/
theorem pairBody_mem {e : Short × Bool} (he : e ∈ [(o1, false), (o2, true)]) (hm : e.1.mem = true) :
    s.pairBody n o1 o2 false = s.pairMem n o1 o2 e.1 e.2 := by
  unfold State.pairBody
  simp only [h1, h2, hd, Bool.not_true, Bool.or_false, Bool.false_eq_true, if_false]
  simp only [List.mem_cons, List.not_mem_nil, or_false] at he
  rcases he with rfl | rfl
  · exact if_pos hm
  · have hm1 : o1.mem = false := by
      simp only [dependent, Bool.or_eq_false_iff] at hd
      obtain ⟨⟨-, hboth⟩, -⟩ := hd
      simpa [show o2.mem = true from hm] using hboth
    exact (if_neg (by simp [hm1])).trans (if_pos hm)

end

/-- A fault of a half of a pair (R357). -/
def Trap.inPair (half : Bool) (t : Trap) : Trap := { t with half := half, pair := true }

section
variable {s u : State} {n : Nat} {o1 o2 o : Short} {half : Bool} {v : Word}

theorem pairMem_loads (h : o.loads = true) : s.pairMem n o1 o2 o half = Prod.map id (Option.map (Trap.inPair half))
    (s.loadBody n o.seg o.off 4 fun _ v => o2.run (o1.run (s.ctx n).next v) v) := by
  unfold State.pairMem
  simp only [h, if_true]
  rfl

theorem pairMem_stores (h : o.loads = false) : s.pairMem n o1 o2 o half = Prod.map id (Option.map (Trap.inPair half))
    (s.storeBody n o.seg o.off 4 .w (o.stored (s.ctx n)).toNat (o2.run (o1.run (s.ctx n).next 0) 0)) := by
  unfold State.pairMem
  simp only [h, Bool.false_eq_true, if_false]
  rfl

theorem pairMem_load (hu : Beside n s u) (hl : o.loads = true) (hn : n < 17) (h : LoadsMem n o.seg o.off 4 v s) :
    ∃ x, Beside n u x ∧
      u.pairMem n o1 o2 o half = (x.putCtx n (o2.run (o1.run (s.ctx n).next v) v), none) := by
  obtain ⟨ha, hm, hv⟩ := h
  obtain ⟨x, hx, hr⟩ := dataRead_memOk hn (hu.memOk hn hm)
  have hword : v = u.memWord n (s.operandAt n o.seg o.off) 4 := hv.trans (hu.memWord _ _).symm
  refine ⟨x, hx, ?_⟩
  rw [pairMem_loads hl, loadBody_read (by rwa [hu.completes.ctx, hu.operandEo]) (by rwa [hu.operandAt]), hword,
    hu.completes.ctx]
  rfl

theorem pairMem_refused (hu : Beside n s u) {code : Nat} (h : ∀ right, checkSeg ((s.ctx n).segAt o.seg) right
    (s.operandEo n o.seg o.off) 4 4 = some code) :
    u.pairMem n o1 o2 o half = (u, some ⟨code, s.operandAt n o.seg o.off, half, true⟩) := by
  have hk (right : Right) : checkSeg ((u.ctx n).segAt o.seg) right (u.operandEo n o.seg o.off) 4 4 = some code := by
    rw [hu.completes.ctx, hu.operandEo, h]
  rw [← hu.operandAt]
  cases hl : o.loads
  · rw [pairMem_stores hl, storeBody_refused (hk _)]; rfl
  · rw [pairMem_loads hl, loadBody_refused (hk _)]; rfl

end

section
variable {n : Fin 17} {w : BitVec 31} {s : State} (he : Executes n s)
include he

theorem ends_pair_trapped {code : Nat} {half : Bool} {a : Nat} (hcode : code < 16)
    (hbody : ∀ u, Beside n s u → u.pairBody n (half1 w) (half2 w) (w.getLsbD 15) = (u, some ⟨code, a, half, true⟩)) :
    Ends (.pair n w) s (Trapped n code a half true s) :=
  ends_trapped he n.isLt hcode (f := (·.iPair n w)) rfl rfl fun u hu _ => ⟨u, .refl n u, hbody u hu⟩

variable {o : Short} {half : Bool}
variable (hbody : ∀ u, Beside n s u →
  u.pairBody n (half1 w) (half2 w) (w.getLsbD 15) = u.pairMem n (half1 w) (half2 w) o half)
include hbody

theorem ends_pair_store (hl : o.loads = false)
    (ha : Admits ((s.ctx n).segAt o.seg) .w (s.operandEo n o.seg o.off) 4 4)
    (hm : MemOk n (s.operandAt n o.seg o.off) 4 s) :
    Ends (.pair n w) s fun t => Completes [.mem, .aon] n s t ((half2 w).run ((half1 w).run (s.ctx n).next 0) 0) ∧
      Stored n (s.operandAt n o.seg o.off) 4 (o.stored (s.ctx n)) s t := by
  obtain ⟨t, ht, hd, hst⟩ := ends_done (P := fun t => Stored n (s.operandAt n o.seg o.off) 4 (o.stored (s.ctx n)) s t)
    (but := [.mem, .aon]) (regs := []) he n.isLt (c := .pair n w) (f := (·.iPair n w)) rfl rfl fun u hu => by
      obtain ⟨v, hv, hd, hst⟩ := storeAt_memOk n.isLt (hu.memOk n.isLt hm) (o.stored (s.ctx n))
        ((half2 w).run ((half1 w).run (s.ctx n).next 0) 0)
      refine ⟨v, hd, ?_, fun y t hy hs => hst.congr (And.imp .symm .symm hu.memory)
        ⟨hs.memory.1.trans hy.mem, hs.memory.2.trans hy.aon⟩⟩
      refine (hbody u hu).trans ?_
      rw [pairMem_stores hl, storeBody_admitted (by rwa [hu.completes.ctx, hu.operandEo]), hu.operandAt,
        hu.completes.ctx, hv]
      rfl
  exact ⟨t, ht, hd.completes, hst⟩

end

theorem Short.stored_eq {o : Short} (c : Ctx) (h : o.stores = true) :
    o.stored c = if o.op = 2 then c.a else if o.op = 10 then c.x else c.y := by
  simp only [Short.stores, decide_eq_true_eq] at h
  unfold Short.stored
  rcases h with h | h | h <;> simp [h]

theorem Short.loads_of_stores {o : Short} (h : o.stores = true) : o.loads = false := by
  simp only [Short.stores, decide_eq_true_eq] at h
  unfold Short.loads
  rcases h with h | h | h <;> simp [h]

/-- Settles O35: the halves of an independent pair run one after the other, and their frames say why the order does not
matter. -/
theorem pairsRunBothHalves : Obligations.PairsRunBothHalves := by
  refine ⟨fun o c v _ ho => ?_, fun n w s he => ?_⟩
  · intro toA k shifted words imm branch
    obtain ⟨op, x⟩ := o
    have hbranch (b : Bool) : (if b then c.jump (c.pc + (x.signExtend 24 <<< 2)) else c) = branch b := by
      rw [wordsBack_eq]; rfl
    have hshl : c.alu (aluShl c.f c.a k) = shifted (BitVec.ofNat 32 (c.a.toNat * 2 ^ k)) (32 - k) := by
      rw [aluShl_eq]; rfl
    have hshr : c.alu (aluShr c.f c.a k) = shifted (BitVec.ofNat 32 (c.a.toNat / 2 ^ k)) (k - 1) := by
      rw [aluShr_eq]; rfl
    have hadds : ({ c with s := c.s + (x.signExtend 24 <<< 2) } : Ctx) = { c with s := c.s + words } := by
      rw [wordsBack_eq]
    dsimp only at ho ⊢
    interval_cases op
    exacts [rfl, c.setA_eq v, rfl, c.alu_add v, c.alu_sub v, c.setA_eq _, c.setA_eq _, c.aluCmp_sub v, rfl, rfl, rfl,
      rfl, c.setA_eq _, c.alu_add _, rfl, rfl, hadds, c.aluCmp_sub _, rfl, rfl, rfl, c.setA_eq _, rfl, c.setA_eq _, hshl,
      hshr, c.setA_eq _, hbranch true, hbranch _, hbranch _, hbranch _, hbranch _]
  · intro c o1 o2 next both dep
    have ctx (u : State) (hu : Beside n s u) : u.ctx n = c := hu.completes.ctx
    refine ⟨fun h => ends_pair_trapped he (by decide) fun u _ => pairBody_illegal1 h, fun h15 h1 h2 =>
      ends_pair_trapped he (by decide) fun u _ => by rw [h15]; exact pairBody_illegal2 h1 h2, fun h15 h1 h2 =>
      ⟨fun hd => ends_pair_trapped he (by decide) fun u hu => by
        rw [h15]
        exact pairBody_dependent h1 h2 (by rwa [ctx u hu]), fun hd => ?_⟩⟩
    refine ⟨run_comm (Short.of_op _) (Short.of_op _) hd next, fun hm1 hm2 => ?_, fun e hmem hm => ?_⟩
    · refine ends_putCtx he n.isLt (g := (·.iPair n w)) rfl rfl fun u hu => ⟨u, .refl n u, ?_⟩
      have := pairBody_registers (s := u) (n := n) h1 h2 (by rwa [ctx u hu]) hm1 hm2
      rw [ctx u hu] at this
      exact h15 ▸ this
    · have hbody (u : State) (hu : Beside n s u) :
          u.pairBody n (half1 w) (half2 w) (w.getLsbD 15) = u.pairMem n (half1 w) (half2 w) e.1 e.2 :=
        h15 ▸ pairBody_mem h1 h2 (by rwa [ctx u hu]) hmem hm
      refine ⟨fun v hl h => ends_putCtx he n.isLt (g := (·.iPair n w)) rfl rfl fun u hu => ?_, fun hs ha hok => ?_,
        fun hv => ?_⟩
      · obtain ⟨x, hx, hb⟩ := pairMem_load (o1 := half1 w) (o2 := half2 w) (half := e.2) hu hl n.isLt h
        exact ⟨x, hx, (hbody u hu).trans hb⟩
      · have := ends_pair_store he hbody (Short.loads_of_stores hs) ha hok
        rwa [Short.stored_eq _ hs] at this
      · exact ends_pair_trapped he (by decide) fun u hu =>
          (hbody u hu).trans (pairMem_refused hu fun right => (checkSeg_refuses _ right _ _ _).1 hv)

end Sys2Proof.Machine
end

section
/-!
PROOFS. Queue instructions: an access of whole words, what the instructions check, what they move, and O37.
-/
namespace Sys2Proof.Machine

/-! ### Access of whole words (R475) -/

theorem wordsOf_whole {a len w : Nat} (ha : a % 8 = 0) (hl : len % 8 = 0) (h0 : 0 < len) (h : w ∈ wordsOf a len) :
    a ≤ w * 8 ∧ w * 8 + 8 ≤ a + len := by
  simp only [wordsOf, List.mem_map, List.mem_range] at h
  obtain ⟨i, hi, rfl⟩ := h
  omega

/-- A write of whole words reads none of them. -/
theorem pondWrite_whole (s : State) {a : Nat} {bs : List Byte} (ha : a % 8 = 0) (hl : bs.length % 8 = 0)
    (h0 : 0 < bs.length) (m p : Nat) :
    ∃ u, s.pondWrite m p a bs = (u, true) ∧ Placed a bs s u ∧ Only [.mem, .ecc] eccRegs [] s u := by
  have hnone : ((wordsOf a bs.length).filter fun w => !decide (a ≤ w * 8 ∧ w * 8 + 8 ≤ a + bs.length)) = [] :=
    List.filter_eq_nil_iff.mpr fun w hw => by simp [wordsOf_whole ha hl h0 hw]
  obtain ⟨u, hu, hread⟩ := eccRead_good (s := s) (ws := []) (by simp) m p
  have hclear (l : List Nat) : Only [.ecc] eccRegs [] s (l.foldl (fun s w => s.setEcc w .good) u) :=
    hread.trans (.foldl (fun v w => .setEcc v w _ _) _ _)
  refine ⟨_, by unfold State.pondWrite; dsimp only; rw [hnone, hu], fun b => ?_,
    ((hclear _).mono (by simp) (List.Subset.refl _)).trans
      ((Only.setBytes _ a bs _).mono (by simp) (List.Subset.refl _))⟩
  rw [byte_setBytes, State.byte_congr ((hclear _).kept .mem (by simp)) b]

theorem bytes_getD (s : State) (a len : Nat) {i : Nat} (h : i < len) : (s.bytes a len).getD i 0 = s.byte (a + i) := by
  simp [State.bytes, List.getD_eq_getElem?_getD, h]

theorem bytes_length (s : State) (a len : Nat) : (s.bytes a len).length = len := by simp [State.bytes]

/-- The bytes read at one address stand at another. -/
theorem Placed.copied {s t u : State} {src dst len : Nat} (h : Placed dst (s.bytes src len) t u)
    (ht : t.mem = s.mem) (b : Nat) :
    u.byte b = if dst ≤ b ∧ b < dst + len then s.byte (src + (b - dst)) else s.byte b := by
  rw [h b, bytes_length, State.byte_congr ht]
  split
  · exact bytes_getD s src len (by omega)
  · rfl

/-! ### Parts that an instruction changes -/

/-- An access of memory, as what an instruction does. -/
theorem Done.of_access {b but : List Part} {n : Nat} {s t : State} (h : Only b eccRegs [] s t) (hc : .cores ∉ b)
    (hb : b ⊆ .ecc :: but) : Done but [] n s t (s.ctx n) := by
  have hdone := h.done hc n
  refine ⟨hdone.kept.mono fun p hp => ?_, hdone.regs.mono fun a ha => ?_, hdone.others, hdone.core, hdone.ctx⟩
  · rcases List.mem_append.mp hp with hp | hp
    · rcases List.mem_cons.mp (hb hp) with rfl | hp
      · simp
      · exact List.mem_append_left _ hp
    · exact List.mem_append_right _ hp
  · rw [List.append_nil]
    rcases List.mem_append.mp ha with ha | ha
    · exact ha
    · exact List.mem_of_mem_take (i := 4) ha

/-! ### C of a queue instruction (R376) -/

theorem putC_eq_flagsOf : ∀ (f : BitVec 5) (b : Bool),
    putC f b = flagsOf f b (f.getLsbD 1) (f.getLsbD 2) (f.getLsbD 3) := by decide

/-- The context after a queue instruction. -/
def Ctx.queueDone (c : Ctx) (b : Bool) : Ctx :=
  { c with pc := c.pc + 4, f := flagsOf c.f b (c.f.getLsbD 1) (c.f.getLsbD 2) (c.f.getLsbD 3) }

theorem qDone_done (but : List Part) (s : State) (n : Nat) (b : Bool) : ∃ v, s.qDone n b = (v, none) ∧
    Done but [] n s v ((s.ctx n).queueDone b) ∧ v.mem = s.mem ∧ v.queues = s.queues := by
  refine ⟨_, rfl, ?_, ?_, ?_⟩
  · have hctx : ({ s.ctx n with f := putC (s.ctx n).f b } : Ctx).next = (s.ctx n).queueDone b := by
      rw [putC_eq_flagsOf]; rfl
    rw [hctx]
    exact (done_putCtx but [] n s _).beside (.perf _ _ _ _)
  · exact (Beside.perf (s.putCtx n _) n _ _).mem
  · exact (Beside.perf (s.putCtx n _) n _ _).completes.around.kept .queues (by simp)

/-! ### The checks of a queue instruction (R376, R402, R471) -/

section
variable {n : Nat} {s u : State} (h : Beside n s u)
include h

theorem Beside.queue (q : Nat) : u.queue q = s.queue q :=
  State.queue_congr (h.completes.around.kept .queues (by simp)) q

variable (hn : n < 17)
include hn

theorem Beside.queueOwner (q : Nat) : u.queueOwner q = s.queueOwner q :=
  h.completes.around.regs.queueOwner (sparesGov_bookRegs hn) q

theorem Beside.coreOwner : u.coreOwner n = s.coreOwner n :=
  h.completes.around.regs.coreOwner (sparesGov_bookRegs hn) n

theorem Beside.qLive (q : Nat) (e : Queue) : u.qLive q e = s.qLive q e := by
  have hten (t : Nat) : u.ten t = s.ten t := by
    unfold State.ten; rw [h.completes.around.kept .tenants (by simp)]
  unfold State.qLive
  rw [h.queueOwner hn, hten, h.pondOn hn]

theorem Beside.qNothing (q : Nat) : u.qNothing q = s.qNothing q := by
  simp only [State.qNothing, h.queue, h.qLive hn]

theorem Beside.qNoRoom (q : Nat) : u.qNoRoom q = s.qNoRoom q := by
  simp only [State.qNoRoom, h.queue, h.qLive hn]

end

/-- The queue that X names (R376). -/
def State.xQueue (s : State) (n : Nat) : Nat := (s.ctx n).x.toNat % 16384

/-- An operand that lies in one bank of pond memory that is on (R402, R471). -/
def State.queueOperand (s : State) (n a size : Nat) : Prop :=
  inAon n a = false ∧ s.pondOn a size = true ∧ a / 0x100000 = (a + size - 1) / 0x100000

theorem qEsize_pos (e : Queue) : 0 < qEsize e := by unfold qEsize; positivity

theorem qEsize_whole (e : Queue) : qEsize e % 8 = 0 := by unfold qEsize; omega

theorem State.queueOperand.in_pond {s : State} {n a size : Nat} (h : s.queueOperand n a size) (h0 : 0 < size) :
    ¬(inAon n a = true ∨ 0x1000000 ≤ a ∨ a / 0x100000 ≠ (a + size - 1) / 0x100000) := by
  obtain ⟨haon, hon, hbank⟩ := h
  simp only [State.pondOn, Bool.and_eq_true, decide_eq_true_eq] at hon
  rintro (h | h | h)
  · rw [haon] at h; cases h
  · omega
  · exact h hbank

section
variable {c : Instr} {n : Nat} {s : State} {sm : BitVec 4} {x : BitVec 21} {right : Right}
  {move : State → Nat → Nat → State × Option Trap}
variable (hc : exec c s = run (·.queueInstr n sm x right move) s) (he : Executes n s) (hn : n < 17)
include hc he hn

theorem ends_queue_foreign (hq : s.queueOwner (s.xQueue n) ≠ s.coreOwner n) :
    Ends c s (Trapped n 7 (s.operandAt n sm.toNat x.toNat) false false s) := by
  refine ends_trapped he hn (by decide) hc rfl fun u hu _ => ⟨u, .refl n u, ?_⟩
  rw [← hu.operandAt]
  refine if_pos ?_
  rw [hu.completes.ctx, hu.queueOwner hn, hu.coreOwner hn]
  exact hq

variable (hq : s.queueOwner (s.xQueue n) = s.coreOwner n)
include hq

theorem ends_queue_off (hen : qEn (s.queue (s.xQueue n)) = false) :
    Ends c s fun t => Completes [] n s t ((s.ctx n).queueDone true) := by
  obtain ⟨t, ht, hd, -⟩ := ends_done (P := fun _ => True) (but := []) (regs := []) (d := (s.ctx n).queueDone true)
    he hn hc rfl fun u hu => by
      obtain ⟨v, hv, hd, -⟩ := qDone_done [] u n true
      refine ⟨v, hu.completes.ctx ▸ hd, ?_, fun _ _ _ _ => trivial⟩
      dsimp only
      unfold State.xQueue at *
      simp only [hu.completes.ctx, hu.queueOwner hn, hu.coreOwner hn, hu.queue, hq, hen, ne_eq, not_true_eq_false,
        Bool.not_false, if_false, if_true, hv]
  exact ⟨t, ht, hd.completes⟩

/-- A queue instruction whose checks pass. -/
theorem ends_queue_move {but : List Part} {d : Ctx} {P : State → Prop} (hen : qEn (s.queue (s.xQueue n)) = true)
    (ha : Admits ((s.ctx n).segAt sm.toNat) right (s.operandEo n sm.toNat x.toNat) (qEsize (s.queue (s.xQueue n))) 8)
    (hp : s.queueOperand n (s.operandAt n sm.toNat x.toNat) (qEsize (s.queue (s.xQueue n))))
    (hmove : ∀ u, Beside n s u → ∃ v, Done but [] n u v d ∧
      move u (s.xQueue n) (s.operandAt n sm.toNat x.toNat) = (v, none) ∧ ∀ y t, Beside n v y → Settling y t → P t) :
    Ends c s fun t => Completes but n s t d ∧ P t := by
  obtain ⟨t, ht, hd, hP⟩ := ends_done (P := P) (but := but) (regs := []) (d := d) he hn hc rfl fun u hu => by
    obtain ⟨v, hd, hv, hP⟩ := hmove u hu
    refine ⟨v, hd, ?_, hP⟩
    have hk := checkSeg_admits ha
    have hin := hp.in_pond (qEsize_pos _)
    dsimp only
    unfold State.operandAt State.operandEo at *
    unfold State.xQueue at *
    simp only [hu.completes.ctx, hu.queueOwner hn, hu.coreOwner hn, hu.queue, hq, hen, hk, hin, ne_eq,
      not_true_eq_false, Bool.not_true, Bool.false_eq_true, if_false, hv]
  exact ⟨t, ht, hd.completes, hP⟩

end

/-! ### What the instructions move (R376, R377) -/

/-- One entry stands where it was not, and the queue's record is changed. -/
def Moved (src dst size q : Nat) (e : Queue) (s t : State) : Prop :=
  (∀ b, t.byte b = if dst ≤ b ∧ b < dst + size then s.byte (src + (b - dst)) else s.byte b) ∧ t.queue q = e ∧
    ∀ k, k ≠ q → t.queue k = s.queue k

theorem operandAt_aligned {n k off : Nat} {s : State} (h : s.operandEo n k off % 8 = 0) :
    s.operandAt n k off % 8 = 0 := by
  unfold State.operandAt addrOf segBase
  omega

theorem qAddr_aligned {e : Queue} (h : e.base % 8 = 0) (p : BitVec 17) : qAddr e p % 8 = 0 := by
  have := qEsize_whole e
  unfold qAddr
  rw [Nat.add_mod, Nat.mul_mod, this, h]
  simp

theorem Moved.after {n src dst size q : Nat} {e : Queue} {s u v y t : State} (h : Moved src dst size q e u v)
    (hu : Beside n s u) (hy : Beside n v y) (ht : Settling y t) : Moved src dst size q e s t := by
  obtain ⟨hcopied, hqueue, hothers⟩ := h
  refine ⟨fun b => ?_, ?_, fun k hk => ?_⟩
  · rw [State.byte_congr ht.memory.1, hy.byte, hcopied, hu.byte, hu.byte]
  · rw [ht.queue, hy.queue, hqueue]
  · rw [ht.queue, hy.queue, hothers k hk, hu.queue]

/-- One entry is released to a core (R376, R614). -/
def Queue.advanced (e : Queue) : Queue := { e with
  head := e.head + 1, acked := e.acked + BitVec.ofNat 32 (qEsize e), sent := e.sent + BitVec.ofNat 32 (qEsize e) }

section
variable {n : Nat} {s : State} {q a : Nat}

/-- `qget` of an entry (R376). -/
theorem qgetMove_moves (hsome : s.qNothing q = false) (hon : s.pondOn a (qEsize (s.queue q)) = true) (ha : a % 8 = 0)
    (hue : NoUe (qAddr (s.queue q) (s.queue q).head) (qEsize (s.queue q)) s) :
    ∃ v, s.qgetMove n q a = (v, none) ∧ Done [.mem, .queues] [] n s v ((s.ctx n).queueDone false) ∧
      Moved (qAddr (s.queue q) (s.queue q).head) a (qEsize (s.queue q)) q (s.queue q).advanced s v := by
  obtain ⟨u, hu, hread⟩ := pondRead_good hue (queueCode n) 2
  obtain ⟨w, hw, hplaced, hwrite⟩ := pondWrite_whole u (bs := s.bytes (qAddr (s.queue q) (s.queue q).head)
    (qEsize (s.queue q))) ha (by rw [bytes_length]; exact qEsize_whole _) (by rw [bytes_length]; exact qEsize_pos _)
    (queueCode n) 2
  have honly : Only [.mem, .ecc] eccRegs [] s w := (hread.mono (by simp) (List.Subset.refl _)).trans hwrite
  have hqueue (k : Nat) : w.queue k = s.queue k := State.queue_congr (honly.kept .queues (by simp)) k
  obtain ⟨v, hv, hdone, hmem, hqueues⟩ := qDone_done [.mem, .queues] (w.qAdvance q) n false
  have hadv : Only [.mem, .ecc, .queues] eccRegs [] s (w.qAdvance q) := by
    rw [qAdvance_eq]
    exact (honly.mono (by simp) (List.Subset.refl _)).trans
      ((Only.setQueue _ _ _ _).mono (by simp) (List.Subset.refl _))
  have hsd := Done.of_access (but := [.mem, .queues]) (n := n) hadv (by simp) (by simp)
  refine ⟨v, ?_, hsd.trans (hsd.ctx ▸ hdone), fun b => ?_, ?_, fun k hk => ?_⟩
  · unfold State.qgetMove State.qRead
    simp only [hsome, hon, hu, hw, hv, Bool.false_eq_true, Bool.not_true, if_false]
  · rw [State.byte_congr hmem, qAdvance_eq]
    exact hplaced.copied (hread.kept .mem (by simp)) b
  · rw [State.queue_congr hqueues, qAdvance_eq, State.setQueue_queue, hqueue]
    rfl
  · rw [State.queue_congr hqueues, qAdvance_eq, State.setQueue_queue_ne _ _ hk, hqueue]

/-- `qput` of an entry (R376). -/
theorem qputMove_moves (hroom : s.qNoRoom q = false) (hon : s.pondOn a (qEsize (s.queue q)) = true)
    (hbase : (s.queue q).base % 8 = 0) (hue : NoUe a (qEsize (s.queue q)) s) :
    ∃ v, s.qputMove n q a = (v, none) ∧ Done [.mem, .queues] [] n s v ((s.ctx n).queueDone false) ∧
      Moved a (qAddr (s.queue q) (s.queue q).tail) (qEsize (s.queue q)) q
        { s.queue q with tail := (s.queue q).tail + 1 } s v := by
  obtain ⟨u, hu, hread⟩ := pondRead_good hue (queueCode n) 2
  have hu_queue : u.queue q = s.queue q := State.queue_congr (hread.kept .queues (by simp)) q
  obtain ⟨w, hw, hplaced, hwrite⟩ := pondWrite_whole u (a := qAddr (s.queue q) (s.queue q).tail)
    (bs := s.bytes a (qEsize (s.queue q))) (qAddr_aligned hbase _) (by rw [bytes_length]; exact qEsize_whole _)
    (by rw [bytes_length]; exact qEsize_pos _) (queueCode n) 2
  have honly : Only [.mem, .ecc] eccRegs [] s w := (hread.mono (by simp) (List.Subset.refl _)).trans hwrite
  have hput : (u.qPut (queueCode n) q (s.bytes a (qEsize (s.queue q)))).1 =
      w.setQueue q { s.queue q with tail := (s.queue q).tail + 1 } := by
    unfold State.qPut
    simp only [hu_queue, hw]
  obtain ⟨v, hv, hdone, hmem, hqueues⟩ :=
    qDone_done [.mem, .queues] (w.setQueue q { s.queue q with tail := (s.queue q).tail + 1 }) n false
  have hadv : Only [.mem, .ecc, .queues] eccRegs [] s (w.setQueue q { s.queue q with tail := (s.queue q).tail + 1 }) :=
    (honly.mono (by simp) (List.Subset.refl _)).trans ((Only.setQueue _ _ _ _).mono (by simp) (List.Subset.refl _))
  have hsd := Done.of_access (but := [.mem, .queues]) (n := n) hadv (by simp) (by simp)
  refine ⟨v, ?_, hsd.trans (hsd.ctx ▸ hdone), fun b => ?_, ?_, fun k hk => ?_⟩
  · unfold State.qputMove
    simp only [hroom, hon, hu, hput, hv, Bool.false_eq_true, Bool.not_true, if_false]
  · rw [State.byte_congr hmem]
    exact hplaced.copied (hread.kept .mem (by simp)) b
  · rw [State.queue_congr hqueues, State.setQueue_queue]
  · rw [State.queue_congr hqueues, State.setQueue_queue_ne _ _ hk, State.queue_congr (honly.kept .queues (by simp))]

/-- A full queue under drop counts the entry (R512, R513). -/
def Queue.dropped (e : Queue) : Queue :=
  if e.drop = 0xFFFF then { e with dropSat := true } else { e with drop := e.drop + 1 }

theorem qDrop_eq (h : s.qLive q (s.queue q) = true) : s.qDrop q = s.setQueue q (s.queue q).dropped := by
  unfold State.qDrop Queue.dropped
  simp only [h, Bool.not_true, Bool.false_eq_true, if_false]
  split <;> rfl

theorem qDrop_dead (h : s.qLive q (s.queue q) = false) : s.qDrop q = s := by
  unfold State.qDrop
  simp [h]

end

/-! ### O37 -/

/-- Settles O37: the checks come first, then the moves of `qgetMove_moves` and `qputMove_moves`. -/
theorem queueInstructionsMoveOneEntry : Obligations.QueueInstructionsMoveOneEntry := by
  intro n sm x s he c q e size d eo a next pond copied
  have hn := n.isLt
  have hget : exec (.qget n sm x) s = run (·.queueInstr n sm x .w fun s q a => s.qgetMove n q a) s := rfl
  have hput : exec (.qput n sm x) s = run (·.queueInstr n sm x .r fun s q a => s.qputMove n q a) s := rfl
  refine ⟨fun hq => ⟨ends_queue_foreign hget he hn hq, ends_queue_foreign hput he hn hq⟩,
    fun hq hen => ⟨ends_queue_off hget he hn hq hen, ends_queue_off hput he hn hq hen⟩, fun hq hen hp => ?_⟩
  have hon : s.pondOn a size = true := hp.2.1
  have setsC {i : Instr} {right : Right} {move : State → Nat → Nat → State × Option Trap}
      (hi : exec i s = run (·.queueInstr n sm x right move) s) (ha : Admits d right eo size 8)
      (hmove : ∀ u, Beside n s u → move u q a = u.qDone n true) :
      Ends i s fun t => Completes [] n s t (next true) := by
    obtain ⟨t, ht, hd, -⟩ := ends_queue_move (but := []) (d := next true) (P := fun _ => True) hi he hn hq hen ha hp
      fun u hu => by
        obtain ⟨v, hv, hd, -⟩ := qDone_done [] u n true
        rw [hu.completes.ctx] at hd
        exact ⟨v, hd, (hmove u hu).trans hv, fun _ _ _ _ => trivial⟩
    exact ⟨t, ht, hd⟩
  have moves {i : Instr} {right : Right} {move : State → Nat → Nat → State × Option Trap} {src dst : Nat} {e' : Queue}
      (hi : exec i s = run (·.queueInstr n sm x right move) s) (ha : Admits d right eo size 8)
      (hmove : ∀ u, Beside n s u → ∃ v, move u q a = (v, none) ∧
        Done [.mem, .queues] [] n u v ((u.ctx n).queueDone false) ∧ Moved src dst size q e' u v) :
      Ends i s fun t => copied src dst t ∧ t.queue q = e' ∧ (∀ k, k ≠ q → t.queue k = s.queue k) ∧
        Completes [.mem, .queues] n s t (next false) := by
    obtain ⟨t, ht, hd, hcopied, hqueue, hothers⟩ := ends_queue_move (but := [.mem, .queues]) (d := next false)
      (P := fun t => Moved src dst size q e' s t) hi he hn hq hen ha hp fun u hu => by
        obtain ⟨v, hv, hd, hm⟩ := hmove u hu
        rw [hu.completes.ctx] at hd
        exact ⟨v, hd, hv, fun y t hy ht => hm.after hu hy ht⟩
    exact ⟨t, ht, hcopied, hqueue, hothers, hd⟩
  refine ⟨fun ha => ⟨fun hlive hfill hheld => ?_, fun hnone => ?_⟩,
    fun ha => ⟨fun hlive hroom => ?_, fun hnone hkeep => ?_, fun hlive hfull hdrops => ?_⟩⟩
  · intro p _ hue
    refine moves (e' := e.advanced) hget ha fun u hu => ?_
    have := qgetMove_moves (n := n) (s := u) (q := q) (a := a)
      (by rw [hu.qNothing hn]; exact (qNothing_eq_false_iff s q).mpr ⟨hlive, hfill, hheld⟩)
      (by rw [hu.queue, hu.pondOn hn]; exact hon) (operandAt_aligned ha.2.2.1)
      (by rw [hu.queue]; exact fun w hw => hu.not_ue (hue w hw))
    rwa [hu.queue] at this
  · have hnothing : s.qNothing q = true := by
      by_contra h
      obtain ⟨hlive, hfill, hheld⟩ := (qNothing_eq_false_iff s q).mp (by simpa using h)
      rcases hnone with h | h | h
      · rw [hlive] at h; cases h
      · exact hfill h
      · exact h hheld
    exact setsC hget ha fun u hu => if_pos (by rw [hu.qNothing hn, hnothing])
  · intro p hbase hue
    refine moves (e' := { e with tail := e.tail + 1 }) hput ha fun u hu => ?_
    have hroom' : s.qNoRoom q = false := by
      by_contra h
      rcases (qNoRoom_iff s q).mp (by simpa using h) with h | h
      · rw [hlive] at h; cases h
      · exact hroom h
    have := qputMove_moves (n := n) (s := u) (q := q) (a := a) (by rw [hu.qNoRoom hn, hroom'])
      (by rw [hu.queue, hu.pondOn hn]; exact hon) (by rw [hu.queue]; exact hbase)
      (by rw [hu.queue]; exact fun w hw => hu.not_ue (hue w hw))
    rwa [hu.queue] at this
  · refine setsC hput ha fun u hu => ?_
    have hnoroom : u.qNoRoom q = true := by rw [hu.qNoRoom hn]; exact (qNoRoom_iff s q).mpr hnone
    refine (if_pos hnoroom).trans ?_
    rcases hkeep with h | h
    · rw [qDrop_dead (by rw [hu.queue, hu.qLive hn]; exact h), ite_self]
    · rw [if_neg (by rw [hu.queue]; exact ne_true_of_eq_false h)]
  · obtain ⟨t, ht, hd, hqueue, hothers⟩ := ends_queue_move (but := [.queues]) (d := next true)
      (P := fun t => t.queue q = e.dropped ∧ ∀ k, k ≠ q → t.queue k = s.queue k) hput he hn hq hen ha hp fun u hu => by
        have hset : Done [.queues] [] n u (u.setQueue q e.dropped) (u.ctx n) :=
          Done.of_access (b := [.queues]) (Only.setQueue _ _ _ _) (by simp) (by simp)
        obtain ⟨v, hv, hd, -, hqueues⟩ := qDone_done [.queues] (u.setQueue q e.dropped) n true
        rw [hset.ctx, hu.completes.ctx] at hd
        refine ⟨v, hset.trans hd, ?_, fun y t hy ht => ⟨?_, fun k hk => ?_⟩⟩
        · refine (if_pos (by rw [hu.qNoRoom hn]; exact (qNoRoom_iff s q).mpr (.inr hfull))).trans ?_
          rw [if_pos (by rw [hu.queue]; exact hdrops), qDrop_eq (by rw [hu.queue, hu.qLive hn]; exact hlive), hu.queue]
          exact hv
        · rw [ht.queue, hy.queue, State.queue_congr hqueues, State.setQueue_queue]
        · rw [ht.queue, hy.queue, State.queue_congr hqueues, State.setQueue_queue_ne _ _ hk, hu.queue]
    exact ⟨t, ht, hqueue, hothers, hd⟩

end Sys2Proof.Machine
end

section
/-!
PROOFS. `sld` and `wev`: the narrowed descriptor, the earliest wait event, and O38.
-/
namespace Sys2Proof.Machine

/-! ### `sld` (R362, R363) -/

/-- What a narrowed descriptor holds: rights whose bit is set are cleared, and MODE may be replaced. -/
theorem narrow_bits (d : BitVec 64) (x : BitVec 21) : ∀ b < 64, (narrow d x).getLsbD b =
    if b < 4 then d.getLsbD b && !(x.getLsbD (8 + b))
    else if (b = 4 ∨ b = 5) ∧ x.getLsbD 14 = true then x.getLsbD (8 + b) else d.getLsbD b := by
  intro b hb
  have hdrop : (BitVec.ofNat 64 ((x.toNat >>> 8) % 16)).getLsbD b = (decide (b < 4) && x.getLsbD (8 + b)) := by
    rw [BitVec.getLsbD_ofNat, show 16 = 2 ^ 4 from rfl, Nat.testBit_mod_two_pow, Nat.testBit_shiftRight]
    simp [hb, BitVec.testBit_toNat]
  have hmask : ∀ b < 64, (0x30 : BitVec 64).getLsbD b = decide (b = 4 ∨ b = 5) := by decide
  have hmode : (BitVec.ofNat 64 ((x.toNat >>> 12) % 4 * 16)).getLsbD b =
      (decide (b = 4 ∨ b = 5) && x.getLsbD (8 + b)) := by
    rw [BitVec.getLsbD_ofNat, show 16 = 2 ^ 4 from rfl, Nat.testBit_mul_two_pow, show 4 = 2 ^ 2 from rfl,
      Nat.testBit_mod_two_pow, Nat.testBit_shiftRight]
    by_cases h : b = 4 ∨ b = 5
    · rcases h with rfl | rfl <;> simp [BitVec.testBit_toNat]
    · have : ¬(4 ≤ b ∧ b - 4 < 2) := by omega
      simp [h, hb]
      omega
  unfold narrow
  dsimp only
  by_cases h14 : x.getLsbD 14 = true
  · rw [if_pos h14, BitVec.getLsbD_or, BitVec.getLsbD_and, BitVec.getLsbD_and, BitVec.getLsbD_not, BitVec.getLsbD_not,
      hdrop, hmask b hb, hmode]
    by_cases h4 : b < 4
    · have : ¬(b = 4 ∨ b = 5) := by omega
      simp [h4, this, hb]
    · by_cases h : b = 4 ∨ b = 5 <;> simp [h4, h, h14, hb]
  · rw [if_neg h14, BitVec.getLsbD_and, BitVec.getLsbD_not, hdrop]
    rw [if_neg (fun h => h14 h.2 : ¬((b = 4 ∨ b = 5) ∧ x.getLsbD 14 = true))]
    by_cases h4 : b < 4 <;> simp [h4, hb]

theorem sldLegal_iff {sm : BitVec 4} {x : BitVec 21} {handler : Bool} (hx : fieldOf (x.setWidth 32) 6 2 = 0)
    (hlt : x.toNat < 65536) :
    sldLegal sm x handler = true ↔ sm ≠ 15 ∧ (x.getLsbD 15 = true → handler = true) := by
  have h6 : (x.toNat >>> 6) % 4 = 0 := by
    have hw : (x.setWidth 32).toNat = x.toNat := by
      rw [BitVec.toNat_setWidth]; exact Nat.mod_eq_of_lt (by omega)
    simpa [fieldOf, hw] using hx
  have h16 : x.toNat >>> 16 = 0 := by rw [Nat.shiftRight_eq_div_pow]; omega
  unfold sldLegal
  simp only [h6, h16, and_self, and_true, Bool.and_eq_true, decide_eq_true_eq, Bool.or_eq_true]
  cases x.getLsbD 15 <;> simp

theorem RegsKept.book {n : Nat} {s t : State} (h : RegsKept (bookRegs n) s t) (hn : n < 17) {k : RegKind}
    (hk : k ∉ bookKinds) (h1 : k ≠ .PWR_STATUS) (h2 : k ≠ .QSUM) {i j : Nat} (hi : k.has i j) :
    t.reg k i j = s.reg k i j := h.reg k i j (not_mem_bookRegs hn hk hi) (not_settles hi h1 h2)

section
variable {n : Nat} {s u : State} (h : Beside n s u) (hn : n < 17)
include h hn

theorem Beside.segEntry {t k : Nat} (ht : t < 16) (hk : k < 64) : u.segEntry t k = s.segEntry t k := by
  have hr := h.completes.around.regs
  unfold State.segEntry
  rw [hr.book hn (k := .TEN_SEG_W1) (by decide) (by decide) (by decide) ⟨ht, hk⟩,
    hr.book hn (k := .TEN_SEG_W0) (by decide) (by decide) (by decide) ⟨ht, hk⟩]

theorem Beside.irqOf (e : Nat) : u.irqOf n e = s.irqOf n e := by
  have hr := h.completes.around.regs
  unfold State.irqOf
  rw [List.find?_congr fun i hi => ?_]
  have hlt : i < 8 := by
    revert i
    decide
  rw [hr.book hn (k := .CORE_IRQ_SRC) (by decide) (by decide) (by decide) ⟨hn, hlt⟩]

theorem Beside.waitEvent : u.waitEvent n = s.waitEvent n := by
  unfold State.waitEvent State.pendList
  rw [h.completes.around.kept .pend (by simp)]
  simp only [h.irqOf hn]

end

/-! ### `wev` (R378, R404) -/

theorem after_asymm {a b : Word} (h : after a b = true) : after b a = false := by
  simp only [after, decide_eq_true_eq, decide_eq_false_iff_not] at *
  bv_omega

theorem after_self (a : Word) : after a a = false := by simp [after]

theorem earliest_cons {l : List (Nat × Word)} {b : Nat × Word} (a : Nat × Word) (h : earliest l = some b) :
    earliest (a :: l) = some (earlier a b) := by
  unfold earliest
  rw [h]

/-- The event that every other follows is the earliest (R522). -/
theorem earliest_of_first {l : List (Nat × Word)} {p : Nat × Word} (hp : p ∈ l)
    (h : ∀ q ∈ l, q ≠ p → after q.2 p.2 = true ∨ (q.2 = p.2 ∧ p.1 < q.1)) : earliest l = some p := by
  have hfirst {q : Nat × Word} (hq : after q.2 p.2 = true ∨ (q.2 = p.2 ∧ p.1 < q.1)) :
      earlier q p = p ∧ earlier p q = p := by
    unfold earlier
    rcases hq with h | ⟨heq, hlt⟩
    · simp [h, after_asymm h]
    · simp [heq, after_self, hlt.le, hlt]
  induction l with
  | nil => cases hp
  | cons a l ih =>
    by_cases ha : a = p
    · subst ha
      cases he : earliest l with
      | none => rw [earliest_eq_none.mp he]; rfl
      | some b =>
        rw [earliest_cons a he]
        by_cases hb : b = a
        · simp [hb, earlier]
        · rw [(hfirst (h b (List.mem_cons_of_mem _ (mem_of_earliest he)) hb)).2]
    · have htail : earliest l = some p :=
        ih ((List.mem_cons.mp hp).resolve_left (Ne.symm ha)) fun q hq => h q (List.mem_cons_of_mem _ hq)
      rw [earliest_cons a htail, (hfirst (h a (by simp) ha)).1]

theorem takeEvent_eq (c : Ctx) (e : Nat) (y : Word) : c.takeEvent (e, y) = { c with
    a := BitVec.ofNat 32 e, y := y, f := flagsOf c.f false (c.f.getLsbD 1) (c.f.getLsbD 2) (c.f.getLsbD 3)
    pc := c.pc + 4 } := by
  rw [← putC_eq_flagsOf, (putC_eq_mask c.f).1]
  rfl

/-- The table entry that `sld` names (R363). -/
def State.sldEntry (s : State) (n : Nat) (x : BitVec 21) : BitVec 64 := s.segEntry (s.coreOwner n) (x.toNat % 64)

/-- An entry that `sld` loads. -/
def SldOk (n : Nat) (d : BitVec 64) : Prop := segValid d = true ∧ segWellFormed (decide (n = 16)) d = true

theorem Beside.sldEntry {n : Nat} {s u : State} (h : Beside n s u) (hn : n < 17) (x : BitVec 21) :
    u.sldEntry n x = s.sldEntry n x := by
  unfold State.sldEntry
  rw [h.coreOwner hn, h.segEntry hn (coreOwner_lt s n) (by omega)]

theorem SldOk.not_bad {n : Nat} {d : BitVec 64} (h : SldOk n d) :
    ¬((!(segValid d) || !(segWellFormed (decide (n = 16)) d)) = true) := by
  obtain ⟨hvalid, hform⟩ := h
  simp [hvalid, hform]

theorem sld_legal_beside {n : Nat} {s u : State} {sm : BitVec 4} {x : BitVec 21} (hu : Beside n s u)
    (hlegal : sldLegal sm x (s.core n).inHandler = true) : ¬((!(sldLegal sm x (u.core n).inHandler)) = true) := by
  rw [hu.core_kept.2.1, hlegal]
  decide

section
variable {n : Fin 17} {s : State} (he : Executes n s) {sm : BitVec 4} {x : BitVec 21}
include he

theorem ends_sld_illegal (hlegal : sldLegal sm x (s.core n).inHandler = false) :
    Ends (.sld n sm x) s (Trapped n 1 0 false false s) :=
  ends_illegal he n.isLt (g := (·.iSld n sm x)) rfl rfl fun u hu => if_pos (by rw [hu.core_kept.2.1, hlegal]; rfl)

variable (hlegal : sldLegal sm x (s.core n).inHandler = true)
include hlegal

theorem ends_sld_invalid (hok : ¬SldOk n (s.sldEntry n x)) : Ends (.sld n sm x) s (Trapped n 3 0 false false s) := by
  refine ends_trapped he n.isLt (by decide) (f := (·.iSld n sm x)) rfl rfl fun u hu _ => ⟨u, .refl n u, ?_⟩
  refine (if_neg (sld_legal_beside hu hlegal)).trans (if_pos ?_)
  rw [← hu.sldEntry n.isLt] at hok
  by_contra h
  simp only [Bool.or_eq_true, Bool.not_eq_true', not_or, Bool.not_eq_false] at h
  exact hok h

variable (hok : SldOk n (s.sldEntry n x))
include hok

/-- A load of a segment of the context that runs. -/
theorem ends_sld_own (h15 : x.getLsbD 15 = false) : Ends (.sld n sm x) s fun t =>
    Completes [] n s t { s.ctx n with
      pc := (s.ctx n).pc + 4, seg := (s.ctx n).seg.setIfInBounds sm.toNat (narrow (s.sldEntry n x) x) } := by
  refine ends_putCtx he n.isLt (g := (·.iSld n sm x)) rfl rfl fun u hu => ⟨u, .refl n u, ?_⟩
  rw [← hu.sldEntry n.isLt] at hok ⊢
  rw [← hu.completes.ctx]
  exact (if_neg (sld_legal_beside hu hlegal)).trans
    ((if_neg hok.not_bad).trans (if_neg (by rw [h15]; decide)))

/-- A load of a segment of MAIN from HANDLER. -/
theorem ends_sld_main (h15 : x.getLsbD 15 = true) (hin : (s.core n).inHandler = true) :
    Ends (.sld n sm x) s fun t =>
      ((t.core n).main = (s.core n).main.putSeg sm.toNat (narrow (s.sldEntry n x) x) ∧
        (t.core n).hand = (s.core n).hand.next ∧ (t.core n).inHandler = true ∧ (t.core n).st = .run) ∧
      Around [] n s t := by
  refine ends_core (P := fun k => k.main = (s.core n).main.putSeg sm.toNat (narrow (s.sldEntry n x) x) ∧
    k.hand = (s.core n).hand.next ∧ k.inHandler = true ∧ k.st = .run) he n.isLt (g := (·.iSld n sm x)) rfl rfl
    fun u hu => ?_
  obtain ⟨hst, hin', hmain, hhand⟩ := hu.core_kept
  rw [← hu.sldEntry n.isLt] at hok ⊢
  refine ⟨u.setCore n { u.core n with
    main := (u.core n).main.putSeg sm.toNat (narrow (u.sldEntry n x) x), hand := (u.core n).hand.next },
    .setCore n u _, ?_, (if_neg (sld_legal_beside hu hlegal)).trans ((if_neg hok.not_bad).trans (if_pos h15))⟩
  rw [State.setCore_core]
  exact ⟨by rw [hmain], by rw [hhand], hin'.trans hin, hst.trans he.run⟩

end

section
variable {n : Fin 17} {s : State} (he : Executes n s)
include he

/-- `wev` takes the earliest wait event. -/
theorem ends_wev_event {e : Nat} {y : Word} {x : BitVec 21} (hx : x.toNat < 2) (hev : s.waitEvent n = some (e, y)) :
    Ends (.wev n 0 x) s fun t =>
      (∀ j, tabGet (fun _ => none) t.pend j = if j = n * 1024 + e then none else tabGet (fun _ => none) s.pend j) ∧
      Completes [.pend] n s t ((s.ctx n).takeEvent (e, y)) := by
  have hg : s.iWev n 0 x = s.instr n 6 instrPulse fun s => s.wevBody n 0 x := if_neg (by simp [hev])
  obtain ⟨t, ht, hd, hpend⟩ := ends_done (P := fun t => ∀ j, tabGet (fun _ => none) t.pend j =
      if j = n * 1024 + e then none else tabGet (fun _ => none) s.pend j) (but := [.pend]) (regs := [])
    (d := (s.ctx n).takeEvent (e, y)) he n.isLt (c := .wev n 0 x) (f := (·.iWev n 0 x)) rfl hg fun u hu => by
      have hdrop : Done [.pend] [] n u (u.dropPend n e) (u.ctx n) :=
        ⟨fun p hp => by cases p <;> simp_all [Part.same, State.dropPend], RegsKept.of_eq rfl _, fun _ _ => rfl,
          .of_eq rfl, rfl⟩
      have hperf := Beside.perf ((u.dropPend n e).putCtx n ((s.ctx n).takeEvent (e, y))) n [(16, 1)] 0
      refine ⟨_, (hdrop.trans (done_putCtx _ _ _ _ _)).beside hperf, ?_, fun z t hz ht j => ?_⟩
      · unfold State.wevBody
        simp only [hu.waitEvent n.isLt, hev, hu.completes.ctx, hx, and_self, not_true_eq_false, if_false]
      · have hpu : u.pend = s.pend := hu.completes.around.kept .pend (by simp)
        have hpt : t.pend = (u.dropPend n e).pend := (ht.1 .pend (by simp)).trans
          ((hz.completes.around.kept .pend (by simp)).trans (hperf.completes.around.kept .pend (by simp)))
        rw [hpt, tabGet_dropPend, hpu]
  exact ⟨t, ht, hpend, hd.completes⟩

variable (hev : s.waitEvent n = none)
include hev

theorem ends_wev_poll : Ends (.wev n 0 1) s fun t =>
    Completes [] n s t ({ s.ctx n with f := putC (s.ctx n).f true } : Ctx).next := by
  refine ends_putCtx he n.isLt (g := (·.iWev n 0 1)) rfl (if_neg (by simp)) fun u hu => ⟨u, .refl n u, ?_⟩
  unfold State.wevBody
  simp [hu.waitEvent n.isLt, hev, hu.completes.ctx]

theorem ends_wev_wait : Ends (.wev n 0 0) s fun t =>
    ((t.core n).st = .wait ∧ (t.core n).inHandler = (s.core n).inHandler ∧ (t.core n).main = (s.core n).main ∧
      (t.core n).hand = (s.core n).hand) ∧ Around [] n s t := by
  refine ends_core (P := fun k => k.st = .wait ∧ k.inHandler = (s.core n).inHandler ∧ k.main = (s.core n).main ∧
    k.hand = (s.core n).hand) he n.isLt (g := (·.iWev n 0 0)) rfl (if_pos ⟨rfl, rfl, hev⟩) fun u hu => ?_
  obtain ⟨-, hin, hmain, hhand⟩ := hu.core_kept
  have hlevels := (Ticks.levels (n := n) (u.setCore n { u.core n with st := .wait })).beside
  obtain ⟨hst', hin', hmain', hhand'⟩ := hlevels.core_kept
  refine ⟨_, (Around.setCore n u _).trans hlevels.completes.around, ?_, rfl⟩
  rw [hst', hin', hmain', hhand', State.setCore_core]
  exact ⟨rfl, hin, hmain, hhand⟩

end

/-! ### O38 -/

/-- Settles O38. -/
theorem segmentLoadsAndEventWaits : Obligations.SegmentLoadsAndEventWaits := by
  intro n s he c k withC
  refine ⟨fun sm x hsm hx hlt => ?_, fun e y hmem hirq hfirst x hx => ?_, fun hnone => ?_⟩
  · intro d ok narrowed
    have legal {b : Bool} (h : x.getLsbD 15 = true → b = true) : sldLegal sm x b = true :=
      (sldLegal_iff hx hlt).mpr ⟨hsm, h⟩
    refine ⟨fun hok h15 => ⟨narrow d x, narrow_bits d x,
        ends_sld_own he (legal fun h => by rw [h15] at h; cases h) hok h15⟩,
      fun hok h15 hin => ⟨narrow d x, narrow_bits d x, ?_⟩, fun hok hin => ends_sld_invalid he (legal hin) hok,
      fun h15 hin => ends_sld_illegal he ?_, ends_sld_illegal he ?_⟩
    · obtain ⟨t, ht, ⟨hmain, hhand, hin', hst⟩, har⟩ := ends_sld_main he (legal fun _ => hin) hok h15 hin
      exact ⟨t, ht, hmain, hhand, hin', hst, har⟩
    · rw [hin, ← Bool.not_eq_true, sldLegal_iff hx hlt]
      simp [h15]
    · rw [← Bool.not_eq_true, sldLegal_iff hx hlt]
      simp
  · have hev : s.waitEvent n = some (e, y) := by
      refine earliest_of_first (List.mem_filter.mpr ⟨hmem, by simp [hirq]⟩) fun q hq hne => ?_
      obtain ⟨hq, hnone⟩ := List.mem_filter.mp hq
      exact hfirst q hq hne (Option.isNone_iff_eq_none.mp hnone)
    have := ends_wev_event he hx hev
    rwa [takeEvent_eq] at this
  · have hev : s.waitEvent n = none := by
      refine earliest_eq_none.mpr (List.filter_eq_nil_iff.mpr fun p hp => ?_)
      rw [Option.isNone_iff_eq_none, ← Option.not_isSome_iff_eq_none, hnone p hp]
      decide
    refine ⟨?_, ?_⟩
    · have := ends_wev_poll he hev
      rwa [putC_eq_flagsOf] at this
    · obtain ⟨t, ht, ⟨hst, hin, hmain, hhand⟩, har⟩ := ends_wev_wait he hev
      refine ⟨t, ht, hst, ?_, hin, ?_, har⟩
      · unfold State.ctx Core.ctx
        rw [hin, hmain, hhand]
        rfl
      · unfold Core.otherCtx
        rw [hin, hmain, hhand]

end Sys2Proof.Machine
end

section
/-!
PROOFS. The refutation of O40. Its clause for ICACHE_LOAD_DONE lists no events among what may change, but the logic that
follows every command may raise one: at a state whose PWR_STATUS.ALLOWED is not what the budgets give (R659), such as
that of reset (R688), event 792 is raised, and held while the router does not run (R860).
-/
namespace Sys2Proof.Machine

/-- The state of reset, with a load of one line running at the eft. -/
def resetLoading : State := State.reset.setCore 16 { State.reset.core 16 with load := some ⟨0, 1, 0, 0⟩ }

theorem resetLoading_loadDone_held : (resetLoading.loadDone 16).settle.held = [792] := by decide +kernel

/-- Refutes O40: after ICACHE_LOAD_DONE in `resetLoading`, ALLOWED has changed and event 792 is held, so that the part
`events`, which the clause keeps, is not as it was. -/
theorem not_restartAndCacheCommands : ¬ Obligations.RestartAndCacheCommands := by
  intro h
  obtain ⟨-, -, -, hload, -⟩ := h .jtag 16 0 resetLoading
  obtain ⟨t, ht, -, -, -, -, hkept, -⟩ := hload ⟨0, 1, 0, 0⟩ rfl (by decide) (by decide) (by decide +kernel) (.inl rfl)
  have hrun : exec (.icacheLoadDone 16) resetLoading =
      .next { (resetLoading.loadDone 16).settle with pending := resetLoading.pending } := rfl
  rw [hrun] at ht
  cases ht
  obtain ⟨-, hheld⟩ := hkept .events (by decide)
  exact absurd (resetLoading_loadDone_held.symm.trans hheld) (by decide)

end Sys2Proof.Machine
end
